-- ==== Sys2Proof/Word.lean ====
section
/-! DEFINITION. The word types of the device: host register words, lane data words and bytes. -/
namespace Sys2Proof

/-- A host register or payload word (00 R12: 32 bits). -/
abbrev W32 := BitVec 32
/-- A native data word of the lanes, Q1.19 (00 R10: 20 bits). -/
abbrev W20 := BitVec 20
/-- A byte of DRAM. -/
abbrev Byte := BitVec 8
/-- A host access slot S0 to S7 (00 Table 0.5). -/
abbrev Stall := Fin 8
/-- An axis AX00 to AX15 (00 Table 0.5). -/
abbrev AxisNo := Fin 16
/-- A half-bridge leg L00 to L47 (00 Table 0.5). -/
abbrev LegNo := Fin 48
/-- A lane LN00 to LN17 (00 Table 0.5). -/
abbrev LaneNo := Fin 18

end Sys2Proof
end

