-- ==== Sys2Proof/Inputs.lean ====
section
/-! DEFINITION. Types of the commands' operands: what the board, the buses and the device's own sensors tell the block
with a command. -/
namespace Sys2Proof

/-- An internal rail that comes up in the order of 01 Table 1.5 before the gate supplies VGDA and VGDB. -/
inductive Rail where
  | vhk | vio33 | vio18 | vcore | vser | vddq | vana
  deriving DecidableEq, Repr

/-- A monitored supply of 01 Table 1.4. -/
inductive Supply where
  /-- VMAIN against its 10.5 V warning threshold (FS010). -/
  | vmainWarn
  /-- VMAIN against its over-voltage threshold of 14.0 V (FS019). -/
  | vmainOver
  /-- VMAIN against its rising threshold of 10.2 V and UVLO of 9.8 V. -/
  | vmain
  /-- V24A (FS011). -/
  | v24a
  /-- V24B (FS012). -/
  | v24b
  /-- VDDR (FS013). -/
  | vddr
  /-- VGDA (FS016). -/
  | vgda
  /-- VGDB (FS017). -/
  | vgdb
  /-- An internal rail against its tolerance (FS015). -/
  | rail (r : Rail)
  deriving DecidableEq, Repr

/-- What the start-up self-measurement of 14 R548 found. -/
structure StartUpMeasurement where
  /-- Temperature (°C) and timing margin (0.01 %) of the four dies. -/
  dies : List (Int × Int)
  /-- Driver strength of each leg, per mille of nominal. -/
  strength : List Nat
  /-- Converters whose reference check failed. -/
  badConverters : List Nat
  deriving DecidableEq, Repr

/-- What the converters of an encoder-interface group bring up to an instant (07 R243, R246). -/
inductive AnalogData where
  /-- A sin/cos source: the pairs (sine, cosine) sampled at 8 MS/s since the tick boundary before, the pair after the
  instant, and the clocks from the last pair to the instant, of the 64 between two pairs. -/
  | pairs (ps : List (BitVec 16 × BitVec 16)) (next : BitVec 16 × BitVec 16) (lag : Fin 64)
  /-- A resolver: of the sine and of the cosine winding, the components in phase with the excitation and in quadrature to it
  over the excitation period that ends at the instant. -/
  | demod (s c : BitVec 16 × BitVec 16)
  deriving DecidableEq, Repr

/-- What a sin/cos or resolver source brings to a tick boundary. -/
structure AnalogSample where
  src : Fin 16
  data : AnalogData
  deriving DecidableEq, Repr

/-- What a serial encoder answered (07 R247, R248). -/
inductive SerialReply where
  /-- An SSI frame: the data line high before the frame, an acknowledge, the line high within WAIT, and the bits read,
  the first at the most significant place. -/
  | ssi (highBefore ack highAfter : Bool) (bits : Nat)
  /-- The characters of a request/response reply, and whether every stop bit was 1. -/
  | chars (stopsOk : Bool) (cs : List (BitVec 8))
  deriving DecidableEq, Repr

/-- What the converters and the front ends bring to a tick boundary: per leg the 16-bit samples of the interval that
closes, in order (10 R372); in Q1.19 the averaged results of the auxiliary converters by converter
number, and of VBUSA0 to VBUSB3 as numbers 96 to 103; the samples of the sin/cos and resolver sources; the last bootstrap
sample of a leg in mV (08 R277); and the last raw sample of the 32 field inputs. -/
structure TickInputs where
  legs : List (Nat × List Int)
  aux : List (Nat × Int)
  analog : List AnalogSample
  bst : List (Nat × Nat)
  inRaw : W32
  deriving DecidableEq, Repr

/-- A tick boundary that brings nothing: no sample of any kind. -/
def TickInputs.none : TickInputs := ⟨[], [], [], [], 0⟩

/-- The header of an Atnal frame (11 Table 11.2). -/
structure RingHdr where
  hops : Nat
  fragIdx : Nat
  fragCntM1 : Nat
  looped : Bool
  origin : BitVec 10
  addrValid : Bool
  gmPrio : BitVec 8
  timeQual : BitVec 2
  leaving : Bool
  restore : Bool
  loopA : Bool
  loopB : Bool
  cycleNo : W32
  tickClks : BitVec 15
  cycleTicks : BitVec 11
  stepId : BitVec 16
  linkDelay : BitVec 16
  nonce : W32
  deriving DecidableEq, Repr

/-- An acyclic message or a fragment of one (11 R429). -/
structure AcycMsg where
  dst : BitVec 10
  src : BitVec 10
  hopAddr : Bool
  srcUnset : Bool
  kind : BitVec 4
  code : BitVec 4
  epoch : BitVec 16
  trans : BitVec 16
  frag : BitVec 8
  last : Bool
  stall : BitVec 3
  data : List W32
  deriving DecidableEq, Repr

/-- The check sequence of a received frame (11 R410): right, wrong, or the inverted one with which a device before this one
marked the frame as bad. -/
inductive Fcs where
  | good | bad | inverted
  deriving DecidableEq, Repr

/-- A cycle frame (11 R409, R416 to R418): its EtherType, its header and its sections: master records of six words each, trigger events of
six words each, safety telegrams as bytes, the time-step section, the acyclic messages, and the bytes of the acyclic section,
messages and zero fill together. -/
structure RingFrame where
  etherType : BitVec 16
  hdr : RingHdr
  masters : List (List W32)
  triggers : List (List W32)
  safety : List (List Byte)
  timeStep : Option (List W32)
  acyclic : List AcycMsg
  reserve : Nat
  deriving DecidableEq, Repr

/-- A CAN frame (12 R455): identifier and format, data bytes. -/
structure CanFrame where
  ide : Bool
  id : BitVec 29
  fdf : Bool
  brs : Bool
  esi : Bool
  remote : Bool
  data : List Byte
  deriving DecidableEq, Repr

/-- How a transmission attempt ended (12 R459, R464, R470). -/
inductive CanTxResult where
  /-- The frame was sent and acknowledged. -/
  | sent
  /-- Arbitration was lost to the given identifier. -/
  | lostArb (id : BitVec 29)
  /-- No acknowledge came. -/
  | ackError
  /-- Another error: bit, stuff, form or CRC. -/
  | error
  deriving DecidableEq, Repr

/-- What a safety channel sees in one check cycle (15 R569, R585, R587, R588): whether the partner's exchange arrived in
time, the readback levels of the eight
OSSD outputs (0A, 0B, 1A, …) and, per SLS monitor, the position this channel reads: 2^-20 turn in channel A, raw counts in
channel B; none where it cannot measure. -/
structure CheckInputs where
  exchange : Bool
  read : BitVec 8
  pos : List (Option Int)
  deriving DecidableEq, Repr

/-- How a lane's self-test ends (14 R534): a pass, a failure of its logic or memories, or a program memory that does not match
the CRC of every installed image. -/
inductive LaneTest where
  | pass
  | failed
  | imageBad
  deriving DecidableEq, Repr

/-- One parallel load of a format M instruction (05 R150): enabled, D register, address register, post-modification. -/
structure ParLoad where
  en : Bool
  d : Fin 16
  a : Fin 8
  p : Fin 4
  deriving DecidableEq, Repr

/-- What an INTERRUPT_REGISTER_WRITE writes (03 R104): IRQ_STATUS, IRQ_ENABLE, or the mask bit of an MSI-X vector. -/
inductive IrqTarget where
  | status
  | enable
  | msixMask (vector : Fin 16)
  deriving DecidableEq, Repr

/-- How a DMA descriptor's transfer ended (10 R392, R394): all COUNT bytes, or an error of Table 10.6 after some bytes;
with the bytes read from host memory where the source lies there. -/
inductive DmaOutcome where
  | done (hostData : List Byte)
  | failed (err : Fin 3) (moved : Nat) (hostData : List Byte)
  deriving DecidableEq, Repr

/-- What a power-stage measurement found for one leg (14 R549): delays in ns and on-resistances in µΩ of the high and
the low switch, bootstrap capacitance in nF, leakage in µA, and the charged bootstrap voltage in mV. -/
structure LegMeasure where
  tdonHi : Nat
  tdoffHi : Nat
  tdonLo : Nat
  tdoffLo : Nat
  ronHi : Nat
  ronLo : Nat
  cbstNf : Nat
  ileakUa : Nat
  vbstMv : Nat
  deriving DecidableEq, Repr

/-! ## Operands that carry more than one thing -/

/-- An operand with the instant of its row within the tick. -/
structure Timed (α : Type) where
  val : α
  at_ : Nat
  deriving DecidableEq, Repr

/-- An edge: for how many samples the new level has held, and its instant within the tick. -/
structure EdgeAt where
  held : Nat
  at_ : Nat
  deriving DecidableEq, Repr

/-- A level and for how many samples it has held. -/
structure HeldLevel where
  level : Bool
  held : Nat
  deriving DecidableEq, Repr

/-- An operand of a row that may read DRAM, and whether ECC finds an uncorrectable error there. -/
structure EccRead (α : Type) where
  val : α
  eccBad : Bool
  deriving DecidableEq, Repr

/-- A message of a time domain (11 R437). -/
structure InDomain (α : Type) where
  domain : BitVec 7
  val : α
  deriving DecidableEq, Repr

/-- A Sync message: its domain, origin time stamp, instant of arrival within the tick and residence time so far. -/
structure SyncMsg where
  domain : BitVec 7
  origin : Int
  at_ : Nat
  residence : Nat
  deriving DecidableEq, Repr

/-- MSI-X enable and Function Mask (03 R104). -/
structure MsixControl where
  en : Bool
  funcMask : Bool
  deriving DecidableEq, Repr

/-- A configuration read: the time since the release of PCIe's reset in ms, and the register. -/
structure ConfigRead where
  ageMs : Nat
  reg : BitVec 10
  deriving DecidableEq, Repr

/-- A ring port that loses its partner: which, with the lock and fault state of its receiver. -/
structure PortLoss where
  portB : Bool
  lock : Bool
  rfault : Bool
  deriving DecidableEq, Repr

/-- How a CAN transmission ended, and when, in lane clocks from the start of the tick. -/
structure CanTxStop where
  r : CanTxResult
  at_ : Int
  deriving DecidableEq, Repr

end Sys2Proof
end

