-- ==== Sys2Proof/Syntax.lean ====
section
/-! DEFINITION. The commands of the block: one constructor per row of the opcode table, in the order of the table. A
mailbox command is named by its stall and its tag; an event carries what the board, a bus or the device's own sensors
bring with it. at_ is the instant after the last tick boundary, in feedback samples of two lane clocks. -/
namespace Sys2Proof

/-- The commands (spec/opcode_table.json). -/
inductive Instr where
  /-- POWER_UP_START (R27): At instant t0, the latest of VMAIN reaching 10.2 V, VDDR becoming OK and PORST_N going
  high, the sequencer starts and the rails begin to rise in order. -/
  | powerUpStart
  /-- INTERNAL_RESET_RELEASE (R27): Once all rails are up, internal reset is released and MP0 and MP1 boot from MRAM. -/
  | internalResetRelease (aOk bOk : Bool)
  /-- START_UP_COMPLETE (R27): Start-up self-measurement completes, DEV_READY is set and the mailboxes accept
  commands. -/
  | startUpComplete (m : StartUpMeasurement)
  /-- PCIE_CONFIG_REQUEST (R28): A configuration request that arrives less than 100 ms after link start is answered
  with Configuration Request Retry Status. -/
  | pcieConfigRequest (req : ConfigRead)
  /-- SUPPLY_FALLING (R22): A monitored supply stays beyond its falling threshold for the filter time, and its fault
  source fires. -/
  | supplyFalling (r : Supply)
  /-- SUPPLY_RECOVERED (R22): A supply stays above its rising threshold for the filter time and counts as OK again. -/
  | supplyRecovered (r : Supply)
  /-- VBAT_CHECK (R22): Once per second while VMAIN is present, VBAT is checked against 2.0 V and FS014 may fire. -/
  | vbatCheck (ok : Bool)
  /-- V24B_LOSS (R25): V24B falls below 18.0 V, and the gate supply of every leg is removed within 20 µs regardless of
  the control die. -/
  | v24bLoss
  /-- VMAIN_UVLO (R29): VMAIN falls through 9.8 V for 2 µs and the power-down sequence starts; every leg is commanded
  off within 0.2 µs. -/
  | vmainUvlo
  /-- BYPASS_CLOSE (R39): The hold-open drive is released and the by-pass closes within 1 µs, joining RGA to RGB. -/
  | bypassClose
  /-- POWER_LOSS_RECORD (R29): Once MRAM writes in progress have completed, the power-loss record is written to the
  ledger. -/
  | powerLossRecord
  /-- RAILS_OFF (R29): At 100 µs the rails go off in reverse start order, and outputs reach their unpowered states. -/
  | railsOff
  /-- VKA_TO_VBAT (R29): VMAIN falls below 8.0 V and VKA continues from VBAT. -/
  | vkaToVbat
  /-- SAFETY_B_SHUTDOWN (R29): At 1 ms after t1, safety channel B alone switches the OSSDs off and stops. -/
  | safetyBShutdown
  /-- PORST_ASSERT (R31): PORST_N held low for at least 10 µs resets the device, taking effect as the power-down rows
  from 0.2 µs to 60 µs without removing rails. -/
  | porstAssert
  /-- PORST_RELEASE (R31): The rising edge of PORST_N leads to continuation from the internal reset release row 0.5 ms
  later, with RESET_CAUSE.PORST set. -/
  | porstRelease
  /-- HRST_ASSERT (R32): HRST_N low for at least 1 µs resets the PCIe endpoint, SPH and stalls S0 and S1, and vacates
  ownership held by them. -/
  | hrstAssert
  /-- STANDBY_ENTRY (R34): 1 ms after an accepted StandbyEnter response, the device runs the power-down rows from 1 µs
  onward and stays in standby. -/
  | standbyEntry
  /-- KA_WAKE_PIN (R35): KA_WAKE_N held low for 1 ms ends command standby if enabled, or records PIN_UNPOWERED while
  VMAIN is absent. -/
  | kaWakePin
  /-- KA_ALARM_EXPIRY (R35): The standby alarm time elapses with ALARM_EN set and the device powers up with WAKE
  cause. -/
  | kaAlarmExpiry
  /-- KA_CONTENTS_LOST (R37): VKA falls below the retention level and the keep-alive contents count as lost as a
  whole. -/
  | kaContentsLost
  /-- KA_CRYSTAL_TIMEOUT (R38): No crystal oscillation is detected within 2 s, so the KA counter runs from the RC
  oscillator and FS018 fires at the next start. -/
  | kaCrystalTimeout
  /-- DEVICE_RESET_PULSE (R45): 1 ms after an accepted DeviceReset response, the device acts as for a 10 µs PORST_N
  pulse with RESET_CAUSE.DEV_RESET. -/
  | deviceResetPulse
  /-- STANDBY_ENTER (R43): Command StandbyEnter (0x040) is checked and accepted for entry into standby with optional
  pin and alarm wake. -/
  | standbyEnter (st : Stall) (tag : BitVec 8)
  /-- KEEP_ALIVE_WRITE (R44): Command KeepAliveWrite (0x041) stores one retention word. -/
  | keepAliveWrite (st : Stall) (tag : BitVec 8)
  /-- DEVICE_RESET (R45): Command DeviceReset (0x042) with the key 0x0000_5EED schedules a device reset. -/
  | deviceReset (st : Stall) (tag : BitVec 8)
  /-- RESERVED_COMMAND_CODE (R7): A command with a reserved or unassigned code is answered UNKNOWN and nothing is
  executed. -/
  | reservedCommandCode (st : Stall) (header : W32)
  /-- TICK_BOUNDARY (R47): At Tn the converters close their interval, feedback is sampled, staged PWM sets are applied
  and every in-service lane begins entry. -/
  | tickBoundary (inp : TickInputs)
  /-- TICK_SYNC_LOCKED (R54): Phase error within ±8 ns for 16 consecutive network cycles moves the tick generator to
  LOCKED. -/
  | tickSyncLocked
  /-- TICK_HOLDOVER_TIMEOUT (R54): Holdover longer than 10 s returns the tick generator to FREE and fires FS032. -/
  | tickHoldoverTimeout
  /-- TICKSET_EPOCH (R66): At the epoch of a pending TickSet, tick number 0 begins, TICK_CONFIG and BUDGET_LIMIT
  change and TICK_SKIP and AXIS_PEAK clear. -/
  | ticksetEpoch
  /-- LANE_OVERRUN (R61): A lane has not begun commit at the execution deadline, so its outputs are discarded, FS030
  fires and the spare takes the axis. -/
  | laneOverrun (ln : LaneNo)
  /-- LANE_COMMIT (R138): A lane writes its state into the other slot and switches the committed slot, after which far
  stores and OUT are handed on. -/
  | laneCommit (ln : LaneNo) (cycles : Nat)
  /-- STAGING_HANDOVER (R47): At L − 16 the staging sets of all axes are handed to the timer array. -/
  | stagingHandover
  /-- EVENT_ENTRY (R158): A pending fault or motion event is taken at an instruction boundary that is not held off,
  and its handler runs on shadow registers. -/
  | eventEntry (ln : LaneNo)
  /-- NOP (R152): Lane instruction NOP: no operation. -/
  | nop (ln : LaneNo)
  /-- MOV (R152): Lane instruction MOV copies a data register. -/
  | mov (ln : LaneNo) (rd ra : Fin 16)
  /-- LDI (R152): Lane instruction LDI loads an immediate into a data register. -/
  | ldi (ln : LaneNo) (rd : Fin 16) (imm : BitVec 20)
  /-- LD (R152): Lane instruction LD loads from local memory with post-modification. -/
  | ld (ln : LaneNo) (rd : Fin 16) (k : Fin 8) (p : Fin 4)
  /-- LDO (R152): Lane instruction LDO loads from local memory at an address register plus offset. -/
  | ldo (ln : LaneNo) (rd : Fin 16) (k : Fin 8) (ofs : BitVec 16)
  /-- LDA (R152): Lane instruction LDA loads from an absolute local-memory address. -/
  | lda (ln : LaneNo) (rd : Fin 16) (addr : BitVec 12)
  /-- ST (R152): Lane instruction ST stores to local memory with post-modification. -/
  | st (ln : LaneNo) (ra : Fin 16) (k : Fin 8) (p : Fin 4)
  /-- STO (R152): Lane instruction STO stores to local memory at an address register plus offset. -/
  | sto (ln : LaneNo) (ra : Fin 16) (k : Fin 8) (ofs : BitVec 16)
  /-- STA (R152): Lane instruction STA stores to an absolute local-memory address. -/
  | sta (ln : LaneNo) (ra : Fin 16) (addr : BitVec 12)
  /-- FLD (R148): Lane instruction FLD loads a far word of the user far area in 10 clocks, seeing buffered stores of
  the same tick. -/
  | fld (ln : LaneNo) (rd : Fin 16) (k : Fin 8) (ofs : BitVec 16)
  /-- FST (R148): Lane instruction FST buffers a far store for writing after the commit point. -/
  | fst (ln : LaneNo) (ra : Fin 16) (k : Fin 8) (ofs : BitVec 16)
  /-- LAI (R152): Lane instruction LAI loads an address register with an immediate. -/
  | lai (ln : LaneNo) (k : Fin 8) (imm : BitVec 16)
  /-- LMI (R152): Lane instruction LMI loads a modifier register with LEN and STRIDE. -/
  | lmi (ln : LaneNo) (k : Fin 8) (len stride : BitVec 12)
  /-- MAD (R152): Lane instruction MAD loads an address register from a data register. -/
  | mad (ln : LaneNo) (k : Fin 8) (ra : Fin 16)
  /-- ADD (R152): Lane instruction ADD adds two data registers. -/
  | add (ln : LaneNo) (sat : Bool) (rd ra rb : Fin 16)
  /-- SUB (R152): Lane instruction SUB subtracts two data registers. -/
  | sub (ln : LaneNo) (sat : Bool) (rd ra rb : Fin 16)
  /-- ADDI (R152): Lane instruction ADDI adds an immediate to a data register. -/
  | addi (ln : LaneNo) (sat : Bool) (rd ra : Fin 16) (imm : BitVec 20)
  /-- NEG (R152): Lane instruction NEG negates a data register. -/
  | neg (ln : LaneNo) (sat : Bool) (rd ra : Fin 16)
  /-- ABS (R152): Lane instruction ABS takes an absolute value. -/
  | abs (ln : LaneNo) (sat : Bool) (rd ra : Fin 16)
  /-- MIN (R152): Lane instruction MIN takes the minimum of two data registers. -/
  | min (ln : LaneNo) (rd ra rb : Fin 16)
  /-- MAX (R152): Lane instruction MAX takes the maximum of two data registers. -/
  | max (ln : LaneNo) (rd ra rb : Fin 16)
  /-- LIM (R152): Lane instruction LIM clamps a value to ±abs of another and sets L. -/
  | lim (ln : LaneNo) (rd ra rb : Fin 16)
  /-- AND (R152): Lane instruction AND: bitwise AND. -/
  | and (ln : LaneNo) (rd ra rb : Fin 16)
  /-- OR (R152): Lane instruction OR: bitwise OR. -/
  | or (ln : LaneNo) (rd ra rb : Fin 16)
  /-- XOR (R152): Lane instruction XOR: bitwise XOR. -/
  | xor (ln : LaneNo) (rd ra rb : Fin 16)
  /-- SHL (R152): Lane instruction SHL: arithmetic shift left. -/
  | shl (ln : LaneNo) (sat : Bool) (rd ra : Fin 16) (n : Fin 32)
  /-- SHR (R152): Lane instruction SHR: arithmetic shift right, truncating. -/
  | shr (ln : LaneNo) (rd ra : Fin 16) (n : Fin 32)
  /-- MUL (R152): Lane instruction MUL forms a rounded Q1.19 product. -/
  | mul (ln : LaneNo) (sat : Bool) (rd ra rb : Fin 16)
  /-- SELCC (R152): Lane instruction SELcc selects one of two registers by a condition code. -/
  | selcc (ln : LaneNo) (cc : Fin 16) (rd ra rb : Fin 16)
  /-- MPY (R152): Lane instruction MPY multiplies into an accumulator, with parallel loads. -/
  | mpy (ln : LaneNo) (sat : Bool) (ac : Fin 4) (dx dy : Fin 16) (lx ly : ParLoad)
  /-- MAC (R152): Lane instruction MAC multiplies and accumulates, with parallel loads. -/
  | mac (ln : LaneNo) (sat : Bool) (ac : Fin 4) (dx dy : Fin 16) (lx ly : ParLoad)
  /-- MSU (R152): Lane instruction MSU multiplies and subtracts, with parallel loads. -/
  | msu (ln : LaneNo) (sat : Bool) (ac : Fin 4) (dx dy : Fin 16) (lx ly : ParLoad)
  /-- DMPY (R152): Lane instruction DMPY forms two products into an accumulator pair. -/
  | dmpy (ln : LaneNo) (sat : Bool) (ac : Fin 4) (dx dy : Fin 16) (lx ly : ParLoad)
  /-- DMAC (R152): Lane instruction DMAC accumulates two products into an accumulator pair. -/
  | dmac (ln : LaneNo) (sat : Bool) (ac : Fin 4) (dx dy : Fin 16) (lx ly : ParLoad)
  /-- ROT (R152): Lane instruction ROT forms a complex rotation into two accumulators. -/
  | rot (ln : LaneNo) (sat : Bool) (ac : Fin 4) (dx dy : Fin 16) (lx ly : ParLoad)
  /-- LAC (R152): Lane instruction LAC loads a Q1.19 word into an accumulator. -/
  | lac (ln : LaneNo) (ac : Fin 4) (ra : Fin 16)
  /-- SAC (R142): Lane instruction SAC stores a shifted, rounded accumulator into a data register. -/
  | sac (ln : LaneNo) (sat : Bool) (rd : Fin 16) (ac : Fin 4) (sh : BitVec 6)
  /-- ADDA (R152): Lane instruction ADDA adds two accumulators. -/
  | adda (ln : LaneNo) (sat : Bool) (ac acs : Fin 4)
  /-- SHA (R152): Lane instruction SHA shifts an accumulator arithmetically. -/
  | sha (ln : LaneNo) (sat : Bool) (ac : Fin 4) (sh : BitVec 6)
  /-- CLRA (R152): Lane instruction CLRA clears an accumulator. -/
  | clra (ln : LaneNo) (ac : Fin 4)
  /-- SINCOS (R152): Lane instruction SINCOS writes sine and cosine of an angle into a register pair. -/
  | sincos (ln : LaneNo) (rd ra : Fin 16)
  /-- DIV (R152): Lane instruction DIV divides in Q1.19 in 12 clocks, saturating out-of-range quotients. -/
  | div (ln : LaneNo) (sat : Bool) (rd ra rb : Fin 16)
  /-- SQRT (R152): Lane instruction SQRT takes a square root in 8 clocks. -/
  | sqrt (ln : LaneNo) (rd ra : Fin 16)
  /-- BR (R156): Lane instruction BR branches forward after two delay slots. -/
  | br (ln : LaneNo) (target : BitVec 11)
  /-- BCC (R156): Lane instruction Bcc branches forward after two delay slots if the condition holds. -/
  | bcc (ln : LaneNo) (cc : Fin 16) (target : BitVec 11)
  /-- RPT (R157): Lane instruction RPT repeats the next instruction a fixed number of times. -/
  | rpt (ln : LaneNo) (count : BitVec 11)
  /-- RPTR (R157): Lane instruction RPTR repeats the next instruction a register-given number of times, up to MAX. -/
  | rptr (ln : LaneNo) (rd : Fin 16) (maxCount : BitVec 11)
  /-- END (R152): Lane instruction END ends the program with all results written. -/
  | endProg (ln : LaneNo)
  /-- TICK_SET (R66): Command TickSet (0x210) checks and schedules a new tick, frame and cycle configuration from an
  epoch. -/
  | tickSet (st : Stall) (tag : BitVec 8)
  /-- BUDGET_QUERY (R68): Command BudgetQuery (0x211) reports admitted costs against a present or proposed tick,
  optionally clearing AXIS_PEAK. -/
  | budgetQuery (st : Stall) (tag : BitVec 8)
  /-- REGISTER_WRITE (R70): A host write to a register field without behaviour of its own is applied where permitted,
  or ignored with ACCESS_ERR or OVERRUN. -/
  | registerWrite (st : Stall) (offset : BitVec 26) (data : List W32) (be : BitVec 4)
  /-- DRAM_WRITE (R371): A host write through BAR2 or the DRAM window lands only in the host-writable region, and
  elsewhere is ignored with ACCESS_ERR. -/
  | dramWrite (st : Stall) (viaWindow : Bool) (addr : Nat) (bytes : List Byte)
  /-- POISONED_WRITE_TLP (R76): A poisoned write TLP is dropped and reported through Advanced Error Reporting. -/
  | poisonedWriteTlp
  /-- UNSUPPORTED_REQUEST (R76): A request to an unimplemented BAR is answered with Unsupported Request. -/
  | unsupportedRequest
  /-- PCIE_LINK_CHANGE (R69): The PCIe link or its enables change, making stall S0 present or absent. -/
  | pcieLinkChange (linkUp : Bool) (busMaster : Bool) (memSpace : Bool) (msix : MsixControl)
  /-- BUS_MASTER_ENABLE (R104): Bus Master Enable becoming 1 sends the pending MSI-X messages of unmasked vectors. -/
  | busMasterEnable
  /-- DEBUG_ACCESS_SELECT (R69): Selecting the debug access instruction on the IEEE 1149.1 port makes stall S7
  present. -/
  | debugAccessSelect (sel : Bool)
  /-- SPI_FRAME (R78): A frame on SPH between falling and rising SPH_CS_N carries a header and read or write data
  words. -/
  | spiFrame (header : W32) (headerBits : Nat) (mosi : List W32) (tailBits : Nat) (ready : EccRead Nat)
  /-- LOW_WORD_READ (R83): A read of the low word of a 64-bit register latches its high word for the reading stall. -/
  | lowWordRead (st : Stall) (offset : BitVec 24)
  /-- HIGH_WORD_READ (R83): A read of the high word of a 64-bit register returns the latched value after a low-word
  read, else the live value. -/
  | highWordRead (st : Stall) (offset : BitVec 24)
  /-- NT_NS_READ (R448): Reading NT_NS or PPS_NS latches the matching seconds registers for the reading stall. -/
  | ntNsRead (st : Stall) (pps : Bool)
  /-- WIN_SEQ_READ (R84): Reading the sequence word of an axis status window freezes or releases the snapshot for the
  reading stall. -/
  | winSeqRead (st : Stall) (axis : AxisNo)
  /-- WINDOW_FREEZE_LAPSE (R84): A freeze lapses at the second frame boundary after the read that set it. -/
  | windowFreezeLapse (st : Stall) (axis : AxisNo)
  /-- DOORBELL (R92): A write of the command header to CMD_DOORBELL rings the doorbell, and the command is taken, held
  or lost. -/
  | doorbell (st : Stall) (header : W32)
  /-- RSP_RD_PTR_WRITE (R94): The host advances RSP_RD_PTR to consume responses, or sets ACCESS_ERR if beyond
  RSP_WR_PTR. -/
  | rspRdPtrWrite (st : Stall) (value : W32)
  /-- MBX_RESET (R100): Writing MBX_RESET discards not-started commands of the stall and starts the mailbox reset. -/
  | mbxReset (st : Stall)
  /-- MBX_RESET_DONE (R100): Once the stall's started commands have completed, responses are dropped, tags and
  pointers are cleared and MBX_RESET clears. -/
  | mbxResetDone (st : Stall)
  /-- MAILBOX_TIMEOUT (R98): A best-effort command not completed within MBX_TIMEOUT or its own limit completes with
  TIMEOUT and nothing applies. -/
  | mailboxTimeout (st : Stall) (tag : BitVec 8)
  /-- ECHO (R106): Command Echo (0x000) returns its payload unchanged. -/
  | echo (st : Stall) (tag : BitVec 8)
  /-- OWNER_CLAIM (R107): Command OwnerClaim (0x001) requests ownership with a heartbeat interval, or renews it for
  the owner. -/
  | ownerClaim (st : Stall) (tag : BitVec 8)
  /-- OWNER_RELEASE (R108): Command OwnerRelease (0x002) vacates ownership under the hand-over sequence. -/
  | ownerRelease (st : Stall) (tag : BitVec 8)
  /-- OWNER_HAND_OVER (R109): Command OwnerHandOver (0x003) passes ownership to a target stall. -/
  | ownerHandOver (st : Stall) (tag : BitVec 8)
  /-- HANDOVER_TIMEOUT (R88): A hand-over or release not done within 100 ms completes with TIMEOUT and the old owner
  remains. -/
  | handoverTimeout
  /-- HEARTBEAT (R110): Command Heartbeat (0x004) renews the owner's heartbeat interval. -/
  | heartbeat (st : Stall) (tag : BitVec 8)
  /-- HEARTBEAT_WARN (R90): Half the heartbeat interval passes without a heartbeat and HEARTBEAT_WARN is set. -/
  | heartbeatWarn
  /-- HEARTBEAT_LAPSE (R89): The heartbeat interval ends without a heartbeat, so ownership is vacated, FS004 fires and
  the OWNER cause is set. -/
  | heartbeatLapse
  /-- IRQ_ROUTE (R111): Command IrqRoute (0x006) writes IRQB_ROUTE. -/
  | irqRoute (st : Stall) (tag : BitVec 8)
  /-- FIELD_QUERY (R133): Command FieldQuery (0x100) reports free legs, SD pairs, EMU outputs and used primary
  sources. -/
  | fieldQuery (st : Stall) (tag : BitVec 8)
  /-- PLOT_ASSIGN (R131): Command PlotAssign (0x101) assigns a plot to an axis at the next frame boundary after
  resource and admission checks. -/
  | plotAssign (st : Stall) (tag : BitVec 8)
  /-- PLOT_RELEASE (R132): Command PlotRelease (0x102) releases an axis's plot and frees its resources. -/
  | plotRelease (st : Stall) (tag : BitVec 8)
  /-- PLOT_MODIFY (R131): Command PlotModify (0x103) changes plot fields under the conditions of Table 4.4. -/
  | plotModify (st : Stall) (tag : BitVec 8)
  /-- PLOT_QUERY (R133): Command PlotQuery (0x104) returns the plot record in force. -/
  | plotQuery (st : Stall) (tag : BitVec 8)
  /-- LAW_LOAD (R170): Command LawLoad (0x220) writes instructions into the staging image. -/
  | lawLoad (st : Stall) (tag : BitVec 8)
  /-- LAW_COMMIT (R171): Command LawCommit (0x221) verifies the staging image, computes its bound and installs it in
  every lane. -/
  | lawCommit (st : Stall) (tag : BitVec 8)
  /-- LAW_DELETE (R172): Command LawDelete (0x222) unloads a user law program. -/
  | lawDelete (st : Stall) (tag : BitVec 8)
  /-- LAW_QUERY (R173): Command LawQuery (0x223) reports a program's hook, bound, axes, length and CRC. -/
  | lawQuery (st : Stall) (tag : BitVec 8)
  /-- LAW_ATTACH (R166): Command LawAttach (0x224) changes an axis's user program at a frame boundary, clearing its
  user state and optionally swapping banks. -/
  | lawAttach (st : Stall) (tag : BitVec 8)
  /-- LAW_FLAGS_CLEAR (R175): Command LawFlagsClear (0x225) clears SV_STD, SV_USER and AERR of named axes. -/
  | lawFlagsClear (st : Stall) (tag : BitVec 8)
  /-- COEF_WRITE (R176): Command CoefWrite (0x230) writes the coefficient bank not in use. -/
  | coefWrite (st : Stall) (tag : BitVec 8)
  /-- COEF_SWAP (R177): Command CoefSwap (0x231) schedules a bank swap at the next tick or a given tick. -/
  | coefSwap (st : Stall) (tag : BitVec 8)
  /-- COEF_READ (R178): Command CoefRead (0x232) reads words of a coefficient bank. -/
  | coefRead (st : Stall) (tag : BitVec 8)
  /-- BANK_COPY_DONE (R161): A bank copy after a swap ends, COPYING clears and held writes or swaps proceed. -/
  | bankCopyDone (axis : AxisNo)
  /-- LAW_SCALE (R218): Command LawScale (0x240) sets pole pairs, direction, velocity and acceleration exponents and
  commutation offset. -/
  | lawScale (st : Stall) (tag : BitVec 8)
  /-- LAW_MODE (R219): Command LawMode (0x241) sets the control mode or manual value, with bumpless transfer. -/
  | lawMode (st : Stall) (tag : BitVec 8)
  /-- REP_CONFIG (R220): Command RepConfig (0x250) sets the repetitive controller's period, origin, source and slot
  binding. -/
  | repConfig (st : Stall) (tag : BitVec 8)
  /-- REP_CONTROL (R221): Command RepControl (0x251) turns learning on, freezes it or clears the table. -/
  | repControl (st : Stall) (tag : BitVec 8)
  /-- REP_STORE (R222): Command RepStore (0x252) saves, restores or erases a learned-table slot in MRAM. -/
  | repStore (st : Stall) (tag : BitVec 8)
  /-- REP_AUTO_SAVE (R209): Every AUTO_SAVE_S seconds a bound, unfrozen table is saved to its slot, unless another
  save of the axis is running. -/
  | repAutoSave (axis : AxisNo)
  /-- REP_SAVE_DONE (R210): The table copy of a save has been taken, learning resumes and the MRAM write completes. -/
  | repSaveDone (axis : AxisNo)
  /-- TUNE_EXCITE (R223): Command TuneExcite (0x260) starts or stops an excitation at an injection point. -/
  | tuneExcite (st : Stall) (tag : BitVec 8)
  /-- EXCITATION_END (R214): An excitation reaches its duration and ends. -/
  | excitationEnd (axis : AxisNo)
  /-- TUNE_IDENTIFY (R224): Command TuneIdentify (0x261) starts a winding measurement at standstill. -/
  | tuneIdentify (st : Stall) (tag : BitVec 8)
  /-- IDENTIFY_DONE (R215): The winding measurement ends with results and suggested gains, or fails with FS049.
  Operand: L_q in nH where the rule gives no formula for it. -/
  | identifyDone (axis : AxisNo) (lqNh : BitVec 32)
  /-- VOLTAGE_LIMIT_PERSIST (R189): The voltage limit has acted in every tick for 256 consecutive ticks and FS046
  fires. -/
  | voltageLimitPersist (axis : AxisNo)
  /-- OVERSPEED (R200): abs(VEL_EST) exceeds 1.125 times the limit in four consecutive frames and FS044 fires. -/
  | overspeed (axis : AxisNo)
  /-- PLAUS_COUNT_LIMIT (R203): A plausibility counter reaches PL_N, its source fires and the counter restarts. -/
  | plausCountLimit (axis : AxisNo) (check : Fin 4)
  /-- FB_CONFIG (R260): Command FbConfig (0x300) sets a feedback source's mode and restarts it at the next frame
  boundary. -/
  | fbConfig (st : Stall) (tag : BitVec 8)
  /-- EXC_CONFIG (R261): Command ExcConfig (0x301) sets one excitation output's frequency, amplitude and enable. -/
  | excConfig (st : Stall) (tag : BitVec 8)
  /-- EXC_ZERO_CROSSING (R261): A changed excitation frequency or amplitude takes effect at the output's first zero
  crossing after the boundary. -/
  | excZeroCrossing (exc : Fin 4)
  /-- FB_POS_SET (R262): Command FbPosSet (0x302) sets a source's position at the next frame boundary and restarts
  tracking. -/
  | fbPosSet (st : Stall) (tag : BitVec 8)
  /-- FB_CLEAR (R263): Command FbClear (0x303) clears sticky bits and counters of named sources. -/
  | fbClear (st : Stall) (tag : BitVec 8)
  /-- PROBE_CONFIG (R264): Command ProbeConfig (0x310) sets a probe's filter, latch source and edges, or flushes it. -/
  | probeConfig (st : Stall) (tag : BitVec 8)
  /-- PROBE_READ (R265): Command ProbeRead (0x311) removes up to MAX readable probe entries. -/
  | probeRead (st : Stall) (tag : BitVec 8)
  /-- EMU_CONFIG (R266): Command EmuConfig (0x320) configures an encoder-emulation output. -/
  | emuConfig (st : Stall) (tag : BitVec 8)
  /-- QUADRATURE_EDGE (R232): An accepted change of A or B moves the count by one. -/
  | quadratureEdge (src : Fin 16) (a : Bool) (b : Bool) (e : EdgeAt)
  /-- INDEX_EDGE (R234): An accepted index edge stores FB_IDX and, with INDEX_CHECK, may fire FS051. -/
  | indexEdge (src : Fin 16) (e : EdgeAt)
  /-- HALL_TRANSITION (R239): A Hall code change moves the sector position, or is judged an error firing FS052. -/
  | hallTransition (src : Fin 16) (code : Fin 8) (e : EdgeAt)
  /-- TOOTH_EDGE (R241): A rising tooth edge counts a tooth, recognising gaps or extra pulses as the reference. -/
  | toothEdge (src : Fin 16) (dirHigh : Bool) (e : EdgeAt)
  /-- REF_MARK_EDGE (R243): A rising edge on the reference-mark pair of a sin/cos source stores the position in
  FB_IDX. -/
  | refMarkEdge (src : Fin 16) (data : AnalogData) (held : Nat)
  /-- STANDSTILL (R237): No edge for STILL_TICKS ticks sets the speed to exactly 0 and clears SPEED_VALID. -/
  | standstill (src : Fin 32)
  /-- ENCODER_ALARM (R228): The alarm input becomes active, ALARM is set and FS058 fires. -/
  | encoderAlarm (src : Fin 16) (l : HeldLevel)
  /-- EXC_OVERLOAD (R245): An overloaded excitation output is switched off, EXC_ERR is set and its resolver sources
  become invalid with FS055. -/
  | excOverload (exc : Fin 4)
  /-- SERIAL_EXCHANGE_START (R250): LATENCY_NS before a tick or frame boundary, a serial encoder exchange starts. -/
  | serialExchangeStart (port : Fin 16)
  /-- SERIAL_RESPONSE (R248): An SSI frame or request/response reply completes and is checked for a valid sample. -/
  | serialResponse (port : Fin 16) (r : SerialReply)
  /-- SERIAL_WAIT_EXPIRY (R248): No response or acknowledge arrives within WAIT, and the sample is bad. -/
  | serialWaitExpiry (port : Fin 16)
  /-- PROBE_EDGE (R253): A filtered probe edge is time-stamped and recorded, or dropped with OVF and FS059 when four
  entries are unread. -/
  | probeEdge (probe : Fin 16) (rising : Bool) (e : EdgeAt)
  /-- PROBE_ENTRY_READABLE (R253): A probe entry becomes readable once its latched position is known. -/
  | probeEntryReadable (probe : Fin 16)
  /-- PWM_CONFIG (R295): Command PwmConfig (0x400) sets switching period, alignment, update, pulse limits and
  bootstrap settings. -/
  | pwmConfig (st : Stall) (tag : BitVec 8)
  /-- GATE_PROFILE (R296): Command GateProfile (0x401) sets gate-drive currents, thresholds and phase times. -/
  | gateProfile (st : Stall) (tag : BitVec 8)
  /-- PROTECT_CONFIG (R297): Command ProtectConfig (0x402) sets overcurrent, desaturation, blanking and external trip
  settings. -/
  | protectConfig (st : Stall) (tag : BitVec 8)
  /-- BRIDGE_CONTROL (R298): Command BridgeControl (0x410) switches bridges of named axes on through the charge
  sequence, or off. -/
  | bridgeControl (st : Stall) (tag : BitVec 8)
  /-- CHARGE_SAMPLE (R280): CHARGE_US after F1, every bootstrap is sampled against BST_WARN. -/
  | chargeSample (axis : AxisNo) (mv : List Nat)
  /-- PWM_DIRECT (R299): Command PwmDirect (0x411) enters or leaves direct mode and stages or commits direct widths. -/
  | pwmDirect (st : Stall) (tag : BitVec 8)
  /-- PWM_CLEAR (R300): Command PwmClear (0x412) clears sticky leg bits, REFRESHES and PD_MISMATCH. -/
  | pwmClear (st : Stall) (tag : BitVec 8)
  /-- PWM_QUERY (R301): Command PwmQuery (0x413) returns the PWM, gate and protection settings in force. -/
  | pwmQuery (st : Stall) (tag : BitVec 8)
  /-- APPLICATION_INSTANT (R269): At a period start or midpoint, the latest staging set is converted to widths and
  applied to the legs. -/
  | applicationInstant (axis : AxisNo) (at_ : Nat) (slew : Int)
  /-- INTERLOCK_TURN_ON (R274): The incoming switch starts turn-on after DT_FLOOR and 10 ns after the opposite gate
  fell below VGS_OFF. -/
  | interlockTurnOn (leg : LegNo) (high : Bool) (at_ : Nat)
  /-- INTERLOCK_TIMEOUT (R274): A turn-on not started by 1 µs after the commanded edge is abandoned, IL_TIMEOUT is set
  and FS073 fires. -/
  | interlockTimeout (leg : LegNo) (high : Timed Bool)
  /-- GATE_CHECK_FAIL (R276): VGS not reaching VGS_ON within ON_CHECK, or falling while on, latches the leg all-off
  and fires FS076. -/
  | gateCheckFail (leg : LegNo) (high : Bool)
  /-- EXT_OUTPUT_CHECK (R289): 100 ns after a commanded edge in external-driver mode, the output level is checked and
  a mismatch counts as a failed gate check. -/
  | extOutputCheck (leg : LegNo) (high ok : Bool)
  /-- BOOTSTRAP_WARNING (R278): A bootstrap sample below BST_WARN with the high side on inserts a refresh pulse, sets
  BST_WARN and fires FS074. -/
  | bootstrapWarning (leg : LegNo) (mv : Timed (BitVec 16))
  /-- BOOTSTRAP_UVLO (R278): The bootstrap UVLO comparator turns the high side off and runs a low-side refresh,
  setting BST_UV and firing FS075. -/
  | bootstrapUvlo (leg : Timed LegNo)
  /-- CHOP_TRIP (R273): The chop comparator trips after blanking, and the stepper phase decays for the rest of the
  period. -/
  | chopTrip (axis : AxisNo) (phaseB : Timed Bool)
  /-- OVERCURRENT_TRIP (R282): The overcurrent comparator trips after blanking, latching the leg or commanding it low
  for the period. -/
  | overcurrentTrip (leg : Timed LegNo)
  /-- DESATURATION (R283): Desaturation detected after blanking starts a soft turn-off within 20 ns, latches the leg
  and fires FS070. -/
  | desaturation (leg : LegNo) (high : Bool) (at_ : Nat)
  /-- HARD_SHORT (R284): The armed hard-short comparator detects a short, acting as desaturation with HSHORT and
  FS071. -/
  | hardShort (leg : LegNo) (high : Bool) (at_ : Nat)
  /-- EXTERNAL_TRIP (R287): An accepted active level on a TRIP_SRC probe puts every leg of the axis all-off within 100
  ns and fires FS079. -/
  | externalTrip (axis : AxisNo)
  /-- STO_SWITCHES_OPEN (R290): 10 µs after STO assertion, the die's STO switches open and remove the stage supplies. -/
  | stoSwitchesOpen (die : Fin 2)
  /-- STO_FEEDBACK (R290): The die reports STO_FB to both channels once its stage supply is below 1 V and all gates
  read low. -/
  | stoFeedback (die : Fin 2)
  /-- STO_SUPPLY_RESTORED (R291): The stage supply returns within tolerance after STO release, and STO_A or STO_B
  clears. -/
  | stoSupplyRestored (die : Fin 2)
  /-- SET_TARGET (R350): Express command SetTarget (0x500) replaces the executing move with a new target. -/
  | setTarget (st : Stall) (tag : BitVec 8)
  /-- SET_OVERRIDE (R351): Express command SetOverride (0x501) sets the override of named axes. -/
  | setOverride (st : Stall) (tag : BitVec 8)
  /-- SET_GEAR_RATIO (R352): Express command SetGearRatio (0x502) changes a locked follower's ratio over RAMP_DIST. -/
  | setGearRatio (st : Stall) (tag : BitVec 8)
  /-- JOG (R353): Express command Jog (0x503) sets a signed velocity, ending the move and flushing the queue. -/
  | jog (st : Stall) (tag : BitVec 8)
  /-- STOP (R354): Express command Stop (0x504) brings named axes to rest under stop or quick-stop limits. -/
  | stop (st : Stall) (tag : BitVec 8)
  /-- READ_STATUS (R355): Express command ReadStatus (0x505) returns set-point, actual position and motion status. -/
  | readStatus (st : Stall) (tag : BitVec 8)
  /-- PROFILE_LIMITS (R356): Command ProfileLimits (0x510) sets the default, stop and quick-stop limits. -/
  | profileLimits (st : Stall) (tag : BitVec 8)
  /-- MOVE_QUEUE (R357): Command MoveQueue (0x511) enters one to eight moves into the motion queue. -/
  | moveQueue (st : Stall) (tag : BitVec 8)
  /-- MOVE_WAIT (R358): Command MoveWait (0x512) completes when a given move ends. -/
  | moveWait (st : Stall) (tag : BitVec 8)
  /-- DWELL_END (R313): A finished move's DWELL_MS elapses and the next move may start. -/
  | dwellEnd (axis : AxisNo)
  /-- HOME_CONFIG (R359): Command HomeConfig (0x520) sets the homing method, inputs, speeds and reference. -/
  | homeConfig (st : Stall) (tag : BitVec 8)
  /-- HOME_START (R360): Command HomeStart (0x521) starts or aborts a homing run. -/
  | homeStart (st : Stall) (tag : BitVec 8)
  /-- HOMING_HARD_STOP (R338): abs(POS_ERR) above HS_ERR held for HS_TIME_MS marks the hard-stop reference. -/
  | homingHardStop (axis : AxisNo)
  /-- GEAR_CONFIG (R361): Command GearConfig (0x530) sets a follower's master, ratio, ramp and cam parameters. -/
  | gearConfig (st : Stall) (tag : BitVec 8)
  /-- GEAR_ENGAGE (R362): Command GearEngage (0x531) engages or disengages a follower. -/
  | gearEngage (st : Stall) (tag : BitVec 8)
  /-- CAM_LOAD (R363): Command CamLoad (0x532) writes points into the cam table not in use. -/
  | camLoad (st : Stall) (tag : BitVec 8)
  /-- CAM_SELECT (R364): Command CamSelect (0x533) makes a cam table the table in use, at once or at the next wrap. -/
  | camSelect (st : Stall) (tag : BitVec 8)
  /-- MASTER_PUBLISH (R365): Command MasterPublish (0x534) chooses the axes whose master records are sent on the ring.
  -/
  | masterPublish (st : Stall) (tag : BitVec 8)
  /-- PATH_GROUP (R366): Command PathGroup (0x540) defines or deletes a path group. -/
  | pathGroup (st : Stall) (tag : BitVec 8)
  /-- PATH_APPEND (R367): Command PathAppend (0x541) appends segments to a group's queue. -/
  | pathAppend (st : Stall) (tag : BitVec 8)
  /-- PATH_CONTROL (R368): Command PathControl (0x542) starts, stops or flushes a path group. -/
  | pathControl (st : Stall) (tag : BitVec 8)
  /-- STEP_CONFIG (R369): Command StepConfig (0x550) configures a step/direction output pair. -/
  | stepConfig (st : Stall) (tag : BitVec 8)
  /-- STANDSTILL_CONFIG (R370): Command StandstillConfig (0x551) sets the stepper standstill reduction. -/
  | standstillConfig (st : Stall) (tag : BitVec 8)
  /-- STANDSTILL_DELAY (R343): POS_REF unchanged for DELAY_MS starts the reduction of stepper current to STILL_FRAC. -/
  | standstillDelay (axis : AxisNo)
  /-- CAPTURE_CLAIM (R401): Command CaptureClaim (0x800) claims, releases or takes a capture unit. -/
  | captureClaim (st : Stall) (tag : BitVec 8)
  /-- CAPTURE_CONFIG (R402): Command CaptureConfig (0x801) configures a unit's channels, buffer, decimation and mode. -/
  | captureConfig (st : Stall) (tag : BitVec 8)
  /-- CAPTURE_TRIGGER (R403): Command CaptureTrigger (0x802) sets up the trigger stages of a unit. -/
  | captureTrigger (st : Stall) (tag : BitVec 8)
  /-- CAPTURE_CONTROL (R404): Command CaptureControl (0x803) arms, stops, forces or aborts a unit. -/
  | captureControl (st : Stall) (tag : BitVec 8)
  /-- CAP_CTRL_FORCE (R386): Writing CAP_CTRL.FORCE forces a trigger on the present record in state 3. -/
  | capCtrlForce (st : Stall) (unit : Fin 8)
  /-- CAP_DONE_RELEASE (R398): Writing 1 to a CAP_DONE bit releases that completed segment. -/
  | capDoneRelease (st : Stall) (unit : Fin 8) (mask : W32)
  /-- STAGE_TIMEOUT (R384): A stage not satisfied within TIMER ticks restarts the sequencer or fires the trigger. -/
  | stageTimeout (unit : Fin 8)
  /-- AUTO_TRIGGER (R386): A unit in auto mode that has waited AUTO_TICKS forces its own trigger. -/
  | autoTrigger (unit : Fin 8)
  /-- SKEW_CAL (R405): Command SkewCal (0x810) calibrates converter skew on named dies. -/
  | skewCal (st : Stall) (tag : BitVec 8)
  /-- SKEW_CAL_DONE (R376): Skew calibration ends, applying and storing SKEW_CAL or keeping old values with FS102. -/
  | skewCalDone (die : Fin 2) (residualOk : Bool) (values : List Int)
  /-- ADC_CONFIG (R406): Command AdcConfig (0x811) sets averaging mode, settle time and skew trim of an axis. -/
  | adcConfig (st : Stall) (tag : BitVec 8)
  /-- DMA_CLAIM (R390): Writing CLAIM claims a free DMA channel for the stall. -/
  | dmaClaim (st : Stall) (ch : Fin 8)
  /-- DMA_RELEASE (R390): Writing RELEASE releases a DMA channel, aborting it first if running. -/
  | dmaRelease (st : Stall) (ch : Fin 8)
  /-- DMA_START (R392): Writing START starts a halted or idle channel from DMA_DESC. -/
  | dmaStart (st : Stall) (ch : Fin 8) (fetched : Option (List W32))
  /-- DMA_ABORT (R395): Writing ABORT requests that the channel stop at the next 512-byte boundary. -/
  | dmaAbort (st : Stall) (ch : Fin 8)
  /-- DMA_ABORT_EFFECT (R395): The abort takes effect: the descriptor is marked BAD with ERR 7, the channel halts and
  HALT is set. -/
  | dmaAbortEffect (ch : Fin 8) (moved : Nat) (fromHost : List Byte)
  /-- DMA_DESCRIPTOR_END (R392): A descriptor finishes, writing BYTES_DONE and STATUS, raising EOC or BAD and moving
  to NEXT or idle. -/
  | dmaDescriptorEnd (ch : Fin 8) (outcome : DmaOutcome) (fetched : Option (List W32))
  /-- RING_CONFIG (R449): Command RingConfig (0x600) sets node address, auto start, acyclic reserve, EtherType and
  remote timeout. -/
  | ringConfig (st : Stall) (tag : BitVec 8)
  /-- RING_CONTROL (R450): Command RingControl (0x601) starts or stops the ring function, or clears its counters. -/
  | ringControl (st : Stall) (tag : BitVec 8)
  /-- REMOTE_STALL_CONFIG (R451): Command RemoteStallConfig (0x602) enables, restricts or drops a remote stall. -/
  | remoteStallConfig (st : Stall) (tag : BitVec 8)
  /-- TIME_CONFIG (R452): Command TimeConfig (0x610) sets domain, PPS use, grandmaster priority and servo shifts. -/
  | timeConfig (st : Stall) (tag : BitVec 8)
  /-- TIME_SET (R453): Command TimeSet (0x611) on the grandmaster sets network time by a step applied three cycles
  later. -/
  | timeSet (st : Stall) (tag : BitVec 8)
  /-- RING_PROXY (R454): Command RingProxy (0x620) sends a mailbox command to another device and returns its response.
  -/
  | ringProxy (st : Stall) (tag : BitVec 8)
  /-- BLOCK_LOCK (R413): Both ports reach block lock with DEV_READY set, and a LISTEN device moves to JOINING. -/
  | blockLock (a b : Bool)
  /-- LISTEN_TIMEOUT (R413): A LISTEN device that heard no cycle frame for three network cycles joins at its own cycle
  boundary. -/
  | listenTimeout
  /-- INSERT_WINDOW (R414): At the insert window, a joining device opens its by-pass, and a leaving or restoring
  device closes its by-pass or ends its loop-back. -/
  | insertWindow
  /-- JOIN_TIMEOUT (R413): A join not completed within 1 ms returns the device to LISTEN with JOIN_FAIL. -/
  | joinTimeout
  /-- CYCLE_FRAME_SEND (R416): At each cycle boundary plus 1 µs, an active device sends its cycle frames out of RGB. -/
  | cycleFrameSend
  /-- CYCLE_FRAME (R416): A received cycle frame is forwarded, removed on return, and its first copy's contents are
  taken. -/
  | cycleFrame (portB : Bool) (fcs : Fcs) (f : RingFrame)
  /-- FOREIGN_FRAME (R409): A frame that is neither Atnal nor PTP is dropped and counted in FOREIGN. -/
  | foreignFrame (portB : Bool)
  /-- NODE_MISSING (R419): An address silent for two consecutive cycles without LEAVING fires FS111. -/
  | nodeMissing (node : BitVec 10)
  /-- PORT_BREAK (R423): A port without block lock or with fault sequences for 1 µs declares a break, sends Remote
  Fault and loops back, firing FS110. Operands: whether the receiver still has block lock, and whether it receives Remote
  Fault. -/
  | portBreak (port : PortLoss)
  /-- PORT_RESTORE (R424): A broken port holding clean block lock for 1 ms sets RESTORE for ending the loop-back. -/
  | portRestore (portB : Bool)
  /-- ACYCLIC_FRAGMENT_TIMEOUT (R429): A partial acyclic message without a further fragment for 16 cycles is dropped. -/
  | acyclicFragmentTimeout (src : BitVec 10) (tr : BitVec 16)
  /-- RING_CONNECT (R430): A CONNECT message is granted a remote stall with ACCEPT or refused with REJECT. -/
  | ringConnect (m : AcycMsg)
  /-- RING_DISCONNECT (R433): A DISCONNECT message ends a remote connection. -/
  | ringDisconnect (m : AcycMsg)
  /-- RING_KEEPALIVE (R433): A KEEPALIVE message keeps a remote connection alive. -/
  | ringKeepalive (m : AcycMsg)
  /-- RING_READ (R432): A READ message reads registers as the remote stall and is answered with READ_DATA. -/
  | ringRead (m : EccRead AcycMsg)
  /-- RING_WRITE (R432): A WRITE message writes registers as the remote stall and is answered with WRITE_DONE. -/
  | ringWrite (m : AcycMsg)
  /-- RING_COMMAND (R432): A COMMAND message is taken as a doorbell of the remote stall and acknowledged with ACK. -/
  | ringCommand (m : AcycMsg)
  /-- RING_ACCEPT (R454): An ACCEPT answering a proxy CONNECT opens the proxy connection. -/
  | ringAccept (m : AcycMsg)
  /-- RING_REJECT (R454): A REJECT answering a proxy request completes RingProxy with STATE. -/
  | ringReject (m : AcycMsg)
  /-- RING_ACK (R454): An ACK confirms that a proxied command was taken remotely. -/
  | ringAck (m : AcycMsg)
  /-- RING_RESPONSE (R454): A RESPONSE to a proxied command completes RingProxy with the remote response. -/
  | ringResponse (m : AcycMsg)
  /-- REMOTE_STALL_TIMEOUT (R433): No message from a connected node for REMOTE_TIMEOUT ends the connection and fires
  FS117. -/
  | remoteStallTimeout (st : Stall)
  /-- PROXY_ACK_TIMEOUT (R454): A proxied COMMAND without ACK within four cycles is resent with the same TRANS, at
  most three times. -/
  | proxyAckTimeout (st : Stall) (tag : BitVec 8)
  /-- PROXY_KEEPALIVE (R454): After 8 ms without traffic to a connected node, a KEEPALIVE is sent. -/
  | proxyKeepalive (node : BitVec 10)
  /-- PROXY_IDLE_DISCONNECT (R454): A proxy connection unused for 1 s is closed with DISCONNECT. -/
  | proxyIdleDisconnect (node : BitVec 10)
  /-- SYNC_SEND (R437): The grandmaster sends a one-step Sync out of each port at each cycle boundary plus 0.5 µs. -/
  | syncSend
  /-- SYNC_RECEIVED (R439): A Sync from SYNC_PORT drives the servo to step or slew network time. Operands: the receiving
  port, domainNumber, originTimestamp plus correctionField as they arrive, in 2^-64 ns, the arrival in lane clocks after the
  last tick boundary, and the residence time of the copy that passes, in 2^-64 ns. -/
  | syncReceived (portB : Bool) (m : SyncMsg)
  /-- NT_HOLDOVER (R444): No Sync for 4 consecutive cycles while LOCKED enters HOLDOVER and fires FS115. -/
  | ntHoldover
  /-- PDELAY_REQ_SEND (R436): Every 125 ms each port sends Pdelay_Req. -/
  | pdelayReqSend
  /-- PDELAY_REQ_RECEIVED (R436): A received Pdelay_Req is answered with a one-step Pdelay_Resp. -/
  | pdelayReqReceived (portB : Bool) (seq : InDomain (BitVec 16))
  /-- PDELAY_RESP_RECEIVED (R436): A Pdelay_Resp yields a link-delay measurement that updates the mean or is
  discarded. -/
  | pdelayRespReceived (portB : Bool) (delay : InDomain Nat)
  /-- PPS_EDGE (R442): A rising PPS_IN edge is stamped and, on a PPS-disciplined grandmaster, drives the servo or a
  pending TimeSet. -/
  | ppsEdge (at_ : Nat)
  /-- PPS_OUT_SECOND (R445): At every whole second of network time in NT_STATE 2 or 4, PPS_OUT rises for 10 ms. -/
  | ppsOutSecond
  /-- REF25_DETECT (R442): A clock on REF25 is detected, the local oscillator locks to it and REF25_OK is set. -/
  | ref25Detect
  /-- KA_TIME_SET (R446): Once per second in NT_STATE 2 or 4, the KA time counter is set from network time. -/
  | kaTimeSet
  /-- CAN_CONFIG (R480): Command CanConfig (0x700) sets mode, bit timing and warning levels of an OFF controller. -/
  | canConfig (st : Stall) (tag : BitVec 8)
  /-- CAN_FILTER (R481): Command CanFilter (0x701) sets one host receive filter. -/
  | canFilter (st : Stall) (tag : BitVec 8)
  /-- CAN_SEND (R482): Command CanSend (0x702) makes a frame pending in a transmit buffer, aborting any previous frame
  there. -/
  | canSend (st : Stall) (tag : BitVec 8)
  /-- CAN_RECEIVE (R483): Command CanReceive (0x703) removes frames from the receive FIFO. -/
  | canReceive (st : Stall) (tag : BitVec 8)
  /-- CAN_CONTROL (R484): Command CanControl (0x704) starts, stops, recovers or clears a controller. -/
  | canControl (st : Stall) (tag : BitVec 8)
  /-- CAN_TIME_MASTER (R485): Command CanTimeMaster (0x710) sets a controller's time-master or slave role. -/
  | canTimeMaster (st : Stall) (tag : BitVec 8)
  /-- CAN_GATEWAY (R486): Command CanGateway (0x720) enables, changes or disables the S6 gateway. -/
  | canGateway (st : Stall) (tag : BitVec 8)
  /-- CAN_INTEGRATED (R484): After START, the controller integrates onto the bus after 11 recessive bits. -/
  | canIntegrated (c : Fin 2)
  /-- CAN_FRAME_RECEIVED (R462): A received frame is sorted to reference, gateway, safety or host filter destinations,
  or discarded. Operand at_: the start of frame in lane clocks after the last tick boundary, negative before it. -/
  | canFrameReceived (c : Fin 2) (ok : Bool) (f : CanFrame) (at_ : Int)
  /-- CAN_TX_END (R459): A transmission attempt ends in success or error, updating the buffer result and the error
  counters. Operand at_: the start of frame of the attempt, in lane clocks after the last tick boundary, negative before it.
  -/
  | canTxEnd (c : Fin 2) (r : CanTxStop)
  /-- CAN_LIFETIME_EXPIRY (R459): A pending frame's lifetime expires, and it ends EXPIRED with FS125 instead of
  starting again. -/
  | canLifetimeExpiry (c : Fin 2) (buf : Fin 32)
  /-- CAN_RECOVERY_DONE (R465): 128 occurrences of 11 recessive bits end bus-off recovery, clearing counters and
  setting RECOVERED. -/
  | canRecoveryDone (c : Fin 2)
  /-- CAN_BASIC_CYCLE (R468): A basic cycle starts at a tick divisible by BASIC_TICKS, and a potential master makes
  its reference message pending. -/
  | canBasicCycle (c : Fin 2)
  /-- CAN_GUARD_START (R470): GUARD_US before the basic-cycle start, no other frame of the controller may start. -/
  | canGuardStart (c : Fin 2)
  /-- REF_WINDOW_EXPIRY (R470): A reference message not started within REF_WINDOW_US is withdrawn, setting REF_LATE. -/
  | refWindowExpiry (c : Fin 2)
  /-- CAN_WINDOW_OPEN (R461): An exclusive window opens in the basic cycle, and windowed frames may start. -/
  | canWindowOpen (c : Fin 2) (buf : Fin 32)
  /-- GW_COMMAND (R474): A complete gateway COMMAND request is taken as a doorbell of stall S6. -/
  | gwCommand (words : List W32)
  /-- GW_READ (R474): A gateway READ request reads registers as S6 and is answered by READ_DATA. -/
  | gwRead (words : EccRead (List W32))
  /-- GW_IRQ_CLEAR (R474): A gateway IRQ_CLEAR request clears bits of S6's IRQ_STATUS and STALL_STATUS. -/
  | gwIrqClear (words : List W32)
  /-- FIO_IN_CONFIG (R511): Command FioInConfig (0x900) sets debounce and interrupt edges of inputs. -/
  | fioInConfig (st : Stall) (tag : BitVec 8)
  /-- FIO_OUT_CONFIG (R512): Command FioOutConfig (0x901) sets readback debounce, settle time, FAIL_OFF and FLT_LATCH
  of outputs. -/
  | fioOutConfig (st : Stall) (tag : BitVec 8)
  /-- OUT_SET (R513): Command OutSet (0x902) sets commanded output states at the next tick boundary. -/
  | outSet (st : Stall) (tag : BitVec 8)
  /-- FIO_CLEAR (R514): Command FioClear (0x903) clears FIO_FLT, BANK_OT or the edge bits. -/
  | fioClear (st : Stall) (tag : BitVec 8)
  /-- FIO_STAMP (R515): Command FioStamp (0x904) returns the last rising and falling stamps of an input. -/
  | fioStamp (st : Stall) (tag : BitVec 8)
  /-- FIO_QUERY (R515): Command FioQuery (0x905) returns the configuration of an input or output. -/
  | fioQuery (st : Stall) (tag : BitVec 8)
  /-- IN_EDGE (R488): A new input level held for DEB_US is accepted, stamped and recorded in IN_RISE or IN_FALL. -/
  | inEdge (n : Fin 32) (level : Bool) (at_ : Nat)
  /-- READBACK_EDGE (R493): An output's readback level is accepted after its debounce and updates READ. -/
  | readbackEdge (n : Fin 16) (level : Bool)
  /-- OUTPUT_MISMATCH (R494): An output whose READ differs from a CMD settled for SETTLE_US sets FIO_FLT and fires
  FS130. -/
  | outputMismatch (n : Fin 16)
  /-- BANK_OVERTEMP (R497): Output bank over-temperature turns every output off, sets BANK_OT and fires FS131. -/
  | bankOvertemp
  /-- BANK_COOLED (R497): After cooling by 15 °C, the outputs return to their commands. -/
  | bankCooled
  /-- SPM_SELECT (R516): Command SpmSelect (0x910) sets clock, mode, word and timing of one select. -/
  | spmSelect (st : Stall) (tag : BitVec 8)
  /-- SPM_TRANSFER (R517): Command SpmTransfer (0x911) queues a transfer on an SPI master port. -/
  | spmTransfer (st : Stall) (tag : BitVec 8)
  /-- SPM_CONTROL (R518): Command SpmControl (0x912) clears sticky SPM bits or flushes the port's queue. -/
  | spmControl (st : Stall) (tag : BitVec 8)
  /-- SPM_MAP (R519): Command SpmMap (0x920) maps an external serial memory on SPM0. -/
  | spmMap (st : Stall) (tag : BitVec 8)
  /-- SPM_MEM_READ (R520): Command SpmMemRead (0x921) reads words from the mapped memory. -/
  | spmMemRead (st : Stall) (tag : BitVec 8) (data : List W32)
  /-- SPM_MEM_WRITE (R506): Command SpmMemWrite (0x922) writes the mapped memory page by page with polling and
  optional verify. -/
  | spmMemWrite (st : Stall) (tag : BitVec 8)
  /-- SPM_MEM_ERASE (R507): Command SpmMemErase (0x923) erases sectors of the mapped memory. -/
  | spmMemErase (st : Stall) (tag : BitVec 8)
  /-- SPM_TRANSFER_DONE (R502): A transfer's select rises after its last word and the transfer completes with its
  received words. -/
  | spmTransferDone (port : Fin 2) (rx : List W32)
  /-- SPM_HOLD_LAPSE (R503): A held select without a new transfer for HOLD_TO is released with HOLD_LAPSE and FS132. -/
  | spmHoldLapse (port : Fin 2)
  /-- SPM_STATUS_POLL (R506): A due status poll of a mapped program or erase reads the memory status and continues,
  fails or finishes. -/
  | spmStatusPoll (status : Byte) (readBack : List Byte)
  /-- MAPPED_READ (R505): A management-processor read through the mapping fills a cache line from the serial memory. -/
  | mappedRead (addr : Nat) (line : List Byte)
  /-- FAULT_CONFIG (R554): Command FaultConfig (0xB00) sets a source's severity or the recovery policy. -/
  | faultConfig (st : Stall) (tag : BitVec 8)
  /-- FAULT_CLEAR (R555): Command FaultClear (0xB01) clears fired bits and counts, the first source or the tally. -/
  | faultClear (st : Stall) (tag : BitVec 8)
  /-- FAULT_RECOVER (R556): Command FaultRecover (0xB02) recovers latched axes or leaves device safe state. -/
  | faultRecover (st : Stall) (tag : BitVec 8)
  /-- FAULT_SOW (R557): Command FaultSow (0xB03) injects an error by inverting check bits of a chosen check. -/
  | faultSow (st : Stall) (tag : BitVec 8)
  /-- SOW_TIMEOUT (R542): A sown error not detected within 100 ms fires FS154. -/
  | sowTimeout
  /-- ROTATION_CONTROL (R558): Command RotationControl (0xB10) holds or resumes rotation, or retires a lane. -/
  | rotationControl (st : Stall) (tag : BitVec 8)
  /-- ROTATION_HOLD_EXPIRY (R558): A rotation HOLD ends on its own after one hour. -/
  | rotationHoldExpiry
  /-- BIST_RUN (R559): Command BistRun (0xB11) tests a lane, the standby pair or a converter. -/
  | bistRun (st : Stall) (tag : BitVec 8)
  /-- BIST_DONE (R547): A built-in self-test ends with its signature compared against the expected one. -/
  | bistDone (got expected : W32) (durUs : Nat)
  /-- MARGIN_MEASURE (R560): Command MarginMeasure (0xB20) measures an axis's power stage, or sets REMEASURE only. -/
  | marginMeasure (st : Stall) (tag : BitVec 8)
  /-- MARGIN_MEASURE_DONE (R549): A power-stage measurement completes, its results and plan go to the ledger and FS151
  may fire. -/
  | marginMeasureDone (axis : AxisNo) (r : List LegMeasure)
  /-- MARGIN_APPLY (R561): Command MarginApply (0xB21) reports the re-planned values and optionally applies them. -/
  | marginApply (st : Stall) (tag : BitVec 8)
  /-- FW_LOAD (R562): Command FwLoad (0xB30) writes data into the image not running. -/
  | fwLoad (st : Stall) (tag : BitVec 8)
  /-- FW_COMMIT (R563): Command FwCommit (0xB31) checks the loaded image and sets OTHER_VALID. -/
  | fwCommit (st : Stall) (tag : BitVec 8) (signatureOk lawsDiffer : Bool)
  /-- FW_ACTIVATE (R564): Command FwActivate (0xB32) schedules the other image at next start, starts a live switch, or
  rolls back. -/
  | fwActivate (st : Stall) (tag : BitVec 8)
  /-- FW_CONFIRM (R565): Command FwConfirm (0xB33) makes the trial image the boot image. -/
  | fwConfirm (st : Stall) (tag : BitVec 8)
  /-- LEDGER_READ (R566): Command LedgerRead (0xB40) returns ledger records from an index. -/
  | ledgerRead (st : Stall) (tag : BitVec 8)
  /-- STANDBY_IMAGE_STARTED (R545): The standby pair has started the new image and joined the journal, with new law
  programs staged in the lanes. -/
  | standbyImageStarted
  /-- LIVE_SWITCH (R545): At a frame boundary with no best-effort command in progress, the standby becomes active with
  the new image. -/
  | liveSwitch
  /-- LIVE_SWITCH_TIMEOUT (R545): No switching boundary within 1 s completes FwActivate with TIMEOUT and reverts the
  standby. -/
  | liveSwitchTimeout
  /-- TRIAL_START (R545): 400 ms after the switch, the former active pair is standby with the new image and the trial
  starts. -/
  | trialStart
  /-- TRIAL_EXPIRY (R546): A trial ending without FwConfirm switches back to the previous image and fires FS003. -/
  | trialExpiry
  /-- EPISODE_CLOSE (R527): With no axis in fault, no safe state and QUIET_MS since the last firing, the episode
  closes. -/
  | episodeClose
  /-- AXIS_RECOVERY (R529): An axis whose recovery conditions all hold recovers, incrementing the tally and writing a
  ledger record. -/
  | axisRecovery (axis : AxisNo)
  /-- RAIL_FAULT_RESTART (R526): 10 ms after safe state from FS015, the device restarts with RESET_CAUSE.RAIL. -/
  | railFaultRestart
  /-- DIE_OVERTEMP (R522): A die above 120 °C or 135 °C junction fires FS007 or FS008. -/
  | dieOvertemp (die : Fin 4) (tempC : Int)
  /-- THERMAL_RESTART (R526): After FS008, once every die is below 115 °C, the device restarts with
  RESET_CAUSE.THERMAL. -/
  | thermalRestart (temps : List Int)
  /-- ROTATION_STEP (R533): At ticks divisible by ROT_TICKS, the fallow lane becomes spare, the spare takes an axis
  and that lane goes fallow, or a pending retire is made. -/
  | rotationStep
  /-- LANE_TEST_DONE (R534): A fallow lane's self-test ends; a pass makes it ready or spare, a fail puts it out of
  service with FS141. -/
  | laneTestDone (ln : LaneNo) (test : LaneTest)
  /-- LANE_ERROR (R535): A lockstep, parity or ECC error in a lane discards its tick, fires FS140 and moves its axis
  to the spare. -/
  | laneError (ln : LaneNo)
  /-- CONVERTER_STANDIN_STEP (R538): A spare's stand-in advances from overlap to delivery to calibration to return on
  its schedule. -/
  | converterStandinStep (spare : Fin 4) (calOk : Bool)
  /-- CONVERTER_ERROR (R539): A converter error makes the spare stand in and fires FS143, or FS145 with no spare free.
  -/
  | converterError (conv : Fin 96) (kind : Fin 4)
  /-- PLOT_MEMORY_ECC_ERROR (R522): A plot memory ECC error is corrected with FS146, or is uncorrectable with FS147 on
  its axis. -/
  | plotMemoryEccError (axis : AxisNo) (word : BitVec 16) (uncorrectable : Bool)
  /-- MRAM_ECC_ERROR (R522): An uncorrectable MRAM error fires FS148. -/
  | mramEccError
  /-- DRAM_CORRECTABLE_RATE (R522): More than 16 correctable DRAM errors in one second fire FS149. -/
  | dramCorrectableRate (count : Nat)
  /-- MP_LOCKSTEP_ERROR (R541): A lockstep error of the active management pair fires FS000, and the standby takes over
  at the next tick boundary. -/
  | mpLockstepError
  /-- MP_WATCHDOG_EXPIRY (R541): The firmware watchdog of the active pair expires, FS009 fires and the standby takes
  over. -/
  | mpWatchdogExpiry
  /-- STANDBY_PAIR_FAILURE (R541): A failure of the standby pair fires FS001 and starts its test. -/
  | standbyPairFailure
  /-- MP_TEST_DONE (R541): A failed pair's test ends, making it standby within 2 s or marking it failed with FS001. -/
  | mpTestDone (pass : Bool)
  /-- SAFETY_ACK (R609): Command SafetyAck (0xA00) clears a lock-out after an accepted SRESET pulse. -/
  | safetyAck (st : Stall) (tag : BitVec 8)
  /-- SAFETY_COMMISSION (R610): Command SafetyCommission (0xA10) opens, verifies, confirms or aborts commissioning. -/
  | safetyCommission (st : Stall) (tag : BitVec 8)
  /-- SAFETY_PARAM_WRITE (R611): Command SafetyParamWrite (0xA11) writes the staging copies of both channels. -/
  | safetyParamWrite (st : Stall) (tag : BitVec 8)
  /-- SAFETY_PARAM_READ (R612): Command SafetyParamRead (0xA12) reads the set in force or the staging set from channel
  B. -/
  | safetyParamRead (st : Stall) (tag : BitVec 8)
  /-- CHANNEL_B_START (R571): Safety channel B starts 2 ms after V24B becomes OK, runs its self-test and loads its
  parameter copy. -/
  | channelBStart
  /-- SAFETY_CHECK_CYCLE (R569): Every 250 µs a channel exchanges data with its partner, evaluates permits and
  targets, and drives its STO lines and OSSD switches. -/
  | safetyCheckCycle (chB : Bool) (inp : CheckInputs)
  /-- SAFETY_INPUT_ACCEPT (R572): A safety input level held for the filter time F is accepted. -/
  | safetyInputAccept (chB : Bool) (n : Fin 16) (level : Bool)
  /-- TEST_PULSE_START (R573): A TP source begins an off pulse of TP_WIDTH at its scheduled instant. -/
  | testPulseStart (n : Fin 4)
  /-- TEST_PULSE_END (R574): At the pulse end each fed input is checked for an off sample, and a miss records TP_MISS
  with FS167. -/
  | testPulseEnd (n : Fin 4) (seenOff : BitVec 16)
  /-- INPUT_DISCREPANCY (R575): Inputs of a pair disagreeing for longer than DISC_MS are an input discrepancy firing
  FS166. -/
  | inputDiscrepancy (pair : Fin 8)
  /-- SRESET_ACCEPT (R576): An SRESET pulse of 0.25 to 3 s is accepted at release, restarting functions and arming the
  acknowledge for 30 s. -/
  | sresetAccept (ms : Nat)
  /-- SRESET_STUCK (R576): SRESET held on beyond 3 s sets SRESET_STUCK and fires FS176. -/
  | sresetStuck
  /-- SRESET_ARM_EXPIRY (R592): The lock-out acknowledge armed by SRESET lapses after 30 s. -/
  | sresetArmExpiry
  /-- TWO_HAND_LAPSE (R579): The second hand not actuated within 500 ms lapses synchronism and fires FS177. -/
  | twoHandLapse (pair : Fin 8)
  /-- SS1_EXPIRY (R582): A channel's SS1 time ends and it asserts its STO line for the zone. -/
  | ss1Expiry (chB : Bool) (zone : Fin 2)
  /-- OSSD_TEST_PULSE (R585): An OSSD output is pulsed off for OSSD_PW and checked through its readback. -/
  | ossdTestPulse (out : Fin 8)
  /-- OSSD_OFF_CHECK (R585): 2.5 ms after switch-off, an OSSD output must read off, or an OSSD readback fault fires
  FS168. -/
  | ossdOffCheck (out : Fin 8) (readOff : Bool)
  /-- SLS_ACT_DELAY_END (R588): ACT_DELAY_MS after activation, an SLS monitor starts its checks. -/
  | slsActDelayEnd (m : Fin 8)
  /-- SLS_DISCREPANCY (R588): Channel speeds differing beyond TOL_PCT, or one unmeasured, for longer than DISC_MS fire
  FS178. -/
  | slsDiscrepancy (m : Fin 8)
  /-- DEGRADED_END (R590): A unit's degraded period ends, its permits fall, SS1 is requested on both zones and
  lock-out follows. -/
  | degradedEnd (unit : Fin 22)
  /-- STO_FB_TIMEOUT (R589): STO_FB not reported within 1 ms of STO assertion is a function fault with FS172, and
  channel B opens the VSAFE feed. -/
  | stoFbTimeout (die : Fin 2)
  /-- SAFETY_TELEGRAM (R598): A received safety telegram is accepted, ignored as a repetition, or rejected with FS175.
  -/
  | safetyTelegram (conn : Fin 64) (bytes : List Byte)
  /-- SAFETY_TELEGRAM_SEND (R600): A CAN producer sends its telegram every SEND_MS after both channels agree on CHECK.
  -/
  | safetyTelegramSend (conn : Fin 64) (agree : Bool)
  /-- CONN_TIMEOUT (R599): No telegram accepted for TEXP_MS sets a connection's data to zeros and fires FS174. -/
  | connTimeout (conn : Fin 64)
  /-- PARAM_CRC_CHECK (R605): Every 10 s each channel recomputes the CRC of its parameter copy. -/
  | paramCrcCheck
  /-- COMMISSION_IDLE_TIMEOUT (R603): 30 minutes without a safety command abort commissioning. -/
  | commissionIdleTimeout
  /-- COMMISSION_CONFIRM_TIMEOUT (R610): CONFIRM without an SRESET pulse within 60 s completes with TIMEOUT and
  commissioning stays open. -/
  | commissionConfirmTimeout
  /-- CODE_BLOCK_EXPIRY (R605): The 10-minute block after five wrong access codes ends. -/
  | codeBlockExpiry
  /-- HRST_RELEASE (R28): HRST_N goes high, and the PCI Express endpoint enters link training within 20 ms of the
  later of this edge and internal reset release. -/
  | hrstRelease
  /-- HOST_READ (R72): A host read of a gap, a burst read past a block end, or a BAR2 or DRAM-window read that meets
  an uncorrectable ECC error returns 0 or poisoned data and sets ACCESS_ERR, OVERRUN or fires FS006. -/
  | hostRead (st : Stall) (dram : Bool) (addr count : Nat) (eccBad : Bool)
  /-- INTERRUPT_REGISTER_WRITE (R104): A write to IRQ_STATUS, IRQ_ENABLE or the MSI-X vector mask changes a stall's
  active interrupt, drives IRQA_N or IRQB_N, and may send an MSI-X message or keep a cause set under R103. -/
  | interruptRegisterWrite (st : Stall) (target : IrqTarget) (value : W32)
  /-- COMMANDED_EDGE (R268): At a commanded edge instant within a switching period, or inside a refresh or chop
  sequence, the outgoing switch is turned off and the interlock dead time of the incoming switch begins. -/
  | commandedEdge (leg : LegNo) (high : Timed Bool)
  /-- GATE_PHASE_END (R275): A gate-drive phase or soft turn-off ends when VGS crosses V_PL_LO, V_PL_HI or VGS_OFF, or
  when its maximum time elapses, and the driver moves to the next phase or to hold. -/
  | gatePhaseEnd (leg : LegNo) (high : Timed Bool)
  /-- REF25_LOSS (R442): The clock on REF25 stops, REF25_OK clears and the local oscillator runs on the internal
  oscillator alone. -/
  | ref25Loss
  /-- CAN_WINDOW_CLOSE (R461): An exclusive window ends, and a windowed frame that has not started waits for the same
  window of the next basic cycle. -/
  | canWindowClose (c : Fin 2) (buf : Fin 32)
  /-- OSSD_PULSE_END (R585): An OSSD test pulse ends after OSSD_PW, the readback must have shown off, and the output
  switches back on unless an off demand came meanwhile. -/
  | ossdPulseEnd (out : Fin 8) (readOff : Bool)
  /-- SAFETY_CHANNEL_FAULT (R589): A lockstep, self-test or program check failure of a safety channel is a function
  fault of the device that switches every OSSD off, asserts STO on both zones and enters lock-out with FS171. -/
  | safetyChannelFault (chB : Bool)
  deriving DecidableEq, Repr

end Sys2Proof
end

