-- ==== Sys2Proof/Config.lean ====
section
/-! DEFINITION. What an implementation fixes, and the free values: constants without a body, so that no proof can
see what they are. -/
namespace Sys2Proof.Config

/-- DEV_ID.GRADE, STEP_LETTER and STEP_DIGIT of this part (03 R81: no reset value given). -/
opaque grade : BitVec 4
/-- DEV_ID.STEP_LETTER of this part (03 R81). -/
opaque stepLetter : BitVec 4
/-- DEV_ID.STEP_DIGIT of this part (03 R81). -/
opaque stepDigit : BitVec 4
/-- SERIAL, the unique module serial number (03 R81). -/
opaque serial : BitVec 64
/-- A free value: what the spec leaves open, one for each draw (State.free counts the draws). -/
opaque freeNat : Nat → Nat
/-- A free result of an operation whose result the spec does not state, as a function of the operands. -/
opaque freeOf : Nat → List Int → Int

/-- Does the board use VBAT (01 R24: optional, both balls tied to GND where it is not used)? -/
opaque vbatUsed : Bool

end Sys2Proof.Config
end

