-- ==== Sys2Proof/Machine/Bits.lean ====
section
/-! DEFINITION. Bit fields of host words, sign extension, rounding and saturation helpers. -/
namespace Sys2Proof.Machine

/-- The unsigned value of bits [hi:lo] of a word. -/
def fld (w : W32) (hi lo : Nat) : Nat := (w.toNat >>> lo) % 2 ^ (hi - lo + 1)
/-- One bit of a word. -/
def bitOf (w : W32) (i : Nat) : Bool := w.toNat.testBit i
/-- The value of a two's-complement number of n bits held in the low bits of v. -/
def signedOf (n v : Nat) : Int := if v % 2 ^ n < 2 ^ (n - 1) then (v % 2 ^ n : Nat) else ((v % 2 ^ n : Nat) : Int) - (2 ^ n : Nat)
/-- The signed value of bits [hi:lo] of a word. -/
def sfld (w : W32) (hi lo : Nat) : Int := signedOf (hi - lo + 1) (fld w hi lo)
/-- The two's-complement pattern of n bits of an integer. -/
def patOf (n : Nat) (v : Int) : Nat := (v % (2 ^ n : Nat)).toNat
/-- A word made of fields, each given as (value, low bit, width). -/
def mkw (fs : List (Nat × Nat × Nat)) : W32 :=
  BitVec.ofNat 32 (fs.foldl (fun acc f => acc + (f.1 % 2 ^ f.2.2) * 2 ^ f.2.1) 0)
/-- One bit as a number. -/
def b2n (b : Bool) : Nat := if b then 1 else 0
/-- Word i of a payload; words beyond its end read 0. -/
def wd (p : List W32) (i : Nat) : W32 := p.getD i 0
/-- Are any of the reserved bits given by a mask set? -/
def rsv (w : W32) (mask : Nat) : Bool := (w.toNat &&& mask) != 0
/-- The unsigned 64-bit value of a low and a high word. -/
def u64 (lo hi : W32) : Nat := hi.toNat * 2 ^ 32 + lo.toNat
/-- The signed 64-bit value of a low and a high word. -/
def s64 (lo hi : W32) : Int := signedOf 64 (u64 lo hi)
/-- The low word of a number taken as 64 bits. -/
def loW (v : Int) : W32 := BitVec.ofNat 32 (patOf 64 v)
/-- The high word of a number taken as 64 bits. -/
def hiW (v : Int) : W32 := BitVec.ofNat 32 (patOf 64 v / 2 ^ 32)
/-- A number as a register word. -/
def nW (v : Nat) : W32 := BitVec.ofNat 32 v
/-- An integer as a register word. -/
def iW (v : Int) : W32 := BitVec.ofNat 32 (patOf 32 v)
/-- Saturation at n bits, unsigned. -/
def satU (n v : Nat) : Nat := min v (2 ^ n - 1)
/-- Saturation at n bits, two's complement. -/
def satS (n : Nat) (v : Int) : Int := max (-(2 ^ (n - 1) : Nat)) (min v ((2 ^ (n - 1) : Nat) - 1))
/-- A clamp to an interval. -/
def clampI (lo hi v : Int) : Int := max lo (min v hi)
/-- The quotient rounded up. -/
def cdiv (a b : Nat) : Nat := (a + b - 1) / b
/-- The quotient of integers rounded to nearest, halves away from zero. -/
def rdiv (a : Int) (b : Nat) : Int :=
  if a < 0 then -(((a.natAbs * 2 + b) / (2 * b) : Nat) : Int) else ((a.natAbs * 2 + b) / (2 * b) : Nat)
/-- The quotient of integers rounded down. -/
def fdivI (a : Int) (b : Nat) : Int := Int.fdiv a b
/-- The members of a bit mask below n, ascending. -/
def bitsOf (n mask : Nat) : List Nat := (List.range n).filter (fun i => mask.testBit i)
/-- The mask of a list of bit numbers. -/
def maskOf (l : List Nat) : Nat := l.foldl (fun m i => m ||| 2 ^ i) 0
/-- The axis with a given number, taken modulo 16. -/
def ax (n : Nat) : AxisNo := Fin.ofNat 16 n
/-- The leg with a given number, taken modulo 48. -/
def lg (n : Nat) : LegNo := Fin.ofNat 48 n
/-- Every axis, ascending. -/
def allAxes : List AxisNo := List.finRange 16
/-- Every stall, ascending. -/
def allStalls : List Stall := List.finRange 8

/-- The four bytes of a word, least significant first. -/
def wordBytes (w : W32) : List Byte := (List.range 4).map (fun i => (w >>> (8 * i)).setWidth 8)
/-- The bytes of words, each least significant byte first. -/
def bytesOf (ws : List W32) : List Byte := ws.flatMap wordBytes
/-- A number from bytes, the least significant first. -/
def leNat : List Byte → Nat
  | [] => 0
  | b :: bs => b.toNat + 256 * leNat bs
/-- A number from bytes, the most significant first. -/
def beNat (bs : List Byte) : Nat := bs.foldl (fun acc b => acc * 256 + b.toNat) 0
/-- Words from bytes, four a word, least significant first; a last word is filled with zeros. -/
def wordsOf (n : Nat) (bs : List Byte) : List W32 := (List.range n).map (fun i => nW (leNat ((bs.drop (4 * i)).take 4)))
/-- n bytes of a number, the most significant first. -/
def beBytes (n v : Nat) : List Byte := (List.range n).map (fun i => BitVec.ofNat 8 (v / 256 ^ (n - 1 - i)))
/-- A quotient rounded to nearest with ties toward +∞. -/
def rdivUp (a : Int) (b : Nat) : Int := Int.fdiv (2 * a + b) (2 * b)
/-- CRC-32C over bytes (05 R171): reflected polynomial 0x82F63B78, start and final value all ones. -/
def crc32c (bs : List Byte) : W32 := bs.foldl step 0xFFFFFFFF ^^^ 0xFFFFFFFF
where
  shift (c : W32) : W32 := if c.getLsbD 0 then (c >>> 1) ^^^ 0x82F63B78 else c >>> 1
  step (c : W32) (b : Byte) : W32 :=
    (List.range 8).foldl (fun c _ => shift c) (c ^^^ b.setWidth 32)

end Sys2Proof.Machine
end

