-- ==== Sys2Proof/Machine/Mem.lean ====
section
/-! DEFINITION. Sparse memories: a list of (index, value) pairs in one canonical form, indexes strictly rising and no
entry equal to what an unlisted index reads as. Used for DRAM, plot memory, local memories and tables. -/
namespace Sys2Proof.Machine

/-- A sparse memory of cells of type α. -/
abbrev Mem (α : Type) := List (Nat × α)

variable {α : Type} [DecidableEq α]

/-- What index k reads as; an unlisted index reads d. -/
def Mem.read (d : α) : Mem α → Nat → α
  | [], _ => d
  | (j, v) :: m, k => if j = k then v else if k < j then d else Mem.read d m k

/-- Writing one cell, keeping the canonical form: writing d removes the entry. -/
def Mem.write (d : α) : Mem α → Nat → α → Mem α
  | [], k, v => if v = d then [] else [(k, v)]
  | (j, u) :: m, k, v =>
    if j = k then (if v = d then m else (k, v) :: m)
    else if k < j then (if v = d then (j, u) :: m else (k, v) :: (j, u) :: m)
    else (j, u) :: Mem.write d m k v

/-- Does the canonical form hold, with every index at least lo? -/
def Mem.wfFrom (d : α) : Nat → Mem α → Bool
  | _, [] => true
  | lo, (j, v) :: m => decide (lo ≤ j) && decide (v ≠ d) && Mem.wfFrom d (j + 1) m

/-- The canonical form of a sparse memory. -/
def Mem.wf (d : α) (m : Mem α) : Bool := Mem.wfFrom d 0 m

/-- Writing consecutive cells from index k on. -/
def Mem.writes (d : α) (m : Mem α) (k : Nat) : List α → Mem α
  | [] => m
  | v :: vs => Mem.writes d (Mem.write d m k v) (k + 1) vs

/-- Reading n consecutive cells from index k on. -/
def Mem.reads (d : α) (m : Mem α) (k : Nat) : Nat → List α
  | 0 => []
  | n + 1 => Mem.read d m k :: Mem.reads d m (k + 1) n

/-- DRAM (10 R371): bytes by address in the form of Host.Cell; an unlisted byte reads 0 (DESIGN CHOICE, log entry 3). -/
abbrev Memory := Mem Byte

/-- The canonical form of DRAM. -/
def Memory.wf (m : Memory) : Bool := Mem.wf 0 m
/-- A byte of DRAM. -/
def Memory.byte (m : Memory) (a : Nat) : Byte := Mem.read 0 m a

end Sys2Proof.Machine
end

