-- ==== Sys2Proof/Machine/StTick.lean ====
section
/-! DEFINITION. State of the tick generator and the cycle budget (spec 02), and network-time stamps. -/
namespace Sys2Proof.Machine

/-- Network time in the format of 00 R9: 48-bit seconds, nanoseconds, and a 16-bit fraction of a nanosecond. -/
structure NetTime where
  sec : BitVec 48
  ns : BitVec 32
  frac : BitVec 16
  deriving DecidableEq, Repr

/-- The instant zero of network time. -/
def NetTime.zero : NetTime := ⟨0, 0, 0⟩

/-- State of the tick generator, SYNC_STATE (02 R54). -/
inductive SyncState where
  | free | acquire | locked | holdover
  deriving DecidableEq, Repr

/-- A tick, frame and cycle configuration (02 R51). -/
structure TickConf where
  tickClks : BitVec 15
  frameTicks : BitVec 5
  cycleFrames : BitVec 7
  deriving DecidableEq, Repr

/-- An accepted TickSet that waits for its epoch (02 R66, R67). -/
structure PendingTickSet where
  conf : TickConf
  epoch : NetTime
  deriving DecidableEq, Repr

/-- Measured cycles of an axis, AXIS_PEAK (02 R62, R65). -/
structure AxisPeak where
  overruns : BitVec 8
  peakAbove : Bool
  peak : BitVec 16
  deriving DecidableEq, Repr

/-- The tick generator and the cycle budget (02 R47 to R68). -/
structure TickUnit where
  conf : TickConf
  num : BitVec 64
  /-- Ticks since start: the model's own count, for limits counted in ticks, since a TickSet restarts the tick number. -/
  age : Nat
  /-- Network cycles begun since start: the model's own count, as age. -/
  cycles : Nat
  /-- PHASE_ERR in ns, signed, saturating at ±32,767. -/
  phaseErr : BitVec 16
  tickSkip : Bool
  slewing : Bool
  sync : SyncState
  epoch : NetTime
  pendingSet : Option PendingTickSet
  /-- ADMITTED of each axis (AXIS_COST). -/
  admitted : Vector (BitVec 16) 16
  peaks : Vector AxisPeak 16
  /-- The axis overran in the previous tick (R61). -/
  overran : Vector Bool 16
  /-- Consecutive network cycles with a phase error within ±8 ns (R54). -/
  goodCycles : Nat
  /-- Lane clocks spent in HOLDOVER (R54). -/
  holdoverClks : Nat
  /-- Lane clocks of the tick that ended last (R55, R66). -/
  len : Nat
  /-- The epoch of a TickSet has ended the last tick; the boundary's other work follows at the same instant (R66). -/
  ended : Bool
  /-- A TickSet was replaced in a lengthened tick past its normal end: it ends at the next boundary of the present grid
  (R66). -/
  late : Bool
  deriving DecidableEq, Repr

/-- Table 2 of 02 R65 at reset: TICK_CONFIG 0x0804_0FA0, everything else 0. -/
def TickUnit.reset : TickUnit where
  conf := ⟨4000, 4, 8⟩
  num := 0
  age := 0
  cycles := 0
  phaseErr := 0
  tickSkip := false
  slewing := false
  sync := .free
  epoch := .zero
  pendingSet := none
  admitted := Vector.replicate 16 0
  peaks := Vector.replicate 16 ⟨0, false, 0⟩
  overran := Vector.replicate 16 false
  goodCycles := 0
  holdoverClks := 0
  len := 0
  ended := false
  late := false

end Sys2Proof.Machine
end

