-- ==== Sys2Proof/Machine/StCan.lean ====
section
/-! DEFINITION. State of the CAN FD controllers and the S6 gateway (spec 12). -/
namespace Sys2Proof.Machine

/-- RESULT of a transmit buffer (12 R479). -/
inductive CanResult where
  | empty | pending | onBus | sent | aborted | expired
  deriving DecidableEq, Repr

/-- A frame to send (12 R482). -/
structure CanTx where
  frame : CanFrame
  int : Bool
  window : Bool
  winStart : BitVec 16
  winLen : BitVec 16
  /-- Clock at which the lifetime ends; none without one. -/
  expiry : Option Nat
  deriving DecidableEq, Repr

/-- A transmit buffer (12 R458 to R461). -/
structure CanBuf where
  result : CanResult
  /-- The frame pending or on the bus. -/
  tx : Option CanTx
  /-- The frame on the bus is aborted; the new one waits (R460). -/
  aborting : Bool
  next : Option CanTx
  /-- Reserved by a safety connection, and its number (R472). -/
  safety : Option (Fin 64)
  winOpen : Bool
  deriving DecidableEq, Repr

def CanBuf.reset : CanBuf := ⟨.empty, none, false, none, none, false⟩

/-- A host receive filter (12 R481). -/
structure CanFilter where
  en : Bool
  ide : Bool
  id : BitVec 29
  mask : BitVec 29
  deriving DecidableEq, Repr

/-- A received frame in the FIFO (12 R463). -/
structure CanRx where
  frame : CanFrame
  filter : BitVec 5
  stamp : NetTime
  deriving DecidableEq, Repr

/-- CAN_STATUS.STATE (12 R479). -/
inductive CanState where
  | off | integrating | active | passive | busOff | recovering
  deriving DecidableEq, Repr

/-- The time-master role (12 R485): ROLE, PRIO, IDE, BASIC_TICKS, REF_ID_BASE, REF_WINDOW_US, ALONE_N, GUARD_US. -/
structure CanRole where
  role : BitVec 2
  prio : BitVec 3
  ide : Bool
  basic : BitVec 20
  refBase : BitVec 29
  windowUs : BitVec 16
  aloneN : BitVec 8
  guardUs : BitVec 8
  deriving DecidableEq, Repr

def CanRole.none : CanRole := ⟨0, 0, false, 0, 0, 0, 0, 0⟩

/-- One controller (12 R455 to R472, R477, R479). -/
structure CanCtl where
  state : CanState
  conf : Vector W32 4
  tec : BitVec 9
  recCnt : BitVec 8
  busoffCnt : BitVec 8
  event : BitVec 14
  /-- The warning of TEC and REC has been given and the counter has not fallen below the threshold since (R464). -/
  tecWarned : Bool
  recWarned : Bool
  filters : Vector CanFilter 32
  /-- Filters from the next tick boundary on (R462). -/
  filtersNext : Vector CanFilter 32
  fifo : List CanRx
  bufs : Vector CanBuf 32
  /-- The buffer whose frame is on the bus: 0 to 31 host, 32 gateway, 33 reference. -/
  onBus : Option Nat
  held : Option Nat
  role : CanRole
  roleNext : Option CanRole
  /-- The reference message of this cycle is pending. -/
  refPending : Bool
  masterActive : Bool
  alone : Bool
  unacked : BitVec 8
  cycleCount : BitVec 6
  arrivalUs : BitVec 16
  /-- This basic cycle's reference message: sent and acknowledged, or received. -/
  refAcked : Bool
  refSeen : Bool
  /-- Consecutive basic cycles without a reference message. -/
  missRun : Nat
  /-- The own reference message lost arbitration in this cycle. -/
  lostRef : Bool
  /-- The guard interval before the next basic cycle runs. -/
  guarding : Bool
  /-- Clock and tick of the last basic-cycle start. -/
  basicClk : Nat
  basicTick : Nat
  /-- A STOP that waits for the frame on the bus: its command. -/
  stopping : Option (Stall × BitVec 8)
  deriving DecidableEq, Repr

def CanCtl.reset : CanCtl where
  state := .off
  conf := Vector.replicate 4 0
  tec := 0
  recCnt := 0
  busoffCnt := 0
  event := 0
  tecWarned := false
  recWarned := false
  filters := Vector.replicate 32 ⟨false, false, 0, 0⟩
  filtersNext := Vector.replicate 32 ⟨false, false, 0, 0⟩
  fifo := []
  bufs := Vector.replicate 32 CanBuf.reset
  onBus := none
  held := none
  role := CanRole.none
  roleNext := none
  refPending := false
  masterActive := false
  alone := false
  unacked := 0
  cycleCount := 0
  arrivalUs := 0
  refAcked := false
  refSeen := false
  missRun := 0
  lostRef := false
  guarding := false
  basicClk := 0
  basicTick := 0
  stopping := none

/-- A gateway frame to send (12 R473): its 16 words, whether it ends a response, and whether it is an IRQ frame. -/
structure GwFrame where
  words : List W32
  endsRsp : Bool
  irq : Bool
  deriving DecidableEq, Repr

/-- The S6 gateway (12 R473 to R476). -/
structure Gateway where
  /-- The controller it is enabled on. -/
  ctrl : Option (Fin 2)
  ide : Bool
  brs : Bool
  reqId : BitVec 29
  rspId : BitVec 29
  txSeq : BitVec 4
  /-- SEQ expected next from the master. -/
  rxSeq : BitVec 4
  /-- A partial request: its OP and the words received. -/
  part : Option (BitVec 2 × List W32)
  txQ : List GwFrame
  /-- The value last sent in an IRQ frame, an IRQ frame is pending, and a cause was set since the last one. -/
  irqSent : W32
  irqPending : Bool
  irqAgain : Bool
  /-- An IRQ frame has been sent since the last frame boundary. -/
  irqHold : Bool
  deriving DecidableEq, Repr

def Gateway.reset : Gateway := ⟨none, false, false, 0, 0, 0, 0, none, [], 0, false, false, false⟩

/-- Both controllers and the gateway. -/
structure Can where
  ctl : Vector CanCtl 2
  gw : Gateway
  deriving DecidableEq, Repr

def Can.reset : Can := ⟨Vector.replicate 2 CanCtl.reset, Gateway.reset⟩

end Sys2Proof.Machine
end

