-- ==== Sys2Proof/Machine/StCap.lean ====
section
/-! DEFINITION. State of the converter results, the capture units, the capture pool and the DMA channels (spec 10). -/
namespace Sys2Proof.Machine

/-- State of a capture unit, CAP_STATUS.STATE (10 Table 10.4). -/
inductive CapState where
  | free | idle | pre | waiting | post | halted | done
  deriving DecidableEq, Repr

/-- An event that a trigger stage may test (10 R403 COND 7 to 9), with its stamp where it has one. -/
inductive CapEvent where
  | probe (p : Fin 16) (rising : Bool) (stamp : NetTime)
  | input (n : Fin 32) (rising : Bool) (stamp : NetTime)
  | fault (src : Nat)
  deriving DecidableEq, Repr

/-- A trigger (10 R386, R387): the tick it asks for, its TRIG_SRC, its stamp where it brings one, and the ring address
whose trigger it is. -/
structure CapTrig where
  tick : Nat
  src : Fin 4
  stamp : Option NetTime
  node : BitVec 10
  deriving DecidableEq, Repr

/-- One capture unit CU0 to CU7 (10 R381 to R390, R399, R400). -/
structure CapUnit where
  state : CapState
  seg : BitVec 8
  claimed : Bool
  stall : Stall
  stage : BitVec 2
  ringLate : Bool
  clamped : Bool
  ringSkip : Bool
  done : BitVec 32
  base : BitVec 64
  segBytes : BitVec 32
  /-- Words of CaptureConfig in force, empty before the first. -/
  conf : List W32
  /-- Stages of CaptureTrigger in force, four words each, and its header word. -/
  trigHead : W32
  trig : List (List W32)
  /-- PRE and POST in force, clamped by R381 when the configuration was taken. -/
  preN : Nat
  postN : Nat
  /-- Records written since the arming of the present segment. -/
  written : Nat
  /-- Tick of the first record since arming, and of the newest one. -/
  firstTick : Nat
  lastTick : Nat
  /-- The trigger that cuts the present segment. -/
  trigger : Option CapTrig
  /-- Records written from the trigger record on. -/
  post : Nat
  /-- Triggers that wait for their record: forces, ring events, the last stage's timeout. -/
  pendTrig : List CapTrig
  /-- Tick in which the present stage was entered, and how often its condition has held since. -/
  stageTick : Nat
  stageCount : Nat
  /-- A crossing condition of the present stage is armed. -/
  crossArmed : Bool
  /-- Events of the ticks since the last record. -/
  events : List CapEvent
  /-- Sums of averaged channels since the last record, one per channel. -/
  accum : List Int
  /-- A tick since the last record was discarded (DISC). -/
  disc : Bool
  /-- Tick in which the unit entered state 3 (auto mode). -/
  waitTick : Nat
  /-- STOP came in state 4: the unit goes to state 1 after the segment. -/
  stopAfter : Bool
  /-- A trigger event not yet sent on the ring. -/
  ringOut : Option CapTrig
  deriving DecidableEq, Repr

def CapUnit.reset : CapUnit where
  state := .free
  seg := 0
  claimed := false
  stall := 0
  stage := 0
  ringLate := false
  clamped := false
  ringSkip := false
  done := 0
  base := 0
  segBytes := 0
  conf := []
  trigHead := 0
  trig := []
  preN := 0
  postN := 0
  written := 0
  firstTick := 0
  lastTick := 0
  trigger := none
  post := 0
  pendTrig := []
  stageTick := 0
  stageCount := 0
  crossArmed := false
  events := []
  accum := []
  disc := false
  waitTick := 0
  stopAfter := false
  ringOut := none

/-- State of a DMA channel, DMA_STATUS.STATE (10 R401). -/
inductive DmaState where
  | idle | running | halted
  deriving DecidableEq, Repr

/-- One DMA channel DC0 to DC7 (10 R391 to R398, R401). -/
structure DmaChan where
  state : DmaState
  claimed : Bool
  stall : Stall
  skipBad : Bool
  fetchErr : Bool
  desc : BitVec 64
  cur : BitVec 64
  irq : BitVec 3
  irqEn : BitVec 3
  doneCnt : BitVec 32
  /-- Words of the descriptor in progress. -/
  words : List W32
  /-- An abort whose effect is to come, and a release that waits for the halt. -/
  abort : Bool
  release : Bool
  deriving DecidableEq, Repr

def DmaChan.reset : DmaChan where
  state := .idle
  claimed := false
  stall := 0
  skipBad := false
  fetchErr := false
  desc := 0
  cur := 0
  irq := 0
  irqEn := 0
  doneCnt := 0
  words := []
  abort := false
  release := false

/-- One converter or leg result (10 R372 to R376, R402). -/
structure LegConv where
  gated : Bool
  held : Bool
  nUsed : BitVec 9
  /-- Averaged result, 20 bits signed. -/
  result : Int
  deriving DecidableEq, Repr

def LegConv.reset : LegConv := ⟨false, false, 0, 0⟩

/-- Trims of one converter (10 R377 to R379). -/
structure ConvTrim where
  skewTrim : BitVec 10
  skewCal : BitVec 10
  deriving DecidableEq, Repr

def ConvTrim.reset : ConvTrim := ⟨0, 0⟩

/-- Capture and data movement (spec 10). -/
structure Capture where
  units : Vector CapUnit 8
  dma : Vector DmaChan 8
  legs : Vector LegConv 48
  trims : Vector ConvTrim 96
  /-- Averaging mode and settling time of each axis (ADC_CONFIG). -/
  avgMode : Vector Bool 16
  lsSettle : Vector (BitVec 8) 16
  /-- Skew calibrations in progress: die, and the command that asked. -/
  skewRun : Vector (Option (Stall × BitVec 8)) 2
  /-- Values that a calibration has found, waiting for the tick boundary (R376). -/
  skewNew : Vector (Option (List Int)) 2
  deriving DecidableEq, Repr

def Capture.reset : Capture where
  units := Vector.replicate 8 CapUnit.reset
  dma := Vector.replicate 8 DmaChan.reset
  legs := Vector.replicate 48 LegConv.reset
  trims := Vector.replicate 96 ConvTrim.reset
  avgMode := Vector.replicate 16 false
  lsSettle := Vector.replicate 16 0
  skewRun := Vector.replicate 2 none
  skewNew := Vector.replicate 2 none

end Sys2Proof.Machine
end

