-- ==== Sys2Proof/Machine/StFb.lean ====
section
/-! DEFINITION. State of the feedback sources, excitation outputs, probes and emulation outputs (spec 07). Positions are
integers in 2^-20 turn; speeds are integers in 2^-30 turn/s; times are lane clocks of the model clock (one feedback
sample is two lane clocks). -/
namespace Sys2Proof.Machine

/-- Sync state of a tooth-wheel source (07 R242). -/
inductive ToothSync where
  | search | synced | lost
  deriving DecidableEq, Repr

/-- The outcome of a serial exchange, until the next tick boundary takes it (07 R250, R251): single-turn and multi-turn
values, a bad sample, or an encoder error. -/
inductive SerialSample where
  | good (st mt : Nat)
  | bad
  | encErr
  deriving DecidableEq, Repr

/-- Extremes over a signal period, least and greatest: of sine and cosine as sampled, and of the sum and the difference of the
two after offset and gain (07 R243). -/
structure ScExtremes where
  s : Int × Int
  c : Int × Int
  sum : Int × Int
  diff : Int × Int
  deriving DecidableEq, Repr

/-- The trims of a sin/cos source (07 R243): offsets in 2^-16 of a sample's last bit, gains and quadrature phase in 2^-16;
the extremes of the period in progress, and the quadrants that it has turned. -/
structure ScTrim where
  offS : Int
  offC : Int
  gainS : Int
  gainC : Int
  skew : Int
  ext : Option ScExtremes
  turned : Int
  deriving DecidableEq, Repr

/-- Neutral trims. -/
def ScTrim.neutral : ScTrim := ⟨0, 0, 2 ^ 16, 2 ^ 16, 0, none, 0⟩

/-- One feedback source: EG00 to EG15, then ESP00 to ESP15 (07 R225 to R252, R258). -/
structure FbSource where
  /-- FbConfig words 0 to 4 in force. -/
  conf : Vector W32 5
  alarm : Bool
  syncLost : Bool
  trackLost : Bool
  ampErr : Bool
  fbValid : Bool
  speedValid : Bool
  dirNeg : Bool
  inferred : Bool
  qerr : Bool
  indexSeen : Bool
  indexDev : Bool
  hallErr : Bool
  serErr : Bool
  encErr : Bool
  encWarn : Bool
  excErr : Bool
  bridgeRun : BitVec 3
  qerrCnt : BitVec 8
  qinfCnt : BitVec 8
  serBadCnt : BitVec 8
  indexDevCnt : BitVec 8
  /-- Position delivered at the last tick boundary, and at the one before. -/
  pos : Int
  prevPos : Int
  prevValid : Bool
  speed : Int
  idxPos : Int
  syncCorr : Int
  amp : BitVec 16
  /-- The sample of the last boundary was bridged. -/
  bridged : Bool
  /-- Offset added to the source's own position (FbPosSet R262, homing). -/
  offset : Int
  -- edge modes (R232 to R242)
  count : Int
  firstIdx : Option Int
  /-- Levels of pairs 0 to 3 after the filter, as far as an event has told them. -/
  lineA : Bool
  lineB : Bool
  lineC : Bool
  lineAlarm : Bool
  /-- Edges since the last standstill or reversal, newest first: (count, clock). -/
  edges : List (Int × Nat)
  lastEdge : Nat
  /-- No edge yet, or standstill (R237); in analog and serial modes: no sample yet. -/
  still : Bool
  /-- The speed estimate of R236 in counts per lane clock, as a fraction; 0 while SPEED_VALID is 0. -/
  vNum : Int
  vDen : Nat
  hallSector : Nat
  /-- Before the first Hall transition the position stands in the middle of the sector (R240). -/
  hallMid : Bool
  sync : ToothSync
  /-- Count of the last reference tooth (R242). -/
  refCount : Option Int
  /-- Clocks of the last interval between teeth. -/
  interval : Nat
  /-- The next tooth is the reference (an extra pulse has been seen, R241). -/
  refNext : Bool
  /-- Correction held until the last bridge goes off (R242), in teeth of the count; the offset then ends. -/
  heldCorr : Option Int
  -- sin/cos and resolver (R243 to R246)
  periods : Int
  /-- Quadrant of the last sample. -/
  quad : Option Nat
  trim : ScTrim
  /-- Period tracking is lost until a configuration or FbPosSet (R243). -/
  untracked : Bool
  -- serial (R247 to R252)
  exchange : Bool
  /-- Sample instant of the exchange in progress or last ended, and its outcome. -/
  exchClk : Nat
  reply : Option SerialSample
  /-- Latest valid sample: position without offset, clock of its instant. -/
  sample : Int
  sampleClk : Nat
  /-- Consecutive valid or bridged samples, up to 2; of those, the valid ones, up to 2; consecutive bad ones. -/
  goodRun : Nat
  validRun : Nat
  badRun : Nat
  lastSt : Nat
  lastMt : Nat
  turns : Int
  deriving DecidableEq, Repr

def FbSource.reset : FbSource where
  conf := Vector.replicate 5 0
  alarm := false
  syncLost := false
  trackLost := false
  ampErr := false
  fbValid := false
  speedValid := false
  dirNeg := false
  inferred := false
  qerr := false
  indexSeen := false
  indexDev := false
  hallErr := false
  serErr := false
  encErr := false
  encWarn := false
  excErr := false
  bridgeRun := 0
  qerrCnt := 0
  qinfCnt := 0
  serBadCnt := 0
  indexDevCnt := 0
  pos := 0
  prevPos := 0
  prevValid := false
  speed := 0
  idxPos := 0
  syncCorr := 0
  amp := 0
  bridged := false
  offset := 0
  count := 0
  firstIdx := none
  lineA := false
  lineB := false
  lineC := false
  lineAlarm := false
  edges := []
  lastEdge := 0
  still := true
  vNum := 0
  vDen := 1
  hallSector := 7
  hallMid := false
  sync := .search
  refCount := none
  interval := 0
  refNext := false
  heldCorr := none
  periods := 0
  quad := none
  trim := ScTrim.neutral
  untracked := false
  exchange := false
  exchClk := 0
  reply := none
  sample := 0
  sampleClk := 0
  goodRun := 0
  validRun := 0
  badRun := 0
  lastSt := 0
  lastMt := 0
  turns := 0

/-- An excitation output (07 R245, R261): ExcConfig words in force, the change that waits for a zero crossing, and
whether an overload switched it off. -/
structure ExcOut where
  freq : BitVec 15
  ampl : BitVec 7
  en : Bool
  pending : Option (BitVec 15 × BitVec 7)
  overloaded : Bool
  deriving DecidableEq, Repr

def ExcOut.reset : ExcOut := ⟨0, 0, false, none, false⟩

/-- An entry of a probe (07 R253). -/
structure ProbeEntry where
  stamp : NetTime
  /-- The clock of the edge, for the interpolation between boundaries. -/
  clk : Nat
  rising : Bool
  /-- The latch source of the probe at the edge. -/
  src : BitVec 6
  /-- The position, in modes 1 and 3 the one so far, until it is known. -/
  pos : Int
  posValid : Bool
  known : Bool
  readable : Bool
  deriving DecidableEq, Repr

/-- One probe input (07 R253, R254, R258, R264). -/
structure Probe where
  filt : BitVec 8
  src : BitVec 6
  edge : BitVec 2
  ovf : Bool
  /-- Unread entries, oldest first, at most four. -/
  entries : List ProbeEntry
  /-- The newest entry, also after it was read (PRB_NS, PRB_POS). -/
  newest : Option ProbeEntry
  /-- The level of the input after its filter. -/
  level : Bool
  /-- Entries with a valid position that became readable since the last frame boundary: clock and position (09 R312). -/
  fresh : List (Nat × Int)
  deriving DecidableEq, Repr

def Probe.reset : Probe := ⟨0, 63, 0, false, [], none, false, []⟩

/-- One emulation output (07 R255, R256, R266). -/
structure EmuOut where
  en : Bool
  ref : Bool
  dirInv : Bool
  cpr : BitVec 24
  zpos : BitVec 20
  maxRate : BitVec 8
  /-- Output count at the last tick boundary, and the steps that the tick in progress adds to it, signed. -/
  count : Int
  plan : Int
  /-- Counts that the tick in progress leaves for the next one. -/
  carry : Nat
  /-- Part of a step's shortest spacing that had passed when the tick began, in steps of 1/512, while MAX_RATE limits the
  output; and that will have passed when it ends. -/
  slack : Nat
  slackEnd : Nat
  /-- MAX_RATE limits the steps of the tick in progress. -/
  limited : Bool
  /-- Output count less target count, and the plot the output last followed: an output that moves between plots keeps its
  count (04 Table 4.4). -/
  base : Int
  axis : Option AxisNo
  lag : BitVec 16
  /-- The output follows its plot's position: enabled, held, and its count set. -/
  active : Bool
  /-- The plot holds the output from this tick on: its first commit gives the count to start or to go on from. -/
  settling : Bool
  deriving DecidableEq, Repr

def EmuOut.reset : EmuOut := ⟨false, false, false, 0, 0, 0, 0, 0, 0, 0, 0, false, 0, none, 0, false, false⟩

/-- The feedback block (spec 07). -/
structure Feedback where
  src : Vector FbSource 32
  exc : Vector ExcOut 4
  probes : Vector Probe 16
  emu : Vector EmuOut 4
  deriving DecidableEq, Repr

def Feedback.reset : Feedback :=
  ⟨Vector.replicate 32 FbSource.reset, Vector.replicate 4 ExcOut.reset, Vector.replicate 16 Probe.reset,
   Vector.replicate 4 EmuOut.reset⟩

end Sys2Proof.Machine
end

