-- ==== Sys2Proof/Machine/StCtl.lean ====
section
/-! DEFINITION. State of the standard control laws of an axis (spec 06). Signals are integers in units of their format's
last bit: Q1.19 signals in 2^-19 of full scale, positions in 2^-20 turn, integrators in 2^-38 of full scale. -/
namespace Sys2Proof.Machine

/-- The signals of 06 Table 6.2 that the laws write and that hold over a frame, and the OUT block. -/
structure Signals where
  vbus : Int
  iLeg : Vector Int 4
  iPh : Vector Int 4
  iAlpha : Int
  iBeta : Int
  iD : Int
  iQ : Int
  posPri : Int
  velEst : Int
  loadEst : Int
  posErr : Int
  velErr : Int
  posSec : Int
  velSec : Int
  angleE : Int
  angleStep : Int
  posRef : Int
  velFf : Int
  accFf : Int
  idRef : Int
  iqRef : Int
  trqSet : Int
  repOut : Int
  velRef : Int
  uD : Int
  uQ : Int
  uLimit : Int
  exc : Int
  duty : Vector Int 4
  legMask : BitVec 4
  chopA : Int
  chopB : Int
  speedValid : Bool
  deriving DecidableEq, Repr

def Signals.zero : Signals where
  vbus := 0
  iLeg := Vector.replicate 4 0
  iPh := Vector.replicate 4 0
  iAlpha := 0
  iBeta := 0
  iD := 0
  iQ := 0
  posPri := 0
  velEst := 0
  loadEst := 0
  posErr := 0
  velErr := 0
  posSec := 0
  velSec := 0
  angleE := 0
  angleStep := 0
  posRef := 0
  velFf := 0
  accFf := 0
  idRef := 0
  iqRef := 0
  trqSet := 0
  repOut := 0
  velRef := 0
  uD := 0
  uQ := 0
  uLimit := 0
  exc := 0
  duty := Vector.replicate 4 0
  legMask := 0
  chopA := 0
  chopB := 0
  speedValid := false

/-- State of one biquad (06 R195): past inputs and outputs in 2^-19, and the rounding residual in 2^-36. -/
structure Biquad where
  x1 : Int
  x2 : Int
  y1 : Int
  y2 : Int
  res : Int
  deriving DecidableEq, Repr

def Biquad.zero : Biquad := ⟨0, 0, 0, 0, 0⟩

/-- An excitation that runs (06 R214, R223). -/
structure Excitation where
  wave : BitVec 2
  point : BitVec 2
  ampl : Int
  f0 : Nat
  f1 : Nat
  /-- Duration and elapsed samples at the rate of the point. -/
  durMs : Nat
  samples : Nat
  startClk : Nat
  /-- The last sample, for frame-rate points between frames. -/
  last : Int
  deriving DecidableEq, Repr

/-- A winding measurement that runs (06 R215, R224). Its stages: 0 the steady voltage at I_TEST ÷ 2, 1 that at I_TEST, 2 the
current slope of a voltage step, 3 the square current on the q axis or the step on phase B, 4 ended. -/
structure Identify where
  iTest : Int
  bwHz : Nat
  stall : Stall
  tag : BitVec 8
  startClk : Nat
  stage : Fin 5
  stageClk : Nat
  /-- The position at the start, from the first tick on. -/
  pos0 : Option Int
  /-- The steady voltages of stages 0 and 1, and the current has reached I_TEST. -/
  u1 : Int
  u2 : Int
  reached : Bool
  /-- The voltage step, and the current at its start and at its end with the clocks between; the same of phase B. -/
  uStep : Int
  i0 : Int
  i1 : Int
  iClks : Nat
  j0 : Int
  j1 : Int
  jClks : Nat
  /-- RESULT. -/
  result : BitVec 8
  deriving DecidableEq, Repr

/-- A measurement at its start. -/
def Identify.begin (iTest : Int) (bwHz : Nat) (st : Stall) (tag : BitVec 8) (clk : Nat) : Identify :=
  ⟨iTest, bwHz, st, tag, clk, 0, clk, none, 0, 0, false, 0, 0, 0, 0, 0, 0, 0, 0⟩

/-- A check of 06 Table 6.5: its counter, whether its source is due to fire. -/
structure PlausCheck where
  cnt : BitVec 8
  due : Bool
  deriving DecidableEq, Repr

/-- One copy of a learned-table slot in MRAM (06 R209). -/
structure SlotCopy where
  valid : Bool
  tableId : W32
  period : Nat
  origin : Int
  src : Bool
  count : Nat
  table : Mem W20
  deriving DecidableEq, Repr

def SlotCopy.empty : SlotCopy := ⟨false, 0, 0, 0, false, 0, []⟩

/-- The repetitive controller of an axis (06 R204 to R210, R217). -/
structure Rep where
  /-- RepConfig words 0 to 5. -/
  conf : Vector W32 6
  table : Mem W20
  frozen : Bool
  sat : Bool
  fast : Bool
  restored : Bool
  learning : Bool
  /-- A save is in progress: the slot it goes to, and the command that asked, none for an automatic save. -/
  storing : Option (Nat × Option (Stall × BitVec 8))
  /-- What a save in progress stores: the state at the frame boundary of its start (R210). -/
  draft : SlotCopy
  /-- Clock by which the copy of a save in progress has been taken: learning is paused until then (R210). -/
  copyEnd : Nat
  /-- Frames since the controller was enabled, up to 256. -/
  enabledFrames : Nat
  /-- The next two hold: a frame of this PERIOD, ORIGIN and SRC has been run. -/
  primed : Bool
  /-- Period position and learning signal of the previous frame. -/
  prevPos : Int
  prevErr : Int
  bin : BitVec 12
  /-- Clock of the last automatic save. -/
  lastSave : Nat
  deriving DecidableEq, Repr

def Rep.reset : Rep :=
  ⟨Vector.replicate 6 0, [], false, false, false, false, false, none, SlotCopy.empty, 0, 0, false, 0, 0, 0, 0⟩

/-- What the laws of one axis read in a tick besides their own state (05 R137). -/
structure LawEnv where
  a : AxisNo
  t : Nat
  /-- Plot word 5. -/
  w5 : W32
  bank : Mem W20
  frame : Bool
  /-- BRIDGE_ON. -/
  on : Bool
  /-- The bridge is on, or the plot has none: the loops run. -/
  live : Bool
  direct : Bool
  /-- A reaction of severity 3 or more is in force. -/
  reaction : Bool
  mode : Nat
  polePairs : Nat
  dirInv : Bool
  velExp : Nat
  accExp : Nat
  commOfs : Int
  kth : Int
  tickClks : Nat
  frameTicks : Nat
  iMax : Int
  /-- v_lim of R198. -/
  vLim : Int
  followMax : Nat
  homeOfs : Int
  iLeg : Vector Int 4
  vbus : Int
  pri : Option FbSource
  comm : Option FbSource
  sec : Option FbSource
  /-- COMM_SRC names another source than PRI_SRC. -/
  commOther : Bool
  clk : Nat
  deriving DecidableEq, Repr

/-- The control-law state of one axis (06 R179 to R217). -/
structure Ctl where
  /-- LawScale words 0 and 1 in force (R183, R184). -/
  scale0 : W32
  scale1 : W32
  mode : BitVec 2
  manual : Bool
  manualTarget : Int
  manualValue : Int
  sig : Signals
  /-- The signals as the first tick of the frame left them, references as after hook F (R182, R197). -/
  frameSig : Signals
  /-- The signals of the tick in progress, until the chain is done. -/
  work : Signals
  /-- TRQ_SET between ticks (R212). -/
  trqSet : Int
  /-- The bridge was on in the previous tick. -/
  wasOn : Bool
  /-- The velocity integrator, and the current-law integrators, are preset in their next run, with the gains of the bank
  that was in use at the change (R211 to R213). -/
  presetV : Option (Mem W20)
  presetI : Option (Mem W20)
  -- integrators, 2^-38 of full scale (R181)
  xd : Int
  xq : Int
  xv : Int
  /-- OFS_AUTO0 to OFS_AUTO3 in 2^-38 of full scale (R186). -/
  ofsAuto : Vector Int 4
  /-- Ticks since the bridge last went off, up to 1,024. -/
  ticksOff : Nat
  /-- The correction hook F makes to VEL_REF (R197). -/
  dvHook : Int
  /-- Consecutive ticks in which the voltage limit acted, and FS046 due (R189). -/
  uLimTicks : Nat
  uLimDue : Bool
  /-- Consecutive frames of overspeed, and FS044 due (R200). -/
  overFrames : Nat
  overDue : Bool
  /-- The following error stood above FOLLOW_MAX in the previous frame (R199). -/
  followOver : Bool
  biquads : Vector Biquad 8
  stepStrong : Bool
  prevStep : Int
  -- observer (R201)
  obsTh : Int
  obsW : Int
  obsTau : Int
  iqPrev : Int
  obsStart : Bool
  -- plausibility (R203): observer, secondary, commutation, sum
  plaus : Vector PlausCheck 4
  plausP0 : Int
  plausS0 : Int
  plausLatched : Bool
  rep : Rep
  excite : Option Excitation
  identify : Option Identify
  -- flags of CTRL_STATUS (R217); the last-frame ones collect in the present frame
  ofsShort : Bool
  bridged : Bool
  bridgedNow : Bool
  iLim : Bool
  uLim : Bool
  uLimNow : Bool
  /-- A filter saturated in this tick (R195). -/
  svNow : Bool
  /-- What the lane sampled at its entry into the tick in progress: the inputs of its steps (05 R136, R137). -/
  env : Option LawEnv
  deriving DecidableEq, Repr

/-- Everything 0 before a plot is assigned (R217; log entry 2 for the values the spec gives only after PlotAssign). -/
def Ctl.reset : Ctl where
  scale0 := 0
  scale1 := 0
  mode := 0
  manual := false
  manualTarget := 0
  manualValue := 0
  sig := Signals.zero
  frameSig := Signals.zero
  work := Signals.zero
  trqSet := 0
  wasOn := false
  presetV := none
  presetI := none
  xd := 0
  xq := 0
  xv := 0
  ofsAuto := Vector.replicate 4 0
  ticksOff := 0
  dvHook := 0
  uLimTicks := 0
  uLimDue := false
  overFrames := 0
  overDue := false
  followOver := false
  biquads := Vector.replicate 8 Biquad.zero
  stepStrong := false
  prevStep := 0
  obsTh := 0
  obsW := 0
  obsTau := 0
  iqPrev := 0
  obsStart := false
  plaus := Vector.replicate 4 ⟨0, false⟩
  plausP0 := 0
  plausS0 := 0
  plausLatched := false
  rep := Rep.reset
  excite := none
  identify := none
  ofsShort := false
  bridged := false
  bridgedNow := false
  iLim := false
  uLim := false
  uLimNow := false
  svNow := false
  env := none

end Sys2Proof.Machine
end

