-- ==== Sys2Proof/Machine/StFault.lean ====
section
/-! DEFINITION. State of the fault collector, the rotations, the management pairs, firmware, margins and the ledger
(spec 14). -/
namespace Sys2Proof.Machine

/-- Bookkeeping of the last ledger record of a source (14 R552): its ledger index and the clock of its writing. -/
structure LastRec where
  index : Nat
  clk : Nat
  deriving DecidableEq, Repr

/-- The fault collector (14 R521 to R532, R553). -/
structure FaultUnit where
  /-- Configured severities that differ from the catalogue's defaults (R532), by source. -/
  sevSet : Mem (Option Nat)
  /-- COUNT of each source (R528, R553). -/
  count : Mem Nat
  /-- FS_FIRED, bit s for source s. -/
  fired : BitVec 512
  lastRec : Mem (Option LastRec)
  firstSrc : BitVec 9
  firstValid : Bool
  firstOvf : Bool
  episode : Bool
  /-- Clock of the last firing of effective severity 2 or more (R527). -/
  lastSev2 : Nat
  tally : BitVec 16
  latchN : BitVec 8
  latchWinS : BitVec 12
  quietMs : BitVec 16
  safeState : Bool
  /-- Safe state that only PORST_N or a power cycle ends (R541). -/
  safeUntilPower : Bool
  /-- Clock of the entry to safe state from FS015 (R526); the restart is due 10 ms later. -/
  railRestartAt : Option Nat
  /-- FS008 asked for a restart once every die is below 115 °C (R526). -/
  thermalRestart : Bool
  /-- The fires of the present step carry SOWN (R542). -/
  sown : Bool
  /-- Within the evaluation of a tick boundary: was FIRST_SRC recorded in it (R527; log entry 104)? None outside. -/
  tie : Option Bool
  deriving DecidableEq, Repr

/-- As delivered (R532), nothing fired. -/
def FaultUnit.reset : FaultUnit where
  sevSet := []
  count := []
  fired := 0
  lastRec := []
  firstSrc := 0
  firstValid := false
  firstOvf := false
  episode := false
  lastSev2 := 0
  tally := 0
  latchN := 3
  latchWinS := 60
  quietMs := 1000
  safeState := false
  safeUntilPower := false
  railRestartAt := none
  thermalRestart := false
  sown := false
  tie := none

/-- The fault state of one axis (14 R523 to R531, AXIS_FAULT and AXIS_QUIET). -/
structure AxisFault where
  fault : Bool
  sev : BitVec 3
  src : BitVec 9
  latched : Bool
  measureDue : Bool
  remeasure : Bool
  /-- Clock of the last firing of effective severity 3 or more that acts on the axis. -/
  lastFire : Nat
  /-- Clocks of the recoveries still inside LATCH_WIN_S. -/
  recoveries : List Nat
  deriving DecidableEq, Repr

def AxisFault.reset : AxisFault := ⟨false, 0, 0, false, false, false, 0, []⟩

/-- The lane rotation (14 R533 to R537). Roles and error counts stand with the lanes. -/
structure Rotation where
  spare : Option LaneNo
  fallow : Option LaneNo
  hold : Bool
  holdSince : Nat
  /-- The lanes of pending RETIREs (R558). -/
  retire : List LaneNo
  /-- Lanes in error in this tick, taken over at the next tick boundary (R535, R536). -/
  errs : List LaneNo
  /-- Those of them whose error was sown (R542). -/
  sown : List LaneNo
  /-- Lanes whose ERRORS has reached 4: they go out of service as their test ends (R535). -/
  worn : List LaneNo
  /-- The fallow lane has passed its test. -/
  passed : Bool
  /-- The spare is tested in place (R537). -/
  inPlace : Bool
  /-- The tick of the last takeover, counted since start; a step is skipped in the two ticks after it. -/
  takeoverTick : Option Nat
  /-- The order of the last tests: lanes, the longest untested first. -/
  testOrder : List LaneNo
  deriving DecidableEq, Repr

/-- LN16 spare, LN17 fallow (DESIGN CHOICE, log entry 2: ROT_STATUS gives no reset value). -/
def Rotation.reset : Rotation := ⟨some 16, some 17, false, 0, [], [], [], [], false, false, none, List.finRange 18⟩

/-- State of a converter, CONV_STATE.STATE (14 R553). -/
inductive ConvMode where
  | inService | calibrating | standingIn | retired
  deriving DecidableEq, Repr

/-- One converter (14 R538 to R540). -/
structure ConvState where
  errors : BitVec 8
  mode : ConvMode
  partner : BitVec 7
  /-- Parity errors on samples within the present tick (R539). -/
  parity : Nat
  /-- An error was found in this tick: its result of the tick before is repeated. -/
  hold : Bool
  deriving DecidableEq, Repr

def ConvState.reset : ConvState := ⟨0, .inService, 127, 0, false⟩

/-- The stand-in of a spare converter (14 R538): the step it is in. -/
inductive StandIn where
  | none
  /-- The spare samples alongside the converter for one tick. -/
  | overlap (conv : Nat)
  /-- The spare's results are delivered while the converter calibrates. -/
  | deliver (conv : Nat)
  /-- The converter samples alongside the spare for one tick. -/
  | back (conv : Nat)
  /-- The spare's results are delivered while a converter in error is recalibrated in place. -/
  | recal (conv : Nat)
  /-- Standing in for good: the converter is retired. -/
  | permanent (conv : Nat)
  /-- Standing in while BistRun tests the converter (R547). -/
  | bist (conv : Nat)
  deriving DecidableEq, Repr

/-- One spare converter: CV46, CV47, CV94 or CV95 (14 R538). -/
structure SpareState where
  step : StandIn
  /-- The next converter of its range to relieve. -/
  next : Nat
  deriving DecidableEq, Repr

/-- The standby management pair, MP_STATUS.STANDBY (14 R553). -/
inductive StandbyState where
  | ready | starting | failed | inUpdate
  deriving DecidableEq, Repr

/-- The change of the active management pair (14 R541, R545), with the tick in which the active pair failed, counted since
start. -/
inductive MpChange where
  /-- The active pair acts. -/
  | none
  /-- The standby becomes active at the next tick boundary. -/
  | due (since : Nat)
  /-- A live update was aborted: the standby restarts with the running image, and doorbells are held. -/
  | restart (since : Nat)
  /-- It has restarted, and becomes active at the next tick boundary. -/
  | restarted (since : Nat)
  deriving DecidableEq, Repr

/-- A sown error not yet detected (14 R542, R557). -/
structure Sown where
  target : BitVec 4
  index : BitVec 7
  address : W32
  /-- Clock at which it was sown. -/
  since : Nat
  stall : Stall
  tag : BitVec 8
  deriving DecidableEq, Repr

/-- One firmware image in MRAM (14 R543, R544). -/
structure Image where
  words : Mem W32
  version : BitVec 24
  valid : Bool
  deriving DecidableEq, Repr

/-- A built-in self-test in progress (14 R547, R559). -/
structure Bist where
  target : BitVec 4
  index : BitVec 7
  stall : Stall
  tag : BitVec 8
  deriving DecidableEq, Repr

/-- One die's margin register (14 R548). -/
structure DieMargin where
  tempC : BitVec 8
  low : Bool
  margin : BitVec 16
  /-- Above 135 °C at the last report. -/
  hot : Bool
  deriving DecidableEq, Repr

/-- LEG_AGE of one leg (14 R549, R553), words +0x00, +0x04, +0x08 and their baseline copies. -/
structure LegAge where
  w0 : W32
  w1 : W32
  w2 : W32
  strength : BitVec 16
  baselineSet : Bool
  b0 : W32
  b1 : W32
  b2 : W32
  /-- Below 80 % of nominal at the last start: no plot may name the leg (R548). -/
  refused : Bool
  deriving DecidableEq, Repr

def LegAge.reset : LegAge := ⟨0, 0, 0, 0, false, 0, 0, 0, false⟩

/-- The plan of 14 R550 for an axis, with its four clamp flags. -/
structure Plan where
  dtFloor : Nat
  desatBlank : Nat
  desatDv : Nat
  refreshN : Nat
  clamped : BitVec 4
  deriving DecidableEq, Repr

/-- A power-stage measurement in progress (14 R549). -/
structure Measuring where
  axis : AxisNo
  baseline : Bool
  apply : Bool
  /-- The command that asked, none for a measurement due under R551. -/
  cmd : Option (Stall × BitVec 8)
  deriving DecidableEq, Repr

/-- The service functions (14 R533 to R552). -/
structure Service where
  rot : Rotation
  conv : Vector ConvState 96
  spares : Vector SpareState 4
  takeovers : BitVec 8
  standby : StandbyState
  /-- The active pair has failed, and the standby is to take over (R541). -/
  mpChange : MpChange
  /-- The pair under test was the active one. -/
  mpWasActive : Bool
  active : Bool
  /-- Sown errors not yet detected. -/
  sown : List Sown
  fwPhase : BitVec 3
  /-- Clock at which the trial ends. -/
  trialEnd : Nat
  trialS : Nat
  images : Vector Image 2
  bootImage : Fin 2
  running : Fin 2
  /-- The last start found no image that may start (00 R5). -/
  noImage : Bool
  liveOk : Bool
  lawsChanged : Bool
  /-- The standard program area, first or second, that the lanes run (R545). -/
  stdArea : Bool
  /-- A FwActivate of mode 0: the other image starts at the next start (R564). -/
  nextStart : Bool
  /-- The FwActivate in its sequence (R545): stall, tag, clock of instant w; none for a roll-back the device starts. -/
  fwCmd : Option (Stall × BitVec 8)
  fwSince : Nat
  /-- PHASE before the sequence. -/
  fwBefore : BitVec 3
  standbyNew : Bool
  /-- Clock of the switch of a sequence in progress. -/
  switchClk : Option Nat
  /-- Built-in self-tests in progress, oldest first (R547). -/
  bist : List Bist
  dies : Vector DieMargin 4
  legAge : Vector LegAge 48
  measuring : List Measuring
  /-- The plan of each axis since its PlotAssign (R561). -/
  plans : Vector (Option Plan) 16
  /-- Axes whose plan is written at the next frame boundary. -/
  planDue : List AxisNo
  ledger : Mem (List W32)
  ledgerHead : BitVec 16
  ledgerWraps : BitVec 16
  deriving DecidableEq, Repr

/-- Table values of R553; what it does not give is log entry 2. -/
def Service.reset : Service where
  rot := Rotation.reset
  conv := Vector.replicate 96 ConvState.reset
  spares := ⟨#[⟨.none, 0⟩, ⟨.none, 23⟩, ⟨.none, 48⟩, ⟨.none, 71⟩], rfl⟩
  takeovers := 0
  standby := .ready
  active := false
  mpChange := .none
  mpWasActive := false
  sown := []
  fwPhase := 0
  trialEnd := 0
  trialS := 0
  images := ⟨#[⟨[], 0, true⟩, ⟨[], 0, false⟩], rfl⟩
  bootImage := 0
  running := 0
  noImage := false
  liveOk := false
  lawsChanged := false
  stdArea := false
  nextStart := false
  fwCmd := none
  fwSince := 0
  fwBefore := 0
  standbyNew := false
  switchClk := none
  bist := []
  dies := Vector.replicate 4 ⟨0, false, 0, false⟩
  legAge := Vector.replicate 48 LegAge.reset
  measuring := []
  plans := Vector.replicate 16 none
  planDue := []
  ledger := []
  ledgerHead := 0
  ledgerWraps := 0

end Sys2Proof.Machine
end

