-- ==== Sys2Proof/Machine/StFio.lean ====
section
/-! DEFINITION. State of the field inputs and outputs and of the SPI master ports (spec 13). -/
namespace Sys2Proof.Machine

/-- One field input (13 R488 to R490, R511). -/
structure FieldIn where
  debUs : BitVec 16
  /-- Clock of the last change of DEB_US, at which a running count restarted (R490). -/
  debClk : Nat
  irqRise : Bool
  irqFall : Bool
  /-- Debounced state. -/
  level : Bool
  riseStamp : NetTime
  fallStamp : NetTime
  deriving DecidableEq, Repr

/-- After every start (R511). -/
def FieldIn.reset : FieldIn := ⟨1000, 0, false, false, false, .zero, .zero⟩

/-- One field output (13 R492 to R498, R512). -/
structure FieldOut where
  cmd : Bool
  /-- Debounced readback. -/
  read : Bool
  debUs : BitVec 16
  /-- Clock of the last change of DEB_US (R490, R493). -/
  debClk : Nat
  settleUs : BitVec 16
  failOff : Bool
  fltLatch : Bool
  /-- Held off under R495. -/
  latched : Bool
  /-- Held off under R498 until an OutSet turns it on. -/
  held : Bool
  /-- Clock since which CMD has not changed (settle time). -/
  since : Nat
  deriving DecidableEq, Repr

/-- After every start (R512). -/
def FieldOut.reset : FieldOut := ⟨false, false, 10, 0, 1000, true, false, false, false, 0⟩

/-- A change on the lines of an SPI master port (13 R501): SCK takes an idle level, the select falls or rises, a word is
clocked, or nothing changes for at least some units of 5 ns. -/
inductive SpmLine where
  | sck (level : Bool) | fall | rise | word (w : W32) | wait (units : Nat)
  deriving DecidableEq, Repr

/-- A transfer of an SPI master port (13 R502, R517). -/
structure SpmXfer where
  stall : Stall
  tag : BitVec 8
  cs : Fin 4
  /-- The select stays low from the first word to the last (R501). -/
  cont : Bool
  hold : Bool
  noRx : Bool
  words : List W32
  deriving DecidableEq, Repr

/-- One SPI master port (13 R500 to R503). -/
structure SpmPort where
  /-- Words 0 and 1 of SpmSelect of each select; none before the first. -/
  selects : Vector (Option (W32 × W32)) 4
  /-- Transfers taken and not completed, the running one first. -/
  queue : List SpmXfer
  held : Option (Fin 4)
  /-- Idle level of SCK; none until the first SpmSelect of the port, while SCK and SDO are high-impedance (R500, R501). -/
  sck : Option Bool
  /-- Clock at which the transfer before the hold ended. -/
  heldSince : Nat
  holdLapse : Bool
  deriving DecidableEq, Repr

def SpmPort.reset : SpmPort := ⟨Vector.replicate 4 none, [], none, none, 0, false⟩

/-- A mapped program or erase in progress (13 R506, R507): its command, the address reached, the bytes still to program,
the present piece, the poll time spent in µs, and whether it erases, with the sectors left. -/
structure MapOp where
  stall : Stall
  tag : BitVec 8
  erase : Bool
  addr : Nat
  rest : List Byte
  piece : Nat
  sectors : Nat
  polled : Nat
  deriving DecidableEq, Repr

/-- The mapped serial memory on SPM0 (13 R504 to R508, R519). -/
structure SpmMap where
  en : Bool
  /-- Words 0 to 4 of SpmMap. -/
  conf : Vector W32 5
  failed : Bool
  op : Option MapOp
  /-- Mapped writes and erases taken while the memory is busy, oldest first (R508). -/
  waiting : List MapOp
  /-- The read cache by line of 64 bytes. -/
  cache : Mem (Option (List Byte))
  deriving DecidableEq, Repr

def SpmMap.reset : SpmMap := ⟨false, Vector.replicate 5 0, false, none, [], []⟩

/-- The field bank and the SPI master ports (spec 13). -/
structure FieldIo where
  ins : Vector FieldIn 32
  /-- IN_RAW, the last raw samples. -/
  inRaw : W32
  inRise : W32
  inFall : W32
  outs : Vector FieldOut 16
  fioFlt : Bool
  bankOt : Bool
  /-- The bank is above its shutdown limit and not yet cooled (R497). -/
  bankHot : Bool
  spm : Vector SpmPort 2
  map : SpmMap
  deriving DecidableEq, Repr

def FieldIo.reset : FieldIo where
  ins := Vector.replicate 32 FieldIn.reset
  inRaw := 0
  inRise := 0
  inFall := 0
  outs := Vector.replicate 16 FieldOut.reset
  fioFlt := false
  bankOt := false
  bankHot := false
  spm := Vector.replicate 2 SpmPort.reset
  map := SpmMap.reset

end Sys2Proof.Machine
end

