-- ==== Sys2Proof/Machine/StHost.lean ====
section
/-! DEFINITION. State of the stalls, the mailboxes, the host ports and ownership (spec 03). -/
namespace Sys2Proof.Machine

/-- Where a command in flight stands (03 R92, R95, R96). -/
inductive CmdPhase where
  /-- Taken, not started. -/
  | waiting
  /-- Started: its checks are made; it ends at an event of its own. -/
  | started
  /-- Checked; it applies at the next tick boundary. -/
  | atTick
  /-- Checked; it applies at the next frame boundary. -/
  | atFrame
  /-- Completed; its response waits for room (R94). -/
  | answered
  deriving DecidableEq, Repr

/-- A command in flight (03 R92): taken from the mailbox, its response not yet posted. -/
structure Cmd where
  stall : Stall
  code : BitVec 12
  tag : BitVec 8
  payload : List W32
  /-- Express class (R97); otherwise best effort. -/
  express : Bool
  /-- The tick in which it was taken. -/
  takenTick : Nat
  /-- The tick in which its limit ends (R98); express commands have none. -/
  deadline : Option Nat
  phase : CmdPhase
  /-- A word that a command's own steps keep, as its meaning says. -/
  aux : Nat
  /-- Dropped when it completes: MBX_RESET or HRST_N came meanwhile (R100, 01 R32). -/
  dropped : Bool
  deriving DecidableEq, Repr

/-- A response that waits for room in the response area (03 R94): header tag and code, and the payload words. -/
structure Response where
  code : BitVec 12
  tag : BitVec 8
  words : List W32
  /-- RESOURCE, BUSY_TAG and LENGTH responses belong to no command in flight. -/
  ofCmd : Bool
  deriving DecidableEq, Repr

/-- One stall and its page (03 R101). -/
structure StallState where
  dbLost : Bool
  accessErr : Bool
  overrun : Bool
  cmdRdPtr : BitVec 11
  rspWrPtr : BitVec 11
  rspRdPtr : BitVec 11
  irqStatus : BitVec 11
  irqEnable : BitVec 11
  mbxTimeout : BitVec 16
  dramWinBase : BitVec 8
  mbxReset : Bool
  /-- Doorbells held before DEV_READY or while the mailbox cannot take them (R92). -/
  held : List W32
  /-- Responses waiting for room (R94), in completion order. -/
  rspWaiting : List Response
  /-- Command area, 1,024 words. -/
  cmdArea : Mem W32
  /-- Response area, 1,024 words. -/
  rspArea : Mem W32
  /-- High words latched by low-word reads (R83): (offset of the high word, value). -/
  latches : Mem (Option W32)
  deriving DecidableEq, Repr

/-- The stall at reset (03 R101). -/
def StallState.reset : StallState where
  dbLost := false
  accessErr := false
  overrun := false
  cmdRdPtr := 0
  rspWrPtr := 0
  rspRdPtr := 0
  irqStatus := 0
  irqEnable := 0
  mbxTimeout := 1000
  dramWinBase := 0
  mbxReset := false
  held := []
  rspWaiting := []
  cmdArea := []
  rspArea := []
  latches := []

/-- The freeze of a status window for one stall (03 R84). -/
structure Freeze where
  /-- The frozen snapshot, by word offset. -/
  snapshot : Mem W32
  /-- Frame boundaries seen since the read that set the freeze. -/
  frames : Nat
  /-- The freeze has lapsed. -/
  lapsed : Bool
  deriving DecidableEq, Repr

/-- The status window of one axis (03 R84). -/
structure Window where
  seq : BitVec 24
  /-- The snapshot of the last frame boundary, by word offset; an unlisted word reads 0. -/
  snapshot : Mem W32
  /-- The freeze held for each stall. -/
  freeze : Vector (Option Freeze) 8
  deriving DecidableEq, Repr

def Window.reset : Window := ⟨0, [], Vector.replicate 8 none⟩

/-- A hand-over or release in progress (03 R88). -/
structure HandOver where
  release : Bool
  target : Stall
  intervalMs : BitVec 14
  /-- The command that asked for it. -/
  tag : BitVec 8
  stall : Stall
  /-- Ends at this tick with TIMEOUT. -/
  deadline : Nat
  deriving DecidableEq, Repr

/-- An OwnerClaim collected in this tick (03 R87). -/
structure Claim where
  stall : Stall
  tag : BitVec 8
  intervalMs : BitVec 14
  deriving DecidableEq, Repr

/-- Ownership (03 R85 to R90, R102). -/
structure Ownership where
  epoch : BitVec 16
  valid : Bool
  stall : Stall
  intervalMs : BitVec 14
  /-- The tick that began the present heartbeat interval. -/
  since : Nat
  warned : Bool
  handover : Option HandOver
  claims : List Claim
  irqbEn : Bool
  irqbStall : Stall
  deriving DecidableEq, Repr

def Ownership.reset : Ownership := ⟨0, false, 0, 0, 0, false, none, [], false, 0⟩

/-- The PCI Express endpoint (03 R69, R74 to R76, R104). -/
structure Pcie where
  linkUp : Bool
  busMaster : Bool
  memSpace : Bool
  msixEnable : Bool
  /-- Function Mask of the MSI-X capability: every vector masked. -/
  msixFuncMask : Bool
  /-- MSI-X table mask bits, vectors 0 to 15. -/
  msixMask : BitVec 16
  /-- MSI-X table address and data words, 4 words a vector, by word index; word 3 of a vector is its mask. -/
  msixTable : Mem W32
  /-- Pending bit array. -/
  msixPending : BitVec 16
  deriving DecidableEq, Repr

/-- MSI-X at reset: the vectors masked, nothing pending, MSI-X and bus mastering off (PRESUMED from the PCI Express Base
Specification, which 03 R81 names; log entry 9). -/
def Pcie.reset : Pcie := ⟨false, false, false, false, false, BitVec.allOnes 16, [], 0⟩

/-- The SPI host port between frames (03 R78 to R80). -/
structure SpiPort where
  prevGood : BitVec 8
  prevUnderrun : Bool
  prevAccessErr : Bool
  /-- The words the port sent in the last frame, SPI_STATUS first. -/
  sent : List W32
  deriving DecidableEq, Repr

/-- The host side of the device (spec 03). -/
structure HostPort where
  devReady : Bool
  stalls : Vector StallState 8
  /-- The stalls of the doorbells held, in the order in which they arrived (R92). -/
  heldOrder : List Stall
  /-- Commands in flight of all stalls, in the order they were taken. -/
  inFlight : List Cmd
  scratch : Vector W32 4
  own : Ownership
  windows : Vector Window 16
  pcie : Pcie
  spi : SpiPort
  /-- S1 is present once internal reset has been released (R69). -/
  sphUp : Bool
  /-- The debug access instruction is selected: S7 present (R69). -/
  debugSel : Bool
  /-- The words the device answered the last host read with, and whether it was completed with poisoned data. -/
  readData : List W32
  readPoisoned : Bool
  deriving DecidableEq, Repr

def HostPort.reset : HostPort where
  devReady := false
  stalls := Vector.replicate 8 StallState.reset
  heldOrder := []
  inFlight := []
  scratch := Vector.replicate 4 0
  own := Ownership.reset
  windows := Vector.replicate 16 Window.reset
  pcie := Pcie.reset
  spi := ⟨0, false, false, []⟩
  sphUp := false
  debugSel := false
  readData := []
  readPoisoned := false

end Sys2Proof.Machine
end

