-- ==== Sys2Proof/Machine/StLoop.lean ====
section
/-! DEFINITION. State of the plots, the lanes, the coefficient banks and the user law programs (spec 04, 05). -/
namespace Sys2Proof.Machine

/-- The role of a lane, LANE_STATE.ROLE (05 R168). -/
inductive LaneRole where
  | inService | spare | fallow | out
  deriving DecidableEq, Repr

/-- Where a lane stands in its tick (05 R136 to R139, 02 R61). -/
inductive LanePhase where
  /-- No axis is served, or the tick is over. -/
  | idle
  /-- The user law program runs at its hook: 0 F, 1 T1, 2 T2. -/
  | atHook (hook : Fin 3)
  /-- The law chain is done; commit may begin. -/
  | ready
  /-- The tick of this lane is discarded (R61, R138). -/
  | discarded
  deriving DecidableEq, Repr

/-- A register of the lane that a pending result goes to. -/
inductive Dest where
  | d (r : Fin 16)
  | ac (r : Fin 4)
  | a (r : Fin 8)
  | m (r : Fin 8)
  deriving DecidableEq, Repr

/-- A result that waits for its hidden count (05 R153): the executed instructions still to go, the destination, the
value, and whether a MAC-class instruction produced it (R155). -/
structure PendWrite where
  left : Nat
  dest : Dest
  val : Int
  mac : Bool
  deriving DecidableEq, Repr

/-- One lane (05 R134 to R158). -/
structure Lane where
  role : LaneRole
  axis : AxisNo
  pmOk : Bool
  errors : BitVec 8
  d : Vector W20 16
  ac : Vector (BitVec 52) 4
  a : Vector (BitVec 16) 8
  m : Vector (BitVec 24) 8
  z : Bool
  n : Bool
  v : Bool
  l : Bool
  sv : Bool
  aerr : Bool
  /-- Local memory, 4,096 words of 20 bits. -/
  lm : Mem W20
  pend : List PendWrite
  /-- Repetitions of the next instruction (R157); none when no RPT or RPTR stands before it. -/
  rep : Option Nat
  /-- A taken branch: its target and the delay slots still to run (R156). -/
  branch : Option (Nat × Nat)
  /-- Delay slots still to run of a branch, taken or not: no event is taken before their end (R158). -/
  slots : Nat
  /-- Index of the next instruction of the user law program. -/
  pc : Nat
  phase : LanePhase
  /-- Law clocks used in this tick. -/
  cycles : Nat
  /-- Far stores of this tick, oldest first (R148): (far word index, value). -/
  far : List (Nat × W20)
  /-- Event entries made in this tick (02 R49). -/
  entries : Nat
  /-- What the standard words of local memory depend on in this tick, whose layout the spec does not give: the mark of the
  committed slot, none while it holds zeros, and the tick's own count (log entry 5). -/
  stdState : Option Nat
  stdTick : Nat
  deriving DecidableEq, Repr

/-- A lane at reset with a given role and axis (log entry 2). -/
def Lane.reset (role : LaneRole) (axis : AxisNo) : Lane where
  role := role
  axis := axis
  pmOk := true
  errors := 0
  d := Vector.replicate 16 0
  ac := Vector.replicate 4 0
  a := Vector.replicate 8 0
  m := Vector.replicate 8 0
  z := false
  n := false
  v := false
  l := false
  sv := false
  aerr := false
  lm := []
  pend := []
  rep := none
  branch := none
  slots := 0
  pc := 0
  phase := .idle
  cycles := 0
  far := []
  entries := 0
  stdState := none
  stdTick := 0

/-- The lanes at reset: lane n serves axis n, LN16 spare, LN17 fallow (DESIGN CHOICE, log entry 2). -/
def lanesReset : Vector Lane 18 :=
  ⟨#[.reset .inService 0, .reset .inService 1, .reset .inService 2, .reset .inService 3, .reset .inService 4,
     .reset .inService 5, .reset .inService 6, .reset .inService 7, .reset .inService 8, .reset .inService 9,
     .reset .inService 10, .reset .inService 11, .reset .inService 12, .reset .inService 13, .reset .inService 14,
     .reset .inService 15, .reset .spare 0, .reset .fallow 0], rfl⟩

/-- An event pending for an axis (05 R158): a stop asked for by the fault collector or the motion engine. -/
inductive AxisEvent where
  /-- The reaction of a fault source: source number and severity. -/
  | reaction (src : Nat) (sev : Nat)
  deriving DecidableEq, Repr

/-- A swap of the coefficient banks that is scheduled, or held until a copy ends (05 R160, R161, R177): its tick, whether
it copies, and the command that waits for it. -/
structure Swap where
  held : Bool
  tick : Nat
  copy : Bool
  stall : Stall
  tag : BitVec 8
  deriving DecidableEq, Repr

/-- What the loop engine holds for one axis (05 R135, R159 to R161, R166, R169). -/
structure AxisLoop where
  /-- State slots 0 and 1, 512 words each; the user words 0x180 to 0x1FF are kept. -/
  slots : Vector (Mem W20) 2
  /-- When each slot was committed last, none while it holds zeros: what its standard words depend on. -/
  marks : Vector (Option Nat) 2
  slot : Bool
  bankA : Mem W20
  bankB : Mem W20
  /-- Bank in use: false A, true B. -/
  bank : Bool
  userFar : Mem W20
  swap : Option Swap
  copying : Bool
  bypassed : Bool
  aerr : Bool
  svUser : Bool
  svStd : Bool
  lastCycles : BitVec 16
  lane : BitVec 5
  /-- The lane that served the axis in the previous tick (LANE_CHANGED, Table 5.4). -/
  prevLane : BitVec 5
  /-- LANE_CHANGED of the present tick. -/
  laneChanged : Bool
  /-- Events pending for the axis, in order of arrival (02 R49). -/
  events : List AxisEvent
  /-- How many of them, the last ones, arrived in the lane clock of the evaluation in progress. -/
  fresh : Nat
  /-- SIG and OUT words 0x600 to 0x7FF as committed last (10 R378), and whether the last tick was discarded. -/
  sigOut : Mem W20
  discarded : Bool
  deriving DecidableEq, Repr

def AxisLoop.reset : AxisLoop where
  slots := Vector.replicate 2 []
  marks := Vector.replicate 2 none
  slot := false
  bankA := []
  bankB := []
  bank := false
  userFar := []
  swap := none
  copying := false
  bypassed := false
  aerr := false
  svUser := false
  svStd := false
  lastCycles := 0
  lane := 0
  prevLane := 0
  laneChanged := false
  events := []
  fresh := 0
  sigOut := []
  discarded := false

/-- A loaded user law program (05 R162, R171). -/
structure Program where
  hook : Fin 3
  start : Nat
  length : Nat
  bound : Nat
  holdoff : Nat
  fstMax : Nat
  crc : W32
  words : List (BitVec 40)
  deriving DecidableEq, Repr

/-- The single staging image (05 R170): its program number and the instructions loaded since FIRST. -/
structure Staging where
  prog : Nat
  words : Mem (Option (BitVec 40))
  deriving DecidableEq, Repr

/-- The program memory of the lanes (05 R162, R170 to R172). -/
structure ProgStore where
  /-- Loaded programs by number, 1 to 64. -/
  progs : Mem (Option Program)
  staging : Option Staging
  /-- Blocks of deleted programs, (start, length), free from the next frame boundary (R172). -/
  freed : List (Nat × Nat)
  deriving DecidableEq, Repr

def ProgStore.reset : ProgStore := ⟨[], none, []⟩

end Sys2Proof.Machine
end

