-- ==== Sys2Proof/Machine/StMot.lean ====
section
/-! DEFINITION. State of the set-point generators, the path engine, followers, homing and step outputs (spec 09).
Positions, velocities, accelerations and jerks of profiles are integers in 2^-40 turn (per second, ...); times within a
profile are in 2^-40 s. -/
namespace Sys2Proof.Machine

/-- One phase of a profile: constant jerk for a time (09 R308). -/
structure JerkSeg where
  jerk : Int
  time : Nat
  deriving DecidableEq, Repr

/-- A profile in continuous time (09 R306): its state at its origin, its phases, and the index of the phase that begins
the final deceleration (R313). -/
structure Profile where
  p0 : Int
  v0 : Int
  a0 : Int
  segs : List JerkSeg
  /-- Time from the origin at which the final deceleration begins. -/
  decelAt : Nat
  /-- Where the profile ends, for one that ends at a position; the velocity it ends with. -/
  pEnd : Option Int
  vEnd : Int
  /-- Clock of the origin. -/
  startClk : Nat
  deriving DecidableEq, Repr

/-- Kind of a move (09 Table 9.4). -/
inductive MoveKind where
  | absolute | relative | velocity | registration
  deriving DecidableEq, Repr

/-- A queued move: the eight words of MoveQueue (09 R357) in fields; a SetTarget makes one too. -/
structure Move where
  kind : MoveKind
  id : BitVec 16
  chain : Bool
  probe : Fin 16
  /-- Target, distance or DIST_MAX in 2^-20 turn; signed VEL in 2^-8 turn/s for a velocity move. -/
  pos : Int
  v : W32
  a : W32
  j : W32
  dwellMs : BitVec 16
  distAfter : Int
  deriving DecidableEq, Repr

/-- Result of a move (09 Table 9.5). -/
inductive MoveResult where
  | done | replaced | stopped | flushed | discarded | noEdge
  deriving DecidableEq, Repr

/-- The executing move: the move, its target in 2^-20 turn, the instant of its start, and whether a registration edge
has re-targeted it (09 R312). -/
structure Executing where
  move : Move
  target : Int
  startClk : Nat
  retargeted : Bool
  deriving DecidableEq, Repr

/-- State of a follower, FOLLOW (09 R333, R349). -/
inductive FollowState where
  | disengaged | waiting | rampIn | locked | rampOut
  deriving DecidableEq, Repr

/-- The ramp a follower runs on (09 R333 to R335): master and slave at its start, the sign of travel, the ratio or
weight it starts from and goes to as numerator and denominator, and its length. -/
structure FollowRamp where
  m0 : Int
  s0 : Int
  sigma : Int
  num0 : Int
  den0 : Nat
  num1 : Int
  den1 : Nat
  dist : Nat
  /-- Cam: the unwrapped cam value at engagement, and the value held while the weight runs down. -/
  c0 : Int
  hold : Option Int
  deriving DecidableEq, Repr

/-- A GearEngage that has applied and waits for its start (09 R362). -/
structure EngageWait where
  atPos : Bool
  mpos : Int
  deriving DecidableEq, Repr

/-- A cam selection that waits for the wrap of the master period (09 R364). -/
structure CamPending where
  word : W32
  stall : Stall
  tag : BitVec 8
  deriving DecidableEq, Repr

/-- HOME_STATE (09 R349). -/
inductive HomeState where
  | none | search | backOff | latch | indexSearch | hardStop | done | failed
  deriving DecidableEq, Repr

/-- The phases of a homing run (09 R338, Table 9.9): leaving an active home input, the search, backing off, the approach
at V_LATCH, the index search, moving away from a limit, the hard stop and the move back from it, and coming to rest. -/
inductive HomePhase where
  | leave | search | backOff | latch | index | away | hard | back | rest
  deriving DecidableEq, Repr

/-- An edge of an input of a homing run (09 R339, R340): input as HomeConfig numbers it, its new level, and the clock of
its stamp. -/
structure HomeEdge where
  input : Nat
  level : Bool
  clk : Nat
  deriving DecidableEq, Repr

/-- A homing run (09 R338 to R341). -/
structure HomeRun where
  stall : Stall
  tag : BitVec 8
  phase : HomePhase
  /-- The axis comes to rest before the phase begins. -/
  resting : Bool
  /-- A limit has reversed the search. -/
  reversed : Bool
  /-- Set-point at which the phase began. -/
  phaseStart : Int
  /-- The reference, a position of the primary source, and whether HOME_OFS has been set by it. -/
  reference : Option Int
  applied : Bool
  /-- Since when abs(POS_ERR) has been above HS_ERR. -/
  hsSince : Option Nat
  /-- Edges not yet used, in order of arrival. -/
  edges : List HomeEdge
  /-- Positions of the primary source at the last tick boundaries, newest first, with their clocks. -/
  hist : List (Nat × Int)
  deriving DecidableEq, Repr

/-- The motion state of one axis (09 R302 to R349). -/
structure Motion where
  /-- SRC of Table 9.1. -/
  src : BitVec 4
  /-- Set-point state in 2^-40 turn, 2^-40 turn/s, 2^-40 turn/s². -/
  p : Int
  v : Int
  a : Int
  profile : Option Profile
  /-- V_DEF, A_DEF, J_DEF, STOP_DEC, STOP_JERK, QS_DEC, QS_JERK (R307, R356). -/
  limits : Vector W32 7
  ovr : BitVec 14
  queue : List Move
  cur : Option Executing
  /-- A finished move's dwell ends at this clock (R313). -/
  dwellUntil : Option Nat
  /-- The last 16 ends, newest first (R314). -/
  ends : List (BitVec 16 × MoveResult)
  /-- Jog velocity, 2^-8 turn/s. -/
  jogVel : Int
  /-- STOP_KIND: 0 none, 1 Stop command, 2 controlled reaction, 3 quick reaction. -/
  stopKind : BitVec 2
  /-- A stop event taken in the lane that starts at the next frame boundary (R319). -/
  stopAsked : BitVec 2
  overshoot : Bool
  hlClamp : Bool
  clamped : Bool
  limNeg : Bool
  limPos : Bool
  moving : Bool
  /-- TRQ_SET moves to 0 (severity 3 in current mode), IQ_REF is held 0 (severity 4): Table 9.6. -/
  torqueStop : Bool
  torqueZero : Bool
  -- stepper standstill (R343): StandstillConfig words 1 and 2, factor f in 2^-19, clock since POS_REF stands still
  stillFrac : Int
  stillDelay : BitVec 16
  stillRamp : BitVec 16
  stillF : Int
  still : Bool
  stillSince : Nat
  -- follower (R330 to R336)
  gear : Vector W32 7
  follow : FollowState
  engage : Option EngageWait
  ramp : Option FollowRamp
  camOrigin : Int
  camTable : Fin 2
  camNpts : Nat
  camCubic : Bool
  camPending : Option CamPending
  cams : Vector (Mem W32) 2
  /-- The master's position at the last frame boundary, for crossings, in 2^-40 turn. -/
  prevMaster : Int
  /-- POS_PRI and VEL_EST of the last frame boundary, for followers of the actual position (R330). -/
  actPos : Int
  actVel : Int
  /-- A new ratio, or the disengagement, asked for at this frame boundary (R334). -/
  ratioAsked : Option (W32 × W32)
  outAsked : Bool
  -- homing (R338 to R342)
  homeConf : Vector W32 10
  homeState : HomeState
  homed : Bool
  homeOfs : Int
  /-- HOMED is due at the next valid sample of a serial primary source (R342). -/
  autoHome : Bool
  home : Option HomeRun
  /-- FS095 and FS090 have fired for the present condition. -/
  limFired : Bool
  hlFired : Bool
  deriving DecidableEq, Repr

/-- Before PlotAssign everything is 0 (R349; log entry 2). -/
def Motion.reset : Motion where
  src := 0
  p := 0
  v := 0
  a := 0
  profile := none
  limits := Vector.replicate 7 0
  ovr := 0
  queue := []
  cur := none
  dwellUntil := none
  ends := []
  jogVel := 0
  stopKind := 0
  stopAsked := 0
  overshoot := false
  hlClamp := false
  clamped := false
  limNeg := false
  limPos := false
  moving := false
  torqueStop := false
  torqueZero := false
  stillFrac := 0
  stillDelay := 0
  stillRamp := 0
  stillF := 0
  still := false
  stillSince := 0
  gear := Vector.replicate 7 0
  follow := .disengaged
  engage := none
  ramp := none
  camOrigin := 0
  camTable := 0
  camNpts := 0
  camCubic := false
  camPending := none
  cams := Vector.replicate 2 []
  prevMaster := 0
  actPos := 0
  actVel := 0
  ratioAsked := none
  outAsked := false
  homeConf := Vector.replicate 10 0
  homeState := .none
  homed := false
  autoHome := false
  homeOfs := 0
  home := none
  limFired := false
  hlFired := false

/-- State of a path group (09 R348). -/
inductive PathState where
  | idle | running | holding | stopping
  deriving DecidableEq, Repr

/-- One path group (09 R325 to R328). -/
structure PathGroup where
  members : BitVec 16
  lookahead : BitVec 16
  aPath : W32
  jPath : W32
  cornerDv : W32
  /-- Queued segments, the executing one first, each its words (R326). -/
  queue : List (List W32)
  state : PathState
  segId : BitVec 16
  starved : Bool
  hlStop : Bool
  /-- Path distance into the executing segment, path velocity and acceleration (2^-40 path turn). -/
  s : Int
  v : Int
  a : Int
  /-- Set-points of the members at the start of the executing segment, 2^-40 turn. -/
  start : Vector Int 16
  /-- Clock at which a dwell segment ends. -/
  dwellUntil : Option Nat
  /-- The stop in force uses the QS limits. -/
  quick : Bool
  deriving DecidableEq, Repr

def PathGroup.reset : PathGroup where
  members := 0
  lookahead := 0
  aPath := 0
  jPath := 0
  cornerDv := 0
  queue := []
  state := .idle
  segId := 0
  starved := false
  hlStop := false
  s := 0
  v := 0
  a := 0
  start := Vector.replicate 16 0
  dwellUntil := none
  quick := false

/-- One step/direction pair (09 R344, R345, R369). -/
structure StepOut where
  en : Bool
  dirInv : Bool
  stepLow : Bool
  stepsPerTurn : BitVec 24
  pulse : BitVec 8
  dirSetup : BitVec 8
  maxRate : BitVec 16
  /-- Step count at the last frame boundary, and the steps that the frame in progress adds to it, signed. -/
  count : Int
  plan : Int
  /-- Steps that the frame in progress leaves for the next one. -/
  carry : Nat
  /-- Part of a step's shortest spacing that had passed when the frame began, in steps of 1/512,000; and that will have
  passed when it ends. -/
  slack : Nat
  slackEnd : Nat
  /-- Clocks of the frame in progress during which no step may go out after a change of DIR, and its length. -/
  wait : Nat
  len : Nat
  /-- The frame before ended with a step of its own, whose pulse may reach into this one. -/
  pulsed : Bool
  lag : BitVec 16
  /-- The pair follows its plot's set-point: enabled, held, and its count set; and the plot that it follows. -/
  active : Bool
  axis : Option AxisNo
  /-- Level of DIR: the steps go down. -/
  dirNeg : Bool
  deriving DecidableEq, Repr

def StepOut.reset : StepOut :=
  ⟨false, false, false, 0, 0, 0, 0, 0, 0, 0, 0, 0, 0, 0, false, 0, false, none, false⟩

/-- A master record received from the ring (09 R332). -/
structure MasterRec where
  tickLo : BitVec 32
  pos : Int
  vel : Int
  acc : Int
  deriving DecidableEq, Repr

/-- The parts of the motion engine that belong to no single axis. -/
structure MotionUnit where
  groups : Vector PathGroup 8
  sd : Vector StepOut 8
  /-- SET_MASK and ACT_MASK of MasterPublish in force. -/
  setMask : BitVec 16
  actMask : BitVec 16
  /-- Records sampled for this cycle's frame (R332), by axis + 16 × ACT. -/
  published : Mem (Option MasterRec)
  /-- Newest usable record by node × 32 + 16 × ACT + axis, and newly arrived ones not yet usable. -/
  remote : Mem (Option MasterRec)
  arrived : Mem (Option MasterRec)
  deriving DecidableEq, Repr

def MotionUnit.reset : MotionUnit :=
  ⟨Vector.replicate 8 PathGroup.reset, Vector.replicate 8 StepOut.reset, 0, 0, [], [], []⟩

end Sys2Proof.Machine
end

