-- ==== Sys2Proof/Machine/StPower.lean ====
section
/-! DEFINITION. State of the supplies, the reset pins, the keep-alive domain and the ring by-pass (spec 01). -/
namespace Sys2Proof.Machine

/-- All internal rails in an order in which each follows those it waits for. -/
def allRails : List Rail := [.vhk, .vio33, .vio18, .vcore, .vser, .vddq, .vana]

/-- Start order of a rail (01 Table 1.5); VCORE and VSER start together, and the gate supplies come as 7. -/
def railOrder : Rail → Nat
  | .vhk => 1
  | .vio33 => 2
  | .vio18 => 3
  | .vcore => 4
  | .vser => 4
  | .vddq => 5
  | .vana => 6

/-- Where the device stands between power-off and running (01 R27, R29, R31, R34). -/
inductive PowerPhase where
  /-- No rail is up; the device waits for t0. -/
  | off
  /-- From t0 to internal reset release. -/
  | rising
  /-- Internal reset released; MP0 and MP1 boot. -/
  | booting
  /-- DEV_READY set. -/
  | running
  /-- The power-down of Table 1.7 runs. -/
  | powerDown
  /-- PORST_N is low (or the pulse of DeviceReset lasts). -/
  | inReset
  /-- Standby entered by command. -/
  | standby
  deriving DecidableEq, Repr

/-- The cause of a start, RESET_CAUSE bits [5:0] (01 R42): exactly one. -/
inductive StartCause where
  | powerOn | porst | devReset | wake | thermal | rail
  deriving DecidableEq, Repr

/-- State of the PCI Express endpoint's link as 01 R28 describes it. -/
inductive PcieLink where
  | down | training | up
  deriving DecidableEq, Repr

/-- Supplies, resets, keep-alive contents and by-pass (01 R20 to R46, R633). -/
structure Power where
  phase : PowerPhase
  -- supply monitors (R22)
  vmainOk : Bool
  vmainWarn : Bool
  vmainOver : Bool
  v24aOk : Bool
  v24bOk : Bool
  vddrOk : Bool
  vbatOk : Bool
  vgdaOk : Bool
  vgdbOk : Bool
  /-- The internal rails that are within their tolerance (R26). -/
  rails : List Rail
  /-- VMAIN has fallen below 8.0 V, VKA runs from VBAT (R29). -/
  vkaFromVbat : Bool
  -- reset pins (R31, R32)
  porstN : Bool
  hrstN : Bool
  /-- The sequencer keeps the rails on (R26, R27, R29). -/
  railsUp : Bool
  /-- VSAFE, from V24B alone (R25). -/
  vsafeUp : Bool
  -- start cause and RESET_CAUSE (R42)
  startCause : StartCause
  resetCause : StartCause
  resetKaLost : Bool
  wakeCause : BitVec 3
  /-- Wake causes recorded in the keep-alive domain since the last start (R633). -/
  recordedWake : BitVec 3
  -- keep-alive contents (R36)
  kaTime : BitVec 63
  kaDown : BitVec 63
  kaRet : Vector W32 16
  wakePinEn : Bool
  alarmEn : Bool
  alarmS : W32
  vmainLost : Bool
  /-- The contents were lost and the next start will say so (R37). -/
  kaLostPending : Bool
  kaValid : Bool
  kaXtal : Bool
  /-- No oscillation within 2 s: FS018 fires at the next start (R38). -/
  xtalTimeout : Bool
  -- by-pass (R39)
  bypassClosed : Bool
  holdOpen : Bool
  -- standby and reset requests (R34, R35, R45)
  standbyReq : Bool
  devResetReq : Bool
  /-- A wake that arrived in the 1 ms before standby entry (R35): pin, alarm. -/
  heldWakePin : Bool
  heldWakeAlarm : Bool
  /-- What the power-down sequence has still to do: stop channel B, finish the MRAM writes (its power-loss record, made at
  t1, is one of them), switch the rails off. -/
  safetyBDue : Bool
  mramDue : Bool
  lossRecord : Option (List W32)
  railsOffDue : Bool
  /-- The sequence in progress ends in standby (R34). -/
  toStandby : Bool
  pcie : PcieLink
  deriving DecidableEq, Repr

/-- The module as delivered, VMAIN just present and no start made yet: PWR_STATUS.VMAIN_OK 1 and BYPASS_CLOSED 1 (R42);
the keep-alive contents count as lost at the first start (R37); other values log entry 2. -/
def Power.reset : Power where
  phase := .off
  vmainOk := true
  vmainWarn := false
  vmainOver := false
  v24aOk := true
  v24bOk := true
  vddrOk := true
  vbatOk := true
  vgdaOk := false
  vgdbOk := false
  rails := []
  vkaFromVbat := false
  porstN := true
  hrstN := true
  railsUp := false
  vsafeUp := false
  startCause := .powerOn
  resetCause := .powerOn
  resetKaLost := false
  wakeCause := 0
  recordedWake := 0
  kaTime := 0
  kaDown := 0
  kaRet := Vector.replicate 16 0
  wakePinEn := false
  alarmEn := false
  alarmS := 0
  vmainLost := false
  kaLostPending := true
  kaValid := false
  kaXtal := true
  xtalTimeout := false
  bypassClosed := true
  holdOpen := false
  standbyReq := false
  devResetReq := false
  heldWakePin := false
  heldWakeAlarm := false
  safetyBDue := false
  mramDue := false
  lossRecord := none
  railsOffDue := false
  toStandby := false
  pcie := .down

/-- RAILS_OK (R42): every rail that FS015 watches is within its tolerance. VGDA, VGDB and VSAFE, which Table 1.5 lists as
well, have bits or sources of their own and are not counted (DEDUCED, log entry 105). -/
def Power.railsOk (p : Power) : Bool := allRails.all (fun r => p.rails.contains r)

/-- A rail comes within its tolerance; at power-up it starts only when each rail before it in the order is (R26). -/
def Power.railUp (p : Power) (r : Rail) : Power :=
  if (p.phase != .rising || allRails.all (fun q => decide (railOrder q ≥ railOrder r) || p.rails.contains q)) &&
      !p.rails.contains r then { p with rails := p.rails ++ [r] }
  else p

/-- A rail goes down or leaves its tolerance. -/
def Power.railDown (p : Power) (r : Rail) : Power := { p with rails := p.rails.filter (· != r) }

/-- No write of MRAM is made any more: the sequence of Table 1.7 is past its row at 60 µs (R29). -/
def Power.mramShut (p : Power) : Bool := p.phase == .powerDown && !p.mramDue

end Sys2Proof.Machine
end

