-- ==== Sys2Proof/Machine/StPwm.lean ====
section
/-! DEFINITION. State of the timer array, the gate drive and the STO groups of the gate dies (spec 08). Widths are in
fine units of 244.140625 ps; instants are fine units of the model clock. -/
namespace Sys2Proof.Machine

/-- The staging set of an axis (08 R269): duties in 2^-19 of the period, mask, chop thresholds, and whether the stepper
runs in strong mode. -/
structure OutSet where
  duty : Vector Int 4
  mask : BitVec 4
  chopA : Int
  chopB : Int
  strong : Bool
  deriving DecidableEq, Repr

def OutSet.zero : OutSet := ⟨Vector.replicate 4 0, 0, 0, 0, false⟩

/-- A direct staging set (08 R270): widths in fine units, and the mask. -/
structure DirectSet where
  width : Vector Nat 4
  mask : BitVec 4
  deriving DecidableEq, Repr

def DirectSet.start : DirectSet := ⟨Vector.replicate 4 0, 0xF⟩

/-- PWM, gate-drive and protection state of one axis (08 R267 to R301). -/
structure AxisPwm where
  /-- PwmConfig, GateProfile and ProtectConfig words 0 to 2 in force. -/
  pwm : Vector W32 3
  gate : Vector W32 3
  /-- A GateProfile that waits for a period start (R275). -/
  gatePending : Option (Vector W32 3)
  prot : Vector W32 3
  bridgeOn : Bool
  charging : Bool
  /-- Clock of F1, whether the charge samples are taken, and whether one failed (R280). -/
  f1Clk : Nat
  sampled : Bool
  sampleFailed : Bool
  /-- The staging set handed over last, and the one in use. -/
  latest : OutSet
  applied : OutSet
  /-- The outputs of the tick whose lane has committed, until the hand-over (02 R56, R61). -/
  staged : Option OutSet
  /-- A set was handed over since the bridge went on: it is applied at the next application instant (R280). -/
  fresh : Bool
  direct : Bool
  dirStage : DirectSet
  dirLatest : Option DirectSet
  /-- The committed direct set has already fired FS080 (R270). -/
  dirClamped : Bool
  pdMismatch : Bool
  /-- Phases A and B of the chopper decay for the rest of the period, and the instant up to which both legs are reversed
  (R273). -/
  decayA : Bool
  decayB : Bool
  fastA : Nat
  fastB : Nat
  /-- Start of the present switching period, its length, and whether its midpoint has passed (R267). -/
  start : Option Nat
  len : Nat
  midDone : Bool
  deriving DecidableEq, Repr

/-- Before PlotAssign nothing is configured (log entry 2); PlotAssign writes the defaults of R295 to R297. -/
def AxisPwm.reset : AxisPwm where
  pwm := Vector.replicate 3 0
  gate := Vector.replicate 3 0
  gatePending := none
  prot := Vector.replicate 3 0
  bridgeOn := false
  charging := false
  f1Clk := 0
  sampled := false
  sampleFailed := false
  latest := OutSet.zero
  applied := OutSet.zero
  staged := none
  fresh := false
  direct := false
  dirStage := DirectSet.start
  dirLatest := none
  dirClamped := false
  pdMismatch := false
  decayA := false
  decayB := false
  fastA := 0
  fastB := 0
  start := none
  len := 0
  midDone := false

/-- Where one switch of a leg stands (08 R274, R275, R283). -/
inductive SwitchState where
  /-- Held off. -/
  | off
  /-- Turn-on commanded, waiting for DT_FLOOR and the opposite gate. -/
  | pending
  /-- Turn-on phases 1 and 2, and hold. -/
  | on1 | on2 | on3
  /-- Turn-off phases 1 and 2. -/
  | off1 | off2
  /-- Soft turn-off. -/
  | soft
  deriving DecidableEq, Repr

/-- The side a leg is commanded to. -/
inductive Side where
  | none | high | low
  deriving DecidableEq, Repr

/-- A refresh pulse of a leg (08 R278). -/
inductive Refresh where
  | none
  /-- One came due while the leg was masked: it waits for the first unmasked high interval (R288). -/
  | held
  /-- The present period carries one. -/
  | due
  /-- A warning waits for the end of the leg's edge sequence. -/
  | wanted
  /-- The low side is turned on for REFRESH_NS. -/
  | running
  deriving DecidableEq, Repr

/-- One half-bridge leg (08 R268 to R293). -/
structure Leg where
  dtHi : BitVec 8
  dtLo : BitVec 8
  bstMv : BitVec 16
  refreshes : BitVec 8
  tripped : Bool
  multi : Bool
  gateErr : Bool
  extTrip : Bool
  oc : Bool
  ilTimeout : Bool
  bstUv : Bool
  bstWarn : Bool
  hshort : Bool
  desat : Bool
  /-- The side commanded, and the switches. -/
  side : Side
  hi : SwitchState
  lo : SwitchState
  /-- Width asked for, width emitted and length of the present period. -/
  width : Nat
  emit : Nat
  period : Nat
  /-- Width whose rising edge the present period has: with UPD 1 that of the set before (R269). -/
  riseEmit : Nat
  carry : Int
  /-- Consecutive full high periods since the last refresh. -/
  fullHigh : Nat
  refresh : Refresh
  /-- Where the refresh pulse in progress ends, once its low side has begun to turn on; the period has had a pulse. -/
  pulseEnd : Option Nat
  pulsed : Bool
  /-- All-off by the applied mask (R272). -/
  masked : Bool
  /-- Consecutive periods with an overcurrent trip, a trip in this one, and the leg held low for the rest of it (R282). -/
  ocRun : Nat
  ocNow : Bool
  ocLow : Bool
  /-- Instant of the last commanded edge (R274); of each switch, the start of its last turn-on and of its hold (R283, R284). -/
  edgeAt : Nat
  hiOn : Nat
  loOn : Nat
  hiHold : Nat
  loHold : Nat
  /-- The times of the present tick in which the low side was on and that have ended: the start of the turn-on and the
  commanded turn-off, none where the row that ended it brought no instant (10 R373). -/
  lows : List (Nat × Option Nat)
  /-- Instant of the last short detection (R285). -/
  shortAt : Option Nat
  deriving DecidableEq, Repr

def Leg.reset : Leg where
  dtHi := 0
  dtLo := 0
  bstMv := 0
  refreshes := 0
  tripped := false
  multi := false
  gateErr := false
  extTrip := false
  oc := false
  ilTimeout := false
  bstUv := false
  bstWarn := false
  hshort := false
  desat := false
  side := .none
  hi := .off
  lo := .off
  width := 0
  emit := 0
  period := 0
  riseEmit := 0
  carry := 0
  fullHigh := 0
  refresh := .none
  pulseEnd := none
  pulsed := false
  masked := false
  ocRun := 0
  ocNow := false
  ocLow := false
  edgeAt := 0
  hiOn := 0
  loOn := 0
  hiHold := 0
  loHold := 0
  lows := []
  shortAt := none

/-- One gate-and-sense die's STO group (08 R290, R291). -/
structure GateDie where
  /-- The STO lines of safety channels A and B. -/
  lineA : Bool
  lineB : Bool
  /-- STO_A or STO_B of GATE_STATUS: set by the control die. -/
  sto : Bool
  /-- STO_FB: stage supply below 1 V and every gate low. -/
  fb : Bool
  switchesOpen : Bool
  supplyOk : Bool
  /-- Clock of the tick in which the present STO began. -/
  stoClk : Nat
  deriving DecidableEq, Repr

/-- Register 0 (R293); both lines asserted (15 R582: a zone's STO line is asserted while its permit is 0, at reset),
switches open. -/
def GateDie.reset : GateDie := ⟨true, true, false, false, true, false, 0⟩

end Sys2Proof.Machine
end

