-- ==== Sys2Proof/Machine/StRing.lean ====
section
/-! DEFINITION. State of the Atnal ring and of network time (spec 11). Network time is an integer in 2^-64 ns since the
instant zero. -/
namespace Sys2Proof.Machine

/-- The ring function, RING_STATUS.STATE (11 Table 11.1). -/
inductive RingFn where
  | off | listen | joining | active
  deriving DecidableEq, Repr

/-- One ring port (11 R423, R424, R436, R448). -/
structure RingPort where
  lock : Bool
  rfault : Bool
  brk : Bool
  crcErr : BitVec 8
  foreign : BitVec 32
  linkDelay : BitVec 16
  /-- The last eight delay measurements, newest first, in 2^-16 ns. -/
  meas : List Nat
  /-- The restore of R424: 0 none, 1 RESTORE goes into the next cycle frame, 2 it has been sent. -/
  restore : Fin 3
  /-- The neighbour across this port announced RESTORE. -/
  peerRestore : Bool
  /-- Own cycle of the frame that carried RESTORE. -/
  restCycle : Nat
  /-- CRC_ERR at the start of the present second, and the clock of that start (FS118). -/
  crcMark : BitVec 8
  crcClk : Nat
  deriving DecidableEq, Repr

def RingPort.reset : RingPort := ⟨false, false, false, 0, 0, 0, [], 0, false, 0, 0, 0⟩

/-- What the last frame of another device said (11 R417, R419, R420, R440): the own cycle number in which it was heard,
its header, the wire bytes of its frames, and whether LEAVING has been seen or FS111 has fired. -/
structure NodeInfo where
  heard : Nat
  hdr : RingHdr
  wire : Nat
  leaving : Bool
  missing : Bool
  deriving DecidableEq, Repr

/-- A request that a remote stall has taken, with its replies (11 R431). -/
structure TransRec where
  trans : BitVec 16
  /-- The tag of a COMMAND whose response is to be stored. -/
  tag : Option (BitVec 8)
  replies : List AcycMsg
  deriving DecidableEq, Repr

/-- A remote stall S2 to S5 (11 R430 to R433, RSTALL). -/
structure RemoteStall where
  epoch : BitVec 16
  connected : Bool
  enabled : Bool
  any : Bool
  /-- Admitted node. -/
  node : BitVec 10
  /-- Connected node, or the hop count back to it where it has no address. -/
  peer : BitVec 10
  peerHop : Bool
  /-- Clock of the node's last message. -/
  lastClk : Nat
  /-- The last 32 requests, newest first. -/
  trans : List TransRec
  /-- An IRQ message is to be sent in the next cycle frame. -/
  irqDue : Bool
  deriving DecidableEq, Repr

def RemoteStall.reset : RemoteStall := ⟨0, false, true, true, 0, 0, false, 0, [], false⟩

/-- Fragments of an acyclic message that is not whole yet (11 R429). -/
structure Partial where
  src : BitVec 10
  kind : BitVec 4
  trans : BitVec 16
  frags : List AcycMsg
  /-- Own cycle of the last fragment. -/
  cycle : Nat
  deriving DecidableEq, Repr

/-- A RingProxy that runs (11 R454). -/
structure ProxyCmd where
  stall : Stall
  tag : BitVec 8
  trans : BitVec 16
  header : W32
  payload : List W32
  retries : Nat
  /-- Own cycle in which COMMAND was last sent; none before the connection stands. -/
  sentCycle : Option Nat
  acked : Bool
  deriving DecidableEq, Repr

/-- A proxy connection (11 R454). -/
structure ProxyConn where
  node : BitVec 10
  hop : Bool
  want : BitVec 3
  /-- The remote stall, once ACCEPT has come. -/
  stall : Option (BitVec 3)
  epoch : BitVec 16
  nextTrans : BitVec 16
  lastSent : Nat
  lastUse : Nat
  cmds : List ProxyCmd
  deriving DecidableEq, Repr

/-- RingConfig values, as stored and in force (11 R449). -/
structure RingConf where
  addrSet : Bool
  addr : BitVec 10
  autoStart : Bool
  acycBytes : BitVec 16
  etherType : BitVec 16
  timeoutMs : BitVec 14
  deriving DecidableEq, Repr

/-- As delivered (11 R411, R449). -/
def RingConf.delivered : RingConf := ⟨false, 0, true, 256, 0x88B5, 100⟩

/-- The ring function (11 R407 to R433). -/
structure Ring where
  fn : RingFn
  /-- NODE_ADDR and ADDR_VALID in use. -/
  addr : BitVec 10
  addrValid : Bool
  stored : RingConf
  /-- Values in force, and those that apply at the next cycle boundary. -/
  conf : RingConf
  nonce : W32
  healed : Bool
  loopA : Bool
  loopB : Bool
  dupAddr : Bool
  tickMismatch : Bool
  overload : Bool
  joinFail : Bool
  joinRefused : Bool
  split : Bool
  activeN : BitVec 11
  minCycle : W32
  payloadNs : W32
  /-- NODE_MAP, bit a for address a. -/
  nodeMap : BitVec 1024
  nodes : Mem (Option NodeInfo)
  /-- Frames of this cycle and the last whose first copy has been taken: (node key, cycle number, fragment), and the own
  cycle in which it came. -/
  seen : List ((Nat × W32 × Nat) × Nat)
  portA : RingPort
  portB : RingPort
  /-- A leave: 0 none, 1 LEAVING goes into the next cycle frame, 2 it has been sent, the by-pass closes in the insert
  window of the next cycle; and the own cycle of that frame. -/
  leave : Fin 3
  leaveCycle : Nat
  /-- Own cycle in which a cycle frame was last heard, and the one in which LISTEN began. -/
  heardCycle : Nat
  listenCycle : Nat
  /-- JOINING, waiting for the insert window, or with the by-pass open. -/
  opened : Bool
  joinClk : Nat
  remote : Vector RemoteStall 4
  /-- Acyclic messages to send, oldest first: of each what is not sent yet, and the fragment index of the next piece. -/
  sendQ : List AcycMsg
  partials : List Partial
  proxies : List ProxyConn
  deriving DecidableEq, Repr

def Ring.reset : Ring where
  fn := .off
  addr := 0
  addrValid := false
  stored := .delivered
  conf := .delivered
  nonce := 0
  healed := false
  loopA := false
  loopB := false
  dupAddr := false
  tickMismatch := false
  overload := false
  joinFail := false
  joinRefused := false
  split := false
  activeN := 0
  minCycle := 0
  payloadNs := 0
  nodeMap := 0
  nodes := []
  seen := []
  portA := .reset
  portB := .reset
  leave := 0
  leaveCycle := 0
  heardCycle := 0
  listenCycle := 0
  opened := false
  joinClk := 0
  remote := Vector.replicate 4 RemoteStall.reset
  sendQ := []
  partials := []
  proxies := []

/-- State of the time unit, NT_STATE (11 Table 11.8). -/
inductive NtState where
  | none | acquire | locked | holdover | grandmaster
  deriving DecidableEq, Repr

/-- TimeConfig values (11 R452). -/
structure TimeConf where
  domain : BitVec 7
  ppsOutEn : Bool
  ppsSrc : Bool
  gmPrio : BitVec 8
  ki : BitVec 5
  kp : BitVec 4
  deriving DecidableEq, Repr

/-- The defaults of R452. -/
def TimeConf.delivered : TimeConf := ⟨0, true, false, 128, 6, 2⟩

/-- A time step (11 R443): its STEP_ID, its apply cycle, and Δ in 2^-64 ns. -/
structure TimeStep where
  id : BitVec 16
  apply : W32
  delta : Int
  deriving DecidableEq, Repr

/-- A TimeSet in progress (11 R453): its command, the time given in 2^-64 ns, and whether Δ is computed. -/
structure TimeSetRun where
  stall : Stall
  tag : BitVec 8
  given : Int
  done : Bool
  deriving DecidableEq, Repr

/-- The time unit (11 R434 to R446). -/
structure TimeUnit where
  /-- Network time at State.clk, and the applied frequency correction y and integral term I in 2^-48. -/
  nt : Int
  y : Int
  integ : Int
  /-- Last offset o in ns. -/
  offset : Int
  state : NtState
  /-- Consecutive Syncs within 20 ns. -/
  lockRun : Nat
  /-- Own cycle of the last Sync. -/
  syncCycle : Nat
  gmAddr : BitVec 10
  gmValid : Bool
  isGm : Bool
  /-- Own cycle in which this device took the grandmaster's role; it sends Sync from the next one on (R440). -/
  gmCycle : Nat
  timeQual : BitVec 2
  /-- The candidate that ranks ahead of the grandmaster, and for how many cycles. -/
  better : BitVec 10
  betterRun : Nat
  syncPort : Bool
  /-- SYNC_PORT is chosen anew from the next frame of the grandmaster (R437). -/
  syncPortDue : Bool
  ref25Ok : Bool
  ppsStamp : Int
  ppsBad : BitVec 8
  ppsOut : Bool
  /-- Clock of the last rise of PPS_OUT. -/
  ppsClk : Nat
  /-- TimeConfig as stored, and in force. -/
  stored : TimeConf
  conf : TimeConf
  stepId : BitVec 16
  step : Option TimeStep
  timeSet : Option TimeSetRun
  /-- Network time has been set since start (R441). -/
  timeIsSet : Bool
  deriving DecidableEq, Repr

def TimeUnit.reset : TimeUnit where
  nt := 0
  y := 0
  integ := 0
  offset := 0
  state := .none
  lockRun := 0
  syncCycle := 0
  gmAddr := 0
  gmValid := false
  isGm := false
  gmCycle := 0
  timeQual := 3
  better := 0
  betterRun := 0
  syncPort := false
  syncPortDue := true
  ref25Ok := false
  ppsStamp := 0
  ppsBad := 0
  ppsOut := false
  ppsClk := 0
  stored := .delivered
  conf := .delivered
  stepId := 0
  step := none
  timeSet := none
  timeIsSet := false

end Sys2Proof.Machine
end

