-- ==== Sys2Proof/Machine/StSafe.lean ====
section
/-! DEFINITION. State of the two safety channels (spec 15). Times of a channel are counts of its own check cycles of
250 µs. -/
namespace Sys2Proof.Machine

/-- One input function in one channel (15 R577 to R580). -/
structure FuncChan where
  /-- The permit Pp as this channel forms it. -/
  p : Bool
  awaitRestart : Bool
  /-- Start-up test of a guard door (R578): 0 to be opened, 1 to be closed, 2 done. -/
  test : Fin 3
  /-- Two-hand control (R579): both hands have been released; the check cycle of the first actuation; synchronism has
  lapsed. -/
  released : Bool
  firstHand : Option Nat
  lapsed : Bool
  deriving DecidableEq, Repr

def FuncChan.reset : FuncChan := ⟨false, true, 0, false, none, false⟩

/-- One zone in one channel (15 R581 to R583). -/
structure ZoneChan where
  permitted : Bool
  /-- The channel asserts its STO line of the die. -/
  sto : Bool
  /-- The check cycle in which the SS1 time ends. -/
  ss1 : Option Nat
  deriving DecidableEq, Repr

/-- At start every gate die is in STO (R571). -/
def ZoneChan.reset : ZoneChan := ⟨false, true, none⟩

/-- One SLS monitor in one channel (15 R587, R588). -/
structure SlsChan where
  /-- Positions of the last check cycles, newest first, as far back as WIN_MS needs. -/
  hist : List Int
  /-- Speed in 2^-8 turn/s, none while it cannot be measured. -/
  speed : Option Int
  deriving DecidableEq, Repr

/-- One safety channel (15 R567 to R593). -/
structure SafeChan where
  /-- The channel has started and holds its copy of the parameter set; running from the first exchange on. -/
  started : Bool
  run : Bool
  /-- Check cycles since the channel's start. -/
  cycles : Nat
  /-- Debounced SIN15 to SIN00. -/
  sin : BitVec 16
  funcs : Vector FuncChan 8
  /-- Remote permits P8 to P31: the permit, and awaiting restart. -/
  remote : Vector (Bool × Bool) 24
  /-- The permit word P31 to P0 of the last check cycle. -/
  permits : W32
  /-- The channel's switches of OSSD0 to OSSD3 are commanded on. -/
  ossd : BitVec 4
  zones : Vector ZoneChan 2
  sls : Vector SlsChan 8
  /-- Consecutive check cycles without the partner's exchange, and with disagreement. -/
  late : Nat
  disagree : Nat
  /-- This channel's copy of the parameter set and of the staging set. -/
  params : Mem W32
  staging : Mem W32
  deriving DecidableEq, Repr

def SafeChan.reset : SafeChan where
  started := false
  run := false
  cycles := 0
  sin := 0
  funcs := Vector.replicate 8 FuncChan.reset
  remote := Vector.replicate 24 (false, true)
  permits := 0
  ossd := 0
  zones := Vector.replicate 2 ZoneChan.reset
  sls := Vector.replicate 8 ⟨[], none⟩
  late := 0
  disagree := 0
  params := []
  staging := []

/-- One input pair as both channels judge it (15 R574, R575, R589): disagreement has lasted since this cycle of channel
A; the present disagreement has been reported; a discrepancy fault, and inputs that missed a test pulse, since the unit's
last degraded period or lock-out ended; inputs that missed the last pulse of their source. -/
structure PairState where
  discSince : Option Nat
  reported : Bool
  discFault : Bool
  miss : BitVec 2
  missNow : BitVec 2
  deriving DecidableEq, Repr

/-- One SLS monitor's state shared by the channels (15 R588). -/
structure SlsState where
  active : Bool
  /-- Cycle of channel A in which it became active; its checks run. -/
  activeSince : Nat
  checking : Bool
  tripped : Bool
  discSince : Option Nat
  unmeasSince : Option Nat
  /-- Both channels have been unmeasured since this cycle. -/
  bothSince : Option Nat
  reported : Bool
  discFault : Bool
  deriving DecidableEq, Repr

def SlsState.reset : SlsState := ⟨false, 0, false, false, none, none, none, false, false⟩

/-- One OSSD output (15 R584 to R586): in its test pulse, its readback, an off check due, its last check failed, a
failure since the unit's last degraded period or lock-out ended, the result of the pulse is discarded. -/
structure OssdOut where
  pulsing : Bool
  read : Bool
  offCheck : Bool
  failed : Bool
  marked : Bool
  discard : Bool
  /-- An on demand waits for the end of the pulse. -/
  onWaits : Bool
  /-- Clock of the tick of the last switch-off. -/
  offClk : Nat
  deriving DecidableEq, Repr

def OssdOut.reset : OssdOut := ⟨false, false, false, false, false, false, false, 0⟩

/-- State of a connection, CONN_STATUS.STATE (15 R608). -/
inductive ConnState where
  | off | waiting | valid | timedOut
  deriving DecidableEq, Repr

/-- One safety connection (15 R595 to R601). -/
structure Conn where
  state : ConnState
  lastSeq : BitVec 16
  /-- A reference SEQ is set (R598). -/
  refSet : Bool
  rejects : BitVec 8
  timeouts : BitVec 16
  /-- Check cycles of channel A since the last acceptance. -/
  age : Nat
  data : List Byte
  deriving DecidableEq, Repr

def Conn.reset : Conn := ⟨.off, 0, false, 0, 0, 0, []⟩

/-- A CONFIRM that waits for SRESET (15 R603, R610). -/
structure ConfirmWait where
  stall : Stall
  tag : BitVec 8
  newCode : Option W32
  /-- The CRC that it confirmed, and the clock of its tick. -/
  crc : W32
  since : Nat
  deriving DecidableEq, Repr

/-- The safety controller (spec 15). -/
structure Safety where
  chA : SafeChan
  chB : SafeChan
  paramValid : Bool
  paramCrc : W32
  paramCount : BitVec 16
  code : W32
  wrongCodes : Nat
  codeBlocked : Bool
  /-- Clock at which the block of OPEN began. -/
  blockClk : Nat
  commissioning : Bool
  /-- Clock of the last safety command of an open commissioning. -/
  commClk : Nat
  confirm : Option ConfirmWait
  pairs : Vector PairState 8
  sls : Vector SlsState 8
  ossd : Vector OssdOut 8
  tpOff : BitVec 4
  /-- Clock of the tick in which each source's last off pulse ended. -/
  tpEnd : Vector Nat 4
  conns : Vector Conn 64
  sresetStuck : Bool
  /-- The acknowledge is armed. -/
  armed : Bool
  /-- Clock of the tick in which it was armed last. -/
  armedClk : Nat
  /-- An SRESET pulse accepted and not yet seen by channel A, by channel B. -/
  resetA : Bool
  resetB : Bool
  /-- LOCKOUT_CAUSE and DEGRADED_UNITS, bits [21:0]; units that enter lock-out once both zones are in STO. -/
  lockout : BitVec 22
  degraded : BitVec 22
  degEnding : BitVec 22
  /-- Units in lock-out because their degraded period ended: their permits stay 0 (R590). -/
  degEnded : BitVec 22
  /-- Check cycle of channel A in which each degraded unit's period ends, by bit of DEGRADED_UNITS. -/
  degEnd : Mem Nat
  xchkLate : Bool
  /-- The VSAFE feed to the STO switches is open (R591). -/
  vsafeOpen : Bool
  /-- A stop requested from the control die: SS1 of zone A, zone B runs (FS161, FS162 levels). -/
  ss1A : Bool
  ss1B : Bool
  deriving DecidableEq, Repr

/-- As delivered: no parameter set, every OSSD off, both zones in STO (R602), channels not started. -/
def Safety.reset : Safety where
  chA := SafeChan.reset
  chB := SafeChan.reset
  paramValid := false
  paramCrc := 0
  paramCount := 0
  code := 0
  wrongCodes := 0
  codeBlocked := false
  blockClk := 0
  commissioning := false
  commClk := 0
  confirm := none
  pairs := Vector.replicate 8 ⟨none, false, false, 0, 0⟩
  sls := Vector.replicate 8 SlsState.reset
  ossd := Vector.replicate 8 OssdOut.reset
  tpOff := 0
  tpEnd := Vector.replicate 4 0
  conns := Vector.replicate 64 Conn.reset
  sresetStuck := false
  armed := false
  armedClk := 0
  resetA := false
  resetB := false
  lockout := 0
  degraded := 0
  degEnding := 0
  degEnded := 0
  degEnd := []
  xchkLate := false
  vsafeOpen := false
  ss1A := false
  ss1B := false

end Sys2Proof.Machine
end

