-- ==== Sys2Proof/Machine/State.lean ====
section
/-! DEFINITION. The state of the block, its state at reset, and the reasons a step can stop. -/
namespace Sys2Proof.Machine
open Sys2Proof

/-- What leaves the device (log entry 8): messages on its buses, which no later command reads back. -/
inductive OutMsg where
  /-- An MSI-X message of a vector (03 R104). -/
  | msix (vector : Nat)
  /-- A poisoned write reported through Advanced Error Reporting (03 R76). -/
  | aer
  /-- Unsupported Request (03 R76). -/
  | unsupported
  /-- Configuration Request Retry Status (01 R28). -/
  | retryStatus
  /-- A cycle frame on a ring port (11 R416). -/
  | ring (portB : Bool) (f : RingFrame)
  /-- A frame found bad while it is forwarded, ended with an inverted FCS (11 R410). -/
  | ringBad (portB : Bool)
  /-- Of a domain: Sync with its originTimestamp and correctionField together, in 2^-64 ns, Pdelay_Req, Pdelay_Resp
  (11 R435 to R437). -/
  | sync (portB : Bool) (domain : BitVec 7) (origin : Int)
  | pdelayReq (portB : Bool) (domain : BitVec 7)
  | pdelayResp (portB : Bool) (domain : BitVec 7) (seq : BitVec 16)
  /-- A CAN frame that was sent. -/
  | can (c : Fin 2) (f : CanFrame)
  /-- What an SPI master port does with its lines, under the settings of the select, words 0 and 1 of its SpmSelect
  (13 R500: clock, mode, word length, bit order, select timing); and bytes sent to the mapped memory in one select assertion, the dummy clocks
  after them, and how many bytes are clocked in then (13 R505, R506). -/
  | spm (port : Nat) (cs : Nat) (settings : W32 × W32) (lines : List SpmLine)
  | spmMem (cs : Nat) (bytes : List Byte) (dummy read : Nat)
  /-- Bytes written to host memory by the DMA engine (10 R396). -/
  | hostWrite (addr : Nat) (bytes : List Byte)
  /-- An exchange started on a serial encoder port (07 R250). -/
  | serial (port : Nat)
  deriving DecidableEq, Repr

/-- Everything of the block but its queue of commands and its DRAM. -/
structure Dev where
  /-- Lane clocks since the first tick boundary, at the last tick boundary (log entry 7). -/
  clk : Nat
  /-- Draws of free values so far: the model's own field, not the spec's (log entry 5). -/
  free : Nat
  pw : Power
  tk : TickUnit
  hp : HostPort
  ft : FaultUnit
  sv : Service
  axf : Vector AxisFault 16
  /-- Plot records (04 R123). -/
  plots : Vector (Vector W32 14) 16
  lanes : Vector Lane 18
  loops : Vector AxisLoop 16
  progs : ProgStore
  ctl : Vector Ctl 16
  /-- Law and motion state of an axis as its lane loaded it, while the lane's tick is not committed: what a discarded tick
  goes back to (02 R61, 05 R138). -/
  saved : Vector (Option (Ctl × Motion)) 16
  /-- Learned-table slots 0 to 63, two copies each (06 R209). -/
  slots : Vector (Vector SlotCopy 2) 64
  /-- Averaged results of the auxiliary converters, Q1.19, by converter number (04 R118). -/
  aux : Mem Int
  fb : Feedback
  pwm : Vector AxisPwm 16
  legs : Vector Leg 48
  gates : Vector GateDie 2
  mot : Vector Motion 16
  mu : MotionUnit
  cap : Capture
  ring : Ring
  nt : TimeUnit
  can : Can
  fio : FieldIo
  sf : Safety
  /-- The safety controller as channel A's last check cycle, start or stop left it: what its registers show (15 R608). -/
  sfSeen : Safety
  out : List OutMsg
  /-- Bytes the present command writes to DRAM, in order; State.on carries them out, so it is empty between commands. -/
  wr : List (Nat × List Byte)
  deriving DecidableEq, Repr

/-- The machine: the commands that wait, first in, first out; DRAM; and everything else. -/
structure State where
  pending : List Instr
  dram : Memory
  dev : Dev
  deriving DecidableEq, Repr

/-- Why the block stops with a fault. -/
inductive Fault where
  /-- An access through BAR2 names a DRAM address of 8 GB or above, which does not exist (10 R371). Raised by
  DRAM_WRITE and HOST_READ. Safe: the model stops where the spec says nothing. -/
  | noDram
  deriving DecidableEq, Repr

/-- Why a command has no meaning. -/
inductive Refusal where
  /-- No meaning is written yet for the command. Raised by arms of exec only. Safe. -/
  | notModelled (mnemonic : String)
  /-- A lane instruction whose fields 05 R150 to R157 call illegal; LawCommit lets none of them into a program. Raised by
  the lane instructions. Safe: the spec gives no effect. -/
  | illegalInstruction
  deriving DecidableEq, Repr

/-- The device at reset: every part as its spec chapter gives it. -/
def Dev.reset : Dev where
  clk := 0
  free := 0
  pw := Power.reset
  tk := TickUnit.reset
  hp := HostPort.reset
  ft := FaultUnit.reset
  sv := Service.reset
  axf := Vector.replicate 16 AxisFault.reset
  plots := Vector.replicate 16 (Vector.replicate 14 0)
  lanes := lanesReset
  loops := Vector.replicate 16 AxisLoop.reset
  progs := ProgStore.reset
  ctl := Vector.replicate 16 Ctl.reset
  saved := Vector.replicate 16 none
  slots := Vector.replicate 64 (Vector.replicate 2 SlotCopy.empty)
  aux := []
  fb := Feedback.reset
  pwm := Vector.replicate 16 AxisPwm.reset
  legs := Vector.replicate 48 Leg.reset
  gates := Vector.replicate 2 GateDie.reset
  mot := Vector.replicate 16 Motion.reset
  mu := MotionUnit.reset
  cap := Capture.reset
  ring := Ring.reset
  nt := TimeUnit.reset
  can := Can.reset
  fio := FieldIo.reset
  sf := Safety.reset
  sfSeen := Safety.reset
  out := []
  wr := []

/-- The machine as delivered, with VMAIN just present and no start made yet: no command waits, DRAM lists nothing. -/
def State.reset : State := ⟨[], [], Dev.reset⟩

end Sys2Proof.Machine
end

