-- ==== Sys2Proof/Machine/Ops.lean ====
section
/-! DEFINITION. Shared operations: free values, time, presence of stalls, interrupts, responses, the ledger, the fault
collector, and how a command's effect becomes a step. -/
namespace Sys2Proof.Machine
open Sys2Proof

/-- One element of a vector replaced. -/
def vset {α : Type} {n : Nat} (v : Vector α n) (i : Fin n) (x : α) : Vector α n := v.set i.val x i.isLt
/-- One element of a vector changed. -/
def vmod {α : Type} {n : Nat} (v : Vector α n) (i : Fin n) (f : α → α) : Vector α n := vset v i (f v[i])

/-- DRAM after a list of writes, in order; bytes at 8 GB and above do not exist. -/
def dramApply (m : Memory) : List (Nat × List Byte) → Memory
  | [] => m
  | (a, bs) :: ws => dramApply (Mem.writes 0 m a (bs.take (2 ^ 33 - a))) ws

/-- A command's effect on the device, as a step's effect on the state: the bytes it writes to DRAM go into DRAM. -/
def State.on (f : Dev → Dev) (s : State) : State :=
  let d := f s.dev
  { s with dram := dramApply s.dram d.wr, dev := { d with wr := [] } }

/-- As State.on, for an effect that reads DRAM. -/
def State.onMem (f : Memory → Dev → Dev) (s : State) : State := s.on (f s.dram)

/-! ## Free values -/

/-- Draw a free natural number (log entry 5). -/
def Dev.draw (d : Dev) : Nat × Dev := (Config.freeNat d.free, { d with free := d.free + 1 })

/-! ## Fields of the device -/

def Dev.modAxf (a : AxisNo) (f : AxisFault → AxisFault) (d : Dev) : Dev := { d with axf := vmod d.axf a f }
def Dev.modLane (l : LaneNo) (f : Lane → Lane) (d : Dev) : Dev := { d with lanes := vmod d.lanes l f }
def Dev.modLoop (a : AxisNo) (f : AxisLoop → AxisLoop) (d : Dev) : Dev := { d with loops := vmod d.loops a f }
def Dev.modCtl (a : AxisNo) (f : Ctl → Ctl) (d : Dev) : Dev := { d with ctl := vmod d.ctl a f }
def Dev.modPwm (a : AxisNo) (f : AxisPwm → AxisPwm) (d : Dev) : Dev := { d with pwm := vmod d.pwm a f }
def Dev.modLeg (l : LegNo) (f : Leg → Leg) (d : Dev) : Dev := { d with legs := vmod d.legs l f }
def Dev.modMot (a : AxisNo) (f : Motion → Motion) (d : Dev) : Dev := { d with mot := vmod d.mot a f }
def Dev.modStall (st : Stall) (f : StallState → StallState) (d : Dev) : Dev :=
  { d with hp := { d.hp with stalls := vmod d.hp.stalls st f } }
def Dev.modSrc (i : Fin 32) (f : FbSource → FbSource) (d : Dev) : Dev :=
  { d with fb := { d.fb with src := vmod d.fb.src i f } }
def Dev.modUnit (u : Fin 8) (f : CapUnit → CapUnit) (d : Dev) : Dev :=
  { d with cap := { d.cap with units := vmod d.cap.units u f } }
def Dev.modDma (c : Fin 8) (f : DmaChan → DmaChan) (d : Dev) : Dev :=
  { d with cap := { d.cap with dma := vmod d.cap.dma c f } }
def Dev.modRemote (i : Fin 4) (f : RemoteStall → RemoteStall) (d : Dev) : Dev :=
  { d with ring := { d.ring with remote := vmod d.ring.remote i f } }
def Dev.modCan (c : Fin 2) (f : CanCtl → CanCtl) (d : Dev) : Dev :=
  { d with can := { d.can with ctl := vmod d.can.ctl c f } }
def Dev.modGate (g : Fin 2) (f : GateDie → GateDie) (d : Dev) : Dev := { d with gates := vmod d.gates g f }
/-- A message leaves the device. -/
def Dev.emit (m : OutMsg) (d : Dev) : Dev := { d with out := d.out ++ [m] }
/-- Bytes go to DRAM when the command is done. -/
def Dev.put (a : Nat) (bs : List Byte) (d : Dev) : Dev := { d with wr := d.wr ++ [(a, bs)] }

/-- Word k of a state slot: the layout of the standard words is the firmware's, so they are free values once a tick has
committed there (05 R136; log entry 5). -/
def AxisLoop.slotWord (l : AxisLoop) (a : AxisNo) (s : Bool) (k : Nat) : W20 :=
  let i : Fin 2 := if s then 1 else 0
  match l.marks[i] with
  | some t => if k < 0x180 then BitVec.ofInt 20 (Config.freeOf 16 [a.val, k, t]) else Mem.read 0 l.slots[i] k
  | none => Mem.read 0 l.slots[i] k

/-! ## Time -/

/-- Lane clocks of a tick. -/
def Dev.tickClks (d : Dev) : Nat := d.tk.conf.tickClks.toNat
/-- Has a time of some lane clocks passed by the end of the present tick? -/
def Dev.past (d : Dev) (since clks : Nat) : Bool := decide (d.clk + d.tickClks ≥ since + clks)
/-- Tick number. -/
def Dev.tick (d : Dev) : Nat := d.tk.num.toNat
/-- Ticks since start, for limits counted in ticks. -/
def Dev.age (d : Dev) : Nat := d.tk.age
/-- Lane clocks of a millisecond: 512 MHz (00 R8). -/
def clksPerMs : Nat := 512000
/-- A time in ms as ticks, rounded up. -/
def Dev.msTicks (d : Dev) (ms : Nat) : Nat := cdiv (ms * clksPerMs) (max 1 d.tickClks)
/-- Does a frame begin at the present tick (02 R50)? -/
def Dev.isFrame (d : Dev) : Bool := d.tick % max 1 d.tk.conf.frameTicks.toNat == 0
/-- Ticks of a network cycle (02 R50). -/
def Dev.cycleTicks (d : Dev) : Nat := max 1 (d.tk.conf.frameTicks.toNat * d.tk.conf.cycleFrames.toNat)
/-- Number of the network cycle. -/
def Dev.cycleNo (d : Dev) : Nat := d.tick / d.cycleTicks
/-- Network cycles begun since start, for limits counted in cycles. -/
def Dev.ownCycle (d : Dev) : Nat := d.tk.cycles
/-- Does a network cycle begin at the present tick? -/
def Dev.isCycle (d : Dev) : Bool := d.tick % d.cycleTicks == 0

/-- Nanoseconds of 2^-64 as network time (00 R9). -/
def ntOf (x : Int) : NetTime :=
  let ns := Int.fdiv x (2 ^ 64)
  ⟨BitVec.ofInt 48 (Int.fdiv ns 1000000000), BitVec.ofInt 32 (Int.fmod ns 1000000000),
   BitVec.ofInt 16 (Int.fdiv x (2 ^ 48))⟩
/-- Network time in 2^-64 ns. -/
def NetTime.toInt (t : NetTime) : Int :=
  ((t.sec.toNat * 1000000000 + t.ns.toNat) * 2 ^ 64 + t.frac.toNat * 2 ^ 48 : Nat)
/-- Network time that passes in lane clocks under the frequency correction in force: a positive offset slows the time
base (11 R439; DEDUCED from the step by −o, log entry 27). -/
def Dev.ntStep (d : Dev) (clks : Nat) : Int := (clks * 128000 : Nat) * (2 ^ 48 - d.nt.y)
/-- Network time a number of lane clocks after the last tick boundary. -/
def Dev.ntAt (d : Dev) (off : Nat) : NetTime := ntOf (d.nt.nt + d.ntStep off)
/-- Network time a number of lane clocks after the last tick boundary, or before it. -/
def Dev.ntNear (d : Dev) (off : Int) : NetTime := ntOf (d.nt.nt + off * 128000 * (2 ^ 48 - d.nt.y))
/-- Network time of tick number n: EPOCH + n × L × 125/64 ns (02 R53). -/
def Dev.ntOfTick (d : Dev) (n : Nat) : NetTime :=
  ntOf (d.tk.epoch.toInt + (n * d.tickClks * 128000 : Nat) * 2 ^ 48)
/-- Is network time valid: NT_STATE 2 or 4 (11 R444)? -/
def Dev.ntValid (d : Dev) : Bool := d.nt.state == .locked || d.nt.state == .grandmaster
/-- The words SEC_LO, SEC_HI, NS of a stamp. -/
def NetTime.words (t : NetTime) : List W32 :=
  [t.sec.setWidth 32, (t.sec >>> 32).setWidth 32, t.ns]

/-! ## Plots and axes (spec 04) -/

/-- A word of an axis's plot record. -/
def Dev.plotW (d : Dev) (a : AxisNo) (i : Nat) : W32 := d.plots[a].toList.getD i 0
/-- VALID: the axis has a plot. -/
def Dev.assigned (d : Dev) (a : AxisNo) : Bool := bitOf (d.plotW a 0) 31
/-- MOTOR_TYPE. -/
def Dev.mtype (d : Dev) (a : AxisNo) : Nat := fld (d.plotW a 0) 3 0
/-- Legs of a motor type (04 Table 4.1). -/
def legCount (t : Nat) : Nat := if t = 3 then 4 else if t = 4 then 2 else if t = 1 ∨ t = 2 then 3 else 0
/-- LEG0 to LEG3 of a plot word 1, as many as the type has. -/
def legFields (t : Nat) (w : W32) : List Nat := (List.range (legCount t)).map (fun i => fld w (8 * i + 5) (8 * i))
/-- The legs of an axis in plot order; none when it has no plot. -/
def Dev.axisLegs (d : Dev) (a : AxisNo) : List LegNo :=
  if d.assigned a then (legFields (d.mtype a) (d.plotW a 1)).map lg else []
/-- The axis whose plot holds a leg. -/
def Dev.legAxis (d : Dev) (l : LegNo) : Option AxisNo := allAxes.find? (fun a => (d.axisLegs a).contains l)
/-- The gate die of a leg: 0 GS-A, 1 GS-B (04 R113). -/
def dieOf (l : LegNo) : Fin 2 := if l.val < 24 then 0 else 1
/-- The legs of a gate die. -/
def dieLegs (g : Fin 2) : List LegNo := (List.finRange 48).filter (fun l => dieOf l == g)
/-- Does an axis hold a leg of a die? -/
def Dev.onDie (d : Dev) (a : AxisNo) (g : Fin 2) : Bool := (d.axisLegs a).any (fun l => dieOf l == g)
/-- The three sources of a plot: primary, commutation, secondary; 63 none. -/
def Dev.priSrc (d : Dev) (a : AxisNo) : Nat := if d.assigned a then fld (d.plotW a 3) 5 0 else 63
def Dev.commSrc (d : Dev) (a : AxisNo) : Nat := if d.assigned a then fld (d.plotW a 3) 13 8 else 63
def Dev.secSrc (d : Dev) (a : AxisNo) : Nat := if d.assigned a then fld (d.plotW a 3) 21 16 else 63
/-- The axes whose plots name a source. -/
def Dev.axesOfSrc (d : Dev) (i : Nat) : List AxisNo :=
  allAxes.filter (fun a => d.priSrc a == i || d.commSrc a == i || d.secSrc a == i)
/-- Bridge on, or charging. -/
def Dev.bridgeBusy (d : Dev) (a : AxisNo) : Bool := d.pwm[a].bridgeOn || d.pwm[a].charging
/-- The axes whose bridge is on or charging. -/
def Dev.liveAxes (d : Dev) : List AxisNo := allAxes.filter d.bridgeBusy

/-! ## Stalls, interrupts and responses (spec 03) -/

/-- Is a stall present (03 Table 3.1)? -/
def Dev.present (d : Dev) (st : Stall) : Bool :=
  match st.val with
  | 0 => d.hp.pcie.linkUp && (d.hp.pcie.busMaster || d.hp.pcie.memSpace)
  | 1 => d.hp.sphUp
  | 6 => d.can.gw.ctrl.isSome
  | 7 => d.hp.debugSel
  | n => d.ring.remote[Fin.ofNat 4 (n - 2)].connected

/-- Does a stall own the device? -/
def Dev.isOwner (d : Dev) (st : Stall) : Bool := d.hp.own.valid && d.hp.own.stall == st

/-- IRQ_STATUS AND IRQ_ENABLE. -/
def Dev.irqActive (d : Dev) (st : Stall) : BitVec 11 := d.hp.stalls[st].irqStatus &&& d.hp.stalls[st].irqEnable

/-- Send MSI-X vector k, or keep it pending (03 R104; the masking of the PCI Express Base Specification, log entry 9). -/
def Dev.msix (k : Nat) (d : Dev) : Dev :=
  if !d.present 0 then d
  else if d.hp.pcie.busMaster && d.hp.pcie.msixEnable && !d.hp.pcie.msixFuncMask && !d.hp.pcie.msixMask.getLsbD k then d.emit (.msix k)
  else { d with hp := { d.hp with pcie := { d.hp.pcie with msixPending := d.hp.pcie.msixPending ||| BitVec.ofNat 16 (2 ^ k) } } }

/-- Deliver what an interrupt of S2 to S6 becoming active asks for (11 R432, 12 R475). -/
def Dev.irqTransport (st : Stall) (d : Dev) : Dev :=
  if 2 ≤ st.val ∧ st.val ≤ 5 then d.modRemote (Fin.ofNat 4 (st.val - 2)) (fun r => { r with irqDue := true })
  else if st.val = 6 then { d with can := { d.can with gw := { d.can.gw with irqAgain := true } } }
  else d

/-- A cause of a stall becomes set (03 R103, R104). -/
def Dev.setIrq (st : Stall) (k : Nat) (d : Dev) : Dev :=
  let s := d.hp.stalls[st]
  let was := s.irqStatus.getLsbD k
  let before := d.irqActive st
  let d1 := d.modStall st (fun s => { s with irqStatus := s.irqStatus ||| BitVec.ofNat 11 (2 ^ k) })
  if s.irqEnable.getLsbD k && !was then
    if st = 0 then d1.msix k else if before = 0 then d1.irqTransport st else d1
  else d1

/-- A cause in every present stall. -/
def Dev.setIrqAll (k : Nat) (d : Dev) : Dev :=
  allStalls.foldl (fun d st => if d.present st then d.setIrq st k else d) d

/-- Cause bits of IRQ_STATUS (03 R101). -/
def irqRsp : Nat := 0
def irqOwner : Nat := 1
def irqFault : Nat := 2
def irqDma : Nat := 3
def irqCapture : Nat := 4
def irqRing : Nat := 5
def irqCan : Nat := 6
def irqField : Nat := 7
def irqStallErr : Nat := 8
def irqReady : Nat := 9
def irqHbWarn : Nat := 10

/-- ACCESS_ERR becomes 1 (03 R70, R101). -/
def Dev.accessErr (st : Stall) (d : Dev) : Dev :=
  if d.hp.stalls[st].accessErr then d
  else (d.modStall st (fun s => { s with accessErr := true })).setIrq st irqStallErr
/-- OVERRUN becomes 1 (03 R72). -/
def Dev.overrun (st : Stall) (d : Dev) : Dev :=
  if d.hp.stalls[st].overrun then d
  else (d.modStall st (fun s => { s with overrun := true })).setIrq st irqStallErr

/-- Status codes of 03 Table 3.8. -/
def stOk : Nat := 0
def stBusyTag : Nat := 1
def stNotOwner : Nat := 2
def stLength : Nat := 3
def stUnknown : Nat := 4
def stParam : Nat := 5
def stState : Nat := 6
def stBudget : Nat := 7
def stDiscarded : Nat := 8
def stTimeout : Nat := 9
def stSafetyLock : Nat := 10
def stResource : Nat := 11

/-! ## The ledger (14 R552, R634) -/

/-- KA time in seconds and nanoseconds. -/
def Dev.kaWords (d : Dev) : List W32 :=
  let sec := d.pw.kaTime.toNat / 2 ^ 15
  [nW sec, nW (sec / 2 ^ 32), nW (d.pw.kaTime.toNat % 2 ^ 15 * 1000000000 / 2 ^ 15)]

/-- The eight words of a new record. -/
def Dev.recordOf (d : Dev) (kind sev source axes : Nat) (w6 w7 : W32) : List W32 :=
  let t := if d.ntValid then (d.ntAt 0).words else d.kaWords
  [mkw [(source, 0, 9), (b2n (!d.ntValid), 9, 1), (b2n d.ft.sown, 10, 1), (sev, 16, 8), (kind, 24, 8)],
   mkw [(axes, 0, 16)]] ++ t ++ [nW d.tick, w6, w7]

/-- Write a record at HEAD, the oldest overwritten, WRAPS counted; past the MRAM row of a power-down nothing is written (01
R29). -/
def Dev.ledgerPut (r : List W32) (d : Dev) : Dev :=
  let h := d.sv.ledgerHead
  let wraps := if h.toNat = 65535 then BitVec.ofNat 16 (satU 16 (d.sv.ledgerWraps.toNat + 1)) else d.sv.ledgerWraps
  if d.pw.mramShut then d
  else { d with sv := { d.sv with ledger := Mem.write [] d.sv.ledger h.toNat r, ledgerHead := h + 1, ledgerWraps := wraps } }

/-- Write a record of an event of now. -/
def Dev.ledger (kind sev source axes : Nat) (w6 w7 : W32) (d : Dev) : Dev := d.ledgerPut (d.recordOf kind sev source axes w6 w7)

/-- REPEAT of the record at an index, saturating. -/
def bumpRepeat (r : List W32) : List W32 :=
  r.set 1 (mkw [(fld (wd r 1) 15 0, 0, 16), (satU 16 (fld (wd r 1) 31 16 + 1), 16, 16)])

/-! ## Responses (03 R94) -/

/-- Words used in the response area. -/
def rspUsed (s : StallState) : Nat := (s.rspWrPtr - s.rspRdPtr).toNat
/-- Is there room for a response of the given payload? -/
def rspRoom (s : StallState) (r : Response) : Bool := decide (rspUsed s + r.words.length + 1 ≤ 1024)

/-- Header word of a command or a response (03 Table 3.7). -/
def headerOf (code : BitVec 12) (tag : BitVec 8) (len : Nat) : W32 :=
  mkw [(len, 0, 12), (tag.toNat, 12, 8), (code.toNat, 20, 12)]

/-- Words of the circular areas from a pointer on. -/
def areaWrite (m : Mem W32) (p : Nat) : List W32 → Mem W32
  | [] => m
  | w :: ws => areaWrite (Mem.write 0 m (p % 1024) w) (p + 1) ws
/-- n words of a circular area from a pointer on. -/
def areaRead (m : Mem W32) (p n : Nat) : List W32 := (List.range n).map (fun i => Mem.read 0 m ((p + i) % 1024))

/-- Write a response for which there is room: the words, then RSP_WR_PTR, then the RSP cause (03 R94, R105). -/
def Dev.writeRsp (st : Stall) (r : Response) (d : Dev) : Dev :=
  (d.modStall st (fun s =>
    { s with rspArea := areaWrite s.rspArea s.rspWrPtr.toNat (headerOf r.code r.tag r.words.length :: r.words),
             rspWrPtr := s.rspWrPtr + BitVec.ofNat 11 (r.words.length + 1) })).setIrq st irqRsp

/-- Post waiting responses of a stall while there is room; the command of each leaves flight. -/
def Dev.flushRsp (st : Stall) (d : Dev) : Dev :=
  go d.hp.stalls[st].rspWaiting d
where
  go : List Response → Dev → Dev
    | [], d => d.modStall st (fun s => { s with rspWaiting := [] })
    | r :: rs, d =>
      if rspRoom d.hp.stalls[st] r then
        go rs ({ d.writeRsp st r with hp := { (d.writeRsp st r).hp with
          inFlight := d.hp.inFlight.filter (fun c => !(c.stall == st && c.tag == r.tag && c.phase == .answered)) } })
      else d.modStall st (fun s => { s with rspWaiting := r :: rs })

/-- Is a command in flight that of a stall and tag? -/
def Cmd.is (c : Cmd) (st : Stall) (tag : BitVec 8) : Bool := c.stall == st && c.tag == tag && c.phase != .answered

/-- The command in flight of a stall and tag, not yet answered. -/
def Dev.cmd? (d : Dev) (st : Stall) (tag : BitVec 8) : Option Cmd := d.hp.inFlight.find? (fun c => c.is st tag)

/-- Length of a command's response where its rule fixes it above 1 (the command tables of the chapters). -/
def rspLen (code : Nat) : Nat :=
  if [0x001, 0x003, 0x252, 0x410, 0x512, 0x521, 0x541, 0x601, 0xB31].contains code then 2
  else if [0x221, 0x905, 0x922, 0x923, 0xB03].contains code then 3
  else if [0x223, 0xA10, 0xB11].contains code then 4
  else if [0x100, 0xB21].contains code then 5
  else if code = 0x904 then 7
  else if code = 0x505 then 8
  else if code = 0x261 then 9
  else if code = 0x413 then 10
  else if code = 0x104 then 15
  else if code = 0x211 then 18
  else 1

/-- Payload of a response: the status, the words, and zeros up to the length its rule fixes, BUDGET apart (02 R60; log
entry 11). -/
def rspWords (code status : Nat) (words : List W32) : List W32 :=
  nW status :: words ++ List.replicate (if status = stBudget then 0 else rspLen code - 1 - words.length) 0

/-- Complete a command in flight: its response is posted, or waits for room; a dropped command posts none (03 R94,
R100). -/
def Dev.respond (st : Stall) (tag : BitVec 8) (status : Nat) (words : List W32) (d : Dev) : Dev :=
  match d.cmd? st tag with
  | none => d
  | some c =>
    let gone := { d with hp := { d.hp with inFlight := d.hp.inFlight.filter (fun x => !x.is st tag) } }
    if c.dropped then gone
    else
      let r : Response := ⟨c.code, tag, rspWords c.code.toNat status words, true⟩
      if d.hp.stalls[st].rspWaiting.isEmpty && rspRoom d.hp.stalls[st] r then gone.writeRsp st r
      else
        { d with hp := { d.hp with
            inFlight := d.hp.inFlight.map (fun (x : Cmd) => if x.is st tag then { x with phase := .answered } else x) } }
        |>.modStall st (fun s => { s with rspWaiting := s.rspWaiting ++ [r] })

/-- Complete a command with a status and n − 1 zero words behind it. -/
def Dev.respondN (st : Stall) (tag : BitVec 8) (status n : Nat) (d : Dev) : Dev :=
  d.respond st tag status (List.replicate (n - 1) 0)

/-- Change a command in flight. -/
def Dev.modCmd (st : Stall) (tag : BitVec 8) (f : Cmd → Cmd) (d : Dev) : Dev :=
  { d with hp := { d.hp with inFlight := d.hp.inFlight.map (fun c => if c.is st tag then f c else c) } }

/-- A command that has been checked and applies at the next tick or frame boundary. -/
def Dev.await (st : Stall) (tag : BitVec 8) (p : CmdPhase) (d : Dev) : Dev :=
  d.modCmd st tag (fun c => { c with phase := p })

/-! ## Which axes a command names (03 R99) -/

/-- Commands whose word 0 [3:0] names one axis. -/
def oneAxisCodes : List Nat :=
  [0x101, 0x102, 0x103, 0x104, 0x224, 0x230, 0x231, 0x232, 0x240, 0x241, 0x250, 0x251, 0x252, 0x260, 0x261,
   0x400, 0x401, 0x402, 0x411, 0x413, 0x500, 0x502, 0x503, 0x505, 0x510, 0x511, 0x512, 0x520, 0x521, 0x530, 0x531,
   0x532, 0x533, 0x551, 0x811, 0xB20, 0xB21]
/-- Commands whose word 0 [15:0] is a mask of axes. -/
def maskCodes : List Nat := [0x225, 0x410, 0x501, 0x504, 0x534, 0xB02]

/-- The mask of axes that a command names. -/
def Dev.namedAxes (d : Dev) (code : Nat) (p : List W32) : Nat :=
  if code = 0x252 ∧ fld (wd p 0) 5 4 = 2 then 0
  else if oneAxisCodes.contains code then (if p.isEmpty then 0 else 2 ^ fld (wd p 0) 3 0)
  else if maskCodes.contains code then fld (wd p 0) 15 0 ||| (if code = 0x534 then fld (wd p 0) 31 16 else 0)
  else if code = 0x412 then fld (wd p 1) 31 16
  else if code = 0x540 then fld (wd p 0) 31 16
  else if code = 0x541 ∨ code = 0x542 then d.mu.groups[Fin.ofNat 8 (fld (wd p 0) 2 0)].members.toNat
  else if code = 0x300 ∨ code = 0x302 then maskOf ((d.axesOfSrc (fld (wd p 0) 4 0)).map (·.val))
  else if code = 0x303 then
    maskOf ((allAxes.filter (fun a => bitOf (wd p 0) (d.priSrc a) || bitOf (wd p 0) (d.commSrc a) ||
      bitOf (wd p 0) (d.secSrc a))).map (·.val))
  else 0

/-! ## Moves (09 R314) -/

/-- A move ends with a result: the ends are kept, and the MoveWaits for it complete (09 R314, R358). -/
def Dev.moveEnd (a : AxisNo) (id : BitVec 16) (r : MoveResult) (d : Dev) : Dev :=
  let d1 := d.modMot a (fun m => { m with ends := ((id, r) :: m.ends).take 16 })
  (d1.hp.inFlight.filter (fun c => c.code == 0x512 && c.phase == .started && fld (wd c.payload 0) 3 0 == a.val &&
    fld (wd c.payload 0) 31 16 == id.toNat)).foldl
    (fun d c => d.respond c.stall c.tag stOk [mkw [(resCode r, 0, 3)]]) d1
where
  resCode : MoveResult → Nat
    | .done => 0
    | .replaced => 1
    | .stopped => 2
    | .flushed => 3
    | .discarded => 4
    | .noEdge => 5

/-- The executing move ends with one result and the queued ones with another. -/
def Dev.endMoves (a : AxisNo) (rc rq : MoveResult) (d : Dev) : Dev :=
  let m := d.mot[a]
  let d1 := match m.cur with
    | some e => d.moveEnd a e.move.id rc
    | none => d
  (m.queue.foldl (fun d q => d.moveEnd a q.id rq) d1).modMot a
    (fun m => { m with cur := none, queue := [], dwellUntil := none })

/-! ## Bridges (08 R281) -/

/-- Is an axis in external isolated-driver mode (08 R289)? -/
def Dev.extDriver (d : Dev) (a : AxisNo) : Bool := bitOf (d.plotW a 2) 0
/-- EXT of the axis of a leg. -/
def Dev.legExt (d : Dev) (l : LegNo) : Bool :=
  match d.legAxis l with
  | some a => d.extDriver a
  | none => false

/-- Units of 10 ns in fine units, rounded to nearest with ties up: 10 ns are 40.96 (08 R278). -/
def tenNs (n : Nat) : Nat := (rdivUp (n * 4096 : Nat) 100).toNat
/-- Is a switch on? -/
def SwitchState.isOn : SwitchState → Bool
  | .on1 | .on2 | .on3 => true
  | _ => false
/-- A switch begins its turn-off with the OFF profile, if it is on; an external driver's output goes off at once (08 R289). -/
def SwitchState.toOff (ext : Bool) : SwitchState → SwitchState
  | .on1 | .on2 | .on3 => if ext then .off else .off1
  | .pending => .off
  | x => x

/-- The low side of a leg, if it is on, is turned off at an instant (10 R373). -/
def Leg.lowEnds (t : Option Nat) (l : Leg) : Leg := if l.lo.isOn then { l with lows := l.lows ++ [(l.loOn, t)] } else l

/-- A leg goes all-off with the OFF profile. -/
def Leg.allOff (ext : Bool) (l : Leg) : Leg :=
  { l.lowEnds none with
      side := .none, hi := l.hi.toOff ext, lo := l.lo.toOff ext, refresh := .none, pulseEnd := none, carry := 0, width := 0,
      emit := 0, riseEmit := 0 }
/-- A leg of the device goes all-off. -/
def Dev.legOff (l : LegNo) (d : Dev) : Dev := d.modLeg l (Leg.allOff (d.legExt l))

/-- The bridge of an axis goes off: every leg all-off, BRIDGE_ON and CHARGING cleared, the carry 0, any latch of R286
released (08 R281). -/
def Dev.bridgeOff (a : AxisNo) (d : Dev) : Dev :=
  ((d.axisLegs a).foldl (fun e l => e.modLeg l (fun x =>
      { x.allOff (d.extDriver a) with
          tripped := false, masked := false, ocRun := 0, ocNow := false, ocLow := false, fullHigh := 0 })) d).modPwm a
    (fun p => { p with bridgeOn := false, charging := false, sampled := false, sampleFailed := false,
                       decayA := false, decayB := false, fresh := false })

/-- Every integrator and filter state of an axis 0 (06 R212). -/
def Ctl.clearStates (c : Ctl) : Ctl :=
  { c with xd := 0, xq := 0, xv := 0, biquads := Vector.replicate 8 Biquad.zero, ticksOff := 0 }

/-- The named axes of a BridgeControl ON leave charging, every leg all-off: all of them turn on, or none (08 R280). -/
def Dev.endCharge (mask : Nat) (d : Dev) : Dev :=
  (bitsOf 16 mask).foldl (fun d k => if d.pwm[ax k].charging then d.bridgeOff (ax k) else d) d

/-- The BridgeControl ON commands in flight that name an axis complete with STATE, and their charge ends (08 R280, R281,
R290). -/
def Dev.abortBridgeOn (a : AxisNo) (d : Dev) : Dev :=
  (d.hp.inFlight.filter (fun c => c.code == 0x410 && c.phase != .answered && bitOf (wd c.payload 0) 16 &&
    bitOf (wd c.payload 0) a.val)).foldl (fun d c =>
      (if c.phase == .started then d.endCharge (fld (wd c.payload 0) 15 0) else d).respondN c.stall c.tag stState 2) d

/-- The role of a CanTimeMaster payload. -/
def roleOf (p : List W32) : CanRole :=
  let w0 := wd p 0
  let w2 := wd p 2
  if fld w0 5 4 = 0 then CanRole.none
  else
    { role := BitVec.ofNat 2 (fld w0 5 4), prio := BitVec.ofNat 3 (fld w0 10 8), ide := bitOf w0 11,
      basic := BitVec.ofNat 20 (fld w0 31 12), refBase := BitVec.ofNat 29 (fld (wd p 1) 28 0),
      windowUs := BitVec.ofNat 16 (fld w2 15 0), aloneN := BitVec.ofNat 8 (fld w2 23 16), guardUs := BitVec.ofNat 8 (fld w2 31 24) }

/-- A coefficient bank: the one in use, or the other (05 R160). -/
def AxisLoop.bankOf (l : AxisLoop) (other : Bool) : Mem W20 := if l.bank != other then l.bankB else l.bankA

/-- MODE of a feedback source (07 Table 7.1). -/
def FbSource.mode (x : FbSource) : Nat := fld x.conf[0] 11 8

/-- The lane that a RotationControl names. -/
def retireLane (c : Cmd) : LaneNo := Fin.ofNat 18 (fld (wd c.payload 0) 12 8)

/-- The other started commands of a command's code. -/
def Dev.alike (d : Dev) (c : Cmd) : List Cmd :=
  d.hp.inFlight.filter (fun o => o.code == c.code && o.phase == .started && !(o.stall == c.stall && o.tag == c.tag))

/-- A command in flight ends with nothing of it applied (03 R98, R99): what its subject keeps for it is dropped. -/
def Dev.abandon (c : Cmd) (d : Dev) : Dev :=
  let a := ax (fld (wd c.payload 0) 3 0)
  let mine (x : Option (Stall × BitVec 8)) : Bool := x == some (c.stall, c.tag)
  match c.code.toNat with
  | 0x001 => { d with hp := { d.hp with own := { d.hp.own with
      claims := d.hp.own.claims.filter (fun x => !(x.stall == c.stall && x.tag == c.tag)) } } }
  | 0x231 => d.modLoop a (fun l =>
      { l with swap := l.swap.filter (fun (x : Swap) => !(x.stall == c.stall && x.tag == c.tag)) })
  | 0x252 => d.modCtl a (fun l => { l with rep := { l.rep with storing := l.rep.storing.filter (fun x => !mine x.2) } })
  | 0x261 => d.modCtl a (fun l => { l with identify := none })
  | 0x410 =>
      if bitOf (wd c.payload 0) 16 && c.phase == .started then d.endCharge (fld (wd c.payload 0) 15 0) else d
  | 0x521 => d.modMot a (fun m => if m.home.isSome then { m with home := none, homeState := .failed } else m)
  | 0x533 => d.modMot a (fun m =>
      { m with camPending := m.camPending.filter (fun (x : CamPending) => !(x.stall == c.stall && x.tag == c.tag)) })
  | 0x611 => { d with nt := { d.nt with timeSet := d.nt.timeSet.filter (fun x => x.done) } }
  | 0x620 => { d with ring := { d.ring with proxies := d.ring.proxies.map (fun (p : ProxyConn) =>
      { p with cmds := p.cmds.filter (fun x => !(x.stall == c.stall && x.tag == c.tag)) }) } }
  | 0x704 =>
      let rest := (d.alike c).filter (fun o => fld (wd o.payload 0) 0 0 == a.val % 2 && fld (wd o.payload 0) 5 4 == 1)
      d.modCan (Fin.ofNat 2 (a.val % 2)) (fun x => if mine x.stopping then { x with stopping := rest.getLast?.map (fun o => (o.stall, o.tag)) } else x)
  | 0x710 =>
      let rest := (d.alike c).filter (fun o => fld (wd o.payload 0) 0 0 == a.val % 2)
      d.modCan (Fin.ofNat 2 (a.val % 2)) (fun x => { x with roleNext := rest.getLast?.map (fun o => roleOf o.payload) })
  | 0xB10 =>
      let still (l : LaneNo) : Bool := l != retireLane c || (d.alike c).any (fun o => retireLane o == l)
      { d with sv := { d.sv with rot := { d.sv.rot with retire := d.sv.rot.retire.filter still } } }
  | 0x810 => { d with cap := { d.cap with skewRun := d.cap.skewRun.map (fun x => if mine x then none else x) } }
  | 0xA10 => { d with sf := { d.sf with confirm := none } }
  | 0xB03 => { d with sv := { d.sv with sown := d.sv.sown.filter (fun x => !(x.stall == c.stall && x.tag == c.tag)) } }
  | 0xB11 => { d with sv := { d.sv with bist := d.sv.bist.filter (fun x => !(x.stall == c.stall && x.tag == c.tag)) } }
  | 0xB20 => { d with sv := { d.sv with measuring := d.sv.measuring.filter (fun x => !mine x.cmd) } }
  | _ => d

/-- Every command in flight that names one of the axes of a mask and has not been applied completes with DISCARDED. -/
def Dev.discard (mask : Nat) (d : Dev) : Dev :=
  (d.hp.inFlight.filter (fun c => c.phase != .answered && (d.namedAxes c.code.toNat c.payload &&& mask) != 0)).foldl
    (fun d c => (d.abandon c).respond c.stall c.tag stDiscarded []) d

/-! ## The fault collector (14 R521 to R532) -/

/-- Part 0 of the catalogue: source, default severity, floor. -/
def catalogue0 : List (Nat × Nat × Nat) :=
  [(0, 2, 1), (1, 2, 1), (2, 1, 0), (3, 2, 1), (4, 3, 2), (5, 1, 0), (6, 2, 1), (7, 2, 1), (8, 7, 7), (9, 2, 1),
   (10, 2, 1), (11, 2, 1), (12, 6, 6), (13, 6, 6), (14, 1, 0), (15, 7, 7), (16, 5, 5), (17, 5, 5),
   (18, 1, 0), (19, 6, 6), (30, 2, 1), (31, 5, 5), (32, 2, 1), (33, 1, 0), (35, 1, 0), (36, 4, 3),
   (40, 4, 3), (41, 4, 3), (42, 5, 4), (43, 4, 3), (44, 4, 3), (45, 5, 4), (46, 2, 1), (47, 1, 0),
   (48, 1, 0), (49, 2, 1), (50, 4, 3), (51, 4, 3), (52, 5, 4), (53, 4, 3)]

/-- Part 1 of the catalogue: source, default severity, floor. -/
def catalogue1 : List (Nat × Nat × Nat) :=
  [(54, 5, 4), (55, 5, 4), (56, 5, 4), (57, 4, 3), (58, 4, 2), (59, 1, 0), (60, 2, 1), (61, 5, 4), (70, 5, 5),
   (71, 5, 5), (72, 6, 5), (73, 5, 4), (74, 1, 0), (75, 4, 3), (76, 5, 4), (77, 5, 4), (78, 5, 5),
   (79, 5, 4), (80, 2, 1), (90, 4, 3), (91, 3, 2), (92, 4, 3), (93, 2, 1), (94, 1, 0), (95, 4, 3),
   (96, 2, 1), (100, 1, 0), (101, 2, 1), (102, 2, 1), (110, 2, 1), (111, 2, 0), (112, 4, 2), (113, 2, 1),
   (114, 4, 2), (115, 2, 1), (116, 1, 0), (117, 1, 0), (118, 1, 0), (119, 4, 2), (120, 2, 1)]

/-- Part 2 of the catalogue: source, default severity, floor. -/
def catalogue2 : List (Nat × Nat × Nat) :=
  [(121, 1, 0), (122, 1, 0), (123, 2, 1), (124, 2, 1), (125, 1, 0), (126, 1, 0), (127, 1, 0), (130, 2, 1),
   (131, 2, 1), (132, 1, 0), (133, 2, 1), (140, 2, 1), (141, 2, 1), (142, 5, 5), (143, 1, 0), (144, 2, 1),
   (145, 5, 5), (146, 1, 0), (147, 5, 5), (148, 2, 1), (149, 1, 0), (150, 2, 1), (151, 2, 1), (152, 1, 0),
   (153, 2, 2), (154, 2, 2), (155, 1, 0), (160, 1, 0), (161, 4, 4), (162, 4, 4), (163, 2, 1), (164, 2, 2),
   (165, 2, 2), (166, 1, 0), (167, 1, 0), (168, 1, 0), (169, 1, 0), (170, 2, 1), (171, 2, 1), (172, 2, 1)]

/-- Part 3 of the catalogue: source, default severity, floor. -/
def catalogue3 : List (Nat × Nat × Nat) :=
  [(173, 2, 1), (174, 2, 1), (175, 1, 0), (176, 1, 0), (177, 1, 0), (178, 1, 0)]

/-- Default severity and floor of a source, where a chapter defines it. -/
def catalogue (src : Nat) : Option (Nat × Nat) :=
  ((catalogue0 ++ catalogue1 ++ catalogue2 ++ catalogue3).find? (fun r => r.1 == src)).map (·.2)

/-- Effective severity: the higher of the configured severity and the floor. -/
def FaultUnit.severity (u : FaultUnit) (src : Nat) : Nat :=
  match catalogue src with
  | none => 0
  | some (dflt, floor) => max floor ((Mem.read none u.sevSet src).getD dflt)

/-- Which axes a firing acts on: a chapter's own list, or none unless its severity is raised. -/
inductive Scope where
  | axes (l : List AxisNo)
  | device
  deriving DecidableEq, Repr

/-- The axes a firing of effective severity sev acts on (14 R522, R523). -/
def Scope.at (sc : Scope) (sev : Nat) : List AxisNo :=
  if sev ≥ 6 then allAxes
  else if sev ≥ 3 then (match sc with | .axes l => l | .device => allAxes)
  else (match sc with | .axes l => l | .device => [])

/-- Outputs with FAIL_OFF go off and stay off (13 R498). -/
def Dev.failOff (d : Dev) : Dev :=
  let off (o : FieldOut) : FieldOut :=
    if o.failOff then { o with cmd := false, held := true, since := if o.cmd then d.clk else o.since } else o
  { d with fio := { d.fio with outs := d.fio.outs.map off } }

/-- An event arrives for an axis: behind the others, among those of its own lane clock by its source number (02 R49). One
evaluation of a tick boundary counts as one lane clock (log entry 104). -/
def AxisLoop.arrive (oneClock : Bool) (src sev : Nat) (l : AxisLoop) : AxisLoop :=
  let n := if oneClock then min l.fresh l.events.length else 0
  let k := l.events.length - n
  let earlier (e : AxisEvent) : Bool := match e with
    | .reaction s _ => decide (s ≤ src)
  let tail := l.events.drop k
  { l with events := l.events.take k ++ tail.filter earlier ++ [.reaction src sev] ++ tail.filter (fun e => !earlier e),
           fresh := n + 1 }

/-- The reaction of one axis to a firing of severity 3 to 7 (14 R523, R524, 09 R318). -/
def Dev.react (src sev : Nat) (a : AxisNo) (d : Dev) : Dev :=
  let f := d.axf[a]
  let begins := !f.fault || f.sev.toNat < sev
  let d0 := d.modAxf a (fun f => { f with lastFire := d.clk, measureDue := f.measureDue || (f.remeasure && decide (70 ≤ src ∧ src ≤ 77)) })
  if !begins then d0
  else
    let d1 := d0.modAxf a (fun f => { f with fault := true, sev := BitVec.ofNat 3 sev,
                                             src := if f.fault then f.src else BitVec.ofNat 9 src })
    let d2 := ((d1.discard (2 ^ a.val)).endMoves a .discarded .discarded).modLoop a
      (AxisLoop.arrive d.ft.tie.isSome src sev)
    if sev ≥ 5 then
      ((d2.abortBridgeOn a).bridgeOff a).modCtl a Ctl.clearStates
    else d2

/-- Entry to device safe state (14 R526). -/
def Dev.enterSafe (src : Nat) (d : Dev) : Dev :=
  { d with ft := { d.ft with safeState := true,
                             railRestartAt := if src = 15 ∧ d.ft.railRestartAt.isNone then some (d.clk + 10 * clksPerMs) else d.ft.railRestartAt,
                             thermalRestart := d.ft.thermalRestart || src == 8 } }

/-- An episode opens, and the first source is recorded; of the sources that one tick boundary fires it is the
lowest-numbered (14 R527; log entry 104). -/
def FaultUnit.open_ (u : FaultUnit) (src clk : Nat) : FaultUnit :=
  let u1 :=
    if u.firstValid then
      { u with episode := true, firstOvf := true,
               firstSrc := if u.tie == some true && decide (src < u.firstSrc.toNat) then BitVec.ofNat 9 src else u.firstSrc }
    else if u.episode then u
    else { u with episode := true, firstSrc := BitVec.ofNat 9 src, firstValid := true, tie := u.tie.map (fun _ => true) }
  { u1 with lastSev2 := clk }

/-- The ledger record of a firing: a new one, or REPEAT of the last within a second (14 R552). -/
def Dev.recordFire (src sev axes : Nat) (d : Dev) : Dev :=
  match Mem.read none d.ft.lastRec src with
  | some r =>
    if d.clk < r.clk + 1000 * clksPerMs then
      if d.pw.mramShut || fld (wd (Mem.read [] d.sv.ledger r.index) 0) 31 24 != 1 ||
          fld (wd (Mem.read [] d.sv.ledger r.index) 0) 8 0 != src then d
      else { d with sv := { d.sv with ledger := Mem.write [] d.sv.ledger r.index (bumpRepeat (Mem.read [] d.sv.ledger r.index)) } }
    else fresh
  | none => fresh
where
  fresh : Dev :=
    let d1 := d.ledger 1 sev src axes 0 0
    { d1 with ft := { d1.ft with lastRec := Mem.write none d1.ft.lastRec src (some ⟨d.sv.ledgerHead.toNat, d.clk⟩) } }

/-- A fault source fires (14 R523 to R527). A source that no chapter defines never fires. -/
def Dev.fire (src : Nat) (sc : Scope) (d : Dev) : Dev :=
  match catalogue src with
  | none => d
  | some _ =>
    let sev := d.ft.severity src
    let axes := sc.at sev
    let d1 := { d with ft := { d.ft with count := Mem.write 0 d.ft.count src (satU 16 (Mem.read 0 d.ft.count src + 1)) },
                       cap := { d.cap with units := d.cap.units.map (fun u =>
                         if u.state == .waiting || u.state == .pre then { u with events := u.events ++ [.fault src] } else u) } }
    if sev = 0 then d1
    else
      let d2 := ({ d1 with ft := { d1.ft with fired := d1.ft.fired ||| BitVec.ofNat 512 (2 ^ src) } }).recordFire src sev
        (maskOf (axes.map Fin.val))
      if sev = 1 then d2
      else
        let d3 := ({ d2 with ft := d2.ft.open_ src d.clk }).setIrqAll irqFault
        if sev = 2 then d3
        else
          let d4 := axes.foldl (fun d a => d.react src sev a) d3
          let d5 := if sev ≥ 6 then d4.failOff else d4
          if sev ≥ 7 then d5.enterSafe src else d5

/-- A doorbell or response of a stall is lost: DB_LOST and FS005 (03 R92, R94). -/
def Dev.dbLost (st : Stall) (d : Dev) : Dev :=
  (if d.hp.stalls[st].dbLost then d
   else (d.modStall st (fun s => { s with dbLost := true })).setIrq st irqStallErr).fire 5 .device

/-- Word 1 of the responses of OwnerClaim and OwnerHandOver (03 R107, R109). -/
def Dev.ownerRsp (d : Dev) : W32 :=
  mkw [(d.hp.own.epoch.toNat, 16, 16), (b2n d.hp.own.valid, 7, 1), (d.hp.own.stall.val, 0, 3)]

/-- The words behind the status that a command's response has whatever the status: those of the two ownership commands. -/
def Dev.fixedWords (d : Dev) (code : BitVec 12) : List W32 := if code = 0x001 ∨ code = 0x003 then [d.ownerRsp] else []

/-- A RESOURCE response to a command in flight: posted ahead of waiting responses, or the command is dropped (03 R94); any
other status waits its turn. -/
def Dev.reply (st : Stall) (tag : BitVec 8) (status : Nat) (words : List W32) (d : Dev) : Dev :=
  match d.cmd? st tag with
  | none => d
  | some c =>
    if status ≠ stResource || c.dropped then d.respond st tag status words
    else
      let r : Response := ⟨c.code, tag, rspWords c.code.toNat status words, true⟩
      let gone := { d with hp := { d.hp with inFlight := d.hp.inFlight.filter (fun x => !x.is st tag) } }
      if rspRoom d.hp.stalls[st] r then gone.writeRsp st r else gone.dbLost st

/-- A LENGTH, BUSY_TAG or RESOURCE response of the mailbox: posted ahead of waiting responses, or lost (03 R94). -/
def Dev.refuse (st : Stall) (code : BitVec 12) (tag : BitVec 8) (status : Nat) (d : Dev) : Dev :=
  let r : Response := ⟨code, tag, rspWords code.toNat status (d.fixedWords code), false⟩
  if rspRoom d.hp.stalls[st] r then d.writeRsp st r else d.dbLost st

/-! ## Network-cycle rule (11 R420) -/

/-- Planned wire bits of a contribution of Atnal bytes: 16 frames at most, 1,500 bytes each. -/
def wireBits (bytes : Nat) : Nat :=
  let n := max 1 (cdiv bytes 1500)
  8 * (List.range n).foldl (fun acc i => acc + (max ((if i + 1 = n then bytes - 1500 * i else 1500) + 18) 64 + 20)) 0

/-- Length of a telegram in the safety section: 12 + LEN, padded to a multiple of 4 (15 R596, R600). -/
def telegramBytes (len : Nat) : Nat := cdiv (12 + len) 4 * 4

/-- Words of connection c in a parameter set (15 Table 15.10). -/
def connWord (m : Mem W32) (c i : Nat) : W32 := Mem.read 0 m (80 + 4 * c + i)

/-- Safety section bytes of the ring producers of a parameter set. -/
def safetyBytes (m : Mem W32) : Nat :=
  let n := (List.range 64).foldl (fun acc c =>
    let w := connWord m c 0
    if bitOf w 0 && bitOf w 1 && fld w 3 2 == 0 then acc + telegramBytes (fld w 9 4) else acc) 0
  if n = 0 then 0 else 4 + n

/-- Planned Atnal bytes of this device (11 Table 11.3): master records, capture units with RING_OUT, safety, acyclic. -/
def plannedBytes (masters ringOuts safety acyc : Nat) : Nat :=
  24 + (if masters = 0 then 0 else 4 + 24 * masters) + (if ringOuts = 0 then 0 else 4 + 24 * ringOuts) + safety + acyc

/-- Records published (09 R365). -/
def masterCount (setMask actMask : BitVec 16) : Nat :=
  (bitsOf 16 setMask.toNat).length + (bitsOf 16 actMask.toNat).length

/-- Capture units with RING_OUT. -/
def Dev.ringOutCount (d : Dev) : Nat :=
  (d.cap.units.toList.filter (fun u => !u.conf.isEmpty && bitOf (wd u.conf 0) 14)).length

/-- The parameter set in force, channel B's copy; empty when none is. -/
def Dev.safeSet (d : Dev) : Mem W32 := if d.sf.paramValid then d.sf.chB.params else []

/-- The present plan of this device. -/
def Dev.ownBytes (d : Dev) : Nat :=
  plannedBytes (masterCount d.mu.setMask d.mu.actMask) d.ringOutCount (safetyBytes d.safeSet) d.ring.conf.acycBytes.toNat

/-- The other active devices heard in the last cycle. -/
def Dev.others (d : Dev) : List (Nat × NodeInfo) :=
  d.ring.nodes.filterMap (fun e => match e.2 with
    | some n => if n.heard + 1 ≥ d.ownCycle && !n.missing then some (e.1, n) else none
    | none => none)

/-- T_min of R420 in tenths of ns, with this device planning own bytes, active or about to be. -/
def Dev.tMin10 (d : Dev) (own : Nat) : Nat × Nat :=
  let o := d.others
  let n := o.length + 1
  let dly := o.foldl (fun acc e => acc + e.2.hdr.linkDelay.toNat) d.ring.portB.linkDelay.toNat
  let bits := o.foldl (fun acc e => acc + e.2.wire) (wireBits own)
  (n * 1800 + dly + bits + 50000, bits)

/-- The network cycle in tenths of ns: one lane clock is 125/64 ns. -/
def Dev.cycle10 (d : Dev) : Nat := d.cycleTicks * d.tickClks * 1250 / 64

/-- Would the cycle rule be broken with this device planning own bytes (11 R420)? -/
def Dev.breaksCycle (d : Dev) (own : Nat) : Bool := decide ((d.tMin10 own).1 > d.cycle10)

end Sys2Proof.Machine
end

