-- ==== Sys2Proof/Machine/Sto.lean ====
section
/-! DEFINITION. STO of the gate dies (spec 08 R290, R291; 01 R25). -/
namespace Sys2Proof.Machine
open Sys2Proof

/-- Is a die's STO group cut: a line of a safety channel asserted, or VSAFE not fed to the STO switches (R290, R25)? -/
def Dev.stoActive (d : Dev) (g : Fin 2) : Bool :=
  d.gates[g].lineA || d.gates[g].lineB || !d.pw.vsafeUp || d.sf.vsafeOpen

/-- Every switch of the die that is on starts its OFF profile, pending turn-ons are abandoned (Table 8.5). -/
def Dev.stoCut (g : Fin 2) (d : Dev) : Dev :=
  (dieLegs g).foldl (fun d l => d.modLeg l (fun x => 
    { x.lowEnds none with hi := x.hi.toOff (d.legExt l), lo := x.lo.toOff (d.legExt l), refresh := .none, pulseEnd := none })) d

/-- What a change of whatever cuts a die does: its entry (Table 8.5), or the closing of its switches (R291). -/
def Dev.stoEdge (g : Fin 2) (was : Bool) (d : Dev) : Dev :=
  if d.stoActive g && !was then (d.stoCut g).modGate g (fun x => { x with fb := false, supplyOk := false, stoClk := d.clk })
  else if was && !d.stoActive g then d.modGate g (fun x => { x with switchesOpen := false, fb := false })
  else d

/-- A safety channel drives its STO line of a die. -/
def Dev.stoLine (g : Fin 2) (chB asserted : Bool) (d : Dev) : Dev :=
  (d.modGate g (fun x => if chB then { x with lineB := asserted } else { x with lineA := asserted })).stoEdge g (d.stoActive g)

/-- The control die sets STO_A or STO_B: FS078 on the axes of the die whose bridge is on or charging, whose BridgeControl
completes with STATE (Table 8.5). -/
def Dev.stoFlag (g : Fin 2) (d : Dev) : Dev :=
  if d.stoActive g && !d.gates[g].sto then
    let hit := d.liveAxes.filter (fun a => d.onDie a g)
    let d1 := d.modGate g (fun x => { x with sto := true })
    let d2 := (hit.filter (fun a => d.pwm[a].charging)).foldl (fun d a =>
      (d.abortBridgeOn a).modPwm a (fun p => { p with charging := false, sampled := false, sampleFailed := false })) d1
    if hit.isEmpty then d2 else d2.fire 78 (.axes hit)
  else d

end Sys2Proof.Machine
end

