-- ==== Sys2Proof/Machine/SafeStart.lean ====
section
/-! DEFINITION. Parameters of the safety channels, their starts and stops, lock-out and degraded mode (spec 15 R571, R581
to R583, R589 to R593, R603, R605, R606). -/
namespace Sys2Proof.Machine
open Sys2Proof

/-! ## The parameter set (R606) -/

/-- Word i of a parameter set. -/
def prm (m : Mem W32) (i : Nat) : W32 := Mem.read 0 m i
/-- Word IFp. -/
def ifWord (m : Mem W32) (p : Nat) : W32 := prm m (4 + p)
/-- TYPE of input function p. -/
def ifType (m : Mem W32) (p : Nat) : Nat := fld (ifWord m p) 2 0
/-- DISC_MS of pair p. -/
def ifDisc (m : Mem W32) (p : Nat) : Nat := fld (ifWord m p) 27 16
/-- Word i of SLS monitor m. -/
def slsWord (m : Mem W32) (k i : Nat) : W32 := prm m (44 + 4 * k + i)
/-- EN of SLS monitor k. -/
def slsEn (m : Mem W32) (k : Nat) : Bool := bitOf (slsWord m k 0) 0
/-- SS1_MS of a zone, as check cycles of 250 µs. -/
def ss1Cycles (m : Mem W32) (z : Nat) : Nat := fld (prm m (18 + z)) 31 16 * 4
/-- REACT of a zone. -/
def zoneReact (m : Mem W32) (z : Nat) : Nat := fld (prm m (18 + z)) 0 0
/-- OSSD_EN of pair n. -/
def ossdEn (m : Mem W32) (n : Nat) : Bool := bitOf (prm m 2) (24 + n)
/-- CRC of a parameter set: CRC-32C of words 0 to 382 (R606). -/
def paramCrcOf (m : Mem W32) : W32 := crc32c (bytesOf ((List.range 383).map (prm m)))

/-- Channel B's copy, and channel A's. -/
def Dev.chan (d : Dev) (b : Bool) : SafeChan := if b then d.sf.chB else d.sf.chA
/-- Change one channel. -/
def Dev.modChan (b : Bool) (f : SafeChan → SafeChan) (d : Dev) : Dev :=
  if b then { d with sf := { d.sf with chB := f d.sf.chB } } else { d with sf := { d.sf with chA := f d.sf.chA } }
/-- Change the safety controller. -/
def Dev.modSafe (f : Safety → Safety) (d : Dev) : Dev := { d with sf := f d.sf }
/-- The registers take over the state of the safety controller (R608). -/
def Dev.showSafety (d : Dev) : Dev := { d with sfSeen := d.sf }

/-! ## Targets held off -/

/-- Both channels hold both zones in STO, ending SS1. -/
def Dev.stoAll (d : Dev) : Dev :=
  let off (c : SafeChan) : SafeChan := { c with zones := Vector.replicate 2 ⟨false, true, none⟩ }
  let d1 := { d with sf := { d.sf with chA := off d.sf.chA, chB := off d.sf.chB, ss1A := false, ss1B := false } }
  (((d1.stoLine 0 false true).stoLine 0 true true).stoLine 1 false true).stoLine 1 true true

/-- Both channels switch every OSSD off: outputs that were on are checked 2.5 ms later, a pulse under way is discarded. -/
def Dev.ossdAllOff (d : Dev) : Dev :=
  let on (i : Nat) : Bool := d.sf.chA.ossd.getLsbD (i / 2) && d.sf.chB.ossd.getLsbD (i / 2)
  { d with sf := { d.sf with
      chA := { d.sf.chA with ossd := 0 }, chB := { d.sf.chB with ossd := 0 },
      ossd := Vector.ofFn (fun i : Fin 8 =>
        let o := d.sf.ossd[i]
        { o with offCheck := o.offCheck || on i.val, discard := o.discard || o.pulsing, onWaits := false,
                 offClk := if on i.val then d.clk else o.offClk }) } }

/-- What is in lock-out, degraded or ending: unit bits of LOCKOUT_CAUSE. -/
def unitBit (u : Nat) : BitVec 22 := BitVec.ofNat 22 (2 ^ u)
/-- Unit numbers of the device and of the parameter set. -/
def unitDevice : Nat := 20
def unitParam : Nat := 21

/-- Lock-out of the units of a mask: every OSSD off, STO on both zones at once, FS165 (R591). Units in lock-out already
change nothing (DEDUCED: the lock-out in force holds all of it already; log entry 75). -/
def Dev.lockOut (units : BitVec 22) (d : Dev) : Dev :=
  if units &&& ~~~d.sf.lockout = 0 then d
  else
    let d1 := d.modSafe (fun s =>
      { s with lockout := s.lockout ||| units, degraded := s.degraded &&& ~~~units, degEnding := s.degEnding &&& ~~~units })
    d1.ossdAllOff.stoAll.fire 165 .device

/-- A function fault of a unit (R591). -/
def Dev.functionFault (u : Nat) (d : Dev) : Dev := d.lockOut (unitBit u)

/-- An element fault of a unit (R590): degraded mode with FS164; a second one in a degraded unit is a function fault; the
same fault again changes nothing. -/
def Dev.elementFault (u : Nat) (isNew : Bool) (d : Dev) : Dev :=
  if d.sf.lockout.getLsbD u then d
  else if (d.sf.degraded ||| d.sf.degEnding).getLsbD u then (if isNew then d.functionFault u else d)
  else
    let stop := d.sf.chA.cycles + fld (prm d.sf.chB.params 3) 12 0 * 400
    (d.modSafe (fun s =>
      { s with degraded := s.degraded ||| unitBit u, degEnd := Mem.write 0 s.degEnd u stop })).fire 164 .device

/-- Both zones are in STO: both their dies are held by a line. -/
def Dev.bothSto (d : Dev) : Bool :=
  (d.gates[0].lineA || d.gates[0].lineB) && (d.gates[1].lineA || d.gates[1].lineB)

/-- A unit whose degraded period has ended enters lock-out when both zones are in STO (R590). -/
def Dev.endingLockOut (d : Dev) : Dev :=
  if d.sf.degEnding ≠ 0 ∧ d.bothSto then
    (d.modSafe (fun s => { s with degEnded := s.degEnded ||| s.degEnding })).lockOut d.sf.degEnding
  else d

/-! ## SS1 (R582) -/

/-- The source of SS1 on a zone: FS161, FS162, on the axes of its die. -/
def Dev.fireSs1 (z : Fin 2) (d : Dev) : Dev :=
  let running := if z = 0 then d.sf.ss1A else d.sf.ss1B
  let d1 := d.modSafe (fun s => if z = 0 then { s with ss1A := true } else { s with ss1B := true })
  if running then d1 else d1.fire (161 + z.val) (.axes (allAxes.filter (fun a => d.onDie a z)))

/-- A channel starts its SS1 time on a zone, unless the zone is in STO or the time runs already. -/
def Dev.startSs1 (b : Bool) (z : Fin 2) (d : Dev) : Dev :=
  let c := d.chan b
  if c.zones[z].sto || c.zones[z].ss1.isSome then d.modChan b (fun c => { c with zones := vmod c.zones z (fun x => { x with permitted := false }) })
  else (d.modChan b (fun c => { c with zones := vmod c.zones z (fun x =>
    { x with permitted := false, ss1 := some (c.cycles + ss1Cycles c.params z.val) }) })).fireSs1 z

/-- A channel asserts STO on a zone. -/
def Dev.zoneSto (b : Bool) (z : Fin 2) (d : Dev) : Dev :=
  let d1 := d.modChan b (fun c => { c with zones := vmod c.zones z (fun x => { x with permitted := false, sto := true, ss1 := none }) })
  let other := (d1.chan (!b)).zones[z].ss1.isSome
  ((d1.modSafe (fun s => if z = 0 then { s with ss1A := s.ss1A && other } else { s with ss1B := s.ss1B && other })).stoLine
    z b true).endingLockOut

/-! ## Starts of the channels and of a set (R571, R603) -/

/-- A channel starts a parameter set as at power-up. -/
def SafeChan.startSet (c : SafeChan) : SafeChan :=
  { c with funcs := Vector.replicate 8 FuncChan.reset, remote := Vector.replicate 24 (false, true), permits := 0, ossd := 0,
           zones := Vector.replicate 2 ZoneChan.reset, sls := Vector.replicate 8 ⟨[], none⟩, late := 0, disagree := 0 }

/-- A connection at the start of a set: a producer starts its SEQ at a random value (R597), a consumer waits. -/
def Dev.startConn (i : Fin 64) (d : Dev) : Dev :=
  let w := connWord d.safeSet i.val 0
  if !bitOf w 0 then d.modSafe (fun s => { s with conns := vset s.conns i Conn.reset })
  else if bitOf w 1 then
    let r := d.draw
    r.2.modSafe (fun s => { s with conns := vset s.conns i { Conn.reset with state := .valid, lastSeq := BitVec.ofNat 16 r.1 } })
  else d.modSafe (fun s => { s with conns := vset s.conns i { Conn.reset with state := .waiting } })

/-- The CAN producers of a set on a controller, in ascending order (12 R472). -/
def canProducers (m : Mem W32) (k : Nat) : List Nat :=
  (List.range 64).filter (fun c =>
    let w := connWord m c 0
    bitOf w 0 && bitOf w 1 && fld w 3 2 == k + 1)

/-- The buffer of a controller that a set reserves, from TB31 downward: its connection (12 R472). -/
def reservedFor (m : Mem W32) (k b : Nat) : Option (Fin 64) :=
  ((canProducers m k)[31 - b]?).map (Fin.ofNat 64)

/-- Transmit buffers reserved by the set in force. -/
def Dev.bindCan (d : Dev) : Dev :=
  { d with can := { d.can with ctl := Vector.ofFn (fun k : Fin 2 =>
      { d.can.ctl[k] with bufs := Vector.ofFn (fun b : Fin 32 =>
          { d.can.ctl[k].bufs[b] with safety := reservedFor d.safeSet k.val b.val }) }) } }

/-- Both channels start the set in force as at power-up: every target held off until the first check cycles. -/
def Dev.startSet (d : Dev) : Dev :=
  let d1 := (d.ossdAllOff.stoAll).modSafe (fun s =>
    { s with chA := s.chA.startSet, chB := s.chB.startSet, sls := Vector.replicate 8 SlsState.reset,
             pairs := s.pairs.map (fun p => { p with reported := false, discFault := false, miss := 0 }), resetA := false,
             resetB := false })
  ((List.finRange 64).foldl (fun d i => d.startConn i) d1).bindCan

/-- Commissioning ends without a new set: the staging sets are discarded, the set in force starts as at power-up, and a
CONFIRM that waits is answered with STATE (R603). -/
def Dev.abortCommission (d : Dev) : Dev :=
  if !d.sf.commissioning then d
  else
    let d1 := match d.sf.confirm with
      | some c => d.respondN c.stall c.tag stState 4
      | none => d
    (d1.modSafe (fun s => { s with commissioning := false, confirm := none, chA := { s.chA with staging := [] },
                                   chB := { s.chB with staging := [] } })).startSet

/-- The check of the stored set at a start and every 10 s (R605): a difference is a parameter-set fault. -/
def Dev.checkParams (d : Dev) : Dev :=
  if d.sf.paramValid && (paramCrcOf d.sf.chA.params != d.sf.paramCrc || paramCrcOf d.sf.chB.params != d.sf.paramCrc) then
    (d.fire 173 .device).functionFault unitParam
  else d

/-- Both channels stop with a reset, standby or power-down: targets held off; a degraded unit will start in lock-out
(R571, R593). -/
def Dev.stopChannels (d : Dev) : Dev :=
  ((d.ossdAllOff.stoAll).modSafe (fun s =>
    { s with chA := { s.chA.startSet with started := false, run := false, cycles := 0 },
             chB := { s.chB.startSet with started := false, run := false, cycles := 0 },
             lockout := s.lockout ||| s.degraded ||| s.degEnding, degraded := 0, degEnding := 0, armed := false,
             conns := Vector.replicate 64 Conn.reset, commissioning := false, confirm := none, tpOff := 0 })).showSafety

/-- Channel B alone stops (V24B lost): what is degraded will start in lock-out. -/
def Dev.stopChannelB (d : Dev) : Dev :=
  (d.ossdAllOff.stoAll).modSafe (fun s =>
    { s with chB := { s.chB.startSet with started := false, run := false, cycles := 0 }, tpOff := 0,
             lockout := s.lockout ||| s.degraded ||| s.degEnding, degraded := 0, degEnding := 0 })

/-- The clock starts afresh with a start of the device: instants that the controller keeps across it count from there. -/
def Safety.fromZero (s : Safety) : Safety :=
  { s with blockClk := 0, armedClk := 0, tpEnd := Vector.replicate 4 0,
           ossd := Vector.ofFn (fun i : Fin 8 => { s.ossd[i] with offClk := 0 }) }

/-- A channel starts: self-test, its copy of the set and its check (R571). Both run once they exchange. -/
def Dev.startChannel (b : Bool) (d : Dev) : Dev :=
  let d1 := ((d.modChan b (fun c => { c.startSet with started := true, run := false, cycles := 0 })).modSafe (fun s =>
    if b then { s with vsafeOpen := false }
    else { s with pairs := s.pairs.map (fun p => { p with discSince := p.discSince.map (fun _ => 0) }) })).checkParams
  if b then d1 else d1.showSafety

end Sys2Proof.Machine
end

