-- ==== Sys2Proof/Machine/Own.lean ====
section
/-! DEFINITION. Ownership, and what ends with a stall's presence (spec 03 R85 to R90, 01 R32, 11 R433, 12 R476). -/
namespace Sys2Proof.Machine
open Sys2Proof

/-! ## Ownership and stalls that go away -/

/-- OWNER changes (without an owner, STALL and INTERVAL_MS read 0: DESIGN CHOICE, log entry 110): the epoch rises, the OWNER
cause is set in every present stall (03 R88, R89), an open commissioning is aborted (15 R603), and the staging image is
emptied (05 R170). -/
def Dev.setOwner (o : Option Stall) (intervalMs : BitVec 14) (d : Dev) : Dev :=
  let own := d.hp.own
  let d1 := d.abortCommission
  ({ d1 with progs := { d1.progs with staging := none }, hp := { d1.hp with own := { own with
      epoch := own.epoch + 1, valid := o.isSome, stall := o.getD 0, intervalMs := if o.isSome then intervalMs else 0,
      since := d.age, warned := false } } }).setIrqAll irqOwner

/-- A hand-over or release ends with a status: the cut-off ends with it (R88). -/
def Dev.endHandOver (status : Nat) (d : Dev) : Dev :=
  match d.hp.own.handover with
  | none => d
  | some h =>
    ({ d with hp := { d.hp with own := { d.hp.own with handover := none } } }).respond h.stall h.tag status
      (if h.release then [] else [d.ownerRsp])

/-- Ownership is vacated as on a heartbeat lapse: FS004 on every axis whose bridge is on or charging, and a pending
hand-over completes with STATE (03 R88, R89, R632). -/
def Dev.vacate (d : Dev) : Dev := ((d.setOwner none 0).endHandOver stState).fire 4 (.axes d.liveAxes)

/-- A released capture unit: its capture aborted, its segments released, its buffer back in the pool (10 R377). -/
def CapUnit.release (_ : CapUnit) : CapUnit := CapUnit.reset

/-- A released DMA channel: idle and unclaimed (10 R390). -/
def DmaChan.free (c : DmaChan) : DmaChan := { c with claimed := false, stall := 0, state := .idle, release := false, abort := false }

/-- A claimed channel of a stall that goes away: one that runs is aborted first (10 R390, R395). -/
def DmaChan.leave (c : DmaChan) (st : Stall) : DmaChan :=
  if c.claimed && c.stall == st then
    (if c.state == .running then { c with release := true, abort := true } else c.free)
  else c

/-- What ends with a stall's presence: its capture units and DMA channels are released (10 R377, R390), and a hand-over to
it (R88). -/
def Dev.stallGone (st : Stall) (d0 : Dev) : Dev :=
  let toIt := match d0.hp.own.handover with
    | some h => !h.release && h.target == st
    | none => false
  let d := if toIt then d0.endHandOver stState else d0
  { d with cap := { d.cap with
      units := d.cap.units.map (fun u => if u.claimed && u.stall == st then u.release else u),
      dma := d.cap.dma.map (fun c => c.leave st) } }

/-- A stall's commands that have not started are dropped, started ones complete without a response (01 R32, 11 R433,
12 R476). A claim or hand-over that was taken and has not started is none any more. -/
def Dev.dropCmds (st : Stall) (d : Dev) : Dev :=
  let waits (s : Stall) (t : BitVec 8) : Bool := s == st && d.hp.inFlight.any (fun c => c.is s t && c.phase == .waiting)
  ({ d with hp := { d.hp with
      heldOrder := d.hp.heldOrder.filter (· != st)
      own := { d.hp.own with claims := d.hp.own.claims.filter (fun x => !waits x.stall x.tag),
                             handover := d.hp.own.handover.filter (fun h => !waits h.stall h.tag) }
      inFlight := (d.hp.inFlight.filter (fun (c : Cmd) => !(c.stall == st && (c.phase == CmdPhase.waiting || c.phase == CmdPhase.answered)))).map
        (fun (c : Cmd) => if c.stall == st then { c with dropped := true } else c) } }).modStall st
    (fun s => { s with rspWaiting := [], held := [] })

/-- The end of a stall of the ring or of the gateway (11 R433, 12 R476). -/
def Dev.endStall (st : Stall) (d : Dev) : Dev :=
  let d1 := (d.dropCmds st).stallGone st
  if d1.isOwner st then d1.vacate else d1

end Sys2Proof.Machine
end

