-- ==== Sys2Proof/Machine/Operands.lean ====
section
/-! DEFINITION. Commands as operands: the command table, when a command may start, and the checks of payloads. -/
namespace Sys2Proof.Machine
open Sys2Proof

/-- Every assigned command code (the command tables of the chapters). -/
def commandCodes : List Nat :=
  [0x000, 0x001, 0x002, 0x003, 0x004, 0x006, 0x040, 0x041, 0x042, 0x100, 0x101, 0x102, 0x103, 0x104, 0x210,
   0x211, 0x220, 0x221, 0x222, 0x223, 0x224, 0x225, 0x230, 0x231, 0x232, 0x240, 0x241, 0x250, 0x251, 0x252,
   0x260, 0x261, 0x300, 0x301, 0x302, 0x303, 0x310, 0x311, 0x320, 0x400, 0x401, 0x402, 0x410, 0x411, 0x412,
   0x413, 0x500, 0x501, 0x502, 0x503, 0x504, 0x505, 0x510, 0x511, 0x512, 0x520, 0x521, 0x530, 0x531, 0x532,
   0x533, 0x534, 0x540, 0x541, 0x542, 0x550, 0x551, 0x600, 0x601, 0x602, 0x610, 0x611, 0x620, 0x700, 0x701,
   0x702, 0x703, 0x704, 0x710, 0x720, 0x800, 0x801, 0x802, 0x803, 0x810, 0x811, 0x900, 0x901, 0x902, 0x903,
   0x904, 0x905, 0x910, 0x911, 0x912, 0x920, 0x921, 0x922, 0x923, 0xA00, 0xA10, 0xA11, 0xA12, 0xB00, 0xB01,
   0xB02, 0xB03, 0xB10, 0xB11, 0xB20, 0xB21, 0xB30, 0xB31, 0xB32, 0xB33, 0xB40]

/-- Commands that any stall may send, and those whose right a capture unit's claim decides (03 R93). -/
def anyStallCodes : List Nat :=
  [0x000, 0x001, 0x100, 0x104, 0x211, 0x223, 0x232, 0x413, 0x512, 0x800, 0x801, 0x802, 0x803, 0x904, 0x905, 0x921,
   0xA12, 0xB40]

/-- Express commands (03 R97). -/
def expressCodes : List Nat := [0x500, 0x501, 0x502, 0x503, 0x504, 0x505]

/-- Commands that device safe state does not refuse (14 R526): those of the stall, fault and safety chapters,
DeviceReset, the capture unit commands, BudgetQuery, and the commands that change no state. -/
def safeStateCodes : List Nat :=
  [0x000, 0x001, 0x002, 0x003, 0x004, 0x006, 0x042, 0x100, 0x104, 0x211, 0x223, 0x232, 0x413, 0x505, 0x512,
   0x800, 0x801, 0x802, 0x803, 0x904, 0x905, 0x921, 0xA00, 0xA10, 0xA11, 0xA12, 0xB00, 0xB01, 0xB02, 0xB03, 0xB10, 0xB11,
   0xB20, 0xB21, 0xB30, 0xB31, 0xB32, 0xB33, 0xB40]

/-- A command's own completion limit in ms, where its chapter gives one (03 R98). -/
def ownLimit (code : Nat) (p : List W32) : Option Nat :=
  match code with
  | 0x002 => some 100
  | 0x003 => some 100
  | 0x252 => some 100
  | 0x261 => some 2000
  | 0x521 => some 600000
  | 0x512 => some (max 1 (fld (wd p 1) 15 0))
  | 0x810 => some 50
  | 0x611 => some 2000
  | 0x620 => some (max 1 (fld (wd p 0) 31 16))
  | 0x911 => some 10000
  | 0x921 => some 1000
  | 0x922 => some 60000
  | 0x923 => some 60000
  | 0xA10 => some 70000
  | 0xB03 => some 100
  | 0xB10 => some 5000
  | 0xB11 => some 5000
  | 0xB20 => some 1000
  | 0xB31 => some 2000
  | 0xB32 => some 2000
  | _ => none

/-- Does a management pair act, or has the active one failed (14 R541)? -/
def Dev.pairActs (d : Dev) : Bool := d.sv.mpChange == .none
/-- May a taken command start: no earlier command of its class and no express command of its stall waits before it
(03 R96)? -/
def Dev.mayStart (d : Dev) (c : Cmd) : Bool :=
  let mine := d.hp.inFlight.filter (fun x => x.stall == c.stall && x.phase == .waiting)
  d.pairActs && (c.express || !mine.any (fun x => x.express)) &&
    ((mine.filter (fun x => x.express == c.express)).head?.map (fun x => x.tag) == some c.tag)

/-- Start the command of a stall and tag if it is of the given code and may start; otherwise nothing happens (log entry
6). -/
def Dev.start (st : Stall) (tag : BitVec 8) (code : Nat) (f : Cmd → Dev → Dev) (d : Dev) : Dev :=
  match d.cmd? st tag with
  | some c => if c.code.toNat == code && c.phase == .waiting && d.mayStart c then f c d else d
  | none => d

/-- A state-changing command whose chapter names no boundary: it applies, checks and all, at the tick boundary after its start
(03 R95). -/
def Dev.startAtTick (st : Stall) (tag : BitVec 8) (code : Nat) : Dev → Dev := Dev.start st tag code fun _ d => d.await st tag .atTick

/-- The first status of a list of checks that applies; OK where none does. -/
def firstBad : List (Bool × Nat) → Nat
  | [] => 0
  | (b, st) :: cs => if b then st else firstBad cs

/-- Make the subject checks of a command: the first that applies answers with n words, otherwise go on. -/
def Dev.checked (c : Cmd) (n : Nat) (checks : List (Bool × Nat)) (go : Dev → Dev) (d : Dev) : Dev :=
  let s := firstBad checks
  if s = 0 then go d else d.reply c.stall c.tag s (List.replicate (n - 1) 0)

/-- Answer OK with words behind the status. -/
def Dev.ok (c : Cmd) (words : List W32) (d : Dev) : Dev := d.respond c.stall c.tag stOk words

/-- The clock at which the tick began in which a command was taken. -/
def Dev.clkTaken (d : Dev) (c : Cmd) : Nat := d.clk - (d.age - c.takenTick) * d.tickClks

def allLanes : List LaneNo := List.finRange 18
/-- The lane in service that serves an axis. -/
def Dev.laneOf (d : Dev) (a : AxisNo) : Option LaneNo :=
  allLanes.find? (fun l => d.lanes[l].role == .inService && d.lanes[l].axis == a)

/-- Is the payload of the given length? Otherwise PARAM (03 Table 3.8). -/
def badLen (c : Cmd) (n : Nat) : Bool := c.payload.length != n
/-- A payload without a word 0 names no subject: PARAM before anything of a subject is asked (log entry 17). -/
def noWord (c : Cmd) : Bool := c.payload.isEmpty
/-- The axis a payload names in word 0 [3:0]. -/
def axisOf (c : Cmd) : AxisNo := ax (fld (wd c.payload 0) 3 0)
/-- STATE for an unassigned axis or one in fault state. -/
def Dev.axisUnfit (d : Dev) (a : AxisNo) : Bool := !d.assigned a || d.axf[a].fault
/-- Does a command name an axis in fault state (03 R99)? -/
def Dev.namesFault (d : Dev) (c : Cmd) : Bool :=
  (bitsOf 16 (d.namedAxes c.code.toNat c.payload)).any (fun k => d.axf[ax k].fault)
/-- A 20-bit data word whose bits [31:20] do not equal bit 19 (05 R170). -/
def badWord20 (w : W32) : Bool := decide (fld w 31 20 ≠ if bitOf w 19 then 0xFFF else 0)
/-- A data word as a signed 20-bit integer. -/
def int20 (w : W32) : Int := sfld w 19 0
/-- A signed 20-bit integer as a data word. -/
def word20 (v : Int) : W32 := iW v

/-! ## Sown errors (14 R542, R557) -/

/-- What a sown error brings about, whose records carry SOWN (R542). -/
def Dev.asSown (is : Bool) (f : Dev → Dev) (d : Dev) : Dev :=
  if !is then f d
  else
    let d1 := f { d with ft := { d.ft with sown := true } }
    { d1 with ft := { d1.ft with sown := false } }

/-- An error that may be a sown one: if it is, its records carry SOWN and FaultSow completes with the source that fired and
the latency in µs. -/
def Dev.withSown (target idx src : Nat) (f : Dev → Dev) (d : Dev) : Dev :=
  match d.sv.sown.find? (fun s => s.target.toNat == target && s.index.toNat == idx) with
  | none => f d
  | some s =>
    let d1 := d.asSown true f
    let d2 := { d1 with sv := { d1.sv with sown := d1.sv.sown.filter (fun x => x != s) } }
    d2.respond s.stall s.tag stOk [mkw [(1, 31, 1), (src, 0, 9)], nW ((d2.clk - s.since) / 512)]

/-- Does a read of n bytes of DRAM meet a sown double-bit error: ADDRESS counts 64-byte blocks of the host-writable region? -/
def Dev.sownDram (d : Dev) (a n : Nat) : Bool :=
  d.sv.sown.any (fun s => s.target == 6 && decide (a < 2 ^ 30 + 64 * s.address.toNat + 64) && decide (2 ^ 30 + 64 * s.address.toNat < a + n))

end Sys2Proof.Machine
end

