-- ==== Sys2Proof/Machine/Can.lean ====
section
/-! DEFINITION. The CAN FD controllers and the time-master role (spec 12 R455 to R472, R477, R480 to R485), and what the
S6 gateway sends (R473, R475, R476, R486). -/
namespace Sys2Proof.Machine
open Sys2Proof

/-! ## Configuration (R456, R480) -/

/-- MODE, FD_EN, BRS_EN, AUTO_REC, IRQ_EN, TEC_WARN, REC_WARN of a controller. -/
def CanCtl.mode (c : CanCtl) : Nat := fld c.conf[0] 5 4
def CanCtl.fdEn (c : CanCtl) : Bool := bitOf c.conf[0] 6
def CanCtl.brsEn (c : CanCtl) : Bool := bitOf c.conf[0] 7
def CanCtl.autoRec (c : CanCtl) : Bool := bitOf c.conf[0] 8
def CanCtl.irqEn (c : CanCtl) : Nat := fld c.conf[0] 29 16
def CanCtl.tecWarn (c : CanCtl) : Nat := fld c.conf[3] 23 16
def CanCtl.recWarn (c : CanCtl) : Nat := fld c.conf[3] 31 24
/-- Is a controller on the bus with its error counters in force: modes 0 and 3? -/
def CanCtl.counts (c : CanCtl) : Bool := c.mode == 0 || c.mode == 3

/-- Events of CAN_EVENT. -/
def evRx : Nat := 0
def evTxDone : Nat := 1
def evTecWarn : Nat := 2
def evRecWarn : Nat := 3
def evPassive : Nat := 4
def evBusOff : Nat := 5
def evRecovered : Nat := 6
def evAlone : Nat := 7
def evRefMiss : Nat := 8
def evRxOvf : Nat := 9
def evLifeExp : Nat := 10
def evAborted : Nat := 11
def evGwSeq : Nat := 12
def evRefLate : Nat := 13

/-- An event is latched; the CAN cause in every present stall when an enabled one becomes 1 (R477). -/
def Dev.canEvent (k : Fin 2) (e : Nat) (d : Dev) : Dev :=
  let c := d.can.ctl[k]
  let d1 := d.modCan k (fun c => { c with event := c.event ||| BitVec.ofNat 14 (2 ^ e) })
  if !c.event.getLsbD e && c.irqEn.testBit e then d1.setIrqAll irqCan else d1

/-! ## Buffers -/

/-- Change a transmit buffer. -/
def Dev.modBuf (k : Fin 2) (b : Fin 32) (f : CanBuf → CanBuf) (d : Dev) : Dev :=
  d.modCan k (fun c => { c with bufs := vmod c.bufs b f })

/-- Is an instant inside the exclusive window of a frame, whose end counts as inside (R461)? -/
def CanCtl.inWindow (c : CanCtl) (t : CanTx) (clk : Nat) : Bool :=
  decide (c.basicClk + 512 * t.winStart.toNat ≤ clk ∧ clk ≤ c.basicClk + 512 * (t.winStart.toNat + t.winLen.toNat))

/-- Is a frame's exclusive window open as the present tick begins? -/
def Dev.windowOpen (d : Dev) (k : Fin 2) (t : CanTx) : Bool := t.window && d.can.ctl[k].inWindow t d.clk

/-- A buffer's frame ends: TX_DONE where it asked for it; a frame that waited for the old one becomes pending (R460). The
held frame is none any more (R466). -/
def Dev.bufEnd (k : Fin 2) (b : Fin 32) (r : CanResult) (d : Dev) : Dev :=
  let x := d.can.ctl[k].bufs[b]
  let d1 := (d.modBuf k b (fun x =>
    { x with result := if x.next.isSome then .pending else r, tx := x.next, next := none, aborting := false,
             winOpen := x.next.any (d.windowOpen k) })).modCan k (fun c => { c with held := c.held.filter (· != b.val) })
  match x.tx with
  | some t => if t.int then d1.canEvent k evTxDone else d1
  | none => d1

/-- A frame ends EXPIRED: LIFE_EXP and FS125 (R459). -/
def Dev.bufExpire (k : Fin 2) (b : Fin 32) (d : Dev) : Dev := ((d.bufEnd k b .expired).canEvent k evLifeExp).fire 125 .device

/-- A frame ends ABORTED (R460). -/
def Dev.bufAbort (k : Fin 2) (b : Fin 32) (d : Dev) : Dev := (d.bufEnd k b .aborted).canEvent k evAborted

/-- A frame that waits for the old one to leave the bus is aborted itself (R460). -/
def Dev.bufDropNext (k : Fin 2) (b : Fin 32) (d : Dev) : Dev :=
  match d.can.ctl[k].bufs[b].next with
  | some t =>
    let d1 := (d.modBuf k b (fun x => { x with next := none })).canEvent k evAborted
    if t.int then d1.canEvent k evTxDone else d1
  | none => d

/-- Put a frame into a buffer (R459, R460): an old frame that is not on the bus ends ABORTED at once; one that is on the
bus finishes its attempt. -/
def Dev.bufSend (k : Fin 2) (b : Fin 32) (t : CanTx) (d : Dev) : Dev :=
  let put (d : Dev) : Dev := d.modBuf k b (fun x => { x with result := .pending, tx := some t, winOpen := d.windowOpen k t })
  match d.can.ctl[k].bufs[b].result with
  | .onBus => ((d.bufDropNext k b).modBuf k b (fun x => { x with aborting := true, next := some t })).canEvent k evAborted
  | .pending => put (d.bufAbort k b)
  | _ => put d

/-- Arbitration order of identifiers: the base identifier first, a standard one before an extended one. -/
def arbKey (ide : Bool) (id : BitVec 29) : Nat :=
  if ide then (id.toNat / 2 ^ 18) * 2 ^ 19 + 2 ^ 18 + id.toNat % 2 ^ 18 else id.toNat % 2 ^ 11 * 2 ^ 19

/-- Index of the gateway's buffer and of the reference message's. -/
def gwSlot : Nat := 32
def refSlot : Nat := 33

/-- The pending frames that a controller may offer, with their arbitration keys, in buffer order (R458, R461). -/
def Dev.canOffers (d : Dev) (k : Fin 2) : List (Nat × Nat) :=
  let c := d.can.ctl[k]
  let host := (List.finRange 32).filterMap (fun b =>
    let x := c.bufs[b]
    match x.tx with
    | some t => if x.result == .pending && (!t.window || x.winOpen) then some (b.val, arbKey t.frame.ide t.frame.id) else none
    | none => none)
  let gw := if d.can.gw.ctrl == some k && !d.can.gw.txQ.isEmpty then [(gwSlot, arbKey d.can.gw.ide d.can.gw.rspId)] else []
  host ++ gw

/-- The first of the offers with the lowest key. -/
def bestOffer : List (Nat × Nat) → Option (Nat × Nat)
  | [] => none
  | o :: os => match bestOffer os with
    | none => some o
    | some p => if p.2 < o.2 then some p else some o

/-- The frame offered next: the held frame, then the reference message; in the guard interval nothing but the reference
message starts, the held frame neither (R458, R466, R470; DEDUCED, log entry 20). -/
def Dev.canNext (d : Dev) (k : Fin 2) : Option Nat :=
  let c := d.can.ctl[k]
  let o := d.canOffers k
  if c.guarding then (if c.refPending then some refSlot else none)
  else match c.held with
  | some h => if h == refSlot then (if c.refPending then some refSlot else (bestOffer o).map (·.1))
              else if o.any (fun x => x.1 == h) then some h
              else if c.refPending then some refSlot else (bestOffer o).map (·.1)
  | none => if c.refPending then some refSlot else (bestOffer o).map (·.1)

/-- Frames whose lifetime has passed are not started again (R459); a start in the clock of expiry is in time (R64). -/
def Dev.canExpire (k : Fin 2) (d : Dev) : Dev :=
  (List.finRange 32).foldl (fun d b =>
    let x := d.can.ctl[k].bufs[b]
    match x.tx with
    | some t => if x.result == .pending && (t.expiry.map (fun e => decide (d.clk > e))).getD false then d.bufExpire k b else d
    | none => d) d

/-- With the bus idle for this controller, the frame offered next starts (log entry 20). -/
def Dev.canKick (k : Fin 2) (d0 : Dev) : Dev :=
  let c0 := d0.can.ctl[k]
  if !(c0.state == .active || c0.state == .passive) || c0.onBus.isSome || !c0.counts then d0
  else
    let d := d0.canExpire k
    match d.canNext k with
    | none => d
    | some n =>
      let d1 := d.modCan k (fun c => { c with onBus := some n, held := none })
      if n < 32 then d1.modBuf k (Fin.ofNat 32 n) (fun x => { x with result := .onBus }) else d1

/-! ## Error confinement (R464 to R467) -/

/-- Warning events of a counter that has moved. -/
def Dev.canWarn (k : Fin 2) (d : Dev) : Dev :=
  let c := d.can.ctl[k]
  let tw := decide (c.tec.toNat ≥ c.tecWarn)
  let rw := decide (c.recCnt.toNat ≥ c.recWarn)
  let d1 := d.modCan k (fun c => { c with tecWarned := tw, recWarned := rw })
  let d2 := if tw && !c.tecWarned then (d1.canEvent k evTecWarn).fire 122 .device else d1
  if rw && !c.recWarned then (d2.canEvent k evRecWarn).fire 122 .device else d2

/-- The error state that the counters ask for: bus-off above 255 transmit errors, passive above 127. -/
def Dev.canConfine (k : Fin 2) (d : Dev) : Dev :=
  let c := d.can.ctl[k]
  let d0 := d.canWarn k
  if c.tec.toNat > 255 then
    ((d0.modCan k (fun c => { c with state := if c.autoRec then .recovering else .busOff,
                                     busoffCnt := BitVec.ofNat 8 (satU 8 (c.busoffCnt.toNat + 1)) })).canEvent k evBusOff).fire
      120 .device
  else if c.tec.toNat > 127 ∨ c.recCnt.toNat > 127 then
    (if c.state == .active then ((d0.modCan k (fun c => { c with state := .passive })).canEvent k evPassive).fire 121 .device
     else d0)
  else if c.state == .passive then d0.modCan k (fun c => { c with state := .active }) else d0

/-! ## What the gateway sends (R473, R475) -/

/-- The first response in a stall's response area, header first. -/
def Dev.firstRsp (d : Dev) (st : Stall) : Option (List W32) :=
  let s := d.hp.stalls[st]
  if s.rspRdPtr == s.rspWrPtr then none
  else
    let h := Mem.read 0 s.rspArea (s.rspRdPtr.toNat % 1024)
    some (areaRead s.rspArea s.rspRdPtr.toNat (fld h 11 0 + 1))

/-- RSP_RD_PTR goes past the first response; responses that waited for room follow. -/
def Dev.rspAdvance (st : Stall) (d : Dev) : Dev :=
  match d.firstRsp st with
  | none => d
  | some ws => (d.modStall st (fun s => { s with rspRdPtr := s.rspRdPtr + BitVec.ofNat 11 ws.length })).flushRsp st

/-- Header word of a gateway frame. -/
def gwHeader (words op : Nat) (first last : Bool) (seq : Nat) : W32 :=
  mkw [(words, 16, 4), (op, 8, 2), (b2n last, 5, 1), (b2n first, 4, 1), (seq, 0, 4)]

/-- Pieces of at most 15 words. -/
def pieces (ws : List W32) : List (List W32) :=
  (List.range (max 1 (cdiv ws.length 15))).map (fun i => (ws.drop (15 * i)).take 15)

/-- Queue a message of the gateway. -/
def Dev.gwQueue (op : Nat) (ws : List W32) (rsp irq : Bool) (d : Dev) : Dev :=
  let ps := pieces ws
  let n := ps.length
  let g := d.can.gw
  let fs := (List.range n).map (fun i =>
    let p := ps.getD i []
    (⟨gwHeader p.length op (i == 0) (i + 1 == n) ((g.txSeq.toNat + i) % 16) :: p ++ List.replicate (15 - p.length) 0,
      rsp && i + 1 == n, irq⟩ : GwFrame))
  { d with can := { d.can with gw := { g with txQ := g.txQ ++ fs, txSeq := g.txSeq + BitVec.ofNat 4 n } } }

/-- The value that an IRQ frame carries. -/
def Dev.gwIrqValue (d : Dev) : W32 := (d.irqActive 6).setWidth 32

/-- An IRQ frame is made pending, if one is due and none is pending or was sent since the last frame boundary (R475). -/
def Dev.gwIrq (d : Dev) : Dev :=
  let g := d.can.gw
  if g.ctrl.isSome && !g.irqPending && !g.irqHold && d.gwIrqValue != 0 && (g.irqAgain || d.gwIrqValue != g.irqSent) then
    let d1 := d.gwQueue 2 [d.gwIrqValue] false true
    { d1 with can := { d1.can with gw := { d1.can.gw with irqPending := true, irqAgain := false, irqSent := d.gwIrqValue } } }
  else d

/-- The next response of S6, and a due IRQ frame, become pending. -/
def Dev.gwPump (d : Dev) : Dev :=
  match d.can.gw.ctrl with
  | none => d
  | some k =>
    let d1 := if d.can.gw.txQ.any (fun f => f.endsRsp) then d
      else (match d.firstRsp 6 with
        | some ws => d.gwQueue 0 ws true false
        | none => d)
    d1.gwIrq.canKick k

/-- At a frame boundary a new IRQ frame may be made pending (R475). -/
def Dev.gwFrameBoundary (d : Dev) : Dev :=
  ({ d with can := { d.can with gw := { d.can.gw with irqHold := false } } }).gwPump

/-! ## Transmission (R459, R460, R464, R470) -/

/-- The reference message of a controller's present basic cycle (R469). -/
def Dev.refFrame (d : Dev) (c : CanCtl) : CanFrame :=
  { ide := c.role.ide, id := c.role.refBase + BitVec.ofNat 29 c.role.prio.toNat, fdf := false, brs := false, esi := false,
    remote := false,
    data := [BitVec.ofNat 8 (b2n d.ntValid * 128 + c.basicTick / max 1 c.role.basic.toNat % 64), 0, 0, 0] ++
      wordBytes (nW c.basicTick) }

/-- The frame on the bus; an FD frame carries the error-state indicator. -/
def Dev.busFrame (d : Dev) (k : Fin 2) (n : Nat) : Option CanFrame :=
  let c := d.can.ctl[k]
  if n < 32 then (c.bufs[Fin.ofNat 32 n].tx).map (fun t => { t.frame with esi := t.frame.fdf && c.state == .passive })
  else if n = gwSlot then
    d.can.gw.txQ.head?.map (fun f => ⟨d.can.gw.ide, d.can.gw.rspId, true, d.can.gw.brs, c.state == .passive, false, bytesOf f.words⟩)
  else some (d.refFrame c)

/-- Is an identifier a reference identifier of the controller's role (R462, R468)? -/
def CanCtl.isRef (c : CanCtl) (ide : Bool) (id : BitVec 29) : Bool :=
  c.role.role != 0 && ide == c.role.ide && c.role.refBase.toNat ≤ id.toNat && id.toNat < c.role.refBase.toNat + 8

/-- A successful attempt ends: what the buffer's owner sees. -/
def Dev.canSent (k : Fin 2) (n : Nat) (d : Dev) : Dev :=
  if n < 32 then d.bufEnd k (Fin.ofNat 32 n) .sent
  else if n = gwSlot then
    let g := d.can.gw
    let f := g.txQ.head?
    let d1 := { d with can := { d.can with gw := { g with
      txQ := g.txQ.drop 1, irqPending := g.irqPending && !(f.map (·.irq)).getD false,
      irqHold := g.irqHold || (f.map (·.irq)).getD false } } }
    if (f.map (·.endsRsp)).getD false then d1.rspAdvance 6 else d1
  else
    d.modCan k (fun c => { c with refPending := false, refAcked := true, masterActive := true, alone := false, unacked := 0,
                                  cycleCount := BitVec.ofNat 6 (c.basicTick / max 1 c.role.basic.toNat) })

/-- A reference message that is not on the bus once REF_WINDOW_US has passed at an instant is withdrawn: REF_LATE (R470). -/
def Dev.refLate (k : Fin 2) (clk : Nat) (d : Dev) : Dev :=
  let c := d.can.ctl[k]
  if c.refPending && c.onBus != some refSlot && decide (clk > c.basicClk + 512 * c.role.windowUs.toNat) then
    (d.modCan k (fun c => { c with refPending := false })).canEvent k evRefLate
  else d

/-- A failed attempt: retried, unless it is aborted, its lifetime is over, or it comes too late for a reference message. -/
def Dev.canFailed (k : Fin 2) (n : Nat) (d : Dev) : Dev :=
  if n < 32 then
    let b : Fin 32 := Fin.ofNat 32 n
    let x := d.can.ctl[k].bufs[b]
    let isOver := match x.tx with
      | some t => (t.expiry.map (fun e => decide (d.clk > e))).getD false
      | none => false
    if x.aborting || d.can.ctl[k].stopping.isSome then d.bufAbort k b
    else if isOver then d.bufExpire k b
    else d.modBuf k b (fun x => { x with result := .pending })
  else if n = refSlot then d.refLate k d.clk
  else d

/-- The controller goes OFF: every pending frame ends ABORTED, the role's messages are withdrawn (R484). -/
def Dev.canOff (k : Fin 2) (d : Dev) : Dev :=
  let d1 := (List.finRange 32).foldl (fun d b =>
    let x := d.can.ctl[k].bufs[b]
    if x.result == .pending || x.result == .onBus then (d.bufDropNext k b).bufAbort k b else d) d
  d1.modCan k (fun c => { c with state := .off, onBus := none, held := none, refPending := false, guarding := false,
                                 stopping := none, masterActive := false })

/-- S6 ends (R476): the gateway's partial request and its queued frames go with it. -/
def Dev.gwEnd (d : Dev) : Dev :=
  let d1 := d.endStall 6
  { d1 with can := { d1.can with gw := { Gateway.reset with ctrl := none, reqId := d1.can.gw.reqId, rspId := d1.can.gw.rspId } } }

/-- Completion of a STOP once the frame on the bus is done, and of every other that waits for it. -/
def Dev.canStopped (k : Fin 2) (d : Dev) : Dev :=
  match d.can.ctl[k].stopping with
  | some _ =>
    let waits := d.hp.inFlight.filter (fun (x : Cmd) => x.code == 0x704 && x.phase == .started &&
      fld (wd x.payload 0) 0 0 == k.val && fld (wd x.payload 0) 5 4 == 1)
    let d1 := waits.foldl (fun (d : Dev) (x : Cmd) => d.ok x []) (d.canOff k)
    if d1.can.gw.ctrl == some k then d1.gwEnd else d1
  | none => d

/-! ## Reception (R462, R463, R471) -/

/-- A reserved receive identifier of a safety connection on a controller (R472). -/
def Dev.safetyId (d : Dev) (k : Fin 2) (f : CanFrame) : Bool :=
  (List.range 64).any (fun c =>
    let w := connWord d.safeSet c 0
    let i := connWord d.safeSet c 3
    bitOf w 0 && !bitOf w 1 && fld w 3 2 == k.val + 1 && bitOf i 29 == f.ide && fld i 28 0 == f.id.toNat)

/-- The host filter that a frame matches, the lowest first. -/
def CanCtl.matchFilter (c : CanCtl) (f : CanFrame) : Option (Fin 32) :=
  (List.finRange 32).find? (fun i =>
    let x := c.filters[i]
    x.en && x.ide == f.ide && (f.id &&& x.mask) == (x.id &&& x.mask))

/-- A frame goes to the destination it matches first (R462). Gateway and safety frames come to their destinations with
the rows GW_COMMAND, GW_READ, GW_IRQ_CLEAR and SAFETY_TELEGRAM. -/
def Dev.canSort (k : Fin 2) (f : CanFrame) (at_ : Int) (d : Dev) : Dev :=
  let c := d.can.ctl[k]
  if f.remote then d
  else if c.isRef f.ide f.id then
    let after := ((d.clk : Int) + at_ - c.basicClk).toNat
    let us := after / 512
    -- in clocks of the controller, 6.4 lane clocks each: the one in which the window ends counts as in time (R470, 02 R64)
    let inTime := decide (after * 5 / 32 ≤ 80 * c.role.windowUs.toNat)
    d.modCan k (fun c => { c with arrivalUs := BitVec.ofNat 16 (satU 16 us), cycleCount := BitVec.ofNat 6 ((f.data.getD 0 0).toNat % 64),
                                  masterActive := false, refSeen := c.refSeen || inTime,
                                  missRun := if inTime then 0 else c.missRun })
  else if d.can.gw.ctrl == some k && d.can.gw.ide == f.ide && d.can.gw.reqId == f.id then d
  else if d.safetyId k f then d
  else match c.matchFilter f with
    | none => d
    | some i =>
      if c.fifo.length ≥ 64 then (d.canEvent k evRxOvf).fire 126 .device
      else (d.modCan k (fun c => { c with fifo := c.fifo ++ [⟨f, BitVec.ofNat 5 i.val, d.ntNear at_⟩] })).canEvent k evRx

/-- The receive error counter after a frame (ISO 11898-1): one more for an error; one less, or back to 119 to 127 from
above, for a good frame. -/
def Dev.canRec (k : Fin 2) (ok : Bool) (d : Dev) : Dev :=
  let c := d.can.ctl[k]
  if !c.counts then d
  else if !ok then (d.modCan k (fun c => { c with recCnt := BitVec.ofNat 8 (satU 8 (c.recCnt.toNat + 1)) })).canConfine k
  else if c.recCnt.toNat > 127 then
    let r := d.draw
    (r.2.modCan k (fun c => { c with recCnt := BitVec.ofNat 8 (119 + r.1 % 9) })).canConfine k
  else (d.modCan k (fun c => { c with recCnt := c.recCnt - (if c.recCnt = 0 then 0 else 1) })).canConfine k

/-- A frame, or a frame in error, was received (R462, R464). -/
def doCanFrameReceived (k : Fin 2) (ok : Bool) (f : CanFrame) (at_ : Int) (d : Dev) : Dev :=
  let c := d.can.ctl[k]
  if !(c.state == .active || c.state == .passive) || c.mode == 3 then d
  else
    let d1 := d.canRec k ok
    (if ok then d1.canSort k f at_ else d1).canKick k

/-- A transmission attempt ends (R459, R464, R466, R467, R470). -/
def doCanTxEnd (k : Fin 2) (r : CanTxResult) (at_ : Int) (d : Dev) : Dev :=
  let c := d.can.ctl[k]
  match c.onBus with
  | none => d
  | some n =>
    let d0 := d.modCan k (fun c => { c with onBus := none })
    let d1 : Dev := match r with
      | .sent =>
        let d2 := match d.busFrame k n with
          | some f => if c.mode == 3 then d0.canSort k f at_ else d0.emit (.can k f)
          | none => d0
        (d2.canSent k n).modCan k (fun c => { c with tec := c.tec - (if c.tec = 0 then 0 else 1) }) |>.canConfine k
      | .lostArb id =>
        let d2 := d0.canFailed k n
        if n = refSlot ∧ c.isRef c.role.ide id then
          d2.modCan k (fun c => { c with refPending := false, lostRef := true, masterActive := false })
        else d2
      | .ackError =>
        let d2 := if c.state == .passive then d0
          else d0.modCan k (fun c => { c with tec := BitVec.ofNat 9 (satU 9 (c.tec.toNat + 8)) })
        (d2.canFailed k n).canConfine k
      | .error =>
        let d2 := (d0.modCan k (fun c => { c with tec := BitVec.ofNat 9 (satU 9 (c.tec.toNat + 8)) })).canFailed k n
        let d3 := d2.canConfine k
        if d3.can.ctl[k].state == .busOff || d3.can.ctl[k].state == .recovering then
          let keep : Bool := decide (n ≥ 32) ||
            (d3.can.ctl[k].bufs[Fin.ofNat 32 n].result == .pending && !d.can.ctl[k].bufs[Fin.ofNat 32 n].aborting)
          d3.modCan k (fun c => { c with held := if keep then some n else none })
        else d3
    ((d1.canStopped k).gwPump).canKick k

/-! ## Events of the controllers -/

/-- The controller has seen 11 recessive bits (R484). -/
def doCanIntegrated (k : Fin 2) (d : Dev) : Dev :=
  if d.can.ctl[k].state == .integrating then (d.modCan k (fun c => { c with state := .active })).canKick k else d

/-- A pending frame's lifetime ends; one on the bus completes its attempt (R459). -/
def doCanLifetimeExpiry (k : Fin 2) (b : Fin 32) (d : Dev) : Dev :=
  let x := d.can.ctl[k].bufs[b]
  match x.tx with
  | some t =>
    match t.expiry with
    | some e =>
      if e < d.clk + max 1 d.tickClks then
        (if x.result == .pending then d.bufExpire k b
         else d.modBuf k b (fun x => { x with tx := some { t with expiry := some 0 } }))
      else d
    | none => d
  | none => d

/-- Bus-off recovery ends (R465). -/
def doCanRecoveryDone (k : Fin 2) (d : Dev) : Dev :=
  if d.can.ctl[k].state == .recovering then
    ((d.modCan k (fun c => { c with state := .active, tec := 0, recCnt := 0, tecWarned := false, recWarned := false })).canEvent
      k evRecovered).canKick k
  else d

/-- The cycle that ends without an acknowledge, with ALONE (R470), or without a reference message (R471), of a controller
that is not OFF. -/
def Dev.refAccount (k : Fin 2) (d : Dev) : Dev :=
  let c := d.can.ctl[k]
  if c.state == .off then d
  else if c.role.role == 1 && !c.lostRef then
    (if c.refAcked then d
     else
      let n := satU 8 (c.unacked.toNat + 1)
      let d1 := d.modCan k (fun c => { c with unacked := BitVec.ofNat 8 n })
      if n ≥ c.role.aloneN.toNat ∧ !c.alone then
        ((d1.modCan k (fun c => { c with alone := true })).canEvent k evAlone).fire 123 .device
      else d1)
  else if c.role.role == 2 || c.role.role == 1 then
    (if c.refSeen then d
     else
      let d1 := d.modCan k (fun c => { c with missRun := c.missRun + 1 })
      if c.missRun + 1 = 2 then (d1.canEvent k evRefMiss).fire 124 .device else d1)
  else d

/-- A basic cycle starts at a tick divisible by BASIC_TICKS (R468): the cycle before it is judged, a new role applies
(R485), and a potential master's reference message becomes pending. -/
def doCanBasicCycle (k : Fin 2) (d : Dev) : Dev :=
  let c := d.can.ctl[k]
  let basic := if c.role.role != 0 then c.role.basic.toNat else (c.roleNext.map (fun r => r.basic.toNat)).getD 0
  if basic = 0 ∨ d.tick % max 1 basic ≠ 0 ∨ (c.basicTick = d.tick ∧ c.role.role ≠ 0 ∧ d.tick ≠ 0) then d
  else
    let d1 := d.refAccount k
    let d2 : Dev := match c.roleNext with
      | some r =>
        (d1.hp.inFlight.filter (fun (x : Cmd) => x.code == 0x710 && x.phase == .started && fld (wd x.payload 0) 0 0 == k.val)).foldl
          (fun (d : Dev) (x : Cmd) => d.ok x []) (d1.modCan k (fun c => { c with role := r, roleNext := none, masterActive := c.masterActive && r.role == 1 }))
      | none => d1
    (d2.modCan k (fun c => { c with basicClk := d.clk, basicTick := d.tick, refAcked := false, refSeen := false, lostRef := false,
                                    guarding := false,
                                    refPending := c.role.role == 1 && c.counts && c.state != .off && c.state != .integrating })).canKick k

/-- The lane clocks from the start of the present tick to the next basic cycle of a role. -/
def Dev.toBasic (d : Dev) (r : CanRole) : Nat := (r.basic.toNat - d.tick % max 1 r.basic.toNat) * d.tickClks

/-- The guard interval before a potential master's next basic cycle, where it begins by the end of the present tick (R470). -/
def doCanGuardStart (k : Fin 2) (d : Dev) : Dev :=
  let r := d.can.ctl[k].role
  if r.role == 1 && decide (d.toBasic r ≤ d.tickClks + 512 * r.guardUs.toNat) then d.modCan k (fun c => { c with guarding := true }) else d

/-- REF_WINDOW_US passes in the present tick: a reference message that has not started is withdrawn (R470). -/
def doRefWindowExpiry (k : Fin 2) (d : Dev) : Dev := (d.refLate k (d.clk + d.tickClks)).canKick k

/-- A buffer's exclusive window opens in the present tick, and closes in it (R461). -/
def doCanWindowOpen (k : Fin 2) (b : Fin 32) (d : Dev) : Dev :=
  let c := d.can.ctl[k]
  let opens := c.bufs[b].tx.any (fun t => t.window && c.role.role != 0 &&
    decide (c.basicClk + 512 * t.winStart.toNat < d.clk + max 1 d.tickClks) &&
    decide (d.clk ≤ c.basicClk + 512 * (t.winStart.toNat + t.winLen.toNat)))
  if opens then (d.modBuf k b (fun x => { x with winOpen := true })).canKick k else d
def doCanWindowClose (k : Fin 2) (b : Fin 32) (d : Dev) : Dev :=
  let c := d.can.ctl[k]
  let closes := c.bufs[b].tx.all (fun t =>
    decide (c.basicClk + 512 * (t.winStart.toNat + t.winLen.toNat) < d.clk + max 1 d.tickClks))
  if closes then d.modBuf k b (fun x => { x with winOpen := false }) else d

/-! ## Commands -/

/-- The controller a command names. -/
def ctrlOf (c : Cmd) : Fin 2 := Fin.ofNat 2 (fld (wd c.payload 0) 0 0)

/-- Is a controller named by a connection of the parameter set in force (R472)? -/
def Dev.canBound (d : Dev) (k : Fin 2) : Bool :=
  (List.range 64).any (fun c => bitOf (connWord d.safeSet c 0) 0 && fld (connWord d.safeSet c 0) 3 2 == k.val + 1)

/-- Does a value lie outside a range? -/
def outside (lo hi v : Nat) : Bool := decide (v < lo ∨ hi < v)

/-- Is a CanConfig payload out of range (R456, R480)? -/
def canConfBad (p : List W32) : Bool :=
  let w0 := wd p 0
  let w1 := wd p 1
  let w2 := wd p 2
  let w3 := wd p 3
  let nq := fld w1 7 0 * (1 + fld w1 15 8 + fld w1 22 16)
  let dq := fld w2 4 0 * (1 + fld w2 12 8 + fld w2 19 16)
  rsv w0 0xC000FE0E || rsv w1 0x80800000 || rsv w2 0xF0F0E0E0 || rsv w3 0x000080FE ||
    outside 1 127 (fld w1 30 24) || outside 1 127 (fld w1 22 16) || outside 2 255 (fld w1 15 8) || outside 1 32 (fld w1 7 0) ||
    outside 1 15 (fld w2 27 24) || outside 1 15 (fld w2 19 16) || outside 1 31 (fld w2 12 8) || outside 1 32 (fld w2 4 0) ||
    outside 1 255 (fld w3 31 24) || outside 1 255 (fld w3 23 16) || outside 1 127 (fld w3 14 8) ||
    outside 80 8000 nq || outside 10 nq dq || (bitOf w0 7 && dq < 80 && !bitOf w3 0)

/-- CanConfig (0x700, R480). -/
def applyCanConfig (c : Cmd) (d : Dev) : Dev :=
  let k := ctrlOf c
  Dev.checked c 1
    [(noWord c, stParam), (d.can.ctl[k].state != .off, stState),
     (badLen c 4 || canConfBad c.payload || (!bitOf (wd c.payload 0) 6 && d.canBound k), stParam)]
    (fun d => (d.modCan k (fun x =>
      { x with conf := ⟨#[wd c.payload 0, wd c.payload 1, wd c.payload 2, wd c.payload 3], rfl⟩ })).ok c []) d
/-- It waits for a tick boundary, and does everything there (03 R95). -/
def doCanConfig (st : Stall) (tag : BitVec 8) : Dev → Dev := Dev.startAtTick st tag 0x700

/-- CanFilter (0x701, R481): in force from the next tick boundary on (R462). -/
def doCanFilter (st : Stall) (tag : BitVec 8) : Dev → Dev :=
  Dev.start st tag 0x701 fun c d =>
    let k := ctrlOf c
    let w := wd c.payload 0
    let id := wd c.payload 1
    Dev.checked c 1
      [(badLen c 3 || rsv w 0xFFFCE0FE || rsv id 0xE0000000 || rsv (wd c.payload 2) 0xE0000000 ||
          (!bitOf w 17 && fld id 28 0 > 0x7FF), stParam)]
      (fun d =>
        let f : CanFilter := ⟨bitOf w 16, bitOf w 17, BitVec.ofNat 29 (fld id 28 0), BitVec.ofNat 29 (fld (wd c.payload 2) 28 0)⟩
        (d.modCan k (fun x => { x with filtersNext := vset x.filtersNext (Fin.ofNat 32 (fld w 12 8)) f })).ok c []) d

/-- Filters change at the tick boundary (R462). -/
def Dev.canFilters (d : Dev) : Dev :=
  { d with can := { d.can with ctl := d.can.ctl.map (fun c => { c with filters := c.filtersNext }) } }

/-- Frame lengths: 0 to 8, and 12 to 64 for FD frames. -/
def canBytesOk (fd : Bool) (n : Nat) : Bool := n ≤ 8 || (fd && [12, 16, 20, 24, 32, 48, 64].contains n)

/-- The frame of a CanSend. -/
def sendFrame (p : List W32) : CanFrame :=
  let w := wd p 0
  { ide := bitOf w 16, id := BitVec.ofNat 29 (fld (wd p 1) 28 0), fdf := bitOf w 17, brs := bitOf w 18, esi := false,
    remote := false, data := (bytesOf (p.drop 4)).take (fld (wd p 2) 6 0) }

/-- CanSend (0x702, R482, R459, R460): the lifetime counts from the tick in which the command was taken. -/
def doCanSend (st : Stall) (tag : BitVec 8) : Dev → Dev :=
  Dev.start st tag 0x702 fun c d =>
    let k := ctrlOf c
    let x := d.can.ctl[k]
    let p := c.payload
    let w := wd p 0
    let b : Fin 32 := Fin.ofNat 32 (fld w 12 8)
    let n := fld (wd p 2) 6 0
    let life := fld (wd p 2) 31 16
    Dev.checked c 1
      [(noWord c, stParam), (x.state == .off || x.mode == 1 || x.mode == 2, stState),
       (x.bufs[b].safety.isSome, stResource),
       (p.length != 4 + cdiv n 4 || rsv w 0xFFE0E0FE || rsv (wd p 1) 0xE0000000 || rsv (wd p 2) 0x0000FF80 ||
          (!bitOf w 16 && fld (wd p 1) 28 0 > 0x7FF) || !canBytesOk (bitOf w 17) n || (bitOf w 17 && !x.fdEn) ||
          (bitOf w 18 && (!bitOf w 17 || !x.brsEn)) || (bitOf w 20 && x.role.role == 0) || (!bitOf w 20 && wd p 3 != 0), stParam)]
      (fun d =>
        let t : CanTx := ⟨sendFrame p, bitOf w 19, bitOf w 20, BitVec.ofNat 16 (fld (wd p 3) 15 0),
          BitVec.ofNat 16 (fld (wd p 3) 31 16), if life = 0 then none else some (d.clkTaken c + life * clksPerMs)⟩
        ((d.bufSend k b t).canKick k).ok c []) d

/-- The 21 words of a received frame (R483). -/
def rxWords (r : CanRx) : List W32 :=
  [mkw [(r.frame.id.toNat, 0, 29), (b2n r.frame.ide, 29, 1), (b2n r.frame.fdf, 30, 1), (b2n r.frame.brs, 31, 1)],
   mkw [(b2n r.frame.esi, 13, 1), (r.filter.toNat, 8, 5), (r.frame.data.length, 0, 7)]] ++ r.stamp.words ++
  wordsOf 16 r.frame.data

/-- CanReceive (0x703, R483). -/
def doCanReceive (st : Stall) (tag : BitVec 8) : Dev → Dev :=
  Dev.start st tag 0x703 fun c d =>
    let k := ctrlOf c
    let w := wd c.payload 0
    let x := d.can.ctl[k]
    let got := x.fifo.take (fld w 7 4)
    Dev.checked c 2
      [(badLen c 1 || rsv w 0xFFFFFF0E || outside 1 8 (fld w 7 4), stParam)]
      (fun d => (d.modCan k (fun x => { x with fifo := x.fifo.drop (fld w 7 4) })).ok c
        (mkw [(got.length, 0, 4), (x.fifo.length - got.length, 8, 7), (b2n (x.event.getLsbD evRxOvf), 15, 1)] ::
          got.flatMap rxWords)) d

/-- CanControl CLEAR (R484). -/
def CanCtl.clear (c : CanCtl) : CanCtl :=
  { c with event := 0, busoffCnt := 0, bufs := c.bufs.map (fun b =>
      if b.result == .sent || b.result == .aborted || b.result == .expired then { b with result := .empty } else b) }

/-- CanControl (0x704, R484). -/
def doCanControl (st : Stall) (tag : BitVec 8) : Dev → Dev :=
  Dev.start st tag 0x704 fun c d =>
    let k := ctrlOf c
    let x := d.can.ctl[k]
    let w := wd c.payload 0
    let op := fld w 5 4
    Dev.checked c 1
      [(noWord c, stParam),
       ((op == 0 && x.state != .off) || (op == 1 && x.state == .off) || (op == 2 && (x.state != .busOff || x.autoRec)), stState),
       (badLen c 1 || rsv w 0xFFFFFFCE, stParam)]
      (fun d =>
        match op with
        | 0 => (d.modCan k (fun x => { x with state := .integrating, tec := 0, recCnt := 0, tecWarned := false,
                                              recWarned := false })).ok c []
        | 1 =>
          let d1 := { d.await st tag .started with can := (d.modCan k (fun x => { x with stopping := some (st, tag) })).can }
          if x.onBus.isSome then d1 else d1.canStopped k
        | 2 => (d.modCan k (fun x => { x with state := .recovering })).ok c []
        | _ => (d.modCan k CanCtl.clear).ok c []) d

/-- Is a CanTimeMaster payload out of range (R468, R485)? -/
def Dev.roleBad (d : Dev) (p : List W32) : Bool :=
  let w0 := wd p 0
  let w1 := wd p 1
  let w2 := wd p 2
  let clks := fld w0 31 12 * d.tickClks
  rsv w0 0x000000CE || rsv w1 0xE0000000 || fld w0 5 4 == 3 ||
    (fld w0 5 4 != 0 &&
      (fld w1 2 0 != 0 || (!bitOf w0 11 && fld w1 28 0 > 0x7F8) || outside 128000 512000000 clks || fld w0 31 12 == 0 ||
       outside 10 10000 (fld w2 15 0) || fld w2 23 16 == 0))

/-- CanTimeMaster (0x710, R485): it applies at the next basic-cycle start; at once where no role is in force and none is
asked for. -/
def doCanTimeMaster (st : Stall) (tag : BitVec 8) : Dev → Dev :=
  Dev.start st tag 0x710 fun c d =>
    let k := ctrlOf c
    let x := d.can.ctl[k]
    let role := fld (wd c.payload 0) 5 4
    let windows := x.bufs.toList.any (fun b => (b.result == .pending || b.result == .onBus) &&
      (b.tx.any (·.window) || b.next.any (·.window)))
    Dev.checked c 1
      [(noWord c, stParam), (role == 1 && (x.mode == 1 || x.mode == 2), stState),
       (badLen c 3 || d.roleBad c.payload || (role == 0 && windows), stParam)]
      (fun d =>
        if role = 0 ∧ x.role.role = 0 then (d.modCan k (fun x => { x with roleNext := none })).ok c []
        else (d.await st tag .started).modCan k (fun x => { x with roleNext := some (roleOf c.payload) })) d

/-- CanGateway (0x720, R486). -/
def applyCanGateway (c : Cmd) (d : Dev) : Dev :=
  let k := ctrlOf c
  let x := d.can.ctl[k]
  let p := c.payload
  let w := wd p 0
  let en := bitOf w 1
  let req := BitVec.ofNat 29 (fld (wd p 1) 28 0)
  let rsp := BitVec.ofNat 29 (fld (wd p 2) 28 0)
  let g := d.can.gw
  Dev.checked c 1
    [(noWord c, stParam), (c.stall == 6 || (g.ctrl.isSome && g.ctrl != some k) || (en && (x.state == .off || x.mode != 0 || !x.fdEn)), stState),
     (badLen c 4 || rsv w 0xFFFFFFF0 || rsv (wd p 1) 0xE0000000 || rsv (wd p 2) 0xE0000000 || req == rsp ||
        (!bitOf w 2 && (req.toNat > 0x7FF || rsp.toNat > 0x7FF)) || rsv (wd p 3) 0xFFFFF800, stParam)]
    (fun d =>
      let changed := g.ctrl.isSome && (!en || g.reqId != req || g.rspId != rsp || g.ide != bitOf w 2)
      let d1 := if changed then d.gwEnd else d
      let d2 := d1.modStall 6 (fun s => { s with irqEnable := BitVec.ofNat 11 (fld (wd p 3) 10 0) })
      let d3 := { d2 with can := { d2.can with gw := if en then
          { d2.can.gw with ctrl := some k, ide := bitOf w 2, brs := bitOf w 3, reqId := req, rspId := rsp }
        else { d2.can.gw with reqId := req, rspId := rsp } } }
      d3.ok c []) d
/-- It waits for a tick boundary, and does everything there (03 R95). -/
def doCanGateway (st : Stall) (tag : BitVec 8) : Dev → Dev := Dev.startAtTick st tag 0x720

/-! ## Meanings -/

/-- CAN_CONFIG. -/
def execCanConfig (st : Stall) (tag : BitVec 8) (s : State) : Host.Outcome State Fault Refusal := .next (s.on (doCanConfig st tag))
/-- CAN_FILTER. -/
def execCanFilter (st : Stall) (tag : BitVec 8) (s : State) : Host.Outcome State Fault Refusal := .next (s.on (doCanFilter st tag))
/-- CAN_SEND. -/
def execCanSend (st : Stall) (tag : BitVec 8) (s : State) : Host.Outcome State Fault Refusal := .next (s.on (doCanSend st tag))
/-- CAN_RECEIVE. -/
def execCanReceive (st : Stall) (tag : BitVec 8) (s : State) : Host.Outcome State Fault Refusal :=
  .next (s.on (doCanReceive st tag))
/-- CAN_CONTROL. -/
def execCanControl (st : Stall) (tag : BitVec 8) (s : State) : Host.Outcome State Fault Refusal :=
  .next (s.on (doCanControl st tag))
/-- CAN_TIME_MASTER. -/
def execCanTimeMaster (st : Stall) (tag : BitVec 8) (s : State) : Host.Outcome State Fault Refusal :=
  .next (s.on (doCanTimeMaster st tag))
/-- CAN_GATEWAY. -/
def execCanGateway (st : Stall) (tag : BitVec 8) (s : State) : Host.Outcome State Fault Refusal :=
  .next (s.on (doCanGateway st tag))
/-- CAN_INTEGRATED. -/
def execCanIntegrated (c : Fin 2) (s : State) : Host.Outcome State Fault Refusal := .next (s.on (doCanIntegrated c))
/-- CAN_FRAME_RECEIVED. -/
def execCanFrameReceived (c : Fin 2) (ok : Bool) (f : CanFrame) (at_ : Int) (s : State) : Host.Outcome State Fault Refusal :=
  .next (s.on (doCanFrameReceived c ok f at_))
/-- CAN_TX_END. -/
def execCanTxEnd (c : Fin 2) (r : CanTxStop) (s : State) : Host.Outcome State Fault Refusal :=
  .next (s.on (doCanTxEnd c r.r r.at_))
/-- CAN_LIFETIME_EXPIRY. -/
def execCanLifetimeExpiry (c : Fin 2) (buf : Fin 32) (s : State) : Host.Outcome State Fault Refusal :=
  .next (s.on (doCanLifetimeExpiry c buf))
/-- CAN_RECOVERY_DONE. -/
def execCanRecoveryDone (c : Fin 2) (s : State) : Host.Outcome State Fault Refusal := .next (s.on (doCanRecoveryDone c))
/-- CAN_BASIC_CYCLE. -/
def execCanBasicCycle (c : Fin 2) (s : State) : Host.Outcome State Fault Refusal := .next (s.on (doCanBasicCycle c))
/-- CAN_GUARD_START. -/
def execCanGuardStart (c : Fin 2) (s : State) : Host.Outcome State Fault Refusal := .next (s.on (doCanGuardStart c))
/-- REF_WINDOW_EXPIRY. -/
def execRefWindowExpiry (c : Fin 2) (s : State) : Host.Outcome State Fault Refusal := .next (s.on (doRefWindowExpiry c))
/-- CAN_WINDOW_OPEN. -/
def execCanWindowOpen (c : Fin 2) (buf : Fin 32) (s : State) : Host.Outcome State Fault Refusal :=
  .next (s.on (doCanWindowOpen c buf))
/-- CAN_WINDOW_CLOSE. -/
def execCanWindowClose (c : Fin 2) (buf : Fin 32) (s : State) : Host.Outcome State Fault Refusal :=
  .next (s.on (doCanWindowClose c buf))

end Sys2Proof.Machine
end

