-- ==== Sys2Proof/Machine/SafetyCh.lean ====
section
/-! DEFINITION. The check cycle and the events of the safety channels (spec 15 R569 to R593). -/
namespace Sys2Proof.Machine
open Sys2Proof

/-! ## Input functions (R575, R577 to R580) -/

/-- A debounced input of a channel. -/
def sinOf (c : SafeChan) (i : Nat) : Bool := c.sin.getLsbD i

/-- Do the inputs of a pair disagree (R575, R579)? -/
def pairDisagrees (c : SafeChan) (p : Nat) : Bool :=
  let w := ifWord c.params p
  let same := sinOf c (2 * p) == sinOf c (2 * p + 1)
  match ifType c.params p with
  | 1 | 4 => !same
  | 2 => if bitOf w 6 then same else !same
  | 3 => same
  | _ => false

/-- Is a hand actuated, or released (R579)? -/
def handOn (c : SafeChan) (p : Nat) : Bool := sinOf c (2 * p) && !sinOf c (2 * p + 1)
def handOff (c : SafeChan) (p : Nat) : Bool := !sinOf c (2 * p) && sinOf c (2 * p + 1)

/-- Do both inputs of a pair allow operation (Table 15.1)? -/
def inputsOn (c : SafeChan) (p : Nat) : Bool :=
  if ifType c.params p = 2 ∧ bitOf (ifWord c.params p) 6 then sinOf c (2 * p) && !sinOf c (2 * p + 1)
  else sinOf c (2 * p) && sinOf c (2 * p + 1)
/-- Do both inputs of a guard door indicate open (R578)? -/
def doorOpen (c : SafeChan) (p : Nat) : Bool :=
  if bitOf (ifWord c.params p) 6 then !sinOf c (2 * p) && sinOf c (2 * p + 1) else !sinOf c (2 * p) && !sinOf c (2 * p + 1)

/-- The permit and the restart of a demand (R580): await a manual restart, or not. -/
def restart (manual demand pulse await_ : Bool) : Bool × Bool :=
  let aw := manual && (demand || (await_ && !pulse))
  (!demand && !aw, aw)

/-- Two-hand control of pairs p and p + 1 (R579): 500 ms are 2,000 check cycles. -/
def FuncChan.twoHand (f : FuncChan) (c : SafeChan) (p : Nat) : FuncChan :=
  let a0 := handOn c p
  let a1 := handOn c (p + 1)
  if handOff c p && handOff c (p + 1) then { f with p := false, released := true, firstHand := none, lapsed := false }
  else if f.p then { f with p := a0 && a1 }
  else if f.released && !f.lapsed && a0 && a1 then
    (if (f.firstHand.map (fun t => decide (c.cycles ≤ t + 2000))).getD true then
      { f with p := true, released := false, firstHand := none } else f)
  else if f.released && (a0 || a1) && f.firstHand.isNone then { f with firstHand := some c.cycles }
  else f

/-- An input function in a check cycle, with an SRESET pulse accepted or not. -/
def FuncChan.eval (f : FuncChan) (c : SafeChan) (p : Nat) (pulse : Bool) : FuncChan :=
  let manual := bitOf (ifWord c.params p) 3
  match ifType c.params p with
  | 1 | 4 =>
    let r := restart manual (!inputsOn c p) pulse f.awaitRestart
    { f with p := r.1, awaitRestart := r.2 }
  | 2 =>
    let t : Fin 3 := if f.test = 0 then (if doorOpen c p then 1 else 0)
      else if f.test = 1 then (if inputsOn c p then 2 else 1) else 2
    let r := restart manual (!inputsOn c p) pulse f.awaitRestart
    { f with p := r.1 && t == 2, awaitRestart := r.2, test := t }
  | 3 => if p % 2 = 0 then f.twoHand c p else f
  | _ => { f with p := false }

/-- One bit of a connection's data; 0 while the connection is not valid (R581). -/
def connBit (s : Safety) (c byte bit : Nat) : Bool :=
  let x := s.conns[Fin.ofNat 64 c]
  x.state == .valid && (x.data.getD byte 0).getLsbD bit

/-- A remote permit in a check cycle (R581). -/
def remoteEval (s : Safety) (m : Mem W32) (k : Nat) (pulse : Bool) (r : Bool × Bool) : Bool × Bool :=
  let w := prm m (20 + k)
  if !bitOf w 15 then (false, true)
  else restart (bitOf w 14) (!connBit s (fld w 5 0) (fld w 10 6) (fld w 13 11)) pulse r.2

/-- A channel's functions and remote permits after a check cycle, and the permit word (R581). -/
def SafeChan.evalPermits (c : SafeChan) (s : Safety) (pulse : Bool) : SafeChan :=
  let fs := Vector.ofFn (fun p : Fin 8 => c.funcs[p].eval c p.val pulse)
  let rs := Vector.ofFn (fun k : Fin 24 => remoteEval s c.params k.val pulse c.remote[k])
  let bit (i : Nat) : Bool :=
    if i < 8 then
      (if ifType c.params i = 3 ∧ i % 2 = 1 then fs[Fin.ofNat 8 (i - 1)].p else fs[Fin.ofNat 8 i].p)
    else rs[Fin.ofNat 24 (i - 8)].1
  { c with funcs := fs, remote := rs, permits := nW (maskOf ((List.range 32).filter bit)) }

/-- The permit word with the permits of units whose degraded period has ended at 0 (R590). -/
def permitsAfter (s : Safety) (w : W32) : W32 := w &&& ~~~(nW ((s.degEnding ||| s.degEnded).toNat % 256))

/-! ## SLS monitors (R587, R588) -/

/-- The position that a channel reads for a monitor: channel A the source's own position while it is valid; channel B its
own counter. -/
def Dev.slsPos (d : Dev) (b : Bool) (k : Nat) (inp : CheckInputs) : Option Int :=
  if b then (inp.pos.getD k none)
  else
    let x := d.fb.src[Fin.ofNat 32 (fld (slsWord d.sf.chA.params k 0) 12 8)]
    if x.fbValid then some x.pos else none

/-- A channel's speed of a monitor from its position difference over WIN_MS, in 2^-8 turn/s. -/
def SlsChan.measure (x : SlsChan) (b : Bool) (m : Mem W32) (k : Nat) (pos : Option Int) : SlsChan :=
  let win := max 1 (fld (slsWord m k 2) 31 24)
  match pos with
  | none => ⟨[], none⟩
  | some p =>
    let h := (p :: x.hist).take (4 * win + 1)
    let diff := p - h.getLastD p
    ⟨h, some (if b then rdiv (diff * 256000) (max 1 (fld (slsWord m k 2) 23 0) * win) else rdiv (diff * 1000) (win * 4096))⟩

/-- Does a channel's speed exceed LIMIT? -/
def overLimit (m : Mem W32) (k : Nat) (v : Option Int) : Bool :=
  match v with
  | some v => decide (v.natAbs > fld (slsWord m k 1) 23 0)
  | none => false

/-- Do the two speeds differ by more than TOL_PCT of LIMIT? -/
def speedsDiffer (m : Mem W32) (k : Nat) (a b : Option Int) : Bool :=
  match a, b with
  | some x, some y => decide ((x - y).natAbs * 100 > fld (slsWord m k 1) 31 24 * fld (slsWord m k 1) 23 0)
  | _, _ => false

/-- A timer of a condition: since which cycle it holds. -/
def since (holds : Bool) (now : Nat) (t : Option Nat) : Option Nat :=
  if holds then (match t with | some x => some x | none => some now) else none

/-- The shared state of a monitor in channel A's check cycle: active, discrepancy timers, and the end of a trip. -/
def SlsState.step (x : SlsState) (m : Mem W32) (k : Nat) (permits : W32) (now : Nat) (va vb : Option Int) (pulse : Bool) :
    SlsState :=
  let act := fld (slsWord m k 0) 29 24
  let active := slsEn m k && (act == 63 || !permits.getLsbD (act % 32))
  let checking := x.checking && active
  let bad := checking && speedsDiffer m k va vb
  let one := checking && (va.isNone || vb.isNone)
  let both := checking && va.isNone && vb.isNone
  let within := va.isSome && vb.isSome && !overLimit m k va && !overLimit m k vb
  { x with active := active, activeSince := if active && !x.active then now else x.activeSince, checking := checking,
           tripped := x.tripped && !(pulse && within), discSince := since bad now x.discSince,
           unmeasSince := since one now x.unmeasSince, bothSince := since both now x.bothSince,
           reported := x.reported && (bad || one) }

/-- A monitor trips: FS163 on its axis; its REACT acts on its zone in the channels' check cycles (R588). -/
def Dev.slsTrip (k : Fin 8) (d : Dev) : Dev :=
  if d.sf.sls[k].tripped then d
  else (d.modSafe (fun s => { s with sls := vmod s.sls k (fun x => { x with tripped := true }) })).fire 163
    (.axes [ax (fld (slsWord d.sf.chA.params k.val 0) 7 4)])

/-- A channel measures every monitor in use, and trips those above their limit. -/
def Dev.slsCycle (b : Bool) (inp : CheckInputs) (d : Dev) : Dev :=
  (List.finRange 8).foldl (fun d k =>
    let c := d.chan b
    if !slsEn c.params k.val then d
    else
      let x := c.sls[k].measure b c.params k.val (d.slsPos b k.val inp)
      let d1 := d.modChan b (fun c => { c with sls := vset c.sls k x })
      if d1.sf.sls[k].checking && overLimit c.params k.val x.speed then d1.slsTrip k else d1) d

/-! ## Zones and OSSD outputs (R582 to R586) -/

/-- Tripped monitors of a zone with a given REACT. -/
def Dev.trips (d : Dev) (m : Mem W32) (z : Fin 2) (react : Nat) : Bool :=
  (List.finRange 8).any (fun k =>
    let w := slsWord m k.val 0
    slsEn m k.val && fld w 1 1 == z.val && fld w 2 2 == react && d.sf.sls[k].tripped)

/-- Is no target permitted: lock-out, no valid set, or commissioning open (R581)? -/
def Safety.barred (s : Safety) : Bool := s.lockout != 0 || !s.paramValid || s.commissioning

/-- Does a permit word satisfy a mask? -/
def satisfies (w mask : W32) : Bool := (w &&& mask) == mask

/-- A zone in a channel's check cycle (R582, R583, R590). -/
def Dev.zoneCycle (b : Bool) (z : Fin 2) (d : Dev) : Dev :=
  let c := d.chan b
  let mask := prm c.params (16 + z.val)
  let own := satisfies c.permits mask
  if d.sf.barred || d.trips c.params z 0 || (!own && zoneReact c.params z.val == 0) then d.zoneSto b z
  else if own && !d.trips c.params z 1 && d.sf.degEnding == 0 then
    (if c.zones[z].ss1.isSome then d
     else (d.modChan b (fun c => { c with zones := vset c.zones z ⟨true, false, none⟩ })).stoLine z b false)
  else d.startSs1 b z

/-- Is OSSD pair n permitted in a channel? -/
def Dev.ossdPermitted (d : Dev) (b : Bool) (n : Nat) : Bool :=
  let c := d.chan b
  !d.sf.barred && ossdEn c.params n && !d.sf.degEnding.getLsbD (8 + n) &&
    satisfies (permitsAfter d.sf c.permits) (prm c.params (12 + n))

/-- Is pair n switched on by both channels? -/
def Safety.ossdOn (s : Safety) (n : Nat) : Bool := s.chA.ossd.getLsbD n && s.chB.ossd.getLsbD n

/-- A channel's OSSD switches in its check cycle: off at once, with an off check due and a pulse's result discarded; on
after a pulse has ended (R585, R586). -/
def Dev.ossdCycle (b : Bool) (d : Dev) : Dev :=
  let c := d.chan b
  let pulsing (n : Nat) : Bool := d.sf.ossd[Fin.ofNat 8 (2 * n)].pulsing || d.sf.ossd[Fin.ofNat 8 (2 * n + 1)].pulsing
  let want (n : Nat) : Bool := d.ossdPermitted b n
  let wait_ (n : Nat) : Bool := want n && !c.ossd.getLsbD n && pulsing n
  let next := BitVec.ofNat 4 (maskOf ((List.range 4).filter (fun n => want n && !wait_ n)))
  let d1 := d.modChan b (fun c => { c with ossd := next })
  { d1 with sf := { d1.sf with ossd := Vector.ofFn (fun i : Fin 8 =>
      let n := i.val / 2
      let o := d1.sf.ossd[i]
      let went := d.sf.ossdOn n && !d1.sf.ossdOn n
      { o with offCheck := (o.offCheck || went) && !d1.sf.ossdOn n, discard := o.discard || (went && o.pulsing),
               onWaits := wait_ n && o.pulsing, offClk := if went then d.clk else o.offClk }) } }

/-- A failed check of an OSSD output (R585, R589). -/
def Dev.readbackFault (i : Fin 8) (d : Dev) : Dev :=
  let o := d.sf.ossd[i]
  let partner := d.sf.ossd[Fin.ofNat 8 (if i.val % 2 = 0 then i.val + 1 else i.val - 1)]
  let d1 := (d.modSafe (fun s => { s with ossd := vmod s.ossd i (fun o => { o with failed := true, marked := true }) })).fire
    168 .device
  if partner.failed then d1.functionFault (8 + i.val / 2) else d1.elementFault (8 + i.val / 2) (!o.marked)

/-- The readback of a check cycle: an output that is on and not pulsed must read on (R585). -/
def Dev.readback (read : BitVec 8) (d : Dev) : Dev :=
  let d1 := d.modSafe (fun s => { s with ossd := Vector.ofFn (fun i : Fin 8 => { s.ossd[i] with read := read.getLsbD i.val }) })
  (List.finRange 8).foldl (fun d i =>
    let o := d.sf.ossd[i]
    if d.sf.ossdOn (i.val / 2) && !o.pulsing && !o.read && !o.failed then d.readbackFault i else d) d1

/-! ## The check cycle (R569) -/

/-- The exchange with the partner (R569): 2 cycles late or missing are a cross-check delay, 8 with V24B_OK a stopped
partner. A partner that a power-down, standby, reset or the loss of V24B has stopped is not judged until it starts again
(R571). -/
def Dev.exchangeCycle (b ok : Bool) (d : Dev) : Dev :=
  let c := d.chan b
  let good := ok && (d.chan (!b)).started
  let late := if good || !(d.chan (!b)).started then 0 else c.late + 1
  let d1 := (d.modChan b (fun c => { c with cycles := c.cycles + 1, late := late, run := c.run || good })).modSafe
    (fun s => if b then s else { s with xchkLate := c.run && decide (late ≥ 2) })
  if !c.run then d1
  else if late = 2 then (d1.fire 169 .device).elementFault unitDevice false
  else if late = 8 ∧ d.pw.v24bOk then (d1.fire 171 .device).functionFault unitDevice
  else d1

/-- Disagreement of the channels for more than two consecutive cycles (R569, R589). -/
def Dev.compareCycle (b : Bool) (d : Dev) : Dev :=
  let a := d.sf.chA
  let c := d.sf.chB
  let differ := a.run && c.run && (a.permits != c.permits || a.ossd != c.ossd ||
    a.zones[0].permitted != c.zones[0].permitted || a.zones[1].permitted != c.zones[1].permitted)
  let n := if differ then (d.chan b).disagree + 1 else 0
  let d1 := d.modChan b (fun c => { c with disagree := n })
  if n = 3 then (d1.fire 170 .device).functionFault unitDevice else d1

/-- FS160 for every permit that fell, as channel A sees it. -/
def Dev.permitFalls (old new : W32) (d : Dev) : Dev :=
  ((List.range 32).filter (fun i => old.getLsbD i && !new.getLsbD i)).foldl (fun d _ => d.fire 160 .device) d

/-- The monitors' shared state and the connections' ages move with channel A's cycles. -/
def Dev.sharedCycle (pulse : Bool) (d : Dev) : Dev :=
  let a := d.sf.chA
  d.modSafe (fun s =>
    { s with sls := Vector.ofFn (fun k : Fin 8 =>
               s.sls[k].step a.params k.val a.permits a.cycles a.sls[k].speed s.chB.sls[k].speed pulse),
             conns := s.conns.map (fun c => if c.state == .off then c else { c with age := c.age + 1 }) })

/-- A channel whose partner does not run, or that runs without V24B, holds every OSSD off and its STO lines asserted
(R571). -/
def Dev.holdSafe (b : Bool) (d : Dev) : Dev :=
  let d1 := d.modChan b (fun c => { c with ossd := 0 })
  let d2 := { d1 with sf := { d1.sf with ossd := Vector.ofFn (fun i : Fin 8 =>
      let o := d1.sf.ossd[i]
      let went := d.sf.ossdOn (i.val / 2)
      { o with offCheck := o.offCheck || went, discard := o.discard || (went && o.pulsing),
               offClk := if went then d.clk else o.offClk }) } }
  (d2.zoneSto b 0).zoneSto b 1

/-- One check cycle of a channel (R569). -/
def doSafetyCheckCycle (b : Bool) (inp : CheckInputs) (d : Dev) : Dev :=
  if !(d.chan b).started then d
  else
    let d1 := (d.exchangeCycle b inp.exchange).readback inp.read
    let pulse := if b then d1.sf.resetB else d1.sf.resetA
    let old := (d1.chan b).permits
    let d2 := d1.modChan b (fun c => c.evalPermits d1.sf pulse)
    let d3 := (d2.slsCycle b inp).modSafe (fun s => if b then { s with resetB := false } else { s with resetA := false })
    let d4 := if b then d3 else (d3.sharedCycle pulse).permitFalls (permitsAfter d1.sf old) (permitsAfter d3.sf d3.sf.chA.permits)
    let d5 := if d4.sf.chA.run && d4.sf.chB.run && d4.pw.v24bOk then
        (((d4.ossdCycle b).zoneCycle b 0).zoneCycle b 1).compareCycle b
      else d4.holdSafe b
    if b then d5 else d5.showSafety

/-! ## Inputs and pulses (R572 to R576) -/

/-- The disagreement timer of a pair after a change of its inputs. -/
def Dev.pairTimer (p : Fin 8) (d : Dev) : Dev :=
  let dis := pairDisagrees d.sf.chA p.val || pairDisagrees d.sf.chB p.val
  d.modSafe (fun s => { s with pairs := vmod s.pairs p (fun x =>
    { x with discSince := since dis s.chA.cycles x.discSince, reported := x.reported && dis }) })

/-- The TP source that feeds an input: 7 none. -/
def tpOf (m : Mem W32) (i : Nat) : Nat :=
  if ifType m (i / 2) = 0 then 7 else if i % 2 = 0 then fld (ifWord m (i / 2)) 10 8 else fld (ifWord m (i / 2)) 14 12

/-- Does the filter of an input hold its level: from the start of its source's off pulse until 100 µs after its end
(R574)? -/
def Dev.filterHeld (d : Dev) (i : Nat) : Bool :=
  let t := tpOf d.sf.chB.params i
  decide (t < 4) && (d.sf.tpOff.getLsbD t || !d.past d.sf.tpEnd[Fin.ofNat 4 t] 51200)

/-- A level held for the filter time is accepted by a channel, unless the filter holds its level (R572, R574). -/
def doSafetyInputAccept (b : Bool) (n : Fin 16) (level : Bool) (d : Dev) : Dev :=
  if !(d.chan b).started || d.filterHeld n.val then d
  else
    (d.modChan b (fun c => { c with sin := if level then c.sin ||| BitVec.ofNat 16 (2 ^ n.val)
                                           else c.sin &&& ~~~(BitVec.ofNat 16 (2 ^ n.val)) })).pairTimer (Fin.ofNat 8 (n.val / 2))

/-- A TP source's off pulse starts (R573). -/
def doTestPulseStart (n : Fin 4) (d : Dev) : Dev :=
  if d.sf.chB.started then d.modSafe (fun s => { s with tpOff := s.tpOff ||| BitVec.ofNat 4 (2 ^ n.val) }) else d

/-- A test pulse was not seen on an input: TP_MISS and FS167 (R574, R589). -/
def Dev.tpMiss (i : Nat) (d : Dev) : Dev :=
  let p : Fin 8 := Fin.ofNat 8 (i / 2)
  let x := d.sf.pairs[p]
  let d1 := (d.modSafe (fun s => { s with pairs := vmod s.pairs p (fun x =>
    { x with miss := x.miss ||| BitVec.ofNat 2 (2 ^ (i % 2)), missNow := x.missNow ||| BitVec.ofNat 2 (2 ^ (i % 2)) }) })).fire 167 .device
  if x.miss.getLsbD (1 - i % 2) then d1.functionFault p.val else d1.elementFault p.val (!x.miss.getLsbD (i % 2))

/-- A TP source's off pulse ends: every input it feeds must have been seen off (R574). -/
def doTestPulseEnd (n : Fin 4) (seenOff : BitVec 16) (d : Dev) : Dev :=
  if !d.sf.tpOff.getLsbD n.val then d
  else
    let fed := (List.range 16).filter (fun i => tpOf d.sf.chB.params i == n.val)
    (fed.filter (fun i => !seenOff.getLsbD i)).foldl (fun d i => d.tpMiss i)
      (d.modSafe (fun s => { s with tpOff := s.tpOff &&& ~~~(BitVec.ofNat 4 (2 ^ n.val)), tpEnd := vset s.tpEnd n d.clk,
                                    pairs := Vector.ofFn (fun p : Fin 8 => { s.pairs[p] with
                                      missNow := s.pairs[p].missNow &&& ~~~(BitVec.ofNat 2 (maskOf
                                        ((fed.filter (fun i => i / 2 == p.val)).map (· % 2)))) }) }))

/-- A pair has disagreed for longer than DISC_MS (R575, R589). -/
def doInputDiscrepancy (p : Fin 8) (d : Dev) : Dev :=
  let x := d.sf.pairs[p]
  match x.discSince with
  | some t =>
    if x.reported || d.sf.chA.cycles ≤ t + 4 * ifDisc d.sf.chA.params p.val then d
    else
      ((d.modSafe (fun s => { s with pairs := vmod s.pairs p (fun x => { x with reported := true, discFault := true }) })).fire
        166 .device).elementFault p.val (!x.discFault)
  | none => d

/-- SRESET held on for more than 3 s (R576). -/
def doSresetStuck (d : Dev) : Dev :=
  if d.sf.sresetStuck then d else (d.modSafe (fun s => { s with sresetStuck := true })).fire 176 .device

/-- The armed acknowledge lapses after 30 s (R576, R592). -/
def doSresetArmExpiry (d : Dev) : Dev :=
  if d.sf.armed && d.past d.sf.armedClk (30000 * clksPerMs) then d.modSafe (fun s => { s with armed := false }) else d

/-- Two-hand synchronism lapses in both channels: FS177 (R579). -/
def doTwoHandLapse (p : Fin 8) (d : Dev) : Dev :=
  let due (c : SafeChan) : Bool :=
    match c.funcs[p].firstHand with
    | some t => decide (c.cycles > t + 2000) && !c.funcs[p].lapsed && ifType c.params p.val == 3
    | none => false
  let lapse (c : SafeChan) : SafeChan := { c with funcs := vmod c.funcs p (fun f => { f with lapsed := true }) }
  if due d.sf.chA || due d.sf.chB then
    (d.modSafe (fun s => { s with chA := lapse s.chA, chB := lapse s.chB })).fire 177 .device
  else d

/-- A channel's SS1 time on a zone ends: its STO line (R582). -/
def doSs1Expiry (b : Bool) (z : Fin 2) (d : Dev) : Dev :=
  match (d.chan b).zones[z].ss1 with
  | some t => if (d.chan b).cycles ≥ t then d.zoneSto b z else d
  | none => d

/-- An output that is on is pulsed off (R585). -/
def doOssdTestPulse (i : Fin 8) (d : Dev) : Dev :=
  if d.sf.ossdOn (i.val / 2) && !d.sf.ossd[i].pulsing then
    d.modSafe (fun s => { s with ossd := vmod s.ossd i (fun o => { o with pulsing := true, discard := false }) })
  else d

/-- A pulse ends: the output must have read off, unless its result is discarded (R585, R586). -/
def doOssdPulseEnd (i : Fin 8) (readOff : Bool) (d : Dev) : Dev :=
  let o := d.sf.ossd[i]
  if !o.pulsing then d
  else
    let d1 := d.modSafe (fun s => { s with ossd := vmod s.ossd i (fun o =>
      { o with pulsing := false, discard := false, onWaits := false, failed := o.failed && (o.discard || !readOff) }) })
    if o.discard || readOff then d1 else d1.readbackFault i

/-- 2.5 ms after a switch-off the output must read off (R585). -/
def doOssdOffCheck (i : Fin 8) (readOff : Bool) (d : Dev) : Dev :=
  if !d.sf.ossd[i].offCheck || !d.past d.sf.ossd[i].offClk (5 * clksPerMs / 2) then d
  else
    let d1 := d.modSafe (fun s => { s with ossd := vmod s.ossd i (fun o =>
      { o with offCheck := false, failed := o.failed && !readOff }) })
    if readOff then d1 else d1.readbackFault i

/-- A monitor's checks start ACT_DELAY_MS after it became active (R588). -/
def doSlsActDelayEnd (k : Fin 8) (d : Dev) : Dev :=
  let x := d.sf.sls[k]
  if x.active && d.sf.chA.cycles ≥ x.activeSince + 4 * fld (slsWord d.sf.chA.params k.val 3) 31 16 then
    let d1 := d.modSafe (fun s => { s with sls := vmod s.sls k (fun x => { x with checking := true }) })
    if overLimit d.sf.chA.params k.val d.sf.chA.sls[k].speed || overLimit d.sf.chB.params k.val d.sf.chB.sls[k].speed then
      d1.slsTrip k
    else d1
  else d

/-- Has a timer run for longer than DISC_MS of a monitor? -/
def discOver (m : Mem W32) (k now : Nat) : Option Nat → Bool
  | some t => decide (now > t + 4 * fld (slsWord m k 3) 11 0)
  | none => false

/-- Speeds that differ, or a channel unmeasured, for longer than DISC_MS: FS178; both unmeasured are a function fault
(R588, R589). -/
def doSlsDiscrepancy (k : Fin 8) (d : Dev) : Dev :=
  let x := d.sf.sls[k]
  let m := d.sf.chA.params
  let now := d.sf.chA.cycles
  let both := discOver m k.val now x.bothSince
  let due := discOver m k.val now x.discSince || discOver m k.val now x.unmeasSince
  if (both && !d.sf.lockout.getLsbD (12 + k.val)) || (due && !x.reported) then
    let d1 := (d.modSafe (fun s => { s with sls := vmod s.sls k (fun x => { x with reported := true, discFault := true }) })).fire
      178 .device
    if both then d1.functionFault (12 + k.val) else d1.elementFault (12 + k.val) (!x.discFault)
  else d

/-- A unit's degraded period ends (R590): its permits fall, SS1 is requested on both zones, a degraded OSSD pair switches
off, and lock-out follows when both zones are in STO. -/
def doDegradedEnd (u : Fin 22) (d : Dev) : Dev :=
  if !d.sf.degraded.getLsbD u.val || d.sf.degEnding.getLsbD u.val || d.sf.chA.cycles < Mem.read 0 d.sf.degEnd u.val then d
  else
    let d0 := d.modSafe (fun s => { s with degEnding := s.degEnding ||| unitBit u.val })
    let d1 := d0.permitFalls (permitsAfter d.sf d.sf.chA.permits) (permitsAfter d0.sf d.sf.chA.permits)
    let d2 := (d1.ossdCycle false).ossdCycle true
    ((((d2.startSs1 false 0).startSs1 true 0).startSs1 false 1).startSs1 true 1).endingLockOut

/-- STO_FB of a die is missing 1 ms after STO: FS172, a function fault, and the VSAFE feed opens (R589, R591). -/
def doStoFbTimeout (g : Fin 2) (d : Dev) : Dev :=
  if d.stoActive g && !d.gates[g].fb && d.past d.gates[g].stoClk clksPerMs then
    let d1 := (d.fire 172 .device).functionFault unitDevice
    let d2 := d1.modSafe (fun s => { s with vsafeOpen := true })
    (d2.stoEdge 0 (d1.stoActive 0)).stoEdge 1 (d1.stoActive 1)
  else d

/-- A lockstep, self-test or program check failure of a channel (R589). -/
def doSafetyChannelFault (b : Bool) (d : Dev) : Dev :=
  if (d.chan b).started then (d.fire 171 .device).functionFault unitDevice else d

/-- VSAFE comes up, 2 ms after V24B became OK (01 Table 1.5): the STO switches of a die that no line holds close. -/
def Dev.vsafeOn (d : Dev) : Dev :=
  let d1 := { d with pw := { d.pw with vsafeUp := true } }
  (d1.stoEdge 0 (d.stoActive 0)).stoEdge 1 (d.stoActive 1)

/-- CHANNEL_B_START: VSAFE is up, channel B starts, and both channels as at power-up (R571). While the device is held in
reset or has not released it, they start at the next internal reset release. -/
def doChannelBStart (d : Dev) : Dev :=
  if !d.pw.v24bOk then d
  else
    let d1 := d.vsafeOn
    if d.sf.chB.started || !(d.pw.phase == .booting || d.pw.phase == .running) then d1
    else ((d1.startChannel false).startChannel true).startSet

/-! ## Registers of the safety block that need the channels' functions (R608) -/

/-- FUNC_STATE of input function p, in channel A. -/
def Safety.funcState (s : Safety) (p : Fin 8) : Nat :=
  let c := s.chA
  let f := c.funcs[if ifType c.params p.val = 3 then Fin.ofNat 8 (p.val / 2 * 2) else p]
  let on := c.permits.getLsbD p.val
  if ifType c.params p.val = 0 then 0
  else if s.lockout.getLsbD p.val then 8
  else if s.degraded.getLsbD p.val then (if on then 6 else 7)
  else if on then 1
  else if ifType c.params p.val = 2 ∧ f.test ≠ 2 then 4
  else if f.lapsed then 5
  else if ifType c.params p.val ≠ 3 ∧ inputsOn c p.val ∧ f.awaitRestart then 3
  else 2

end Sys2Proof.Machine
end

