-- ==== Sys2Proof/Machine/Regs.lean ====
section
/-! DEFINITION. Registers as they read: the identity block, the stall pages, ownership, the fault and safety block, the
status windows, ring, time and CAN, DMA and capture (the register tables of the chapters). Offsets are bytes. -/
namespace Sys2Proof.Machine
open Sys2Proof

/-- A register page: the index and the offset within it of an offset, if it lies in n pages of the given size. -/
def page (base size n off : Nat) : Option (Nat × Nat) :=
  if base ≤ off ∧ off < base + size * n then some ((off - base) / size, (off - base) % size) else none

/-! ## Feedback and field (07 R258, 13 R510) -/

/-- FB_STATUS of a source. -/
def Dev.fbStatus (d : Dev) (i : Fin 32) : W32 :=
  let x := d.fb.src[i]
  mkw [(fld x.conf[0] 11 8, 28, 4), (x.bridgeRun.toNat, 21, 3), (b2n x.alarm, 20, 1), (b2n (x.sync == .synced), 19, 1),
    (b2n x.syncLost, 18, 1), (b2n x.trackLost, 17, 1), (b2n x.ampErr, 16, 1), (b2n x.fbValid, 15, 1), (b2n x.speedValid, 14, 1),
    (b2n x.dirNeg, 13, 1), (b2n x.inferred, 12, 1), (b2n x.qerr, 11, 1), (b2n x.indexSeen, 10, 1), (b2n x.indexDev, 9, 1),
    (b2n x.hallErr, 8, 1), (b2n x.serErr, 7, 1), (b2n x.encErr, 6, 1), (b2n x.encWarn, 5, 1), (b2n x.excErr, 4, 1)]
/-- FB_SPEED of a source, in 2^-12 turn/s. -/
def Dev.fbSpeed (d : Dev) (i : Fin 32) : W32 := iW (satS 32 (rdivUp d.fb.src[i].speed (2 ^ 18)))

/-- Word j of the eight words of a feedback source. A position that has left the 60 bits of 00 R11 is neither wrapped nor
stopped in State, and its words are the low 64 bits of it (DESIGN CHOICE, log entry 114). -/
def Dev.fbWord (d : Dev) (i : Fin 32) (j : Nat) : W32 :=
  let x := d.fb.src[i]
  match j with
  | 0 => d.fbStatus i
  | 1 => mkw [(x.qerrCnt.toNat, 24, 8), (x.qinfCnt.toNat, 16, 8), (x.serBadCnt.toNat, 8, 8), (x.indexDevCnt.toNat, 0, 8)]
  | 2 => loW x.pos
  | 3 => hiW x.pos
  | 4 => d.fbSpeed i
  | 5 => loW x.idxPos
  | 6 => hiW x.idxPos
  | _ => mkw [(patOf 16 x.syncCorr, 16, 16), (x.amp.toNat, 0, 16)]

/-- Word j of a probe's page. -/
def Dev.probeWord (d : Dev) (i : Fin 16) (j : Nat) : W32 :=
  let x := d.fb.probes[i]
  let n := x.newest
  match j with
  | 0 => mkw [(x.src.toNat, 8, 6), (b2n x.ovf, 7, 1), (b2n ((n.map (·.posValid)).getD false), 6, 1), (x.edge.toNat, 4, 2),
      (b2n ((n.map (·.rising)).getD false), 3, 1), (x.entries.length, 0, 3)]
  | 1 => (n.map (·.stamp.ns)).getD 0
  | 2 => loW ((n.map (·.pos)).getD 0)
  | _ => hiW ((n.map (·.pos)).getD 0)

/-- The axis whose plot holds emulation output n, or SD pair n. -/
def Dev.emuAxis (d : Dev) (n : Nat) : Option AxisNo := allAxes.find? (fun a => d.assigned a && bitOf (d.plotW a 4) (8 + n))
def Dev.sdAxis (d : Dev) (n : Nat) : Option AxisNo := allAxes.find? (fun a => d.assigned a && fld (d.plotW a 4) 3 0 == n)

/-- LAG, HELD, EN and AXIS of an output (07 R258, 09 R348). -/
def lagWord (lag : BitVec 16) (en : Bool) (a : Option AxisNo) : W32 :=
  mkw [(lag.toNat, 16, 16), (b2n a.isSome, 5, 1), (b2n en, 4, 1), ((a.map Fin.val).getD 0, 0, 4)]

/-- Is a field output in mismatch (13 R494)? -/
def Dev.mismatch (d : Dev) (n : Fin 16) : Bool :=
  let o := d.fio.outs[n]
  o.read != o.cmd && decide (d.clk ≥ o.since + o.settleUs.toNat * 512) && d.pw.v24aOk

/-- OUT_STATE (13 R510). -/
def Dev.outState (d : Dev) : W32 :=
  nW (maskOf ((List.finRange 16).filterMap (fun i => if d.fio.outs[i].cmd then some i.val else none)) +
      maskOf ((List.finRange 16).filterMap (fun i => if d.fio.outs[i].read then some i.val else none)) * 2 ^ 16)
/-- IN_STATE (13 R510). -/
def Dev.inState (d : Dev) : W32 :=
  nW (maskOf ((List.finRange 32).filterMap (fun i => if d.fio.ins[i].level then some i.val else none)))

/-- SPM_STATUS of a port. -/
def SpmPort.status (p : SpmPort) : W32 :=
  mkw [(p.queue.length, 16, 5), (b2n p.holdLapse, 7, 1), (b2n p.held.isSome, 6, 1), ((p.held.map Fin.val).getD 0, 4, 2),
    (maskOf ((List.finRange 4).filterMap (fun i => if p.selects[i].isSome then some i.val else none)), 0, 4)]

/-- The field and SPI registers from 0x910. -/
def Dev.fioWord (d : Dev) (off : Nat) : W32 :=
  match off with
  | 0x910 => mkw [(b2n (d.fio.outs.toList.any (·.held)), 3, 1), (b2n d.fio.bankOt, 2, 1), (b2n ((List.finRange 16).any d.mismatch), 1, 1),
      (b2n d.fio.fioFlt, 0, 1)]
  | 0x914 => d.inState
  | 0x918 => d.fio.inRaw
  | 0x91C => d.fio.inRise
  | 0x920 => d.fio.inFall
  | 0x924 => d.outState
  | 0x940 => d.fio.spm[0].status
  | 0x944 => mkw [(b2n d.fio.map.failed, 18, 1), (b2n d.fio.map.op.isSome, 17, 1), (fld d.fio.map.conf[0] 4 4, 16, 1),
      (fld d.fio.map.conf[0] 12 8, 8, 5), (fld d.fio.map.conf[0] 2 1, 1, 2), (b2n d.fio.map.en, 0, 1)]
  | 0x950 => d.fio.spm[1].status
  | _ => 0

/-! ## Legs and gates (08 R293) -/

/-- LEG_MEAS of a leg; in external mode BST_MV reads 0 (R289). -/
def Dev.legMeas (d : Dev) (k : LegNo) : W32 :=
  let l := d.legs[k]
  mkw [(l.dtHi.toNat, 24, 8), (l.dtLo.toNat, 16, 8), (if d.legExt k then 0 else l.bstMv.toNat, 0, 16)]

/-- LEG_STATUS of a leg. -/
def Dev.legStatus (d : Dev) (k : LegNo) : W32 :=
  let l := d.legs[k]
  let a := d.legAxis k
  let st := match a with
    | none => 0
    | some a => if d.pwm[a].charging then 2 else if d.pwm[a].bridgeOn && !l.masked && !l.tripped then 3 else 1
  mkw [(l.refreshes.toNat, 24, 8), (b2n (d.legExt k), 14, 1), (b2n d.gates[dieOf k].sto, 13, 1), (b2n l.tripped, 12, 1),
    (b2n l.multi, 11, 1), (b2n l.gateErr, 10, 1), (b2n l.extTrip, 9, 1), (b2n l.oc, 8, 1), (b2n l.ilTimeout, 7, 1),
    (b2n l.bstUv, 6, 1), (b2n l.bstWarn, 5, 1), (b2n l.hshort, 4, 1), (b2n l.desat, 3, 1), (st, 0, 2)]

/-- GATE_STATUS. -/
def Dev.gateStatus (d : Dev) : W32 :=
  mkw [(b2n d.gates[1].fb, 3, 1), (b2n d.gates[0].fb, 2, 1), (b2n d.gates[1].sto, 1, 1), (b2n d.gates[0].sto, 0, 1)]

/-! ## Power (01 R42) and tick (02 R65) -/

/-- RESET_CAUSE. -/
def Power.causeWord (p : Power) : W32 :=
  let k := match p.resetCause with
    | .powerOn => 0
    | .porst => 1
    | .devReset => 2
    | .wake => 3
    | .thermal => 4
    | .rail => 5
  mkw [(1, k, 1), (b2n p.resetKaLost, 6, 1)]

/-- The power sub-block. -/
def Dev.powerWord (d : Dev) (off : Nat) : W32 :=
  let p := d.pw
  match off with
  | 0x400 => mkw [(b2n p.bypassClosed, 11, 1), (b2n p.kaXtal, 10, 1), (b2n p.kaValid, 9, 1), (b2n p.railsOk, 8, 1),
      (b2n p.vgdbOk, 7, 1), (b2n p.vgdaOk, 6, 1), (b2n p.vbatOk, 5, 1), (b2n p.vddrOk, 4, 1), (b2n p.v24bOk, 3, 1),
      (b2n p.v24aOk, 2, 1), (b2n p.vmainWarn, 1, 1), (b2n p.vmainOk, 0, 1)]
  | 0x404 => p.causeWord
  | 0x408 => p.wakeCause.setWidth 32
  | 0x410 => p.kaTime.setWidth 32
  | 0x414 => (p.kaTime >>> 32).setWidth 32
  | 0x418 => p.kaDown.setWidth 32
  | 0x41C => (p.kaDown >>> 32).setWidth 32
  | _ => if 0x440 ≤ off ∧ off < 0x480 then p.kaRet[Fin.ofNat 16 ((off - 0x440) / 4)] else 0

/-- What the device answers a read with. -/
def Dev.answer (ws : List W32) (poisoned : Bool) (d : Dev) : Dev :=
  { d with hp := { d.hp with readData := ws, readPoisoned := poisoned } }

/-- The properties of the endpoint that Table 3.3 of spec 03 gives and that are no register of the device's own. -/
structure EndpointProps where
  lanes : Nat
  /-- Link rate in tenths of GT/s. -/
  rate : Nat
  /-- BAR0 in MiB, BAR2 in GB. -/
  bar0MiB : Nat
  bar2GB : Nat
  maxPayload : Nat
  maxReadRequest : Nat
  vectors : Nat
  msixTable : Nat
  msixPba : Nat
  aspmL0s : Bool
  aspmL1 : Bool
  advancedErrors : Bool
  deriving DecidableEq, Repr

/-- Table 3.3. -/
def endpointProps : EndpointProps := ⟨4, 80, 64, 8, 512, 4096, 16, 0x800, 0x900, false, false, true⟩

/-- A word of the endpoint's configuration space (03 R74): what Table 3.3 gives, at the places of the PCI Express Base
Specification; the rest, the capabilities' places among it, is free (log entry 9). -/
def Pcie.configWord (p : Pcie) (reg : Nat) : W32 :=
  let free := BitVec.ofInt 32 (Config.freeOf 27 [(reg : Int)])
  match reg with
  | 0 => 0x16481F3C
  | 1 => (free &&& 0xFFFFFFF9) ||| mkw [(b2n p.memSpace, 1, 1), (b2n p.busMaster, 2, 1)]
  | 2 => (free &&& 0xFF) ||| 0x08800000
  | 4 => free &&& 0xFC000000
  | 5 => 0
  | 6 => 0xC
  | 7 => free &&& 0xFFFFFFFE
  | 8 | 9 | 12 => 0
  | 15 => free &&& 0xFF
  | _ => free

/-- 0.9 × TICK_CLKS. -/
def Dev.budgetLimit (d : Dev) : Nat := d.tickClks * 9 / 10

/-- The tick sub-block. -/
def Dev.tickWord (d : Dev) (off : Nat) : W32 :=
  let t := d.tk
  let ft := max 1 t.conf.frameTicks.toNat
  match off with
  | 0x500 => mkw [(t.conf.cycleFrames.toNat, 24, 7), (t.conf.frameTicks.toNat, 16, 5), (t.conf.tickClks.toNat, 0, 15)]
  | 0x504 => mkw [(t.phaseErr.toNat, 16, 16), (b2n t.pendingSet.isSome, 4, 1), (b2n t.tickSkip, 3, 1), (b2n t.slewing, 2, 1),
      (match t.sync with
        | .free => 0
        | .acquire => 1
        | .locked => 2
        | .holdover => 3, 0, 2)]
  | 0x508 => t.num.setWidth 32
  | 0x50C => (t.num >>> 32).setWidth 32
  | 0x510 => mkw [(t.num.toNat / ft % max 1 t.conf.cycleFrames.toNat, 16, 6), (t.num.toNat % ft, 0, 4)]
  | 0x518 => mkw [(allAxes.foldl (fun m a => if d.assigned a then max m t.admitted[a].toNat else m) 0, 16, 16), (d.budgetLimit, 0, 16)]
  | _ =>
    if 0x520 ≤ off ∧ off < 0x560 then
      let a := ax ((off - 0x520) / 4)
      mkw [(b2n (d.assigned a), 31, 1), (t.admitted[a].toNat, 0, 16)]
    else if 0x560 ≤ off ∧ off < 0x5A0 then
      let p := t.peaks[ax ((off - 0x560) / 4)]
      mkw [(p.overruns.toNat, 24, 8), (b2n p.peakAbove, 16, 1), (p.peak.toNat, 0, 16)]
    else 0

/-! ## Lanes and programs (05 R168) -/

/-- LANE_STATE of a lane. -/
def Lane.state (l : Lane) : W32 :=
  mkw [(l.errors.toNat, 24, 8), (b2n l.pmOk, 16, 1), (if l.role = .inService then l.axis.val else 0, 8, 4),
    (match l.role with
      | .inService => 0
      | .spare => 1
      | .fallow => 2
      | .out => 3, 0, 2)]

/-- Blocks of the user area in use: loaded programs, and deleted ones until their frame boundary. -/
def ProgStore.used (p : ProgStore) : List (Nat × Nat) :=
  p.progs.filterMap (fun e => e.2.map (fun x => (x.start, x.length))) ++ p.freed

/-- Length of the free block that begins at an instruction of the 8,192 of the user area. -/
def freeRun (used : List (Nat × Nat)) (at_ : Nat) : Nat :=
  if used.any (fun b => b.1 ≤ at_ && at_ < b.1 + b.2) then 0
  else (used.filterMap (fun b => if b.1 > at_ then some b.1 else none)).foldl min 8192 - at_

/-- Starts of free blocks: 0 and the ends of used ones. -/
def freeBlocks (used : List (Nat × Nat)) : List (Nat × Nat) :=
  ((0 :: used.map (fun b => b.1 + b.2)).filter (· < 8192)).map (fun s => (s, freeRun used s))

/-- USER_PM, and the loaded programs. -/
def ProgStore.userPm (p : ProgStore) : W32 :=
  mkw [((freeBlocks p.used).foldl (fun m b => max m b.2) 0, 16, 14), (8192 - p.used.foldl (fun n b => n + b.2) 0, 0, 14)]
def ProgStore.map_ (p : ProgStore) : Nat := maskOf (p.progs.filterMap (fun e => e.2.map (fun _ => e.1 - 1)))

/-! ## The identity block (03 R81) -/

/-- FW_VERSION of the running image, and FW_STATE. -/
def Dev.fwVersion (d : Dev) : W32 := d.sv.images[d.sv.running].version.setWidth 32
def Dev.fwState (d : Dev) : W32 := mkw [(b2n d.sv.images[d.sv.running + 1].valid, 1, 1), (d.sv.running.val, 0, 1)]

/-- Words below 0x100. -/
def Dev.idWord (d : Dev) (off : Nat) : W32 :=
  match off with
  | 0x00 => mkw [(0x1648, 16, 16), (Config.grade.toNat, 8, 4), (Config.stepLetter.toNat, 4, 4), (Config.stepDigit.toNat, 0, 4)]
  | 0x04 => d.fwVersion
  | 0x08 => d.fwState
  | 0x0C => mkw [(b2n (d.pw.standbyReq || d.pw.devResetReq), 2, 1), (b2n d.ft.safeState, 1, 1), (b2n d.hp.devReady, 0, 1)]
  | 0x10 => Config.serial.setWidth 32
  | 0x14 => (Config.serial >>> 32).setWidth 32
  | 0x20 => d.hp.scratch[0]
  | 0x24 => d.hp.scratch[1]
  | 0x28 => d.hp.scratch[2]
  | 0x2C => d.hp.scratch[3]
  | _ => 0

/-- PATH_STATUS, PATH_MEMBERS, PATH_QUEUE and PATH_FEED of a group (09 R348). -/
def PathGroup.word (g : PathGroup) (j : Nat) : W32 :=
  match j with
  | 0 => mkw [(g.segId.toNat, 16, 16), (b2n g.hlStop, 7, 1), (b2n g.starved, 6, 1),
      (match g.state with
        | .idle => 0
        | .running => 1
        | .holding => 2
        | .stopping => 3, 0, 3)]
  | 1 => g.members.setWidth 32
  | 2 => mkw [(g.lookahead.toNat, 16, 16), (g.queue.length, 0, 16)]
  | _ => iW (satS 32 (rdivUp g.v (2 ^ 32)))

/-- A word of the MSI-X table or of the PBA (03 R74, R81): word 3 of a vector holds its mask bit. -/
def Pcie.word (p : Pcie) (off : Nat) : W32 :=
  if off < 0x900 then
    let i := (off - 0x800) / 4
    if i % 4 = 3 then mkw [(b2n (p.msixMask.getLsbD (i / 4)), 0, 1)] else Mem.read 0 p.msixTable i
  else if off = 0x900 then p.msixPending.setWidth 32 else 0

/-- A word of the identity block. -/
def Dev.identReg (d : Dev) (off : Nat) : W32 :=
  if off < 0x100 then d.idWord off
  else if off < 0x1C0 then d.legMeas (lg ((off - 0x100) / 4))
  else if off < 0x200 then 0
  else if off < 0x280 then d.mu.groups[Fin.ofNat 8 ((off - 0x200) / 16)].word (off % 16 / 4)
  else if off < 0x300 then 0
  else if off < 0x320 then
    let n := (off - 0x300) / 4
    lagWord d.mu.sd[Fin.ofNat 8 n].lag d.mu.sd[Fin.ofNat 8 n].en (d.sdAxis n)
  else if off < 0x400 then 0
  else if off < 0x500 then d.powerWord off
  else if off < 0x600 then d.tickWord off
  else if off < 0x648 then d.lanes[Fin.ofNat 18 ((off - 0x600) / 4)].state
  else if off = 0x660 then d.progs.userPm
  else if off = 0x668 then nW d.progs.map_
  else if off = 0x66C then nW (d.progs.map_ / 2 ^ 32)
  else if off < 0x700 then 0
  else if off < 0x7C0 then d.legStatus (lg ((off - 0x700) / 4))
  else if off = 0x7C0 then d.gateStatus
  else if off < 0x800 then 0
  else if off < 0x904 then d.hp.pcie.word off
  else if off < 0xA00 then d.fioWord off
  else if off < 0xE00 then d.fbWord (Fin.ofNat 32 ((off - 0xA00) / 32)) (off % 32 / 4)
  else if off < 0xF00 then d.probeWord (Fin.ofNat 16 ((off - 0xE00) / 16)) (off % 16 / 4)
  else if off < 0xF10 then
    let n := (off - 0xF00) / 4
    lagWord d.fb.emu[Fin.ofNat 4 n].lag d.fb.emu[Fin.ofNat 4 n].en (d.emuAxis n)
  else 0

/-! ## Stall pages and ownership (03 R101, R102) -/

/-- A word of a stall's page. -/
def Dev.stallWord (d : Dev) (st : Stall) (off : Nat) : W32 :=
  let s := d.hp.stalls[st]
  let mine := d.hp.inFlight.filter (fun c => c.stall == st)
  match off with
  | 0x00 => mkw [(mine.length, 16, 6), (s.held.length, 8, 8), (b2n !s.rspWaiting.isEmpty, 5, 1), (b2n s.dbLost, 4, 1),
      (b2n s.accessErr, 3, 1), (b2n s.overrun, 2, 1), (b2n (d.isOwner st), 1, 1), (b2n (d.present st), 0, 1)]
  | 0x04 => s.cmdRdPtr.setWidth 32
  | 0x0C => s.rspWrPtr.setWidth 32
  | 0x10 => s.rspRdPtr.setWidth 32
  | 0x14 => s.irqStatus.setWidth 32
  | 0x18 => s.irqEnable.setWidth 32
  | 0x1C => s.mbxTimeout.setWidth 32
  | 0x20 => s.dramWinBase.setWidth 32
  | 0x24 => mkw [(b2n s.mbxReset, 0, 1)]
  | _ =>
    if 0x40 ≤ off ∧ off < 0x60 then
      nW (maskOf (mine.filterMap (fun c => if c.tag.toNat / 32 = (off - 0x40) / 4 then some (c.tag.toNat % 32) else none)))
    else 0

/-- Ticks of the present heartbeat interval. -/
def Dev.hbTicks (d : Dev) : Nat := d.msTicks d.hp.own.intervalMs.toNat

/-- A word of the ownership registers, from 0x1800 (03 R102). REMAIN_MS of a time that is no whole number of ms is rounded up
(DESIGN CHOICE, log entry 113). -/
def Dev.ownWord (d : Dev) (off : Nat) : W32 :=
  let o := d.hp.own
  match off with
  | 0x1800 => mkw [(o.epoch.toNat, 16, 16), (b2n o.valid, 7, 1), (o.stall.val, 0, 3)]
  | 0x1804 => mkw [(cdiv ((o.since + d.hbTicks - d.age) * d.tickClks) clksPerMs * b2n o.valid, 16, 14), (o.intervalMs.toNat, 0, 14)]
  | 0x1808 => match o.handover with
    | some h => mkw [(1, 7, 1), (b2n h.release, 3, 1), (if h.release then 0 else h.target.val, 0, 3)]
    | none => 0
  | 0x180C => mkw [(b2n o.irqbEn, 3, 1), (o.irqbStall.val, 0, 3)]
  | _ => 0

/-! ## The fault block (14 R553) and the safety registers (15 R608) -/

/-- Recoveries of an axis inside LATCH_WIN_S. -/
def Dev.recovWin (d : Dev) (a : AxisNo) : Nat :=
  (d.axf[a].recoveries.filter (fun t => d.clk < t + d.ft.latchWinS.toNat * 1000 * clksPerMs)).length

/-- AXIS_FAULT of an axis. -/
def Dev.axisFaultWord (d : Dev) (a : AxisNo) : W32 :=
  let f := d.axf[a]
  mkw [(satU 8 (d.recovWin a), 24, 8), (if f.fault then f.sev.toNat else 0, 21, 3), (b2n f.latched, 20, 1), (b2n f.measureDue, 19, 1),
    (b2n f.remeasure, 18, 1), (b2n f.fault, 17, 1), (f.src.toNat, 0, 9)]

/-- Highest severity of a reaction in force. -/
def Dev.sevMax (d : Dev) : Nat :=
  allAxes.foldl (fun m a => if d.axf[a].fault then max m d.axf[a].sev.toNat else m) (if d.ft.safeState then 7 else 0)

/-- Quiet time still needed by an axis, in ms. -/
def Dev.quietLeft (d : Dev) (a : AxisNo) : Nat :=
  if d.axf[a].fault then cdiv (d.axf[a].lastFire + d.ft.quietMs.toNat * clksPerMs - d.clk) clksPerMs else 0

/-- CONV_STATE of a converter. -/
def ConvState.word (c : ConvState) : W32 :=
  mkw [(c.errors.toNat, 24, 8), (match c.mode with
    | .inService => 0
    | .calibrating => 1
    | .standingIn => 2
    | .retired => 3, 8, 2), (c.partner.toNat, 0, 7)]

/-- Word j of LEG_AGE of a leg. -/
def LegAge.word (l : LegAge) (j : Nat) : W32 :=
  match j with
  | 0 => l.w0
  | 1 => l.w1
  | 2 => l.w2
  | 3 => mkw [(l.strength.toNat, 16, 16), (b2n l.baselineSet, 0, 1)]
  | 4 => l.b0
  | 5 => l.b1
  | 6 => l.b2
  | _ => 0

/-- A word of the fault registers, by offset from 0x002_0000. -/
def Dev.faultWord (d : Dev) (o : Nat) : W32 :=
  if o = 0 then
    mkw [(d.sevMax, 20, 3), (b2n d.ft.episode, 19, 1), (b2n d.ft.firstOvf, 18, 1), (b2n d.ft.firstValid, 17, 1), (d.ft.firstSrc.toNat, 0, 9)]
  else if o = 4 then d.ft.tally.setWidth 32
  else if o = 8 then mkw [(d.ft.latchN.toNat, 24, 8), (d.ft.latchWinS.toNat, 12, 12)]
  else if o = 0xC then d.ft.quietMs.setWidth 32
  else if 0x100 ≤ o ∧ o < 0x140 then (d.ft.fired >>> (8 * (o - 0x100))).setWidth 32
  else if 0x200 ≤ o ∧ o < 0x300 then
    let a := ax ((o - 0x200) / 16)
    if o % 16 = 0 then d.axisFaultWord a else if o % 16 = 4 then nW (satU 16 (d.quietLeft a)) else 0
  else if o = 0x400 then
    let r := d.sv.rot
    mkw [(b2n r.hold, 17, 1), (b2n r.spare.isNone, 16, 1), ((r.spare.map Fin.val).getD 31, 8, 5), ((r.fallow.map Fin.val).getD 31, 0, 5)]
  else if 0x410 ≤ o ∧ o < 0x590 then d.sv.conv[Fin.ofNat 96 ((o - 0x410) / 4)].word
  else if o = 0x600 then
    mkw [(d.sv.takeovers.toNat, 24, 8), (match d.sv.standby with
      | .ready => 0
      | .starting => 1
      | .failed => 2
      | .inUpdate => 3, 4, 2), (b2n d.sv.active, 0, 1)]
  else if o = 0x604 then
    mkw [(if d.sv.fwPhase = 4 then cdiv (d.sv.trialEnd - d.clk) (1000 * clksPerMs) else 0, 16, 16), (d.sv.fwPhase.toNat, 0, 3)]
  else if 0x700 ≤ o ∧ o < 0x710 then
    let x := d.sv.dies[Fin.ofNat 4 ((o - 0x700) / 4)]
    mkw [(x.tempC.toNat, 24, 8), (b2n x.low, 16, 1), (x.margin.toNat, 0, 16)]
  else if 0x800 ≤ o ∧ o < 0xE00 then d.sv.legAge[lg ((o - 0x800) / 32)].word (o % 32 / 4)
  else if o = 0xE00 then mkw [(d.sv.ledgerWraps.toNat, 16, 16), (d.sv.ledgerHead.toNat, 0, 16)]
  else if 0x1000 ≤ o ∧ o < 0x1800 then
    let s := (o - 0x1000) / 4
    if (catalogue s).isSome then mkw [(d.ft.severity s, 16, 3), (Mem.read 0 d.ft.count s, 0, 16)] else 0
  else 0

/-- The smallest of some numbers; 0 of none. -/
def least : List Nat → Nat
  | [] => 0
  | x :: xs => xs.foldl min x

/-- ZONE_STATE. -/
def Safety.zoneState (s : Safety) : W32 :=
  let left (c : SafeChan) : List Nat := c.zones.toList.filterMap (fun z => z.ss1.map (fun t => cdiv (t - c.cycles) 4))
  let sto (z : Fin 2) : Nat := b2n (s.chA.zones[z].sto || s.chB.zones[z].sto)
  let per (z : Fin 2) : Nat := b2n (s.chA.zones[z].permitted && s.chB.zones[z].permitted)
  mkw [(least (left s.chA ++ left s.chB), 16, 16), (per 1, 6, 1), (b2n s.ss1B, 5, 1), (sto 1, 4, 1), (per 0, 2, 1), (b2n s.ss1A, 1, 1),
    (sto 0, 0, 1)]

/-- OSSD_STATE. -/
def Safety.ossdState (s : Safety) : W32 :=
  let bits (f : Nat → Bool) : Nat := maskOf ((List.range 4).filter f)
  let out (n : Nat) (b : Nat) : OssdOut := s.ossd[Fin.ofNat 8 (2 * n + b)]
  mkw [(bits (fun n => (out n 0).pulsing || (out n 1).pulsing), 20, 4), (bits (fun n => (s.degraded ||| s.degEnding).getLsbD (8 + n)), 16, 4),
    (bits (fun n => (out n 1).read), 12, 4), (bits (fun n => (out n 0).read), 8, 4), (bits s.ossdOn, 0, 4)]

/-- CONN_STATUS and CONN_AGE of a connection. -/
def Conn.word (c : Conn) (hi : Bool) : W32 :=
  if hi then mkw [(c.timeouts.toNat, 16, 16), (satU 16 (c.age / 4), 0, 16)]
  else mkw [(c.lastSeq.toNat, 16, 16), (c.rejects.toNat, 8, 8), (match c.state with
    | .off => 0
    | .waiting => 1
    | .valid => 2
    | .timedOut => 3, 0, 2)]

/-- A word of the safety registers, by offset from 0x003_0000: the state at channel A's last check cycle. A set with a
fault is not valid (log entry 126). -/
def Dev.safetyWord (d : Dev) (o : Nat) : W32 :=
  let s := d.sfSeen
  if o = 0 then
    mkw [(b2n s.codeBlocked, 9, 1), (b2n s.xchkLate, 8, 1), (b2n s.chB.run, 7, 1), (b2n s.chA.run, 6, 1), (b2n s.sresetStuck, 5, 1),
      (b2n s.armed, 4, 1), (b2n ((s.degraded ||| s.degEnding) != 0), 3, 1), (b2n (s.lockout != 0), 2, 1), (b2n s.commissioning, 1, 1),
      (b2n (s.paramValid && !s.lockout.getLsbD unitParam), 0, 1)]
  else if o = 4 then permitsAfter s s.chA.permits
  else if o = 8 then mkw [(s.chB.sin.toNat, 16, 16), (s.chA.sin.toNat, 0, 16)]
  else if o = 0xC then mkw ((List.finRange 8).map (fun p => (s.funcState p, 4 * p.val, 4)))
  else if o = 0x10 then s.ossdState
  else if o = 0x14 then s.zoneState
  else if o = 0x18 then s.paramCrc
  else if o = 0x1C then s.paramCount.setWidth 32
  else if o = 0x20 then s.lockout.setWidth 32
  else if o = 0x24 then (s.degraded ||| s.degEnding).setWidth 32
  else if o = 0x28 then
    nW (satU 16 (least ((bitsOf 22 s.degraded.toNat).map (fun u => cdiv (Mem.read 0 s.degEnd u - s.chA.cycles) 400))))
  else if 0x100 ≤ o ∧ o < 0x180 then
    let k : Fin 8 := Fin.ofNat 8 ((o - 0x100) / 16)
    let x := s.sls[k]
    match o % 16 with
    | 0 => iW (satS 32 (s.chA.sls[k].speed.getD 0))
    | 4 => iW (satS 32 (s.chB.sls[k].speed.getD 0))
    | 8 => mkw [(b2n s.chB.sls[k].speed.isNone, 4, 1), (b2n s.chA.sls[k].speed.isNone, 3, 1), (b2n x.checking, 2, 1),
        (b2n x.tripped, 1, 1), (b2n x.active, 0, 1)]
    | _ => 0
  else if 0x200 ≤ o ∧ o < 0x400 then s.conns[Fin.ofNat 64 ((o - 0x200) / 8)].word (o % 8 == 4)
  else 0

/-! ## Status windows (04 R130, 05 R169, 06 R217, 07 R259, 08 R294, 09 R349) -/

/-- FB_FLAGS of an axis. -/
def Dev.fbFlags (d : Dev) (a : AxisNo) : W32 :=
  let ok (s : Nat) : Nat := if s < 32 then b2n d.fb.src[Fin.ofNat 32 s].fbValid else 0
  mkw [(ok (d.secSrc a), 4, 1), (ok (d.commSrc a), 3, 1), (b2n d.ctl[a].bridged, 2, 1), (b2n d.ctl[a].sig.speedValid, 1, 1),
    (ok (d.priSrc a), 0, 1)]

/-- USER_PROG of an axis's plot, and the hook of the program. -/
def Dev.userProg (d : Dev) (a : AxisNo) : Nat := fld (d.plotW a 5) 23 16
def Dev.userHook (d : Dev) (a : AxisNo) : Option (Fin 3) := (Mem.read none d.progs.progs (d.userProg a)).map (·.hook)

/-- LAW_STATUS of an axis. -/
def Dev.lawStatus (d : Dev) (a : AxisNo) : W32 :=
  let l := d.loops[a]
  mkw [(d.userProg a, 16, 8), (((d.userHook a).map Fin.val).getD 0, 8, 2), (b2n l.copying, 7, 1), (b2n l.swap.isSome, 6, 1),
    (b2n l.bank, 5, 1), (b2n l.slot, 4, 1), (b2n l.bypassed, 3, 1), (b2n l.aerr, 2, 1), (b2n l.svUser, 1, 1), (b2n l.svStd, 0, 1)]

/-- CTRL_STATUS of an axis. -/
def Ctl.status (c : Ctl) : W32 :=
  mkw [(b2n c.ofsShort, 10, 1), (b2n c.identify.isSome, 9, 1), (b2n c.excite.isSome, 8, 1), (b2n c.bridged, 7, 1), (b2n c.iLim, 6, 1),
    (b2n c.uLim, 5, 1), (b2n c.stepStrong, 4, 1), (b2n c.manual, 3, 1), (c.mode.toNat, 0, 2)]

/-- REP of the plot. -/
def Dev.repOn (d : Dev) (a : AxisNo) : Bool := d.assigned a && bitOf (d.plotW a 5) 5

/-- REP_STATUS of an axis. -/
def Dev.repStatus (d : Dev) (a : AxisNo) : W32 :=
  let c := d.ctl[a]
  let r := c.rep
  mkw [(fld r.conf[5] 21 16, 22, 6), (fld r.conf[5] 22 22, 21, 1), (b2n r.restored, 20, 1), (r.bin.toNat, 8, 12),
    (b2n r.storing.isSome, 6, 1), (b2n r.fast, 5, 1), (b2n r.sat, 4, 1), (b2n r.frozen, 3, 1), (b2n r.learning, 2, 1),
    (b2n ((d.repOn a && r.enabledFrames < 256) || (c.manual && c.manualValue != c.manualTarget)), 1, 1), (b2n (d.repOn a), 0, 1)]

/-- PLAUS_STATUS of an axis. -/
def Ctl.plausWord (c : Ctl) : W32 :=
  mkw [(c.plaus[3].cnt.toNat, 24, 8), (c.plaus[2].cnt.toNat, 16, 8), (c.plaus[1].cnt.toNat, 8, 8), (c.plaus[0].cnt.toNat, 0, 8)]

/-- PWM_STATUS of an axis. -/
def Dev.pwmStatus (d : Dev) (a : AxisNo) : W32 :=
  let p := d.pwm[a]
  mkw [(b2n p.pdMismatch, 7, 1), (b2n p.direct, 6, 1), (b2n ((d.axisLegs a).any (fun l => d.legs[l].tripped)), 5, 1),
    (b2n ((d.axisLegs a).any (fun l => d.gates[dieOf l].sto)), 4, 1), (b2n p.charging, 3, 1)]

/-- Codes of HOME_STATE, FOLLOW and the results of moves. -/
def HomeState.code : HomeState → Nat
  | .none => 0
  | .search => 1
  | .backOff => 2
  | .latch => 3
  | .indexSearch => 4
  | .hardStop => 5
  | .done => 6
  | .failed => 7
def FollowState.code : FollowState → Nat
  | .disengaged => 0
  | .waiting => 1
  | .rampIn => 2
  | .locked => 3
  | .rampOut => 4
def MoveResult.code : MoveResult → Nat
  | .done => 0
  | .replaced => 1
  | .stopped => 2
  | .flushed => 3
  | .discarded => 4
  | .noEdge => 5

/-- MOTION_STATUS of an axis. -/
def Motion.status (m : Motion) : W32 :=
  mkw [(m.queue.length, 24, 8), (m.homeState.code, 21, 3), (b2n m.homed, 20, 1), (m.follow.code, 17, 3), (b2n m.clamped, 16, 1),
    (b2n m.hlClamp, 15, 1), (b2n m.overshoot, 14, 1), (b2n m.limPos, 13, 1), (b2n m.limNeg, 12, 1), (m.stopKind.toNat, 10, 2),
    (b2n m.still, 9, 1), (b2n m.moving, 8, 1), (m.src.toNat, 0, 4)]
/-- MOVE_STATUS of an axis. -/
def Motion.moveWord (m : Motion) : W32 :=
  mkw [((m.ends.head?.map (·.1.toNat)).getD 0, 16, 16), ((m.cur.map (·.move.id.toNat)).getD 0, 0, 16)]
/-- MOVE_RESULT of an axis. -/
def Motion.resultWord (m : Motion) : W32 :=
  mkw [(m.ovr.toNat, 16, 14), (b2n m.cur.isSome, 4, 1), (b2n !m.ends.isEmpty, 3, 1), ((m.ends.head?.map (·.2.code)).getD 0, 0, 3)]

/-- A word of an axis's status window as it stands now; word 0 is the sequence word. -/
def Dev.windowWord (d : Dev) (a : AxisNo) (off : Nat) : W32 :=
  let c := d.ctl[a]
  let m := d.mot[a]
  match off with
  | 0x04 => mkw [(fld (d.plotW a 0) 23 16, 16, 8), (d.mtype a, 0, 4)]
  | 0x08 => mkw [(b2n d.axf[a].fault, 2, 1), (b2n d.pwm[a].bridgeOn, 1, 1), (b2n (d.assigned a), 0, 1)]
  | 0x10 => loW c.sig.posPri
  | 0x14 => hiW c.sig.posPri
  | 0x18 => iW c.sig.velEst
  | 0x1C => d.fbFlags a
  | 0x40 => d.lawStatus a
  | 0x44 => mkw [(d.loops[a].lastCycles.toNat, 16, 16), (d.loops[a].lane.toNat, 0, 5)]
  | 0x48 => c.status
  | 0x4C => d.repStatus a
  | 0x50 => c.plausWord
  | 0x60 => d.pwmStatus a
  | 0x80 => loW c.sig.posRef
  | 0x84 => hiW c.sig.posRef
  | 0x88 => iW c.sig.velFf
  | 0x8C => m.status
  | 0x90 => m.moveWord
  | 0x94 => m.resultWord
  | _ => 0

/-- The offsets that a window holds. -/
def windowOffsets : List Nat :=
  [0x04, 0x08, 0x10, 0x14, 0x18, 0x1C, 0x40, 0x44, 0x48, 0x4C, 0x50, 0x60, 0x80, 0x84, 0x88, 0x8C, 0x90, 0x94]

/-- The snapshot of an axis's window, by word offset. -/
def Dev.windowSnapshot (d : Dev) (a : AxisNo) : Mem W32 :=
  windowOffsets.foldl (fun m o => Mem.write 0 m (o / 4) (d.windowWord a o)) []

/-- At a frame boundary every window is replaced; a freeze counts the boundaries since it was set (R84). -/
def Dev.windowFrame (d : Dev) : Dev :=
  { d with hp := { d.hp with windows := Vector.ofFn (fun a : Fin 16 =>
      let w := d.hp.windows[a]
      { seq := w.seq + 1, snapshot := d.windowSnapshot a,
        freeze := w.freeze.map (fun f => f.map (fun (x : Freeze) =>
          { x with frames := x.frames + 1 })) }) } }

/-- The set-point words of the snapshot are those of its own frame boundary: POS_REF and VEL_FF as the lanes have just
formed them there (09 R349). -/
def Dev.windowRefs (d : Dev) : Dev :=
  { d with hp := { d.hp with windows := Vector.ofFn (fun a : Fin 16 =>
      let w := d.hp.windows[a]
      let s := d.ctl[a].work
      let now : List (Nat × W32) := [(0x80, loW s.posRef), (0x84, hiW s.posRef), (0x88, iW s.velFf), (0x8C, d.mot[a].status)]
      { w with snapshot := now.foldl (fun m e => Mem.write 0 m (e.1 / 4) e.2) w.snapshot }) } }

/-! ## Ring and network time (11 R447, R448), CAN (12 R479) -/

/-- Codes of the ring function and of the time unit. -/
def RingFn.code : RingFn → Nat
  | .off => 0
  | .listen => 1
  | .joining => 2
  | .active => 3
def NtState.code : NtState → Nat
  | .none => 0
  | .acquire => 1
  | .locked => 2
  | .holdover => 3
  | .grandmaster => 4

/-- PORT_STATUS of a ring port. -/
def RingPort.status (p : RingPort) : W32 :=
  mkw [(p.linkDelay.toNat, 16, 16), (p.crcErr.toNat, 8, 8), (b2n p.brk, 3, 1), (b2n p.rfault, 2, 1), (b2n p.lock, 1, 1)]

/-- NS, SEC_LO and SEC_HI with FRAC of an instant in 2^-64 ns. -/
def ntWords (x : Int) : W32 × W32 × W32 :=
  let t := ntOf x
  (t.ns, t.sec.setWidth 32, mkw [(t.frac.toNat, 16, 16), (t.sec.toNat / 2 ^ 32, 0, 16)])

/-- RSTALL of remote stall i + 2. -/
def RemoteStall.word (r : RemoteStall) : W32 :=
  mkw [(r.epoch.toNat, 16, 16), (b2n r.connected, 15, 1), (b2n r.enabled, 14, 1), (b2n r.any, 13, 1),
    (if r.connected then r.peer.toNat else r.node.toNat, 0, 10)]

/-- A word of the ring and time registers, by offset from 0x010_0000. -/
def Dev.ringWord (d : Dev) (o : Nat) : W32 :=
  let r := d.ring
  let t := d.nt
  match o with
  | 0x000 => mkw [(r.addr.toNat, 22, 10), (b2n r.addrValid, 21, 1), (b2n r.healed, 20, 1), (b2n r.loopA, 19, 1), (b2n r.loopB, 18, 1),
      (b2n r.dupAddr, 17, 1), (b2n r.tickMismatch, 16, 1), (b2n r.overload, 15, 1), (b2n r.joinFail, 14, 1), (b2n r.joinRefused, 13, 1),
      (b2n r.split, 12, 1), (r.fn.code, 0, 3)]
  | 0x004 => mkw [(r.activeN.toNat, 16, 11), (d.cycleTicks, 0, 11)]
  | 0x008 => r.minCycle
  | 0x00C => r.payloadNs
  | 0x040 => r.portA.status
  | 0x044 => r.portA.foreign
  | 0x050 => r.portB.status
  | 0x054 => r.portB.foreign
  | 0x200 => mkw [(t.ppsBad.toNat, 24, 8), (t.gmAddr.toNat, 14, 10), (b2n t.gmValid, 13, 1), (b2n t.isGm, 12, 1), (t.timeQual.toNat, 10, 2),
      (b2n t.ref25Ok, 9, 1), (b2n t.syncPort, 8, 1), (t.state.code, 0, 3)]
  | 0x204 => iW (satS 32 t.offset)
  | 0x208 => loW t.y
  | 0x20C => hiW t.y
  | 0x210 => (ntWords t.nt).1
  | 0x214 => (ntWords t.nt).2.1
  | 0x218 => (ntWords t.nt).2.2
  | 0x220 => (ntWords t.ppsStamp).1
  | 0x224 => (ntWords t.ppsStamp).2.1
  | 0x228 => (ntWords t.ppsStamp).2.2
  | _ =>
    if 0x100 ≤ o ∧ o < 0x180 then (r.nodeMap >>> (8 * (o - 0x100))).setWidth 32
    else if 0x300 ≤ o ∧ o < 0x310 then r.remote[Fin.ofNat 4 ((o - 0x300) / 4)].word
    else 0

/-- CAN_TXB of a buffer. -/
def CanBuf.word (b : CanBuf) (held : Bool) : W32 :=
  mkw [(b2n b.safety.isSome, 8, 1), (b2n held, 3, 1), (match b.result with
    | .empty => 0
    | .pending => 1
    | .onBus => 2
    | .sent => 3
    | .aborted => 4
    | .expired => 5, 0, 3)]

/-- A word of a CAN controller's page. -/
def Dev.canWord (d : Dev) (k : Fin 2) (o : Nat) : W32 :=
  let c := d.can.ctl[k]
  match o with
  | 0x000 => mkw [(c.fifo.length, 24, 7), (b2n (d.can.gw.ctrl == some k), 10, 1), (b2n c.masterActive, 9, 1), (b2n c.alone, 8, 1),
      (fld c.conf[0] 5 4, 4, 2), (match c.state with
        | .off => 0
        | .integrating => 1
        | .active => 2
        | .passive => 3
        | .busOff => 4
        | .recovering => 5, 0, 3)]
  | 0x004 => mkw [(c.recCnt.toNat, 24, 8), (c.busoffCnt.toNat, 16, 8), (c.tec.toNat, 0, 9)]
  | 0x008 => c.event.setWidth 32
  | 0x00C => mkw [(c.arrivalUs.toNat, 16, 16), (c.unacked.toNat, 8, 8), (c.role.role.toNat, 6, 2), (c.cycleCount.toNat, 0, 6)]
  | _ =>
    if 0x100 ≤ o ∧ o < 0x180 then
      let b : Fin 32 := Fin.ofNat 32 ((o - 0x100) / 4)
      c.bufs[b].word (c.held == some b.val)
    else 0

/-! ## Capture and DMA (10 R399 to R402) -/

/-- Codes of the capture states. -/
def CapState.code : CapState → Nat
  | .free => 0
  | .idle => 1
  | .pre => 2
  | .waiting => 3
  | .post => 4
  | .halted => 5
  | .done => 6

/-- A word of a capture unit's page. -/
def CapUnit.word (u : CapUnit) (o : Nat) : W32 :=
  match o with
  | 0x00 => mkw [(u.seg.toNat, 16, 6), (b2n u.claimed, 15, 1), (u.stall.val, 12, 3), (u.stage.toNat, 8, 3), (b2n u.ringLate, 7, 1),
      (b2n u.clamped, 6, 1), (b2n u.ringSkip, 5, 1), (u.state.code, 0, 3)]
  | 0x08 => u.done
  | 0x10 => u.base.setWidth 32
  | 0x14 => (u.base >>> 32).setWidth 32
  | 0x18 => u.segBytes
  | _ => 0

/-- Unallotted capture pool in 2 MiB units. -/
def Dev.capPool (d : Dev) : Nat :=
  3072 - d.cap.units.toList.foldl (fun n u => if u.conf.isEmpty then n else n + fld (wd u.conf 1) 31 16) 0

/-- A word of the capture block, by offset from 0x030_0000. -/
def Dev.capWord (d : Dev) (o : Nat) : W32 :=
  if o < 0x800 then d.cap.units[Fin.ofNat 8 (o / 256)].word (o % 256)
  else if o = 0x800 then nW d.capPool
  else if 0xA00 ≤ o ∧ o < 0xAC0 then
    let x := d.cap.legs[lg ((o - 0xA00) / 4)]
    mkw [(b2n x.gated, 11, 1), (b2n x.held, 10, 1), (x.nUsed.toNat, 0, 9)]
  else if 0xC00 ≤ o ∧ o < 0xD80 then
    let x := d.cap.trims[Fin.ofNat 96 ((o - 0xC00) / 4)]
    mkw [(x.skewTrim.toNat, 16, 10), (x.skewCal.toNat, 0, 10)]
  else 0

/-- A word of the DMA block, by offset from 0x020_0000. -/
def Dev.dmaWord (d : Dev) (o : Nat) : W32 :=
  if o < 0x800 then
    let c := d.cap.dma[Fin.ofNat 8 (o / 256)]
    match o % 256 with
    | 0x00 => mkw [(b2n c.skipBad, 2, 1)]
    | 0x04 => mkw [(b2n c.fetchErr, 6, 1), (c.stall.val, 3, 3), (b2n c.claimed, 2, 1), (match c.state with
        | .idle => 0
        | .running => 1
        | .halted => 2, 0, 2)]
    | 0x08 => c.desc.setWidth 32
    | 0x0C => (c.desc >>> 32).setWidth 32
    | 0x10 => c.cur.setWidth 32
    | 0x14 => (c.cur >>> 32).setWidth 32
    | 0x18 => c.irq.setWidth 32
    | 0x1C => c.irqEn.setWidth 32
    | 0x20 => c.doneCnt
    | _ => 0
  else 0

end Sys2Proof.Machine
end

