-- ==== Sys2Proof/Machine/Capture.lean ====
section
/-! DEFINITION. Converter results, capture units and their commands (spec 10 R371 to R389, R398, R399, R401 to R406). -/
namespace Sys2Proof.Machine
open Sys2Proof

/-! ## Converter results (10 R373, R374) -/

/-- Is AVG_MODE 1 in force on a leg: selected for its axis, and the plot not in strong mode (R373)? -/
def Dev.legGated (d : Dev) (l : LegNo) : Bool :=
  match d.legAxis l with
  | some a => d.cap.avgMode[a] && !d.ctl[a].stepStrong
  | none => false

/-- Converter number of a leg: CV00 to CV23, CV48 to CV71. -/
def convOfLeg (l : LegNo) : Fin 96 := Fin.ofNat 96 (if l.val < 24 then l.val else l.val + 24)

/-- The skew of the converter of a leg in fine units, clamped; a spare that stands in has its own SKEW_CAL alone (R375). -/
def Dev.skewOf (d : Dev) (l : LegNo) : Int :=
  let k := convOfLeg l
  let partner := d.sv.conv[k].partner.toNat
  if d.sv.conv[k].mode != .inService && partner < 96 then d.cap.trims[(Fin.ofNat 96 partner : Fin 96)].skewCal.toInt
  else clampI (-256) 256 (d.cap.trims[k].skewCal.toInt + d.cap.trims[k].skewTrim.toInt)

/-- The samples of a converter in a tick: N of them (R372). -/
def Dev.sampleCount (d : Dev) : Nat := d.tickClks / 64
/-- The instant of sample k of a leg in the tick that has ended, in fine units (R372). -/
def Dev.legSampleAt (d : Dev) (l : LegNo) (k : Nat) : Int :=
  8 * ((d.clk - d.tk.len + k * d.tickClks / max 1 d.sampleCount : Nat) : Int) + d.skewOf l

/-- Does a sample at an instant fall into a time with the low side on, from LS_SETTLE after the start of its turn-on to its
commanded turn-off (R373)? Where within the tick a turn-off fell whose row brought no instant is a free value (log entry 5). -/
def Dev.lowAt (d : Dev) (l : LegNo) (t : Int) : Bool :=
  let x := d.legs[l]
  let settle := tenNs (((d.legAxis l).map (fun a => d.cap.lsSettle[a].toNat)).getD 0)
  let unknown : Int := 8 * ((d.clk - d.tk.len : Nat) : Int) + Config.freeOf 33 [(l.val : Int), (d.clk : Int)] % (8 * (max 1 d.tk.len : Nat) : Int)
  let inside (start : Nat) (stop : Int) : Bool := decide (((start + settle : Nat) : Int) ≤ t) && decide (t < stop)
  x.lows.any (fun e => inside e.1 ((e.2.map (fun n : Nat => (n : Int))).getD unknown)) ||
    (x.lo.isOn && decide (((x.loOn + settle : Nat) : Int) ≤ t))

/-- The samples of a leg that its AVG_MODE selects (R373). -/
def Dev.qualifying (d : Dev) (l : LegNo) (xs : List Int) : List Int :=
  let all := xs.take d.sampleCount
  if d.legGated l then (all.zipIdx.filter (fun e => d.lowAt l (d.legSampleAt l e.2))).map (·.1) else all

/-- The averaged result of samples (R374). -/
def avgResult (xs : List Int) : Int := satS 20 (rdivUp (16 * xs.foldl (· + ·) 0) xs.length)

/-- Closing of the interval of one leg's converter: the mean, or the previous result with HELD (R373). -/
def LegConv.close (c : LegConv) (gated : Bool) (xs : List Int) : LegConv :=
  if xs.isEmpty then { c with gated := gated, held := true, nUsed := 0 }
  else { c with gated := gated, nUsed := BitVec.ofNat 9 xs.length, result := avgResult xs }

/-- Every phase-current converter closes its interval (R372); that of a leg of no plot is idle and keeps what it holds (04
R114). The times of the tick in which a low side was on are over. -/
def Dev.closeIntervals (samples : List (Nat × List Int)) (d : Dev) : Dev :=
  { d with cap := { d.cap with legs := Vector.ofFn (fun l : Fin 48 =>
      if (d.legAxis l).isNone then d.cap.legs[l]
      else d.cap.legs[l].close (d.legGated l) (d.qualifying l (((samples.find? (fun e => e.1 == l.val)).map (·.2)).getD []))) }
           legs := d.legs.map (fun x => { x with lows := [] }) }

/-! ## Configurations -/

/-- NCH, HDR, AVG, MODE, EARLY, RING_OUT, RING_IN, RGROUP, SEGMENTS, DECIM and AUTO_TICKS of a CaptureConfig. -/
def capNch (c : List W32) : Nat := fld (wd c 0) 12 8
def capHdr (c : List W32) : Bool := bitOf (wd c 0) 3
def capAvg (c : List W32) : Bool := bitOf (wd c 0) 6
def capMode (c : List W32) : Nat := fld (wd c 0) 5 4
def capEarly (c : List W32) : Bool := bitOf (wd c 0) 15
def capRingOut (c : List W32) : Bool := bitOf (wd c 0) 14
def capRingIn (c : List W32) : Bool := bitOf (wd c 0) 13
def capGroup (c : List W32) : Nat := fld (wd c 0) 19 16
def capSegments (c : List W32) : Nat := fld (wd c 0) 25 20
def capDecim (c : List W32) : Nat := max 1 (fld (wd c 1) 15 0)
def capBuf (c : List W32) : Nat := fld (wd c 1) 31 16
/-- Record length in words (R379). -/
def capRw (c : List W32) : Nat := max 1 (capNch c + b2n (capHdr c))
/-- SEG_BYTES (R380). -/
def capSegBytes (c : List W32) : Nat := capBuf c * 2097152 / max 1 (capSegments c) / 64 * 64
/-- SLOTS (R380). -/
def capSlots (c : List W32) : Nat := (capSegBytes c - 64) / (4 * capRw c)
/-- LATE_TICKS: three network cycles (R381). -/
def Dev.lateTicks (d : Dev) : Nat := 3 * d.cycleTicks
/-- K of R381. -/
def Dev.capK (d : Dev) (c : List W32) : Nat := if capRingIn c then cdiv d.lateTicks (capDecim c) else 0
/-- PRE and POST after the clamp of R381: POST is reduced first, down to 1, then PRE. -/
def Dev.capClamp (d : Dev) (c : List W32) : Nat × Nat :=
  let pre := (wd c 2).toNat
  let post := (wd c 3).toNat
  let excess := pre + post + d.capK c - capSlots c
  let post' := max (min 1 post) (post - excess)
  (pre - (excess - (post - post')), post')

/-- Is a channel selector one that Table 10.2 lists? -/
def selOk (w : W32) : Bool :=
  match fld w 31 28 with
  | 1 => fld w 23 12 == 0 && (fld w 11 0 < 0x200 || (0x600 ≤ fld w 11 0 && fld w 11 0 < 0x800))
  | 2 => fld w 27 7 == 0 && fld w 6 0 < 96
  | 3 => fld w 27 10 == 0 && fld w 7 5 == 0
  | 4 => fld w 27 2 == 0 && fld w 1 0 < 3
  | 5 => fld w 27 0 == 0
  | 6 => fld w 27 12 == 0 && fld w 1 0 == 0
  | 7 => fld w 27 0 == 0
  | _ => false

/-- Result of a converter as the lanes read it: CV00 to CV23 and CV48 to CV71 sample the legs; the others by number. -/
def Dev.convValue (d : Dev) (c : Nat) : Int :=
  if c < 24 then d.cap.legs[lg c].result
  else if 48 ≤ c ∧ c < 72 then d.cap.legs[lg (c - 24)].result
  else Mem.read 0 d.aux c

/-- The encoder-interface group of a feedback converter (04 Table 4.2). -/
def groupOfConv (c : Nat) : Option Nat :=
  if 24 ≤ c ∧ c < 40 then some ((c - 24) / 2) else if 72 ≤ c ∧ c < 88 then some ((c - 56) / 2) else none

/-- Is a converter idle: a feedback converter whose group is in neither sin/cos nor resolver mode (04 R118)? -/
def Dev.convIdle (d : Dev) (c : Nat) : Bool :=
  match groupOfConv c with
  | some g =>
    let mode := d.fb.src[Fin.ofNat 32 g].mode
    !(mode == 4 || mode == 5)
  | none => false

/-- A committed local-memory word of an axis: state words, then SIG and OUT (R378 KIND 1). -/
def Dev.committedWord (d : Dev) (a : AxisNo) (k : Nat) : Int :=
  let l := d.loops[a]
  let v : W20 := if k < 0x200 then l.slotWord a l.slot k else Mem.read 0 l.sigOut k
  v.toInt

/-- The value of a selector for the present tick, before it is reduced to 32 bits (Table 10.2). -/
def Dev.selValue (d : Dev) (w : W32) : Int :=
  match fld w 31 28 with
  | 1 => if d.assigned (ax (fld w 27 24)) then d.committedWord (ax (fld w 27 24)) (fld w 11 0) else 0
  | 2 => d.convValue (fld w 6 0)
  | 3 =>
    let i : Fin 32 := Fin.ofNat 32 (fld w 4 0)
    let x := d.fb.src[i]
    if fld x.conf[0] 11 8 = 0 then 0
    else match fld w 9 8 with
      | 0 => signedOf 32 (loW x.pos).toNat
      | 1 => signedOf 32 (hiW x.pos).toNat
      | 2 => (d.fbSpeed i).toInt
      | _ => (d.fbStatus i).toInt
  | 4 =>
    match fld w 1 0 with
    | 0 => d.inState.toInt
    | 1 => d.outState.toInt
    | _ => d.sf.chA.sin.toNat
  | 5 =>
    ((maskOf ((allAxes.filter (fun a => d.axf[a].fault)).map Fin.val) +
      (allAxes.foldl (fun m a => if d.axf[a].fault then max m d.axf[a].sev.toNat else m) 0) * 2 ^ 16 : Nat) : Int)
  | 6 => (d.identReg (fld w 11 2 * 4)).toInt
  | 7 => signedOf 32 d.tick
  | _ => 0

/-- Are the lane outputs that a selector records discarded in this tick (R378)? -/
def Dev.selDisc (d : Dev) (w : W32) : Bool :=
  fld w 31 28 == 1 && d.assigned (ax (fld w 27 24)) && d.loops[ax (fld w 27 24)].discarded

/-! ## Segments and states (R380 to R383) -/

/-- The first free segment from a given one on, in cyclic order. -/
def CapUnit.freeFrom (u : CapUnit) (start : Nat) : Option Nat :=
  let n := max 1 (capSegments u.conf)
  ((List.range n).map (fun i => (start + i) % n)).find? (fun s => !u.done.getLsbD s)

/-- State 2 in a segment: nothing written, the sequencer at stage 0; at once on to state 3 where PRE is 0. -/
def CapUnit.enterPre (u : CapUnit) (seg tick : Nat) : CapUnit :=
  { u with state := if u.preN = 0 then .waiting else .pre, seg := BitVec.ofNat 8 seg, stage := 0, written := 0,
           firstTick := 0, lastTick := 0, trigger := none, post := 0, pendTrig := [], stageTick := tick, stageCount := 0,
           crossArmed := false, events := [], disc := false, waitTick := tick, stopAfter := false }

/-- State 2 in the next free segment, or state 5 if none is free (R383). -/
def CapUnit.nextSegment (u : CapUnit) (start tick : Nat) : CapUnit :=
  match u.freeFrom start with
  | some s => u.enterPre s tick
  | none => { u with state := .halted, trigger := none, pendTrig := [] }

/-- Address of record slot i of the segment in use. -/
def CapUnit.slotAddr (u : CapUnit) (i : Nat) : Nat :=
  u.base.toNat + u.seg.toNat * u.segBytes.toNat + 64 + 4 * capRw u.conf * (i % max 1 (capSlots u.conf))

/-- Tick of the first record at or after a tick. -/
def recTick (decim t : Nat) : Nat := cdiv t decim * decim

/-- Number, since the arming, of the record that a trigger cuts at. -/
def CapUnit.trigRec (u : CapUnit) (t : CapTrig) : Nat :=
  (recTick (capDecim u.conf) t.tick - u.firstTick) / capDecim u.conf

/-- The 16 words of the segment header (Table 10.3). -/
def Dev.segHeader (d : Dev) (u : CapUnit) (t : CapTrig) : List W32 :=
  let c := u.conf
  let ti := u.trigRec t
  let pre := min u.preN ti
  let fi := ti - pre
  let slots := max 1 (capSlots c)
  let dec := capDecim c
  let first := u.firstTick + fi * dec
  let trig := u.firstTick + ti * dec
  let stamp := t.stamp.getD (d.ntOfTick trig)
  [mkw [(1, 31, 1), (b2n (u.preN != (wd c 2).toNat || u.postN != (wd c 3).toNat), 30, 1), (t.src.val, 27, 3), (b2n (capHdr c), 26, 1),
        (capNch c, 16, 5), (capRw c, 0, 16)],
   nW (capSlots c), nW (fi % slots), nW (ti % slots), nW (pre + u.postN), loW first, hiW first, loW trig, hiW trig] ++
  stamp.words ++ [mkw [(dec, 0, 16), (t.node.toNat, 16, 10)], 0, 0, 0]

/-- A segment completes: its header, its DONE bit, the CAPTURE cause, and the state after it (R382, R383, R389). -/
def Dev.segComplete (u : Fin 8) (t : CapTrig) (d : Dev) : Dev :=
  let x := d.cap.units[u]
  let d1 := d.put (x.base.toNat + x.seg.toNat * x.segBytes.toNat) (bytesOf (d.segHeader x t))
  let x1 := { x with done := x.done ||| BitVec.ofNat 32 (2 ^ x.seg.toNat), trigger := none, pendTrig := [] }
  let x2 := if x.stopAfter then { x1 with state := .idle, stopAfter := false }
    else if capMode x.conf = 0 then { x1 with state := .done }
    else x1.nextSegment (x.seg.toNat + 1) d.tick
  (d1.modUnit u (fun _ => x2)).setIrq x.stall irqCapture

/-- Does trigger s come before trigger t: an earlier record, or on the same record the order of precedence (R386)? -/
def trigBefore (decim : Nat) (s t : CapTrig) : Bool :=
  decide (recTick decim s.tick < recTick decim t.tick) ||
    (recTick decim s.tick == recTick decim t.tick && decide (s.src.val < t.src.val))

/-- The trigger that wins among several. -/
def winner (decim : Nat) : List CapTrig → Option CapTrig
  | [] => none
  | t :: ts => match winner decim ts with
    | none => some t
    | some s => if trigBefore decim s t then some s else some t

/-- A trigger whose record is written cuts the capture: TRIG in the record's header word, the records from it on count
toward POST, the ring event goes out, and a segment with all of POST completes (R382, R386, R387). -/
def Dev.cut (m : Memory) (u : Fin 8) (t : CapTrig) (d : Dev) : Dev :=
  let x := d.cap.units[u]
  let ti := x.trigRec t
  let late := ti + 1 < x.written
  let addr := x.slotAddr ti
  let d1 := if capHdr x.conf && late then d.put addr [Memory.byte m addr ||| 0x40] else d
  let trig := x.firstTick + ti * capDecim x.conf
  let sends := capRingOut x.conf && t.src.val != 1
  let ev : CapTrig := { t with tick := trig, stamp := some (t.stamp.getD (d.ntOfTick trig)) }
  let d2 := d1.modUnit u (fun x => { x with state := .post, trigger := some t, post := x.written - ti, pendTrig := [],
                                            ringOut := if sends && x.ringOut.isNone then some ev else x.ringOut,
                                            ringSkip := x.ringSkip || (sends && x.ringOut.isSome) })
  if x.written - ti ≥ x.postN then d2.segComplete u t else d2

/-- A trigger comes to a unit: in state 2 it is ignored and the sequencer restarts, unless EARLY; in state 3 it cuts at
once where its record is written, otherwise it waits for it (R383, R386, R387). -/
def Dev.trigger (m : Memory) (u : Fin 8) (t : CapTrig) (d : Dev) : Dev :=
  let x := d.cap.units[u]
  if x.state == .pre && !capEarly x.conf then
    d.modUnit u (fun x => { x with stage := 0, stageCount := 0, crossArmed := false, stageTick := d.tick })
  else if x.state == .waiting || x.state == .pre then
    if x.written > 0 && recTick (capDecim x.conf) t.tick ≤ x.lastTick then
      d.cut m u { t with tick := max t.tick x.firstTick }
    else d.modUnit u (fun x => { x with pendTrig := x.pendTrig ++ [t] })
  else d

/-! ## The sequencer (R384, R385) -/

/-- Stamps of the events since the last record that meet an event condition (COND 7 to 9). -/
def eventHits (cond : Nat) (value : W32) (evs : List CapEvent) : List (Option NetTime) :=
  evs.filterMap (fun e => match e with
    | .probe p r s => if cond == 7 && fld value 3 0 == p.val && bitOf value (if r then 4 else 5) then some (some s) else none
    | .input n r s => if cond == 8 && fld value 4 0 == n.val && bitOf value (if r then 5 else 6) then some (some s) else none
    | .fault f => if cond == 9 && fld value 8 0 == f then some none else none)

/-- Does a record condition hold, and is the crossing armed afterwards? -/
def condHolds (cond : Nat) (v : Int) (value aux : W32) (armed : Bool) (tick : Nat) : Bool × Bool :=
  let x : Int := value.toInt
  let masked := (BitVec.ofInt 32 v &&& aux) == value
  match cond with
  | 0 => (true, armed)
  | 1 => (decide (v > x), armed)
  | 2 => (decide (v < x), armed)
  | 3 => if armed && decide (v ≥ x) then (true, false) else (false, armed || decide (v < x - aux.toNat))
  | 4 => if armed && decide (v ≤ x) then (true, false) else (false, armed || decide (v > x + aux.toNat))
  | 5 => (masked, armed)
  | 6 => (!masked, armed)
  | 10 => (nW tick == value, armed)
  | _ => (false, armed)

/-- The present stage is evaluated on a record; the trigger it gives, if the last stage is satisfied. -/
def CapUnit.evalStage (u : CapUnit) (vals : List Int) (tick : Nat) (node : BitVec 10) : CapUnit × Option CapTrig :=
  match u.trig[u.stage.toNat]? with
  | none => (u, none)
  | some st =>
    let w := wd st 0
    let cond := fld w 3 0
    let need := fld w 31 16 - u.stageCount
    let hits := eventHits cond (wd st 1) u.events
    let r := condHolds cond (vals.getD (fld w 7 4) 0) (wd st 1) (wd st 2) u.crossArmed tick
    let n := if 7 ≤ cond ∧ cond ≤ 9 then hits.length else b2n r.1
    if need ≤ n then
      if u.stage.toNat + 1 < u.trig.length then
        ({ u with stage := u.stage + 1, stageCount := 0, crossArmed := false, stageTick := tick }, none)
      else ({ u with stageCount := 0, crossArmed := false }, some ⟨tick, 0, (hits.getD (need - 1) none), node⟩)
    else ({ u with stageCount := u.stageCount + n, crossArmed := r.2 }, none)

/-- Sums of averaged channels with the present tick's values. -/
def Dev.capSums (d : Dev) (u : CapUnit) : List Int :=
  (List.range (capNch u.conf)).map (fun i => u.accum.getD i 0 + d.selValue (wd u.conf (5 + i)))

/-- The channel values of a record (R379). -/
def Dev.capVals (d : Dev) (u : CapUnit) : List Int :=
  (List.range (capNch u.conf)).map (fun i =>
    let w := wd u.conf (5 + i)
    if capAvg u.conf && (fld w 31 28 == 1 || fld w 31 28 == 2) then
      signedOf 32 (patOf 32 (rdivUp (4096 * (d.capSums u).getD i 0) (capDecim u.conf)))
    else d.selValue w)

/-- A unit writes the record of the present tick, evaluates its stage, and takes the trigger that wins. -/
def Dev.capRecord (m : Memory) (u : Fin 8) (d : Dev) : Dev :=
  let x := d.cap.units[u]
  let dec := capDecim x.conf
  let vals := d.capVals x
  let disc := x.disc || (List.range (capNch x.conf)).any (fun i => d.selDisc (wd x.conf (5 + i)))
  let ev := if x.state == .post then (x, none) else x.evalStage vals d.tick d.ring.addr
  let x1 := { ev.1 with written := x.written + 1, firstTick := if x.written = 0 then d.tick else x.firstTick,
                        lastTick := d.tick, events := [], disc := false }
  let ignored := x.state == .pre && !capEarly x.conf
  let due := if x.state == .post then [] else
    x1.pendTrig.filter (fun t => recTick dec t.tick ≤ d.tick) ++ ev.2.toList
  let win := if ignored then none else winner dec (due.map (fun t => { t with tick := max t.tick x1.firstTick }))
  let trigHere := match win with
    | some t => x1.trigRec t + 1 == x1.written
    | none => false
  let hdr := if capHdr x.conf then
    [mkw [(d.tick % 2 ^ 24, 8, 24), (b2n disc, 7, 1), (b2n trigHere, 6, 1)]] else []
  let d1 := d.put (x.slotAddr x.written) (bytesOf (hdr ++ vals.map iW))
  let x2 := if ignored && !due.isEmpty then
      { x1 with stage := 0, stageCount := 0, crossArmed := false, stageTick := d.tick, pendTrig := [] } else x1
  let x3 := if x2.state == .pre && x2.written ≥ x2.preN then { x2 with state := .waiting, waitTick := d.tick } else x2
  match x.state, win with
  | .post, _ =>
    let d2 := d1.modUnit u (fun _ => { x1 with post := x.post + 1 })
    match x.trigger with
    | some t => if x.post + 1 ≥ x.postN then d2.segComplete u t else d2
    | none => d2
  | _, some t => (d1.modUnit u (fun _ => x3)).cut m u t
  | _, none => d1.modUnit u (fun _ => x3)

/-- The capture work of a unit for the tick that ends (R379). -/
def Dev.capUnitTick (m : Memory) (u : Fin 8) (d : Dev) : Dev :=
  let x := d.cap.units[u]
  if x.conf.isEmpty then d
  else
    let isRec := d.tick % capDecim x.conf == 0
    let live := x.state == .pre || x.state == .waiting || x.state == .post
    let d1 := if isRec && live then d.capRecord m u else d
    let disc := capAvg x.conf && (List.range (capNch x.conf)).any (fun i => d.selDisc (wd x.conf (5 + i)))
    d1.modUnit u (fun y => { y with accum := if isRec then [] else d.capSums x,
                                    disc := if isRec then false else y.disc || disc })

/-- The capture work of every unit for the tick that ends. -/
def Dev.captureTick (m : Memory) (d : Dev) : Dev :=
  (List.finRange 8).foldl (fun d u => d.capUnitTick m u) d

/-! ## Ring triggers (R387) -/

/-- A trigger event of a group that the ring brought, with its tick, stamp and origin. -/
def Dev.ringTrigger (m : Memory) (group tick : Nat) (stamp : NetTime) (node : BitVec 10) (d : Dev) : Dev :=
  (List.finRange 8).foldl (fun d u =>
    let x := d.cap.units[u]
    if x.conf.isEmpty || !capRingIn x.conf || capGroup x.conf != group then d
    else if x.state == .waiting && tick + d.lateTicks < d.tick then
      let d1 := d.modUnit u (fun x => { x with ringLate := true })
      (if x.ringLate then d1 else d1.setIrq x.stall irqCapture).fire 100 .device
    else d.trigger m u ⟨tick, 1, some stamp, node⟩) d

/-! ## Commands -/

/-- The unit a command names. -/
def unitOf (c : Cmd) : Fin 8 := Fin.ofNat 8 (fld (wd c.payload 0) 2 0)
/-- Is the stall the claimer of a unit? -/
def Dev.claims (d : Dev) (u : Fin 8) (st : Stall) : Bool := d.cap.units[u].claimed && d.cap.units[u].stall == st
/-- Is a unit in one of states 2 to 5? -/
def CapUnit.active (u : CapUnit) : Bool :=
  u.state == .pre || u.state == .waiting || u.state == .post || u.state == .halted

/-- CaptureClaim (0x800, R401). -/
def applyCaptureClaim (c : Cmd) (d : Dev) : Dev :=
  let w := wd c.payload 0
  let u := unitOf c
  let x := d.cap.units[u]
  let rel := bitOf w 4
  let take := bitOf w 5
  Dev.checked c 1
    [(noWord c, stParam), (!rel && !take && x.claimed, stResource),
     ((rel && x.claimed && x.stall != c.stall) || (take && !d.isOwner c.stall), stNotOwner),
     (badLen c 1 || rsv w 0xFFFFFFC8 || (rel && take), stParam)]
    (fun d => (d.modUnit u (fun _ =>
      if rel then CapUnit.reset else { CapUnit.reset with claimed := true, stall := c.stall })).ok c []) d
/-- It waits for a tick boundary, and does everything there (03 R95). -/
def doCaptureClaim (st : Stall) (tag : BitVec 8) : Dev → Dev := Dev.startAtTick st tag 0x800

/-- Harvest buffers allotted to the other units, as (base, bytes). -/
def Dev.allotted (d : Dev) (u : Fin 8) : List (Nat × Nat) :=
  (List.finRange 8).filterMap (fun i =>
    if i == u || d.cap.units[i].conf.isEmpty then none
    else some (d.cap.units[i].base.toNat, capBuf d.cap.units[i].conf * 2097152))

/-- The lowest place of a buffer in the capture pool, in steps of 2 MiB (DESIGN CHOICE: the lowest that is free, log entry 47). -/
def firstFit (taken : List (Nat × Nat)) (bytes : Nat) : Option Nat :=
  (0x80000000 :: taken.map (fun t => t.1 + t.2)).foldl (fun best a =>
    if a + bytes ≤ 0x200000000 && taken.all (fun t => decide (a + bytes ≤ t.1 ∨ t.1 + t.2 ≤ a)) then
      (match best with | some b => some (min a b) | none => some a)
    else best) none

/-- Is a CaptureConfig payload out of range (R402)? -/
def capConfBad (c : Cmd) : Bool :=
  let p := c.payload
  let w := wd p 0
  c.payload.length != 5 + capNch p || rsv w 0xFC000080 || capMode p == 3 || capNch p == 0 || capNch p > 16 ||
    capSegments p == 0 || capSegments p > 32 || capBuf p == 0 || capBuf p > 3072 || fld (wd p 1) 15 0 == 0 ||
    (wd p 2).toNat > 2 ^ 31 || wd p 3 == 0 || (wd p 3).toNat > 2 ^ 31 || ((capMode p == 2) != (wd p 4 != 0)) ||
    !(p.drop 5).all selOk || capSegBytes p < 64 || capSlots p == 0

/-- The ring plan of this device with RING_OUT on a unit (11 R420). -/
def Dev.capRingBytes (d : Dev) (u : Fin 8) : Nat :=
  let others := ((List.finRange 8).filter (fun i => i != u && !d.cap.units[i].conf.isEmpty &&
    bitOf (wd d.cap.units[i].conf 0) 14)).length
  plannedBytes (masterCount d.mu.setMask d.mu.actMask) (others + 1) (safetyBytes d.safeSet) d.ring.conf.acycBytes.toNat

/-- CaptureConfig (0x801, R402, R380, R381). -/
def applyCaptureConfig (c : Cmd) (d : Dev) : Dev :=
  let u := unitOf c
  let place := firstFit (d.allotted u) (capBuf c.payload * 2097152)
  let cl := d.capClamp c.payload
  let clamped := cl.1 != (wd c.payload 2).toNat || cl.2 != (wd c.payload 3).toNat
  Dev.checked c 1
    [(noWord c, stParam), (!d.claims u c.stall, stNotOwner), (d.cap.units[u].active, stState), (capConfBad c, stParam),
     (place.isNone || (bitOf (wd c.payload 0) 14 && d.breaksCycle (d.capRingBytes u)), stResource)]
    (fun d => (d.modUnit u (fun x =>
      { CapUnit.reset with
          state := .idle, claimed := true, stall := c.stall, ringLate := x.ringLate, ringSkip := x.ringSkip,
          clamped := x.clamped || clamped, base := BitVec.ofNat 64 (place.getD 0),
          segBytes := BitVec.ofNat 32 (capSegBytes c.payload), conf := c.payload, trigHead := x.trigHead,
          trig := x.trig, preN := cl.1, postN := cl.2 })).ok c []) d
/-- It waits for a tick boundary, and does everything there (03 R95). -/
def doCaptureConfig (st : Stall) (tag : BitVec 8) : Dev → Dev := Dev.startAtTick st tag 0x801

/-- Is a stage of a CaptureTrigger out of range (R403)? -/
def stageBad (s : List W32) : Bool :=
  let cond := fld (wd s 0) 3 0
  let v := wd s 1
  rsv (wd s 0) 0x0000FE00 || fld (wd s 0) 31 16 == 0 || cond > 11 ||
    (cond == 7 && rsv v 0xFFFFFFC0) || (cond == 8 && rsv v 0xFFFFFF80) || (cond == 9 && rsv v 0xFFFFFE00) ||
    (!(3 ≤ cond && cond ≤ 6) && wd s 2 != 0)

/-- The stages of a CaptureTrigger payload. -/
def stagesOf (p : List W32) : List (List W32) :=
  (List.range (fld (wd p 0) 5 4 + 1)).map (fun j => (p.drop (1 + 4 * j)).take 4)

/-- CaptureTrigger (0x802, R403). -/
def applyCaptureTrigger (c : Cmd) (d : Dev) : Dev :=
  let u := unitOf c
  let x := d.cap.units[u]
  let sts := stagesOf c.payload
  Dev.checked c 1
    [(noWord c, stParam), (!d.claims u c.stall, stNotOwner), (x.state == .free || x.active, stState),
     (c.payload.length != 1 + 4 * sts.length || rsv (wd c.payload 0) 0xFFFFFFC8 || sts.any stageBad ||
        sts.any (fun s => decide (fld (wd s 0) 7 4 ≥ capNch x.conf)), stParam)]
    (fun d => (d.modUnit u (fun x => { x with trigHead := wd c.payload 0, trig := sts })).ok c []) d
/-- It waits for a tick boundary, and does everything there (03 R95). -/
def doCaptureTrigger (st : Stall) (tag : BitVec 8) : Dev → Dev := Dev.startAtTick st tag 0x802

/-- The checks of CaptureControl (R404). -/
def Dev.capControlChecks (d : Dev) (c : Cmd) : List (Bool × Nat) :=
  let u := unitOf c
  let x := d.cap.units[u]
  let op := fld (wd c.payload 0) 5 4
  let noSeg := x.state == .done && (x.freeFrom 0).isNone
  [(noWord c, stParam), (!d.claims u c.stall, stNotOwner),
   ((op == 0 && (!(x.state == .idle || x.state == .done) || noSeg)) ||
      (op == 1 && (x.state == .free || x.state == .idle || x.state == .done)) ||
      (op == 2 && x.state != .waiting), stState),
   (badLen c 1 || rsv (wd c.payload 0) 0xFFFFFFC8, stParam)]

/-- CaptureControl (0x803, R404): its checks; it applies at the next tick boundary. -/
def doCaptureControl (st : Stall) (tag : BitVec 8) : Dev → Dev :=
  Dev.start st tag 0x803 fun c d => Dev.checked c 1 (d.capControlChecks c) (fun d => d.await st tag .atTick) d

/-- ARM: state 2 in the next free segment, or state 5 with the CAPTURE cause if none is free (R383, R398). -/
def Dev.armUnit (u : Fin 8) (d : Dev) : Dev :=
  let x := d.cap.units[u]
  let d1 := d.modUnit u (fun x => x.nextSegment (x.seg.toNat + if x.state == .done then 1 else 0) d.tick)
  if d1.cap.units[u].state == .halted then d1.setIrq x.stall irqCapture else d1

/-- What a CaptureControl does at its tick boundary (R383, R386). -/
def applyCaptureControl (m : Memory) (c : Cmd) (d : Dev) : Dev :=
  let u := unitOf c
  Dev.checked c 1 (d.capControlChecks c) (fun d =>
    let d1 : Dev := match fld (wd c.payload 0) 5 4 with
      | 0 => d.armUnit u
      | 1 => d.modUnit u (fun x =>
          if x.state == .post then { x with stopAfter := true } else { x with state := .idle, pendTrig := [] })
      | 2 => d.trigger m u ⟨d.tick, 2, none, d.ring.addr⟩
      | _ => d.modUnit u (fun x =>
          if x.state == .free then x else { x with state := .idle, pendTrig := [], trigger := none, stopAfter := false })
    d1.ok c []) d

/-- A stall forces a unit through CAP_CTRL (R386, R398): it acts only in state 3; from another stall it is an access
error. -/
def doCapCtrlForce (st : Stall) (u : Fin 8) (m : Memory) (d : Dev) : Dev :=
  if !d.present st then d
  else if !d.claims u st then d.accessErr st
  else if d.cap.units[u].state == .waiting then d.trigger m u ⟨d.tick, 2, none, d.ring.addr⟩ else d

/-- CAP_DONE: segments are released; a halted unit goes on in the lowest one released (R398, R383). -/
def doCapDoneRelease (st : Stall) (u : Fin 8) (mask : W32) (d : Dev) : Dev :=
  if !d.present st then d
  else if !d.claims u st then d.accessErr st
  else
    let x := d.cap.units[u]
    let rel := x.done &&& mask
    let x1 := { x with done := x.done &&& ~~~mask }
    d.modUnit u (fun _ =>
      if x.state == .halted then
        (match (List.range 32).find? (fun s => rel.getLsbD s) with
         | some s => x1.enterPre s d.tick
         | none => x1)
      else x1)

/-- The timer of the present stage expires unsatisfied: the sequencer restarts, or the trigger fires (R384). Not before
the record that covers the expiry has been evaluated. -/
def doStageTimeout (u : Fin 8) (m : Memory) (d : Dev) : Dev :=
  let x := d.cap.units[u]
  match x.trig[x.stage.toNat]? with
  | none => d
  | some s =>
    let timer := (wd s 3).toNat
    if (x.state == .pre || x.state == .waiting) && timer > 0 && x.written > 0 && x.stageTick + timer ≤ x.lastTick then
      if bitOf (wd s 0) 8 then
        (d.trigger m u ⟨x.lastTick, 0, none, d.ring.addr⟩).modUnit u (fun y => { y with stageTick := d.tick })
      else d.modUnit u (fun x => { x with stage := 0, stageCount := 0, crossArmed := false, stageTick := x.lastTick })
    else d

/-- AUTO_TICKS in state 3 have passed in auto mode: the unit forces its own trigger (R386). -/
def doAutoTrigger (u : Fin 8) (m : Memory) (d : Dev) : Dev :=
  let x := d.cap.units[u]
  if capMode x.conf == 2 && x.state == .waiting && x.waitTick + (wd x.conf 4).toNat ≤ d.tick then
    d.trigger m u ⟨d.tick, 3, none, d.ring.addr⟩
  else d

/-- Does any axis with a leg on a named die have its bridge on or charging? -/
def Dev.dieBusy (d : Dev) (g : Fin 2) : Bool := allAxes.any (fun a => d.bridgeBusy a && d.onDie a g)

/-- SkewCal (0x810, R405): the calibration of the named dies starts. -/
def doSkewCal (st : Stall) (tag : BitVec 8) : Dev → Dev :=
  Dev.start st tag 0x810 fun c d =>
    let w := wd c.payload 0
    Dev.checked c 1
      [((bitOf w 0 && d.dieBusy 0) || (bitOf w 1 && d.dieBusy 1), stState),
       (badLen c 1 || rsv w 0xFFFFFFFC || fld w 1 0 == 0, stParam)]
      (fun d => { d.await st tag .started with cap := { d.cap with skewRun := Vector.ofFn (fun g : Fin 2 =>
        if bitOf w g.val then some (st, tag) else d.cap.skewRun[g]) } }) d

/-- A SkewCal none of whose dies is being calibrated any more completes. -/
def Dev.skewEnd (d : Dev) : Dev :=
  (d.hp.inFlight.filter (fun c => c.code == 0x810 && c.phase == .started &&
    (List.finRange 2).all (fun g => !bitOf (wd c.payload 0) g.val || d.cap.skewRun[g].isNone))).foldl
    (fun d c => d.ok c []) d

/-- A die's skew calibration ends (R376): its values wait for the next tick boundary, or the old ones stay and FS102 fires. -/
def doSkewCalDone (g : Fin 2) (residualOk : Bool) (values : List Int) (d : Dev) : Dev :=
  match d.cap.skewRun[g] with
  | none => d
  | some _ =>
    let d1 := if residualOk && (List.range 48).all (fun i => decide (-256 ≤ values.getD i 0 ∧ values.getD i 0 ≤ 256)) then
        { d with cap := { d.cap with skewNew := vset d.cap.skewNew g (some values) } }
      else d.fire 102 .device
    ({ d1 with cap := { d1.cap with skewRun := vset d1.cap.skewRun g none } }).skewEnd

/-- The values of the calibrations that have ended take effect together at the tick boundary, and stay over starts (R376). -/
def Dev.skewTick (d : Dev) : Dev :=
  { d with cap := { d.cap with
      skewNew := Vector.replicate 2 none
      trims := Vector.ofFn (fun k : Fin 96 => match d.cap.skewNew[(Fin.ofNat 2 (k.val / 48) : Fin 2)] with
        | some v => { d.cap.trims[k] with skewCal := BitVec.ofInt 10 (v.getD (k.val % 48) 0) }
        | none => d.cap.trims[k]) } }

/-- The checks of AdcConfig (R406). -/
def Dev.adcChecks (d : Dev) (c : Cmd) : List (Bool × Nat) :=
  let w := wd c.payload 0
  let a := axisOf c
  let trim := sfld (wd c.payload 1) 9 0
  [(noWord c, stParam), (d.axisUnfit a || d.bridgeBusy a, stState),
   (badLen c 2 || rsv w 0xFFFF00C0 || fld w 5 4 > 1 || rsv (wd c.payload 1) 0xFFFFFC00 || trim < -256 || trim > 256 ||
      legCount (d.mtype a) == 0, stParam)]

/-- AdcConfig (0x811, R406): its checks; it applies at the next frame boundary. -/
def doAdcConfig (st : Stall) (tag : BitVec 8) : Dev → Dev :=
  Dev.start st tag 0x811 fun c d => Dev.checked c 1 (d.adcChecks c) (fun d => d.await st tag .atFrame) d

/-- SKEW_TRIM of the legs of an axis. -/
def Dev.setTrims (a : AxisNo) (trim : BitVec 10) (d : Dev) : Dev :=
  (d.axisLegs a).foldl (fun d l => { d with cap := { d.cap with
    trims := vmod d.cap.trims (convOfLeg l) (fun t => { t with skewTrim := trim }) } }) d

/-- What an AdcConfig does at its frame boundary. -/
def applyAdcConfig (c : Cmd) (d : Dev) : Dev :=
  let a := axisOf c
  let w := wd c.payload 0
  Dev.checked c 1 (d.adcChecks c) (fun d =>
    let d1 := { d with cap := { d.cap with avgMode := vset d.cap.avgMode a (fld w 5 4 == 1),
                                           lsSettle := vset d.cap.lsSettle a (BitVec.ofNat 8 (fld w 15 8)) } }
    (d1.setTrims a (BitVec.ofNat 10 (fld (wd c.payload 1) 9 0))).ok c []) d

/-! ## Meanings -/

/-- CAPTURE_CLAIM. -/
def execCaptureClaim (st : Stall) (tag : BitVec 8) (s : State) : Host.Outcome State Fault Refusal :=
  .next (s.on (doCaptureClaim st tag))
/-- CAPTURE_CONFIG. -/
def execCaptureConfig (st : Stall) (tag : BitVec 8) (s : State) : Host.Outcome State Fault Refusal :=
  .next (s.on (doCaptureConfig st tag))
/-- CAPTURE_TRIGGER. -/
def execCaptureTrigger (st : Stall) (tag : BitVec 8) (s : State) : Host.Outcome State Fault Refusal :=
  .next (s.on (doCaptureTrigger st tag))
/-- CAPTURE_CONTROL. -/
def execCaptureControl (st : Stall) (tag : BitVec 8) (s : State) : Host.Outcome State Fault Refusal :=
  .next (s.on (doCaptureControl st tag))
/-- CAP_CTRL_FORCE. -/
def execCapCtrlForce (st : Stall) (unit : Fin 8) (s : State) : Host.Outcome State Fault Refusal :=
  .next (s.onMem (doCapCtrlForce st unit))
/-- CAP_DONE_RELEASE. -/
def execCapDoneRelease (st : Stall) (unit : Fin 8) (mask : W32) (s : State) : Host.Outcome State Fault Refusal :=
  .next (s.on (doCapDoneRelease st unit mask))
/-- STAGE_TIMEOUT. -/
def execStageTimeout (unit : Fin 8) (s : State) : Host.Outcome State Fault Refusal := .next (s.onMem (doStageTimeout unit))
/-- AUTO_TRIGGER. -/
def execAutoTrigger (unit : Fin 8) (s : State) : Host.Outcome State Fault Refusal := .next (s.onMem (doAutoTrigger unit))
/-- SKEW_CAL. -/
def execSkewCal (st : Stall) (tag : BitVec 8) (s : State) : Host.Outcome State Fault Refusal :=
  .next (s.on (doSkewCal st tag))
/-- SKEW_CAL_DONE. -/
def execSkewCalDone (die : Fin 2) (residualOk : Bool) (values : List Int) (s : State) :
    Host.Outcome State Fault Refusal := .next (s.on (doSkewCalDone die residualOk values))
/-- ADC_CONFIG. -/
def execAdcConfig (st : Stall) (tag : BitVec 8) (s : State) : Host.Outcome State Fault Refusal :=
  .next (s.on (doAdcConfig st tag))

end Sys2Proof.Machine
end

