-- ==== Sys2Proof/Machine/Budget.lean ====
section
/-! DEFINITION. The cycle budget: admitted costs and the check against it (spec 02 R56 to R60, R67; 04 R112, R120,
R125; 05 R163). -/
namespace Sys2Proof.Machine
open Sys2Proof

/-- Admission cost of a source mode (07 Table 7.1). -/
def modeCost (m : Nat) : Nat :=
  match m with
  | 1 | 3 => 90
  | 2 => 60
  | 4 => 210
  | 5 => 260
  | 8 | 9 => 120
  | _ => 0

/-- Conditioning and current law of a motor type (04 R112, Table 4.1). -/
def typeCost (t stepModes : Nat) : Nat :=
  match t with
  | 1 => 90 + 520
  | 2 => 90 + 180
  | 3 => 70 + (if stepModes = 1 then 240 else 460)
  | 4 => 40 + 180
  | _ => 0

/-- The sources that a plot names, each once (04 R120). -/
def plotSources (w3 : W32) : List Nat := ([fld w3 5 0, fld w3 13 8, fld w3 21 16].filter (fun s => decide (s < 32))).eraseDups

/-- Admitted cost of a plot given the mode of each source and the static bound of each program (R56, R58). -/
def costOf (mode bound : Nat → Nat) (p : Nat → W32) : Nat :=
  let w := p 5
  let on (b cost : Nat) : Nat := if bitOf w b then cost else 0
  let feedback := (plotSources (p 3)).foldl (fun acc s => acc + modeCost (mode s)) 0
  let prog := fld w 23 16
  180 + typeCost (fld (p 0) 3 0) (fld w 15 14) + feedback + on 6 380 + on 7 150 + 36 * (fld w 10 8 + fld w 13 11) + on 0 260 +
    on 1 220 + on 2 140 + (if bitOf w 4 then 260 else on 3 180) + on 5 340 + (if prog = 0 then 0 else bound prog + 12)

/-- MODE of a source. -/
def Dev.modeOf (d : Dev) (s : Nat) : Nat := if s < 32 then fld d.fb.src[Fin.ofNat 32 s].conf[0] 11 8 else 0
/-- A loaded user law program. -/
def Dev.prog? (d : Dev) (n : Nat) : Option Program := Mem.read none d.progs.progs n
/-- Static bound of a program, 0 where none is loaded. -/
def Dev.boundOf (d : Dev) (n : Nat) : Nat := ((d.prog? n).map (·.bound)).getD 0
/-- Admitted cost of a plot record under the present modes and programs. -/
def Dev.costOfPlot (d : Dev) (p : Nat → W32) : Nat := costOf d.modeOf d.boundOf p
/-- Budget limit of a tick (R57). -/
def limitOf (tickClks : Nat) : Nat := tickClks * 9 / 10

/-- The axis that is reported when costs break the present limit, or the pending one (R60, R67): its number, the excess,
and the limit that was failed. -/
def overBudget (present pending : Nat) : List (Nat × Nat) → Option (Nat × Nat × Nat)
  | [] => none
  | (a, c) :: rest =>
    if c > pending then some (a, c - pending, pending)
    else if c > present then some (a, c - present, present)
    else overBudget present pending rest

/-- The limits in force: of the present tick, and of the pending one where a TickSet waits. -/
def Dev.limits (d : Dev) : Nat × Nat :=
  let p := limitOf d.tickClks
  (p, (d.tk.pendingSet.map (fun s => limitOf s.conf.tickClks.toNat)).getD p)

/-- Admission of costs by axis, lowest axis first. -/
def Dev.failsBudget (d : Dev) (costs : List (Nat × Nat)) : Option (Nat × Nat × Nat) := overBudget d.limits.1 d.limits.2 costs

/-- The response BUDGET (R60). -/
def Dev.respondBudget (c : Cmd) (x : Nat × Nat × Nat) (d : Dev) : Dev :=
  d.respond c.stall c.tag stBudget [mkw [(x.2.1, 16, 16), (x.1, 0, 5)], nW x.2.2]

/-- ADMITTED of every axis, computed anew. -/
def Dev.readmit (d : Dev) : Dev :=
  { d with tk := { d.tk with admitted := Vector.ofFn (fun a : Fin 16 =>
      if d.assigned a then BitVec.ofNat 16 (d.costOfPlot (d.plotW a)) else 0) } }

/-- Costs of the assigned axes of a list under other modes and programs. -/
def Dev.costsWith (d : Dev) (mode bound : Nat → Nat) (l : List AxisNo) : List (Nat × Nat) :=
  (l.filter (fun a => d.assigned a)).map (fun a => (a.val, costOf mode bound (d.plotW a)))

end Sys2Proof.Machine
end

