-- ==== Sys2Proof/Machine/Flags.lean ====
section
/-! DEFINITION. The flags of a lane and the fitting of results to their destinations (spec 05 R142 to R145). -/
namespace Sys2Proof.Machine
open Sys2Proof

/-- Wrap an integer to n bits, two's complement. -/
def wrapS (n : Nat) (v : Int) : Int := signedOf n (patOf n v)
/-- Does an exact result fit a destination of n bits? -/
def fits (n : Nat) (v : Int) : Bool := decide (satS n v = v)
/-- What an exact result leaves in a destination of n bits: saturated with S, wrapped without (R144). -/
def fitTo (n : Nat) (sat : Bool) (v : Int) : Int := if sat then satS n v else wrapS n v
/-- Division by 2^k rounded to nearest with ties toward +∞ (R145). -/
def rshift (v : Int) (k : Nat) : Int := if k = 0 then v else Int.fdiv (v + 2 ^ (k - 1)) (2 ^ k)

/-- Z and N of a result (Table 5.6). -/
def Lane.setZN (r : Int) (l : Lane) : Lane := { l with z := decide (r = 0), n := decide (r < 0) }
/-- V of an exact result that fitted or not; SV is sticky (Table 5.6). -/
def Lane.setV (overflow : Bool) (l : Lane) : Lane := { l with v := overflow, sv := l.sv || overflow }
/-- A program fault: AERR is sticky (R149). -/
def Lane.fault (l : Lane) : Lane := { l with aerr := true }

/-- The conditions of Table 5.8. -/
def Lane.cond (l : Lane) (cc : Fin 16) : Bool :=
  match cc.val with
  | 0 => l.z
  | 1 => !l.z
  | 2 => l.n
  | 3 => !l.n
  | 4 => !l.n && !l.z
  | 5 => l.n || l.z
  | 6 => l.v
  | 7 => !l.v
  | 8 => l.l
  | 9 => !l.l
  | _ => false

end Sys2Proof.Machine
end

