-- ==== Sys2Proof/Machine/Fixed.lean ====
section
/-! DEFINITION. Fixed-point helpers of the laws: sine and cosine, square root, and gains (spec 06 R179 to R181). -/
namespace Sys2Proof.Machine
open Sys2Proof

/-- π in 2^-40. -/
def pi40 : Int := 3454217652358
/-- √3 in 2^-40. -/
def sqrt3_40 : Int := 1904410002821

/-- sin x for 0 ≤ x ≤ π ÷ 2, both in 2^-40: the Taylor sum to the 15th power. -/
def sinTaylor (x : Int) : Int :=
  let x2 := x * x / 2 ^ 40
  let term (acc : Int) (k : Int) : Int := 2 ^ 40 - x2 * acc / 2 ^ 40 / k
  x * ([210, 156, 110, 72, 42, 20, 6].foldl term (2 ^ 40)) / 2 ^ 40

/-- sin(π × t ÷ 2^19) in 2^-40, t in 2^-19 half turns. -/
def sin40 (t : Int) : Int :=
  let u := t % 2 ^ 20
  let half := if u ≥ 2 ^ 19 then u - 2 ^ 19 else u
  let v := if half > 2 ^ 18 then 2 ^ 19 - half else half
  let s := sinTaylor (v * pi40 / 2 ^ 19)
  if u ≥ 2 ^ 19 then -s else s
/-- cos(π × t ÷ 2^19) in 2^-40. -/
def cos40 (t : Int) : Int := sin40 (t + 2 ^ 18)

/-- The integer square root, rounded down, of a number below 4^n: bit by bit. -/
def isqrtFrom : Nat → Nat → Nat → Nat
  | 0, _, r => r
  | n + 1, x, r => let c := r + 2 ^ n; isqrtFrom n x (if c * c ≤ x then c else r)
/-- The square root of a number below 2^128, rounded down. -/
def isqrt (x : Nat) : Nat := isqrtFrom 64 x 0
/-- The square root rounded to nearest. -/
def rsqrt (x : Nat) : Nat := (isqrt (4 * x) + 1) / 2

/-- Saturation to a Q1.19 word. -/
def sat20 (v : Int) : Int := satS 20 v
/-- An angle wrapped to −1 … +1 − 2^-19 half turns. -/
def wrap20 (v : Int) : Int := wrapS 20 v
/-- A product of Q1.19 numbers, rounded to Q1.19. -/
def mul19 (a b : Int) : Int := rshift (a * b) 19
/-- A sum of products with a sine or cosine in 2^-40, rounded to Q1.19 once. -/
def rot19 (a c b s : Int) : Int := rshift (a * c + b * s) 40

/-- A loop gain K × 2^E of R180. -/
structure Gain where
  k : Int
  e : Int
  deriving DecidableEq, Repr

/-- The gain in words i and i + 1 of a bank; an exponent outside −19 to +19 is the nearer end. -/
def gainAt (bank : Mem W20) (i : Nat) : Gain :=
  ⟨(Mem.read 0 bank i).toInt, clampI (-19) 19 (Mem.read 0 bank (i + 1)).toInt⟩
/-- Gain × signal in units of 2^-19 of the signal's last bit, exact. -/
def Gain.exact (g : Gain) (s : Int) : Int := g.k * s * 2 ^ (g.e + 19).toNat
/-- Gain × signal, rounded once to the signal's last bit. -/
def Gain.mul (g : Gain) (s : Int) : Int := rshift (g.exact s) 38
/-- Gain × signal as an increment of an integrator in 2^-38, rounded once. -/
def Gain.int (g : Gain) (s : Int) : Int := rshift (g.exact s) 19
/-- Gain × a product of two Q1.19 signals, rounded once to Q1.19. -/
def Gain.mul2 (g : Gain) (s t : Int) : Int := rshift (g.exact (s * t)) 57
/-- An integrator's output in Q1.19 (R181). -/
def xOut (x : Int) : Int := sat20 (rshift x 19)

end Sys2Proof.Machine
end

