-- ==== Sys2Proof/Machine/Rotation.lean ====
section
/-! DEFINITION. Lanes in error, the lane rotation, the converter rotation and the built-in self-test (spec 02 R61; 05 R138;
14 R533 to R540, R542, R547, R558, R559). -/
namespace Sys2Proof.Machine
open Sys2Proof

def Dev.modSv (f : Service → Service) (d : Dev) : Dev := { d with sv := f d.sv }
def Dev.modRot (f : Rotation → Rotation) (d : Dev) : Dev := d.modSv (fun s => { s with rot := f s.rot })

/-- Has a time in ms passed since a clock, at the latest at the end of the present tick? -/
def Dev.passedMs (d : Dev) (since ms : Nat) : Bool := decide (d.clk + d.tickClks ≥ since + ms * clksPerMs)

/-! ## Lanes and their axes -/

/-- Lanes in service-capable state. -/
def Dev.capable (d : Dev) : Nat := (allLanes.filter (fun l => d.lanes[l].role != .out)).length
/-- A lane takes an axis from the coming tick on. -/
def Dev.serve (l : LaneNo) (a : AxisNo) (d : Dev) : Dev :=
  d.modLane l (fun x => { x with role := .inService, axis := a, phase := .idle })
/-- Code of a role, LANE_STATE.ROLE. -/
def LaneRole.code : LaneRole → Nat
  | .inService => 0
  | .spare => 1
  | .fallow => 2
  | .out => 3
/-- The ledger record of a role change caused by an error (Table 14.7). -/
def Dev.laneRecord (l : LaneNo) (taker : Nat) (axes : Nat) (d : Dev) : Dev :=
  let x := d.lanes[l]
  d.ledger 4 0 0 axes (mkw [(l.val, 0, 5), (x.role.code, 8, 2), (taker, 16, 5), (x.errors.toNat, 24, 8)]) 0
/-- ERRORS of a lane rises, saturating; one that reaches 4 takes the lane out of service after its test (R535). -/
def Dev.laneErr (l : LaneNo) (d : Dev) : Dev :=
  (d.modLane l (fun x => { x with errors := BitVec.ofNat 8 (satU 8 (x.errors.toNat + 1)) })).modRot (fun r =>
    { r with worn := if d.lanes[l].errors.toNat + 1 ≥ 4 && !r.worn.contains l then r.worn ++ [l] else r.worn })

/-- A motion engine that holds for some lane clocks: its profile starts that much later. -/
def Motion.hold (clks : Nat) (m : Motion) : Motion :=
  { m with profile := m.profile.map (fun p => { p with startClk := p.startClk + clks }),
           cur := m.cur.map (fun e => { e with startClk := e.startClk + clks }) }

/-- The tick of an axis's lane is discarded: no state word, no far store and no duty takes effect, and the generator
holds (02 R61, 05 R138). -/
def Dev.discardTick (l : LaneNo) (d : Dev) : Dev :=
  let x := d.lanes[l]
  if x.role != .inService || x.phase == .idle || x.phase == .discarded then d
  else
    let a := x.axis
    let d1 := (d.modLane l (fun x => { x with phase := .discarded, far := [] })).modLoop a (fun y => { y with discarded := true })
    match d.saved[a] with
    | some (c, m0) =>
      let now := d.mot[a]
      -- what a reaction of this tick has ended stays ended
      let m1 := if d.axf[a].fault then
          { m0 with cur := now.cur, queue := now.queue, ends := now.ends, dwellUntil := now.dwellUntil, home := now.home, homeState := now.homeState }
        else m0
      let m := { m1 with stopAsked := now.stopAsked }
      { d1 with ctl := vset d1.ctl a c, saved := vset d1.saved a none,
                mot := vset d1.mot a (if d.isFrame then m.hold (d.tickClks * d.tk.conf.frameTicks.toNat) else m) }
    | none => d1

/-- A lane in service in error in this tick: the tick is discarded, the source fires on its axis, FS031 on a second error
in two ticks, and the spare is due at the next boundary (R61, R535). -/
def Dev.laneFault (l : LaneNo) (src : Nat) (d : Dev) : Dev :=
  if d.sv.rot.errs.contains l then d
  else
    let a := d.lanes[l].axis
    let d1 := (((d.discardTick l).laneErr l).modRot (fun r => { r with errs := r.errs ++ [l], sown := if d.ft.sown then r.sown ++ [l] else r.sown })).fire src (.axes [a])
    if d.tk.overran[a] then d1.fire 31 (.axes [a]) else d1

/-- A lane under test starts its test anew. -/
def Rotation.restartTest (r : Rotation) (l : LaneNo) : Rotation := if r.fallow = some l then { r with passed := false } else r

/-- LANE_ERROR. A spare or fallow lane fires FS140 on no axis (R542; for a spare that is not tested, DEDUCED, log entry 86). -/
def doLaneError (ln : LaneNo) (d : Dev) : Dev :=
  match d.lanes[ln].role with
  | .out => d
  | .inService => d.withSown 0 ln.val 140 (fun d => d.laneFault ln 140)
  | _ => d.withSown 0 ln.val 140 (fun d => ((d.fire 140 (.axes [])).laneErr ln).modRot (fun r => r.restartTest ln))

/-! ## Changes at a tick boundary -/

/-- The next lane to test, where none is under test. -/
def Dev.nextFallow (d : Dev) : Dev :=
  match d.sv.rot.fallow with
  | some _ => d
  | none => d.modRot (fun r => { r with fallow := allLanes.find? (fun l => d.lanes[l].role == .fallow), passed := false })

/-- A fallow lane that has passed its test becomes the spare while none exists (R533). -/
def Dev.promote (d : Dev) : Dev :=
  match d.sv.rot.spare, d.sv.rot.fallow with
  | none, some f =>
    if d.sv.rot.passed then
      ((d.modLane f (fun x => { x with role := .spare })).modRot (fun r =>
        { r with spare := some f, fallow := none, passed := false, inPlace := false })).nextFallow
    else d
  | _, _ => d

/-- The lane that was fallow abandons its test and becomes the spare, the first to be tested later (R535). -/
def Dev.abandonTest (d : Dev) : Dev :=
  match d.sv.rot.fallow with
  | some f =>
    if d.sv.rot.inPlace then d
    else (d.modLane f (fun x => { x with role := .spare })).modRot (fun r =>
      { r with spare := some f, testOrder := f :: r.testOrder.filter (· != f) })
  | none => d

/-- The lane in error with the lowest axis: the spare takes its axis, and it goes fallow (R535). -/
def Dev.takeOver (x s : LaneNo) (d : Dev) : Dev :=
  let a := d.lanes[x].axis
  let d1 := (d.serve s a).modRot (fun r => { r with spare := none, fallow := if r.inPlace then none else r.fallow, inPlace := false })
  let d2 := d1.abandonTest.modLane x (fun y => { y with role := .fallow, phase := .idle })
  let d3 := (d2.modRot (fun r => { r with fallow := some x, passed := false, takeoverTick := some (d.age + 1) })).laneRecord x
    s.val (2 ^ a.val)
  match d1.sv.rot.fallow with
  | some f => d3.laneRecord f 31 0
  | none => d3

/-- A lane in error without a spare: FS142, and its axis is not served (R536). -/
def Dev.loseLane (x : LaneNo) (d : Dev) : Dev :=
  let a := d.lanes[x].axis
  (((d.fire 142 (.axes [a])).modLane x (fun y => { y with role := .fallow, phase := .idle })).laneRecord x 31 (2 ^ a.val)).nextFallow

/-- Axes without a lane are served by a spare that exists, the lowest first (R536). -/
def Dev.serveLeft (d : Dev) : Dev :=
  allAxes.foldl (fun d a =>
    match d.laneOf a, d.sv.rot.spare with
    | none, some s => ((d.serve s a).modRot (fun r =>
        { r with spare := none, fallow := if r.inPlace then none else r.fallow, inPlace := false,
                 takeoverTick := some (d.age + 1) })).promote
    | _, _ => d) d

/-- Takeovers due at a tick boundary, and the record of which axes overran (R61, R535, R536). -/
def Dev.takeovers (d : Dev) : Dev :=
  let errs := allAxes.filterMap (fun a => d.sv.rot.errs.find? (fun l => d.lanes[l].role == .inService && d.lanes[l].axis == a))
  let isOver := Vector.ofFn (fun a : Fin 16 => errs.any (fun l => d.lanes[l].axis == a))
  let d0 := { d with tk := { d.tk with overran := isOver } }.modRot (fun r => { r with errs := [], sown := [] })
  let d1 : Dev := match errs with
    | [] => d0
    | x :: xs =>
      let sown (l : LaneNo) : Bool := d.sv.rot.sown.contains l
      let d1 := d0.asSown (sown x) (fun d => match d.sv.rot.spare with
        | some s => d.takeOver x s
        | none => d.loseLane x)
      xs.foldl (fun d y => d.asSown (sown y) (fun d => d.loseLane y)) d1
  d1.promote.serveLeft

/-! ## The rotation (R533, R534, R537, R558) -/

/-- ROT_TICKS. -/
def Dev.rotTicks (d : Dev) : Nat := max 1 (2000 * clksPerMs / max 1 d.tickClks)

/-- The in-service lane that has gone longest since its last test. -/
def Dev.longest (d : Dev) : Option LaneNo := d.sv.rot.testOrder.find? (fun l => d.lanes[l].role == .inService)

/-- A step of the rotation: with 17 lanes the new spare is tested in place (R533, R537). -/
def Dev.rotate (d : Dev) : Dev :=
  match d.sv.rot.spare, d.longest with
  | some s, some x =>
    let a := d.lanes[x].axis
    match d.sv.rot.fallow with
    | some f =>
      if d.sv.rot.passed && !d.sv.rot.inPlace then
        (((d.serve s a).modLane f (fun y => { y with role := .spare })).modLane x (fun y => { y with role := .fallow, phase := .idle })).modRot
          (fun r => { r with spare := some f, fallow := some x, passed := false })
      else d
    | none =>
      ((d.serve s a).modLane x (fun y => { y with role := .fallow, phase := .idle })).modRot
        (fun r => { r with spare := some x, fallow := some x, passed := false, inPlace := true })
  | _, _ => d

/-- A lane goes out of service with FS141 where an error took it out. -/
def Dev.laneOut (l : LaneNo) (d : Dev) : Dev :=
  ((d.modLane l (fun x => { x with role := .out, phase := .idle })).modRot (fun r =>
    { r with spare := if r.spare = some l then none else r.spare, fallow := if r.fallow = some l then none else r.fallow,
             worn := r.worn.filter (· != l), passed := r.passed && r.fallow != some l, inPlace := r.inPlace && r.fallow != some l })).nextFallow

/-- The fallow lane, its test passed, becomes the spare. -/
def Dev.fallowToSpare (d : Dev) : Dev := (d.modRot (fun r => { r with spare := none })).promote

/-- A RETIRE at its tick: STATE when no spare would remain (R558). -/
def Dev.retireNow (x : LaneNo) (d : Dev) : Nat × Dev :=
  let r := d.sv.rot
  let passed := r.passed && !r.inPlace && r.fallow.isSome
  match d.lanes[x].role with
  | .out => (stOk, d)
  | .inService =>
    (match r.spare with
     | some s =>
       if passed then
         let a := d.lanes[x].axis
         (stOk, (((d.modLane x (fun y => { y with role := .out, phase := .idle })).serve s a).fallowToSpare).fire 141 .device)
       else (stState, d)
     | none => (stState, d))
  | .spare => if passed then (stOk, ((d.modLane x (fun y => { y with role := .out })).fallowToSpare).fire 141 .device) else (stState, d)
  | .fallow => if r.spare.isSome && r.spare != some x then (stOk, (d.laneOut x).fire 141 .device) else (stState, d)

/-- ROTATION_STEP, between the commit of the tick before and the entry of a tick divisible by ROT_TICKS. -/
def doRotationStep (d : Dev) : Dev :=
  let r := d.sv.rot
  if (d.tick + 1) % d.rotTicks ≠ 0 then d
  else if !r.retire.isEmpty then
    r.retire.foldl (fun d l =>
      let x := d.retireNow l
      (d.hp.inFlight.filter (fun c => c.code == 0xB10 && c.phase == .started && retireLane c == l)).foldl
        (fun d c => d.respond c.stall c.tag x.1 []) x.2) (d.modRot (fun r => { r with retire := [] }))
  else if r.hold || !r.errs.isEmpty || (r.takeoverTick.map (fun t => decide (d.age + 1 ≤ t + 2))).getD false then d
  else d.rotate

/-- LANE_TEST_DONE: the test of the lane under test ends; its image check sets PM_OK, and a lane that fails goes out of
service (R534, R535, 05 R162). -/
def doLaneTestDone (ln : LaneNo) (test : LaneTest) (d : Dev) : Dev :=
  let r := d.sv.rot
  if r.fallow ≠ some ln ∨ r.passed then d
  else
    let d1 := (d.modRot (fun r => { r with testOrder := r.testOrder.filter (· != ln) ++ [ln] })).modLane ln (fun x =>
      { x with pmOk := match test with
          | .pass => true
          | .imageBad => false
          | .failed => x.pmOk })
    if test != .pass || r.worn.contains ln then ((d1.laneOut ln).fire 141 .device).laneRecord ln 31 0
    else if r.inPlace then
      (d1.modLane ln (fun x => { x with role := .spare })).modRot (fun r => { r with fallow := none, inPlace := false })
    else d1.modRot (fun r => { r with passed := true })

/-- ROTATION_CONTROL. -/
def doRotationControl (st : Stall) (tag : BitVec 8) : Dev → Dev :=
  Dev.start st tag 0xB10 fun c d =>
    let w := wd c.payload 0
    let op := fld w 1 0
    let l := retireLane c
    let out := d.lanes[l].role == .out
    let pend := d.sv.rot.retire.contains l
    d.checked c 1
      [(noWord c, stParam),
       (op == 2 && decide (fld w 12 8 < 18) && !out && !pend && decide (d.capable < d.sv.rot.retire.length + 18), stState),
       (badLen c 1 || op == 3 || rsv w 0xFFFFE0FC || (op != 2 && rsv w 0x1F00) || (op == 2 && decide (fld w 12 8 ≥ 18)), stParam)]
      fun d =>
        if op = 0 then (d.modRot (fun r => { r with hold := false })).ok c []
        else if op = 1 then (d.modRot (fun r => { r with hold := true, holdSince := d.clk })).ok c []
        else if out then d.ok c []
        else (d.modRot (fun r => { r with retire := if pend then r.retire else r.retire ++ [l] })).await st tag .started

/-- ROTATION_HOLD_EXPIRY: one hour. -/
def doRotationHoldExpiry (d : Dev) : Dev :=
  if d.sv.rot.hold && d.passedMs d.sv.rot.holdSince 3600000 then d.modRot (fun r => { r with hold := false }) else d

/-! ## Converters (R538 to R540) -/

/-- Converter number of a spare. -/
def spareConv (i : Fin 4) : Nat := if i.val = 0 then 46 else if i.val = 1 then 47 else if i.val = 2 then 94 else 95
/-- The other spare of a spare's die. -/
def otherSpare (i : Fin 4) : Fin 4 := if i.val % 2 = 0 then i + 1 else i - 1
/-- The gate die of a converter: 0 GS-A, 1 GS-B. -/
def convDie (k : Nat) : Nat := if k < 48 then 0 else 1
def Dev.modConv (k : Nat) (f : ConvState → ConvState) (d : Dev) : Dev :=
  d.modSv (fun s => { s with conv := vmod s.conv (Fin.ofNat 96 k) f })
def Dev.modSpare (i : Fin 4) (f : SpareState → SpareState) (d : Dev) : Dev :=
  d.modSv (fun s => { s with spares := vmod s.spares i f })
/-- Does a spare stand in for good? -/
def SpareState.isPermanent (s : SpareState) : Bool := match s.step with | .permanent _ => true | _ => false
/-- The converter a spare's stand-in concerns. -/
def StandIn.conv : StandIn → Option Nat
  | .none => Option.none
  | .overlap k | .deliver k | .back k | .recal k | .permanent k | .bist k => some k

/-- First and one past the last converter that a spare covers: the whole die while the other stands in for good. -/
def Dev.spareRange (d : Dev) (i : Fin 4) : Nat × Nat :=
  let base := if i.val < 2 then 0 else 48
  if d.sv.spares[otherSpare i].isPermanent then (base, base + 46)
  else if i.val % 2 = 0 then (base, base + 23) else (base + 23, base + 46)

/-- The converter after one in a spare's round: after its range the spare itself. -/
def Dev.nextConv (d : Dev) (i : Fin 4) (k : Nat) : Nat :=
  let r := d.spareRange i
  if k = spareConv i then r.1 else if k + 1 ≥ r.2 ∨ k < r.1 then spareConv i else k + 1

/-- A stand-in that is no fault's ends: both converters go back to service. -/
def Dev.endStandIn (i : Fin 4) (d : Dev) : Dev :=
  match d.sv.spares[i].step.conv with
  | none => d
  | some k =>
    ((d.modConv k (fun c => { c with mode := .inService, partner := 127 })).modConv (spareConv i)
      (fun c => { c with mode := .inService, partner := 127 })).modSpare i (fun s => { s with step := .none })

/-- A spare delivers in a converter's place while that calibrates. -/
def Dev.standIn (i : Fin 4) (k : Nat) (step : StandIn) (d : Dev) : Dev :=
  let d1 := (d.modConv k (fun c => { c with mode := .calibrating, partner := BitVec.ofNat 7 (spareConv i) })).modSpare i
    (fun s => { s with step := step })
  if k = spareConv i then d1.modConv k (fun c => { c with partner := 127 })
  else d1.modConv (spareConv i) (fun c => { c with mode := .standingIn, partner := BitVec.ofNat 7 k })

/-- The ledger record of a converter whose state an error changed (Table 14.7). -/
def Dev.convRecord (k : Nat) (spare : Nat) (d : Dev) : Dev :=
  let c := d.sv.conv[Fin.ofNat 96 k]
  let m := match c.mode with | .inService => 0 | .calibrating => 1 | .standingIn => 2 | .retired => 3
  d.ledger 5 0 0 0 (mkw [(k, 0, 7), (m, 8, 2), (spare, 16, 7), (c.errors.toNat, 24, 8)]) 0

/-- The axes whose results come from a converter (04 Table 4.2, R118). -/
def Dev.axesOfConv (d : Dev) (k : Nat) : List AxisNo :=
  let j := k % 48
  let die : Fin 2 := if k < 48 then 0 else 1
  let legs (l : List Nat) : List AxisNo := allAxes.filter (fun a => (d.axisLegs a).any (fun x => l.contains x.val))
  if j < 24 then legs [j + 24 * die.val]
  else if j < 40 then d.axesOfSrc ((j - 24) / 2 + 8 * die.val)
  else if j < 44 then legs ((List.range 6).map (fun i => 6 * (j - 40) + i + 24 * die.val))
  else if j < 46 then allAxes.filter (fun a => d.onDie a die)
  else []

/-- A converter retires: the spare stands in permanently (R539). -/
def Dev.retireConv (i : Fin 4) (k : Nat) (d : Dev) : Dev :=
  ((((d.modConv k (fun c => { c with mode := .retired, partner := BitVec.ofNat 7 (spareConv i) })).modConv (spareConv i)
    (fun c => { c with mode := .standingIn, partner := BitVec.ofNat 7 k })).modSpare i
      (fun s => { s with step := .permanent k })).fire 144 (.axes (d.axesOfConv k))).convRecord k (spareConv i)

/-- The spare that may stand in for a converter in error: the one relieving it, that of its range, or the die's other. -/
def Dev.spareFor (d : Dev) (k : Nat) : Option (Fin 4) :=
  let die : List (Fin 4) := if k < 48 then [0, 1] else [2, 3]
  let able := die.filter (fun i => !d.sv.spares[i].isPermanent && spareConv i != k)
  let busy (i : Fin 4) : Bool := match d.sv.spares[i].step with
    | .recal x => x != k
    | _ => false
  match able.find? (fun i => d.sv.spares[i].step.conv == some k) with
  | some i => some i
  | none =>
    let free := able.filter (fun i => !busy i)
    match free.find? (fun i => (d.spareRange i).1 ≤ k && k < (d.spareRange i).2) with
    | some i => some i
    | none => free.head?

/-- May another stand-in end this one? -/
def StandIn.free : StandIn → Bool
  | .permanent _ | .recal _ => false
  | _ => true

/-- The spare whose converter number is k. -/
def spareOf (k : Nat) : Option (Fin 4) := (List.finRange 4).find? (fun i => spareConv i == k)

/-- A spare takes over a stand-in that is a fault's, or for good. -/
def Dev.takeStandIn (j : Fin 4) (k : Nat) (forGood : Bool) (d : Dev) : Dev :=
  let d1 := (d.endStandIn j).standIn j k (if forGood then .permanent k else .recal k)
  if forGood then d1.modConv k (fun c => { c with mode := .retired }) else d1

/-- An error of a spare: what it stood in for by a fault goes to the die's other spare, or FS145 fires where that is not
free; the spare itself is recalibrated in place, or retired (R539, R540; log entry 125). -/
def Dev.spareError (i : Fin 4) (k : Nat) (d : Dev) : Dev :=
  let j := otherSpare i
  let s := d.sv.spares[i].step
  let d1 := d.endStandIn i
  let axes : List AxisNo := match s.conv with
    | some x => d.axesOfConv x
    | none => []
  let give (x : Nat) (forGood : Bool) : Dev :=
    if d.sv.spares[j].step.free then d1.takeStandIn j x forGood else d1.fire 145 (.axes axes)
  let d2 : Dev := match s with
    | .permanent x => give x true
    | .recal x => if x = k then d1 else give x false
    | _ => d1
  if s == .recal k || d2.sv.conv[Fin.ofNat 96 k].errors.toNat ≥ 4 then
    ((((d2.modConv k (fun c => { c with mode := .retired, partner := 127 })).modSpare i
      (fun x => { x with step := .permanent k })).fire 144 (.axes axes))).convRecord k 127
  else ((d2.standIn i k (.recal k)).fire 143 (.axes axes)).convRecord k 127

/-- A converter error (R539, R540): ERRORS rises; a spare stands in and the converter is recalibrated in place, or it is
retired; without a spare FS145 acts on the axes that use it. -/
def Dev.convError (k : Nat) (d : Dev) : Dev :=
  let c := d.sv.conv[Fin.ofNat 96 k]
  if c.mode == .retired then d
  else
    let d1 := d.modConv k (fun c => { c with errors := BitVec.ofNat 8 (satU 8 (c.errors.toNat + 1)), hold := true })
    match spareOf k with
    | some i => d1.spareError i k
    | none =>
      match d1.spareFor k with
      | none => d1.fire 145 (.axes (d1.axesOfConv k))
      | some i =>
        let again := d1.sv.spares[i].step == .recal k
        let d2 := if d1.sv.spares[i].step.conv == some k then d1 else d1.endStandIn i
        if again || d1.sv.conv[Fin.ofNat 96 k].errors.toNat ≥ 4 then d2.retireConv i k
        else ((d2.standIn i k (.recal k)).fire 143 (.axes (d1.axesOfConv k))).convRecord k (spareConv i)

/-- CONVERTER_STANDIN_STEP: the next step of a spare's stand-in, and how a calibration that ends went. -/
def doConverterStandinStep (spare : Fin 4) (calOk : Bool) (d : Dev) : Dev :=
  let s := d.sv.spares[spare]
  match s.step with
  | .none =>
    let n := d.nextConv spare s.next
    if d.sv.conv[Fin.ofNat 96 s.next].mode == .inService then
      (if s.next = spareConv spare then d.standIn spare s.next (.deliver s.next)
       else d.modSpare spare (fun x => { x with step := .overlap s.next })).modSpare spare (fun x => { x with next := n })
    else d.modSpare spare (fun x => { x with next := n })
  | .overlap k => d.standIn spare k (.deliver k)
  | .deliver k | .recal k =>
    if !calOk then d.convError k
    else if k = spareConv spare then d.endStandIn spare
    else (d.modConv k (fun c => { c with mode := .inService })).modSpare spare (fun x => { x with step := .back k })
  | .back _ => d.endStandIn spare
  | .permanent _ | .bist _ => d

/-- CONVERTER_ERROR: kind 0 overlap difference, 1 calibration, 2 a parity error on a sample, of which the fourth in a tick
is an error, 3 reference check. A sown one is recorded even if no source fires (R552; log entry 125). -/
def doConverterError (conv : Fin 96) (kind : Fin 4) (d : Dev) : Dev :=
  if kind = 2 then
    d.withSown 3 conv.val 0 (fun d =>
      let d1 := d.modConv conv.val (fun c => { c with parity := c.parity + 1 })
      if d.sv.conv[conv].parity = 3 then d1.convError conv.val
      else if d.ft.sown then d1.convRecord conv.val 127 else d1)
  else d.convError conv.val

/-- The converter that delivers in the place of converter k. -/
def Dev.deliverer (d : Dev) (k : Nat) : Nat :=
  let p := d.sv.conv[Fin.ofNat 96 k].partner.toNat
  if p = 127 ∨ (spareOf k).isSome then k else p

/-- Does a current or auxiliary converter repeat its result in this tick: an error was found on what delivers it (R539)? -/
def Dev.convHeld (d : Dev) (k : Nat) : Bool := d.sv.conv[Fin.ofNat 96 (d.deliverer k)].hold

/-- Is an auxiliary result held: that of an auxiliary converter by its number, a bus of GS-A or GS-B by either converter that
samples the buses (04 R118)? A feedback converter drops the failed samples only. -/
def Dev.auxHeld (d : Dev) (key : Nat) : Bool :=
  if key < 96 then decide (40 ≤ key % 48) && d.convHeld key
  else d.convHeld (44 + 48 * ((key - 96) / 4)) || d.convHeld (45 + 48 * ((key - 96) / 4))

/-- At a tick boundary parity errors count anew, and a held result is delivered again. -/
def Dev.convTick (d : Dev) : Dev :=
  d.modSv (fun s => { s with conv := s.conv.map (fun c => { c with parity := 0, hold := false }) })

/-! ## Built-in self-test (R547, R559) -/

/-- The spare through whose stand-in a converter is tested: its own place for a spare, that of its retirement. -/
def Dev.bistSpare (d : Dev) (k : Nat) : Option (Fin 4) :=
  match spareOf k with
  | some i => if d.sv.spares[i].isPermanent then none else some i
  | none => if d.sv.conv[Fin.ofNat 96 k].mode == .retired then (List.finRange 4).find? (fun i => d.sv.spares[i].step.conv == some k)
            else d.spareFor k

/-- A converter under test is stood in for (R547); a retired one is already. -/
def Dev.bistBegin (t k : Nat) (d : Dev) : Dev :=
  if t ≠ 2 ∨ d.sv.conv[Fin.ofNat 96 k].mode == .retired then d
  else match d.bistSpare k with
    | some i => (d.endStandIn i).standIn i k (.bist k)
    | none => d

/-- The stand-in of a test ends with it, unless an error has ended it before. -/
def Dev.bistEnd (b : Bist) (d : Dev) : Dev :=
  if b.target ≠ 2 then d
  else match (List.finRange 4).find? (fun i => d.sv.spares[i].step == .bist b.index.toNat) with
    | some i => d.endStandIn i
    | none => d

/-- BIST_RUN. -/
def doBistRun (st : Stall) (tag : BitVec 8) : Dev → Dev :=
  Dev.start st tag 0xB11 fun c d =>
    let w := wd c.payload 0
    let t := fld w 3 0
    let k := fld w 14 8
    let lane := d.lanes[(Fin.ofNat 18 k : LaneNo)].role
    d.checked c 4
      [(noWord c, stParam), ((t == 0 && decide (k < 18) && !(lane == .spare || lane == .out)) || (t == 1 && d.sv.standby != .ready) || (t == 2 && decide (k < 96) && (d.bistSpare k).isNone), stState),
       (badLen c 1 || rsv w 0xFFFF80F0 || decide (t > 2) || (t == 0 && decide (k ≥ 18)) || (t == 2 && decide (k ≥ 96)), stParam)]
      fun d => ((d.bistBegin t k).modSv (fun s => { s with bist := s.bist ++ [⟨BitVec.ofNat 4 t, BitVec.ofNat 7 k, st, tag⟩] })).await st tag .started

/-- BIST_DONE of the oldest test: the two signatures and the duration. A lane out of service that passes goes back to the rotation (R537). -/
def doBistDone (got expected : W32) (durUs : Nat) (d : Dev) : Dev :=
  match d.sv.bist with
  | [] => d
  | b :: rest =>
    let pass := got == expected
    let d1 := (d.bistEnd b).modSv (fun s => { s with bist := rest })
    let l : LaneNo := Fin.ofNat 18 b.index.toNat
    let back := b.target == 0 && pass && d.lanes[l].role == .out
    let d2 := if back then ((d1.modLane l (fun x => { x with role := .fallow })).modRot (fun r => { r with worn := r.worn.filter (· != l) })).nextFallow
      else d1
    let d3 := if back && d2.sv.rot.fallow == some l then d2.modRot (fun r => { r with passed := true }) else d2
    d3.respond b.stall b.tag stOk [got, expected, mkw [(b2n pass, 31, 1), (durUs / 1000, 0, 16)]]

/-! ## Meanings -/

/-- ROTATION_CONTROL. -/
def execRotationControl (st : Stall) (tag : BitVec 8) (s : State) : Host.Outcome State Fault Refusal :=
  .next (s.on (doRotationControl st tag))
/-- ROTATION_HOLD_EXPIRY. -/
def execRotationHoldExpiry (s : State) : Host.Outcome State Fault Refusal := .next (s.on doRotationHoldExpiry)
/-- BIST_RUN. -/
def execBistRun (st : Stall) (tag : BitVec 8) (s : State) : Host.Outcome State Fault Refusal :=
  .next (s.on (doBistRun st tag))
/-- BIST_DONE. -/
def execBistDone (got expected : W32) (durUs : Nat) (s : State) : Host.Outcome State Fault Refusal :=
  .next (s.on (doBistDone got expected durUs))
/-- ROTATION_STEP. -/
def execRotationStep (s : State) : Host.Outcome State Fault Refusal := .next (s.on doRotationStep)
/-- LANE_TEST_DONE. -/
def execLaneTestDone (ln : LaneNo) (test : LaneTest) (s : State) : Host.Outcome State Fault Refusal :=
  .next (s.on (doLaneTestDone ln test))
/-- LANE_ERROR. -/
def execLaneError (ln : LaneNo) (s : State) : Host.Outcome State Fault Refusal := .next (s.on (doLaneError ln))
/-- CONVERTER_STANDIN_STEP. -/
def execConverterStandinStep (spare : Fin 4) (calOk : Bool) (s : State) : Host.Outcome State Fault Refusal :=
  .next (s.on (doConverterStandinStep spare calOk))
/-- CONVERTER_ERROR. -/
def execConverterError (conv : Fin 96) (kind : Fin 4) (s : State) : Host.Outcome State Fault Refusal :=
  .next (s.on (doConverterError conv kind))

end Sys2Proof.Machine
end

