-- ==== Sys2Proof/WellFormed.lean ====
section
/-! DEFINITION. Which lane instructions have legal fields (spec 05 R150 to R157). Every other command of the table carries
words that the block itself judges, so every one of them is well formed. -/
namespace Sys2Proof

/-- Condition codes 0xA to 0xF are illegal (R151). -/
def ccOk (cc : Fin 16) : Bool := decide (cc.val ≤ 9)
/-- SHL and SHR shift by 0 to 19 (Table 5.7). -/
def shiftOk (n : Fin 32) : Bool := decide (n.val ≤ 19)
/-- A register pair is named by an even index (R152). -/
def pairOk (r : Fin 16) : Bool := decide (r.val % 2 = 0)
/-- SAC shifts by −24 to +19 (R142). -/
def sacShiftOk (sh : BitVec 6) : Bool := decide (-24 ≤ sh.toInt) && decide (sh.toInt ≤ 19)
/-- COUNT and MAX run from 1 to 1,024 (Table 5.7). -/
def countOk (n : BitVec 11) : Bool := decide (1 ≤ n.toNat) && decide (n.toNat ≤ 1024)
/-- Two parallel loads name different destinations and different address registers (Table 5.10, reason 6). -/
def loadsOk (x y : ParLoad) : Bool := !(x.en && y.en && (x.d == y.d || x.a == y.a))

/-- Are the fields of a lane instruction legal? -/
def Instr.wellFormed : Instr → Bool
  | .selcc _ cc _ _ _ => ccOk cc
  | .bcc _ cc _ => ccOk cc
  | .shl _ _ _ _ n => shiftOk n
  | .shr _ _ _ n => shiftOk n
  | .mpy _ _ _ _ _ lx ly => loadsOk lx ly
  | .mac _ _ _ _ _ lx ly => loadsOk lx ly
  | .msu _ _ _ _ _ lx ly => loadsOk lx ly
  | .dmpy _ _ _ dx dy lx ly => pairOk dx && pairOk dy && loadsOk lx ly
  | .dmac _ _ _ dx dy lx ly => pairOk dx && pairOk dy && loadsOk lx ly
  | .rot _ _ _ dx dy lx ly => pairOk dx && pairOk dy && loadsOk lx ly
  | .sac _ _ _ _ sh => sacShiftOk sh
  | .sincos _ rd _ => pairOk rd
  | .rpt _ n => countOk n
  | .rptr _ _ n => countOk n
  | _ => true

end Sys2Proof
end

