-- ==== Sys2Proof/Machine/Lane.lean ====
section
/-! DEFINITION. The instructions of a lane (spec 05 R141 to R158), on the lane that the row names, while the user law
program of its axis runs at its hook. -/
namespace Sys2Proof.Machine
open Sys2Proof

/-! ## Registers and results (R153, R154) -/

/-- D register as an integer. -/
def Lane.rd (l : Lane) (r : Fin 16) : Int := l.d[r].toInt
/-- Accumulator as an integer of 2^-38. -/
def Lane.racc (l : Lane) (r : Fin 4) : Int := l.ac[r].toInt

/-- Write a result that is due. -/
def Lane.write (w : PendWrite) (l : Lane) : Lane :=
  match w.dest with
  | .d r => { l with d := vset l.d r (BitVec.ofInt 20 w.val) }
  | .ac r => { l with ac := vset l.ac r (BitVec.ofInt 52 w.val) }
  | .a r => { l with a := vset l.a r (BitVec.ofInt 16 w.val) }
  | .m r => { l with m := vset l.m r (BitVec.ofInt 24 w.val) }

/-- A result that is written after its hidden count, in program order (R153, R154). -/
def Lane.post (hidden : Nat) (dest : Dest) (val : Int) (l : Lane) : Lane := { l with pend := l.pend ++ [⟨hidden, dest, val, false⟩] }
/-- An accumulator result of a MAC-class instruction. -/
def Lane.postMac (r : Fin 4) (val : Int) (l : Lane) : Lane := { l with pend := l.pend ++ [⟨1, .ac r, val, true⟩] }

/-- The end of an executed instruction: results whose count has run out are written, the others come nearer. -/
def Lane.age (l : Lane) : Lane :=
  let due := l.pend.filter (fun w => w.left == 0)
  let rest := (l.pend.filter (fun w => w.left != 0)).map (fun w => { w with left := w.left - 1 })
  due.foldl (fun l w => l.write w) { l with pend := rest }

/-- Every result is written, in program order (END). -/
def Lane.drain (l : Lane) : Lane := l.pend.foldl (fun l w => l.write w) { l with pend := [] }

/-! ## Running an instruction -/

/-- The next instruction: a taken branch jumps behind its second delay slot (R156). -/
def Lane.advance (l : Lane) : Lane :=
  match l.branch with
  | some (t, 1) => { l with pc := t, branch := none, slots := 0 }
  | some (t, k) => { l with pc := l.pc + 1, branch := some (t, k - 1), slots := l.slots - 1 }
  | none => { l with pc := l.pc + 1, slots := l.slots - 1 }

/-- Run an instruction the number of times its repeat gives, each a whole executed instruction (R157). -/
def Lane.run (clocks : Nat) (f : Lane → Lane) (l : Lane) : Lane :=
  let once (l : Lane) : Lane := { (f l).age with cycles := l.cycles + clocks }
  match l.rep with
  | none => (once l).advance
  | some n => ({ (Nat.repeat once n l) with rep := none }).advance

/-- The hook that a lane's user law program is at. -/
def Lane.hook? (l : Lane) : Option (Fin 3) :=
  match l.phase with
  | .atHook h => if l.role == .inService then some h else none
  | _ => none

/-- An instruction of a lane: legal fields, then its effect while the program is at its hook; otherwise nothing is due. A
repeated instruction takes one clock. -/
def State.lane (i : Instr) (ln : LaneNo) (clocks : Nat) (f : Fin 3 → Mem W20 → Lane → Lane) (s : State) :
    Host.Outcome State Fault Refusal :=
  let l := s.dev.lanes[ln]
  if !i.wellFormed || (l.hook?.isSome && l.rep.isSome && clocks != 1) then .refused .illegalInstruction
  else match l.hook? with
    | some h => .next (s.on (Dev.modLane ln (Lane.run clocks (f h s.dev.loops[l.axis].userFar))))
    | none => .next s

/-- A control instruction: it stands in no delay slot and is not repeated (R156, R157). -/
def State.control (i : Instr) (ln : LaneNo) (ok : Lane → Bool) (f : Lane → Lane) (s : State) : Host.Outcome State Fault Refusal :=
  let l := s.dev.lanes[ln]
  if !i.wellFormed || (l.hook?.isSome && (l.rep.isSome || l.slots != 0 || !ok l)) then .refused .illegalInstruction
  else match l.hook? with
    | some _ => .next (s.on (Dev.modLane ln f))
    | none => .next s

/-! ## Local memory and addressing (R136, R140, R146 to R149) -/

/-- May a user law program at a hook write an LM word (Tables 5.2, 6.2)? -/
def mayWrite (h : Fin 3) (k : Nat) : Bool :=
  decide (0x180 ≤ k ∧ k < 0x200) || decide (0xC00 ≤ k ∧ k < 0x1000) ||
  (match h.val with
   | 0 => k == 0x628 || k == 0x629 || k == 0x630
   | 1 => k == 0x628 || k == 0x629
   | _ => decide (0x700 ≤ k ∧ k < 0x704))

/-- An LM word. The standard state and scratch words are the firmware's: free values (05 R136; log entry 5). -/
def Lane.lmWord (l : Lane) (k : Nat) : W20 :=
  if k < 0x180 then (match l.stdState with
    | some t => BitVec.ofInt 20 (Config.freeOf 16 [l.axis.val, k, t])
    | none => 0)
  else if 0x800 ≤ k ∧ k < 0xC00 then BitVec.ofInt 20 (Config.freeOf 17 [l.axis.val, k, l.stdTick])
  else Mem.read 0 l.lm k
/-- A load from LM: a faulting one returns 0. -/
def Lane.load (k : Nat) (l : Lane) : Int × Lane := if k < 0x1000 then ((l.lmWord k).toInt, l) else (0, l.fault)
/-- A store to LM: a faulting one is dropped. -/
def Lane.store (h : Fin 3) (k : Nat) (v : Int) (l : Lane) : Lane :=
  if k < 0x1000 ∧ mayWrite h k = true then { l with lm := Mem.write 0 l.lm k (BitVec.ofInt 20 v) } else l.fault

/-- Offset address (Ak + OFS) mod 2^16. -/
def Lane.ofsAddr (l : Lane) (k : Fin 8) (ofs : BitVec 16) : Nat := (l.a[k] + ofs).toNat

/-- Smallest b with 2^b ≥ n, for n up to 4,095. -/
def log2Up (n : Nat) : Nat := ((List.range 13).find? (fun b => decide (n ≤ 2 ^ b))).getD 12

/-- Ak after a post-modification by s with the modifier's LEN (R147). -/
def postModify (a : Nat) (s : Int) (len : Nat) : Int :=
  if len = 0 then ((a : Int) + s) % 2 ^ 16
  else
    let b := log2Up len
    let base := a / 2 ^ b * 2 ^ b
    base + (((a - base : Nat) : Int) + s) % len

/-- The step of a post-modification code. -/
def Lane.postStep (l : Lane) (k : Fin 8) (p : Fin 4) : Int :=
  match p.val with
  | 1 => 1
  | 2 => -1
  | 3 => signedOf 12 (l.m[k].toNat % 2 ^ 12)
  | _ => 0

/-- Post-modification of Ak: the new value is visible to the next instruction. -/
def Lane.postMod (k : Fin 8) (p : Fin 4) (l : Lane) : Lane :=
  if p = 0 then l else l.post 0 (.a k) (postModify l.a[k].toNat (l.postStep k p) (l.m[k].toNat / 2 ^ 12))

/-- A load from LM into a D register, seen from the second instruction on. -/
def Lane.loadTo (r : Fin 16) (k : Nat) (l : Lane) : Lane := let x := l.load k; x.2.post 1 (.d r) x.1

/-- A parallel load of format M. -/
def Lane.parLoad (x : ParLoad) (l : Lane) : Lane := if x.en then (l.loadTo x.d l.a[x.a].toNat).postMod x.a x.p else l

/-! ## Results with flags -/

/-- A D result with Z, N and V. -/
def Lane.resZNV (hidden : Nat) (sat : Bool) (r : Fin 16) (v : Int) (l : Lane) : Lane :=
  let w := fitTo 20 sat v
  ((l.setZN w).setV (!fits 20 v)).post hidden (.d r) w
/-- A D result with Z and N. -/
def Lane.resZN (r : Fin 16) (v : Int) (l : Lane) : Lane := (l.setZN v).post 0 (.d r) v
/-- An accumulator result of an instruction that is not of the MAC class. -/
def Lane.resAcc (sat : Bool) (r : Fin 4) (v : Int) (l : Lane) : Lane :=
  (l.setV (!fits 52 v)).post 1 (.ac r) (fitTo 52 sat v)
/-- What a MAC-class instruction accumulates onto: the preceding result of the class where one is due (R155). -/
def Lane.macBase (r : Fin 4) (l : Lane) : Int :=
  match (l.pend.filter (fun w => w.mac && w.dest == .ac r)).getLast? with
  | some w => w.val
  | none => l.racc r
/-- The accumulator results of a MAC-class instruction. -/
def Lane.resMac (sat : Bool) (rs : List (Fin 4 × Int)) (l : Lane) : Lane :=
  rs.foldl (fun l x => l.postMac x.1 (fitTo 52 sat x.2)) (l.setV (rs.any (fun x => !fits 52 x.2)))
/-- The accumulator whose index differs in bit 0. -/
def accPair (r : Fin 4) : Fin 4 := if r.val % 2 = 0 then r + 1 else r - 1
/-- The next D register. -/
def nextReg (r : Fin 16) : Fin 16 := r + 1

/-- A MAC-class instruction: its accumulator results and its parallel loads are written independently. -/
def Lane.macOp (sat : Bool) (rs : Lane → List (Fin 4 × Int)) (lx ly : ParLoad) (l : Lane) : Lane :=
  ((l.resMac sat (rs l)).parLoad lx).parLoad ly

/-- Product of two D registers in 2^-38. -/
def Lane.prod (l : Lane) (x y : Fin 16) : Int := l.rd x * l.rd y

/-- Quotient in Q1.19 and V (DIV of Table 5.9): rounded to nearest, ties toward +∞ (DEDUCED from R145, log entry 12). -/
def divQ19 (a b : Int) : Int × Bool :=
  if b = 0 ∨ a.natAbs ≥ b.natAbs then
    let neg := if b = 0 then decide (a < 0) else decide (a * b < 0)
    (if a = 0 then 0 else if neg then -2 ^ 19 else 2 ^ 19 - 1, true)
  else (satS 20 (if b < 0 then Int.fdiv (2 * -a * 2 ^ 19 + -b) (2 * -b) else Int.fdiv (2 * a * 2 ^ 19 + b) (2 * b)), false)

/-- Square root in Q1.19 and V (SQRT of Table 5.9). -/
def sqrtQ19 (a : Int) : Int × Bool := if a < 0 then (0, true) else (rsqrt (a.toNat * 2 ^ 19), false)

/-- A value within 2 LSB of an exact one given in 2^-40 (R152, SINCOS): which one is free (log entry 5). -/
def withinTwo (free x40 : Int) : Int :=
  satS 20 (clampI (-(Int.fdiv (2 * 2 ^ 21 - x40) (2 ^ 21))) (Int.fdiv (x40 + 2 * 2 ^ 21) (2 ^ 21)) free)

/-! ## Meanings: moves and memory -/

/-- NOP. -/
def execNop (ln : LaneNo) (s : State) : Host.Outcome State Fault Refusal := s.lane (.nop ln) ln 1 fun _ _ l => l
/-- MOV. -/
def execMov (ln : LaneNo) (rd ra : Fin 16) (s : State) : Host.Outcome State Fault Refusal :=
  s.lane (.mov ln rd ra) ln 1 fun _ _ l => l.post 0 (.d rd) (l.rd ra)
/-- LDI. -/
def execLdi (ln : LaneNo) (rd : Fin 16) (imm : BitVec 20) (s : State) : Host.Outcome State Fault Refusal :=
  s.lane (.ldi ln rd imm) ln 1 fun _ _ l => l.post 0 (.d rd) imm.toInt
/-- LD. -/
def execLd (ln : LaneNo) (rd : Fin 16) (k : Fin 8) (p : Fin 4) (s : State) : Host.Outcome State Fault Refusal :=
  s.lane (.ld ln rd k p) ln 1 fun _ _ l => (l.loadTo rd l.a[k].toNat).postMod k p
/-- LDO. -/
def execLdo (ln : LaneNo) (rd : Fin 16) (k : Fin 8) (ofs : BitVec 16) (s : State) : Host.Outcome State Fault Refusal :=
  s.lane (.ldo ln rd k ofs) ln 1 fun _ _ l => l.loadTo rd (l.ofsAddr k ofs)
/-- LDA. -/
def execLda (ln : LaneNo) (rd : Fin 16) (addr : BitVec 12) (s : State) : Host.Outcome State Fault Refusal :=
  s.lane (.lda ln rd addr) ln 1 fun _ _ l => l.loadTo rd addr.toNat
/-- ST. -/
def execSt (ln : LaneNo) (ra : Fin 16) (k : Fin 8) (p : Fin 4) (s : State) : Host.Outcome State Fault Refusal :=
  s.lane (.st ln ra k p) ln 1 fun h _ l => (l.store h l.a[k].toNat (l.rd ra)).postMod k p
/-- STO. -/
def execSto (ln : LaneNo) (ra : Fin 16) (k : Fin 8) (ofs : BitVec 16) (s : State) : Host.Outcome State Fault Refusal :=
  s.lane (.sto ln ra k ofs) ln 1 fun h _ l => l.store h (l.ofsAddr k ofs) (l.rd ra)
/-- STA. -/
def execSta (ln : LaneNo) (ra : Fin 16) (addr : BitVec 12) (s : State) : Host.Outcome State Fault Refusal :=
  s.lane (.sta ln ra addr) ln 1 fun h _ l => l.store h addr.toNat (l.rd ra)

/-- The far word that FLD returns: the newest store of this tick, or the committed value (R148). -/
def Lane.farRead (far : Mem W20) (k : Nat) (l : Lane) : Int × Lane :=
  if k > 0x3FFF then (0, l.fault)
  else match (l.far.filter (fun x => x.1 == k)).getLast? with
    | some x => (x.2.toInt, l)
    | none => ((Mem.read 0 far k).toInt, l)
/-- FST puts a word into the far-store buffer (R148). -/
def Lane.farWrite (k : Nat) (v : Int) (l : Lane) : Lane :=
  if k > 0x3FFF then l.fault else { l with far := l.far ++ [(k, BitVec.ofInt 20 v)] }

/-- FLD. -/
def execFld (ln : LaneNo) (rd : Fin 16) (k : Fin 8) (ofs : BitVec 16) (s : State) : Host.Outcome State Fault Refusal :=
  s.lane (.fld ln rd k ofs) ln 10 fun _ far l => let x := l.farRead far (l.ofsAddr k ofs); x.2.post 0 (.d rd) x.1
/-- FST. -/
def execFst (ln : LaneNo) (ra : Fin 16) (k : Fin 8) (ofs : BitVec 16) (s : State) : Host.Outcome State Fault Refusal :=
  s.lane (.fst ln ra k ofs) ln 1 fun _ _ l => l.farWrite (l.ofsAddr k ofs) (l.rd ra)
/-- LAI. -/
def execLai (ln : LaneNo) (k : Fin 8) (imm : BitVec 16) (s : State) : Host.Outcome State Fault Refusal :=
  s.lane (.lai ln k imm) ln 1 fun _ _ l => l.post 1 (.a k) imm.toNat
/-- LMI. -/
def execLmi (ln : LaneNo) (k : Fin 8) (len stride : BitVec 12) (s : State) : Host.Outcome State Fault Refusal :=
  s.lane (.lmi ln k len stride) ln 1 fun _ _ l => l.post 1 (.m k) ((len.toNat * 2 ^ 12 + stride.toNat : Nat) : Int)
/-- MAD. -/
def execMad (ln : LaneNo) (k : Fin 8) (ra : Fin 16) (s : State) : Host.Outcome State Fault Refusal :=
  s.lane (.mad ln k ra) ln 1 fun _ _ l => l.post 1 (.a k) (l.rd ra)

/-! ## Meanings: arithmetic and logic -/

/-- ADD. -/
def execAdd (ln : LaneNo) (sat : Bool) (rd ra rb : Fin 16) (s : State) : Host.Outcome State Fault Refusal :=
  s.lane (.add ln sat rd ra rb) ln 1 fun _ _ l => l.resZNV 0 sat rd (l.rd ra + l.rd rb)
/-- SUB. -/
def execSub (ln : LaneNo) (sat : Bool) (rd ra rb : Fin 16) (s : State) : Host.Outcome State Fault Refusal :=
  s.lane (.sub ln sat rd ra rb) ln 1 fun _ _ l => l.resZNV 0 sat rd (l.rd ra - l.rd rb)
/-- ADDI. -/
def execAddi (ln : LaneNo) (sat : Bool) (rd ra : Fin 16) (imm : BitVec 20) (s : State) : Host.Outcome State Fault Refusal :=
  s.lane (.addi ln sat rd ra imm) ln 1 fun _ _ l => l.resZNV 0 sat rd (l.rd ra + imm.toInt)
/-- NEG. -/
def execNeg (ln : LaneNo) (sat : Bool) (rd ra : Fin 16) (s : State) : Host.Outcome State Fault Refusal :=
  s.lane (.neg ln sat rd ra) ln 1 fun _ _ l => l.resZNV 0 sat rd (-l.rd ra)
/-- ABS. -/
def execAbs (ln : LaneNo) (sat : Bool) (rd ra : Fin 16) (s : State) : Host.Outcome State Fault Refusal :=
  s.lane (.abs ln sat rd ra) ln 1 fun _ _ l => l.resZNV 0 sat rd (l.rd ra).natAbs
/-- MIN. -/
def execMin (ln : LaneNo) (rd ra rb : Fin 16) (s : State) : Host.Outcome State Fault Refusal :=
  s.lane (.min ln rd ra rb) ln 1 fun _ _ l => l.resZN rd (Min.min (l.rd ra) (l.rd rb))
/-- MAX. -/
def execMax (ln : LaneNo) (rd ra rb : Fin 16) (s : State) : Host.Outcome State Fault Refusal :=
  s.lane (.max ln rd ra rb) ln 1 fun _ _ l => l.resZN rd (Max.max (l.rd ra) (l.rd rb))
/-- The bound of LIM: abs(Db), and 1 − 2^-19 for Db = −1. -/
def limBound (b : Int) : Int := Min.min (b.natAbs : Int) (2 ^ 19 - 1)
/-- LIM. -/
def execLim (ln : LaneNo) (rd ra rb : Fin 16) (s : State) : Host.Outcome State Fault Refusal :=
  s.lane (.lim ln rd ra rb) ln 1 fun _ _ l =>
    let b := limBound (l.rd rb)
    let v := clampI (-b) b (l.rd ra)
    { l.resZN rd v with l := decide (v ≠ l.rd ra) }
/-- AND. -/
def execAnd (ln : LaneNo) (rd ra rb : Fin 16) (s : State) : Host.Outcome State Fault Refusal :=
  s.lane (.and ln rd ra rb) ln 1 fun _ _ l => l.resZN rd (l.d[ra] &&& l.d[rb]).toInt
/-- OR. -/
def execOr (ln : LaneNo) (rd ra rb : Fin 16) (s : State) : Host.Outcome State Fault Refusal :=
  s.lane (.or ln rd ra rb) ln 1 fun _ _ l => l.resZN rd (l.d[ra] ||| l.d[rb]).toInt
/-- XOR. -/
def execXor (ln : LaneNo) (rd ra rb : Fin 16) (s : State) : Host.Outcome State Fault Refusal :=
  s.lane (.xor ln rd ra rb) ln 1 fun _ _ l => l.resZN rd (l.d[ra] ^^^ l.d[rb]).toInt
/-- SHL. -/
def execShl (ln : LaneNo) (sat : Bool) (rd ra : Fin 16) (n : Fin 32) (s : State) : Host.Outcome State Fault Refusal :=
  s.lane (.shl ln sat rd ra n) ln 1 fun _ _ l => l.resZNV 0 sat rd (l.rd ra * 2 ^ n.val)
/-- SHR. -/
def execShr (ln : LaneNo) (rd ra : Fin 16) (n : Fin 32) (s : State) : Host.Outcome State Fault Refusal :=
  s.lane (.shr ln rd ra n) ln 1 fun _ _ l => l.resZN rd (Int.fdiv (l.rd ra) (2 ^ n.val))
/-- MUL. -/
def execMul (ln : LaneNo) (sat : Bool) (rd ra rb : Fin 16) (s : State) : Host.Outcome State Fault Refusal :=
  s.lane (.mul ln sat rd ra rb) ln 1 fun _ _ l => l.resZNV 1 sat rd (rshift (l.prod ra rb) 19)
/-- SELcc. -/
def execSelcc (ln : LaneNo) (cc : Fin 16) (rd ra rb : Fin 16) (s : State) : Host.Outcome State Fault Refusal :=
  s.lane (.selcc ln cc rd ra rb) ln 1 fun _ _ l => l.post 0 (.d rd) (if l.cond cc then l.rd ra else l.rd rb)

/-! ## Meanings: the accumulators -/

/-- MPY. -/
def execMpy (ln : LaneNo) (sat : Bool) (ac : Fin 4) (dx dy : Fin 16) (lx ly : ParLoad) (s : State) :
    Host.Outcome State Fault Refusal :=
  s.lane (.mpy ln sat ac dx dy lx ly) ln 1 fun _ _ => Lane.macOp sat (fun l => [(ac, l.prod dx dy)]) lx ly
/-- MAC. -/
def execMac (ln : LaneNo) (sat : Bool) (ac : Fin 4) (dx dy : Fin 16) (lx ly : ParLoad) (s : State) :
    Host.Outcome State Fault Refusal :=
  s.lane (.mac ln sat ac dx dy lx ly) ln 1 fun _ _ => Lane.macOp sat (fun l => [(ac, l.macBase ac + l.prod dx dy)]) lx ly
/-- MSU. -/
def execMsu (ln : LaneNo) (sat : Bool) (ac : Fin 4) (dx dy : Fin 16) (lx ly : ParLoad) (s : State) :
    Host.Outcome State Fault Refusal :=
  s.lane (.msu ln sat ac dx dy lx ly) ln 1 fun _ _ => Lane.macOp sat (fun l => [(ac, l.macBase ac - l.prod dx dy)]) lx ly
/-- DMPY. -/
def execDmpy (ln : LaneNo) (sat : Bool) (ac : Fin 4) (dx dy : Fin 16) (lx ly : ParLoad) (s : State) :
    Host.Outcome State Fault Refusal :=
  s.lane (.dmpy ln sat ac dx dy lx ly) ln 1 fun _ _ => Lane.macOp sat (fun l =>
    [(ac, l.prod dx dy), (accPair ac, l.prod (nextReg dx) (nextReg dy))]) lx ly
/-- DMAC. -/
def execDmac (ln : LaneNo) (sat : Bool) (ac : Fin 4) (dx dy : Fin 16) (lx ly : ParLoad) (s : State) :
    Host.Outcome State Fault Refusal :=
  s.lane (.dmac ln sat ac dx dy lx ly) ln 1 fun _ _ => Lane.macOp sat (fun l =>
    [(ac, l.macBase ac + l.prod dx dy), (accPair ac, l.macBase (accPair ac) + l.prod (nextReg dx) (nextReg dy))]) lx ly
/-- ROT: two clocks. -/
def execRot (ln : LaneNo) (sat : Bool) (ac : Fin 4) (dx dy : Fin 16) (lx ly : ParLoad) (s : State) :
    Host.Outcome State Fault Refusal :=
  s.lane (.rot ln sat ac dx dy lx ly) ln 2 fun _ _ => Lane.macOp sat (fun l =>
    [(ac, l.prod dx dy - l.prod (nextReg dx) (nextReg dy)),
     (accPair ac, l.prod dx (nextReg dy) + l.prod (nextReg dx) dy)]) lx ly
/-- LAC. -/
def execLac (ln : LaneNo) (ac : Fin 4) (ra : Fin 16) (s : State) : Host.Outcome State Fault Refusal :=
  s.lane (.lac ln ac ra) ln 1 fun _ _ l => l.post 1 (.ac ac) (l.rd ra * 2 ^ 19)
/-- An accumulator times 2^k, rounded when bits are dropped. -/
def accShift (v k : Int) : Int := if k ≥ 0 then v * 2 ^ k.toNat else rshift v (-k).toNat
/-- SAC. -/
def execSac (ln : LaneNo) (sat : Bool) (rd : Fin 16) (ac : Fin 4) (sh : BitVec 6) (s : State) : Host.Outcome State Fault Refusal :=
  s.lane (.sac ln sat rd ac sh) ln 1 fun _ _ l => l.resZNV 0 sat rd (accShift (l.racc ac) (sh.toInt - 19))
/-- ADDA. -/
def execAdda (ln : LaneNo) (sat : Bool) (ac acs : Fin 4) (s : State) : Host.Outcome State Fault Refusal :=
  s.lane (.adda ln sat ac acs) ln 1 fun _ _ l => l.resAcc sat ac (l.racc ac + l.racc acs)
/-- SHA. -/
def execSha (ln : LaneNo) (sat : Bool) (ac : Fin 4) (sh : BitVec 6) (s : State) : Host.Outcome State Fault Refusal :=
  s.lane (.sha ln sat ac sh) ln 1 fun _ _ l => l.resAcc sat ac (accShift (l.racc ac) sh.toInt)
/-- CLRA. -/
def execClra (ln : LaneNo) (ac : Fin 4) (s : State) : Host.Outcome State Fault Refusal :=
  s.lane (.clra ln ac) ln 1 fun _ _ l => l.post 1 (.ac ac) 0
/-- SINCOS. -/
def execSincos (ln : LaneNo) (rd ra : Fin 16) (s : State) : Host.Outcome State Fault Refusal :=
  s.lane (.sincos ln rd ra) ln 1 fun _ _ l =>
    let x := l.rd ra
    (l.post 3 (.d rd) (withinTwo (Config.freeOf 14 [x]) (sin40 x))).post 3 (.d (nextReg rd)) (withinTwo (Config.freeOf 15 [x]) (cos40 x))
/-- DIV. -/
def execDiv (ln : LaneNo) (sat : Bool) (rd ra rb : Fin 16) (s : State) : Host.Outcome State Fault Refusal :=
  s.lane (.div ln sat rd ra rb) ln 12 fun _ _ l =>
    let q := divQ19 (l.rd ra) (l.rd rb)
    ((l.setZN q.1).setV q.2).post 0 (.d rd) q.1
/-- SQRT. -/
def execSqrt (ln : LaneNo) (rd ra : Fin 16) (s : State) : Host.Outcome State Fault Refusal :=
  s.lane (.sqrt ln rd ra) ln 8 fun _ _ l =>
    let q := sqrtQ19 (l.rd ra)
    ((l.setZN q.1).setV q.2).post 0 (.d rd) q.1

/-! ## Meanings: control -/

/-- A branch of the program: TARGET lies beyond its second delay slot (R156). -/
def Lane.targetOk (t : BitVec 11) (l : Lane) : Bool := decide (t.toNat > l.pc + 2)
/-- A branch executes: two delay slots follow. -/
def Lane.branchTo (taken : Bool) (t : BitVec 11) (l : Lane) : Lane :=
  { l.age with cycles := l.cycles + 1, pc := l.pc + 1, slots := 2, branch := if taken then some (t.toNat, 2) else none }
/-- BR. -/
def execBr (ln : LaneNo) (target : BitVec 11) (s : State) : Host.Outcome State Fault Refusal :=
  s.control (.br ln target) ln (Lane.targetOk target) (Lane.branchTo true target)
/-- Bcc. -/
def execBcc (ln : LaneNo) (cc : Fin 16) (target : BitVec 11) (s : State) : Host.Outcome State Fault Refusal :=
  s.control (.bcc ln cc target) ln (Lane.targetOk target) fun l => l.branchTo (l.cond cc) target
/-- A repeat executes: the next instruction runs so many times. -/
def Lane.repeatNext (n : Nat) (l : Lane) : Lane := { l.age with cycles := l.cycles + 1, pc := l.pc + 1, rep := some n }
/-- RPT. -/
def execRpt (ln : LaneNo) (count : BitVec 11) (s : State) : Host.Outcome State Fault Refusal :=
  s.control (.rpt ln count) ln (fun _ => true) (Lane.repeatNext count.toNat)
/-- RPTR: min(max(Dd, 0), MAX), read when it executes. -/
def execRptr (ln : LaneNo) (rd : Fin 16) (maxCount : BitVec 11) (s : State) : Host.Outcome State Fault Refusal :=
  s.control (.rptr ln rd maxCount) ln (fun _ => true) fun l =>
    l.repeatNext (Min.min (Max.max (l.rd rd) 0) maxCount.toNat).toNat

end Sys2Proof.Machine
end

