-- ==== Sys2Proof/Machine/PlotMem.lean ====
section
/-! DEFINITION. Plot memory as the read window shows it (spec 04 R123, 05 R135, 06 R184, 09 R346). -/
namespace Sys2Proof.Machine
open Sys2Proof

/-- A 20-bit lane word, sign-extended. -/
def laneWord (w : W20) : W32 := w.signExtend 32

/-- T_tick × 2^VEL_EXP × k, rounded: lane clocks are 1 / 512,000,000 s. -/
def Dev.perTick (d : Dev) (a : AxisNo) (k : Nat) : Nat :=
  (rdivUp ((d.tickClks * 2 ^ fld d.ctl[a].scale0 19 16 * k : Nat) : Int) 512000000).toNat

/-- KTH of an axis, Q1.19: 2 × POLE_PAIRS × VEL_FS × T_tick (06 R184). -/
def Dev.kth (d : Dev) (a : AxisNo) : Nat := min (2 ^ 19 - 1) (d.perTick a (2 * fld d.ctl[a].scale0 14 8 * 2 ^ 19))
/-- KW of an axis: VEL_FS × T_tick × 2^20. -/
def Dev.kw (d : Dev) (a : AxisNo) : Nat := d.perTick a (2 ^ 20)

/-- The four words of derived constants; the spec does not define ACC_TICK, which reads as a free value. -/
def Dev.derived (d : Dev) (a : AxisNo) (i : Nat) : W32 :=
  match i with
  | 0 => nW (d.kth a)
  | 1 => nW (d.kw a)
  | 2 => nW (d.kw a / 2 ^ 32)
  | _ => iW (Config.freeOf 12 [a.val, d.tickClks, d.ctl[a].scale0.toNat])

/-- The control mode in force as LawMode words 0 and 1. -/
def Ctl.modeWords (c : Ctl) (a : AxisNo) (i : Nat) : W32 :=
  if i = 0 then mkw [(b2n c.manual, 6, 1), (c.mode.toNat, 4, 2), (a.val, 0, 4)] else iW c.manualTarget

/-- The kind of a move as MoveQueue codes it. -/
def MoveKind.code : MoveKind → Nat
  | .absolute => 0
  | .relative => 1
  | .velocity => 2
  | .registration => 3

/-- The eight move words of a queued move (09 R357). -/
def Move.word (m : Move) (i : Nat) : W32 :=
  match i with
  | 0 => mkw [(m.probe.val, 20, 4), (b2n m.chain, 19, 1), (m.kind.code, 16, 3), (m.id.toNat, 0, 16)]
  | 1 => loW m.pos
  | 2 => if m.kind == .velocity then 0 else hiW m.pos
  | 3 => m.v
  | 4 => m.a
  | 5 => m.j
  | 6 => m.dwellMs.setWidth 32
  | _ => iW m.distAfter

/-- A word of the motion queue: entry i of 16 words, of which the last eight are state the spec does not lay out. -/
def Dev.queueWord (d : Dev) (a : AxisNo) (i : Nat) : W32 :=
  match d.mot[a].queue[i / 16]? with
  | some m => if i % 16 < 8 then m.word (i % 16) else iW (Config.freeOf 11 [a.val, i, d.clk])
  | none => 0

/-- A word of an axis region, by byte offset (Table 5.1, Table 6.3, Table 9.10). The spec does not lay out the words from
0xD000: free values. -/
def Dev.regionWord (d : Dev) (a : AxisNo) (o : Nat) : W32 :=
  let l := d.loops[a]
  let c := d.ctl[a]
  let m := d.mot[a]
  if o < 0x0800 then laneWord (l.slotWord a false (o / 4))
  else if o < 0x1000 then laneWord (l.slotWord a true ((o - 0x0800) / 4))
  else if o < 0x2000 then laneWord (Mem.read 0 l.bankA ((o - 0x1000) / 4))
  else if o < 0x3000 then laneWord (Mem.read 0 l.bankB ((o - 0x2000) / 4))
  else if o < 0x3004 then c.scale0
  else if o < 0x3008 then c.scale1
  else if o < 0x3010 then c.modeWords a ((o - 0x3008) / 4)
  else if o < 0x3028 then c.rep.conf[Fin.ofNat 6 ((o - 0x3010) / 4)]
  else if o < 0x3040 then 0
  else if o < 0x3050 then (if d.assigned a then d.derived a ((o - 0x3040) / 4) else 0)
  else if o < 0x4000 then 0
  else if o < 0x8000 then laneWord (Mem.read 0 c.rep.table ((o - 0x4000) / 4))
  else if o < 0xC000 then 0
  else if o < 0xD000 then d.queueWord a ((o - 0xC000) / 4)
  else if o < 0xD100 then iW (Config.freeOf 13 [a.val, o, d.clk])
  else if o < 0x10000 then 0
  else if o < 0x18000 then Mem.read 0 m.cams[0] ((o - 0x10000) / 4)
  else if o < 0x20000 then Mem.read 0 m.cams[1] ((o - 0x18000) / 4)
  else laneWord (Mem.read 0 l.userFar ((o - 0x20000) / 4))

/-- A word of plot memory, by byte offset: the axis regions, and the plot records from 0x3F_C000. Words between them are
not described, and read 0. -/
def Dev.plotMemWord (d : Dev) (o : Nat) : W32 :=
  if o < 0x300000 then d.regionWord (ax (o / 0x30000)) (o % 0x30000)
  else if 0x3FC000 ≤ o then
    let a := ax ((o - 0x3FC000) / 0x400)
    if d.assigned a then d.plotW a (o % 0x400 / 4) else 0
  else 0

end Sys2Proof.Machine
end

