-- ==== Sys2Proof/Machine/HomeEdge.lean ====
section
/-! DEFINITION. Home and limit inputs of the axes (spec 09 R323, R339, R340). -/
namespace Sys2Proof.Machine
open Sys2Proof

/-- The debounced level of an input as HomeConfig numbers it: IN00 to IN31, then PRB00 to PRB15; 63 is none. -/
def Dev.inputLevel (d : Dev) (n : Nat) : Option Bool :=
  if n < 32 then some d.fio.ins[Fin.ofNat 32 n].level
  else if n < 48 then some d.fb.probes[Fin.ofNat 16 (n - 32)].level
  else none
/-- Is an input active, given whether it is active low? -/
def Dev.inputActive (d : Dev) (n : Nat) (low : Bool) : Bool :=
  match d.inputLevel n with
  | some l => l != low
  | none => false

/-- Does a plot have the law of bit b of word 5? -/
def Dev.lawOn (d : Dev) (a : AxisNo) (b : Nat) : Bool := bitOf (d.plotW a 5) b
/-- A plot of type 0 or 5 has no bridge (R304). -/
def Dev.noBridge (d : Dev) (a : AxisNo) : Bool := d.mtype a == 0 || d.mtype a == 5
/-- The control mode an axis runs in (06 R196): 1 current, 2 velocity, 3 position, 0 none. -/
def Dev.modeIn (d : Dev) (a : AxisNo) : Nat :=
  if d.noBridge a then (if d.lawOn a 1 then 3 else if d.lawOn a 0 then 2 else 0) else d.ctl[a].mode.toNat

/-- HOME_IN, LIM_NEG and LIM_POS of an axis. -/
def Motion.homeIn (m : Motion) : Nat := fld m.homeConf[1] 5 0
def Motion.limNegIn (m : Motion) : Nat := fld m.homeConf[1] 13 8
def Motion.limPosIn (m : Motion) : Nat := fld m.homeConf[1] 21 16

/-- LIM_NEG and LIM_POS follow their inputs; FS095 fires when motion toward an active limit begins outside homing
(R323). In velocity mode it is VEL_REF that moves, the manual velocity under MANUAL. -/
def Dev.limitCheck (a : AxisNo) (d : Dev) : Dev :=
  if !d.assigned a then d
  else
    let m := d.mot[a]
    let low := bitOf m.homeConf[0] 10
    let neg := d.inputActive m.limNegIn low
    let pos := d.inputActive m.limPosIn low
    let v := if d.ctl[a].manual && d.modeIn a == 2 then d.ctl[a].sig.velRef else m.v
    let toward := m.src != 6 && ((neg && decide (v < 0)) || (pos && decide (v > 0)))
    let d1 := d.modMot a (fun m => { m with limNeg := neg, limPos := pos, limFired := toward })
    if toward && !m.limFired then d1.fire 95 (.axes [a]) else d1

/-- An edge of an input: homing runs that use it keep it for their next frame, and limits act (R323, R339). -/
def Dev.homeEdge (input : Nat) (level : Bool) (clk : Nat) (d : Dev) : Dev :=
  allAxes.foldl (fun d a =>
    let m := d.mot[a]
    if m.homeIn == input || m.limNegIn == input || m.limPosIn == input then
      (d.modMot a (fun m => { m with home := m.home.map (fun r =>
        { r with edges := r.edges ++ [⟨input, level, clk⟩] }) })).limitCheck a
    else d) d

end Sys2Proof.Machine
end

