-- ==== Sys2Proof/Machine/Profile.lean ====
section
/-! DEFINITION. Profiles in continuous time and their planning (spec 09 R306 to R309). Positions, velocities,
accelerations and jerks are in 2^-40 turn per second to the power; times are in 2^-40 s. -/
namespace Sys2Proof.Machine
open Sys2Proof

/-- Lane clocks as a time: a lane clock is 1 ÷ 512,000,000 s. -/
def clkTime (n : Nat) : Nat := n * 2 ^ 31 / 1000000
/-- Velocity, acceleration and jerk of Table 9.2. -/
def velUnit (w : W32) : Nat := w.toNat * 2 ^ 32
def accUnit (w : W32) : Nat := w.toNat * 2 ^ 36
def jerkUnit (w : W32) : Nat := max 1 w.toNat * 2 ^ 40

/-- A state of motion: position, velocity, acceleration. -/
structure Kin where
  p : Int
  v : Int
  a : Int
  deriving DecidableEq, Repr

/-- The state after a time under constant jerk. -/
def Kin.after (k : Kin) (j : Int) (t : Nat) : Kin :=
  ⟨k.p + k.v * t / 2 ^ 40 + k.a * t * t / 2 ^ 81 + j * t * t * t / (6 * 2 ^ 120), k.v + k.a * t / 2 ^ 40 + j * t * t / 2 ^ 81,
   k.a + j * t / 2 ^ 40⟩
/-- The state a time into phases; after their end the velocity stays. -/
def Kin.run (k : Kin) : List JerkSeg → Nat → Kin
  | [], t => ⟨k.p + k.v * t / 2 ^ 40, k.v, 0⟩
  | s :: ss, t => if t < s.time then k.after s.jerk t else (k.after s.jerk s.time).run ss (t - s.time)
/-- The state at the end of phases. -/
def Kin.endOf (k : Kin) (ss : List JerkSeg) : Kin := ss.foldl (fun k s => k.after s.jerk s.time) k
/-- The time phases take. -/
def segsTime (ss : List JerkSeg) : Nat := ss.foldl (fun t s => t + s.time) 0
/-- The first phases, up to a time. -/
def cutSegs : List JerkSeg → Nat → List JerkSeg
  | [], _ => []
  | s :: ss, t => if t ≤ s.time then [⟨s.jerk, t⟩] else s :: cutSegs ss (t - s.time)
/-- The same phases the other way. -/
def mirror (s : Int) (ss : List JerkSeg) : List JerkSeg := ss.map (fun x => ⟨s * x.jerk, x.time⟩)
/-- The sign of a number, +1 at 0. -/
def sgn1 (x : Int) : Int := if x < 0 then -1 else 1

/-- The acceleration is brought within ±acc at the jerk (R309 step 1). -/
def limitAcc (a : Int) (acc jerk : Nat) : List JerkSeg :=
  if a.natAbs > acc then [⟨-(sgn1 a) * jerk, (a.natAbs - acc) * 2 ^ 40 / jerk⟩] else []

/-- The quickest change of velocity from v with acceleration a, within ±acc, to vt with none: jerk, constant
acceleration, jerk back. -/
def rampSegs (v a vt : Int) (acc jerk : Nat) : List JerkSeg :=
  let vs := v + a * a.natAbs / (2 * jerk)
  let s : Int := if vs ≤ vt then 1 else -1
  let dv := s * (vt - v)
  let a1 := s * a
  let ap := max (max a1 0) (min (acc : Int) (isqrtFrom 80 (jerk * dv + a1 * a1 / 2).toNat 0))
  let left := dv - (2 * ap * ap - a1 * a1) / (2 * jerk)
  [⟨s * jerk, ((ap - a1) * 2 ^ 40 / jerk).toNat⟩, ⟨0, if ap = 0 ∨ left < 0 then 0 else (left * 2 ^ 40 / ap).toNat⟩,
   ⟨-s * jerk, (ap * 2 ^ 40 / jerk).toNat⟩]

/-- Phases to rest from a state (R309, R317). -/
def stopSegs (k : Kin) (acc jerk : Nat) : List JerkSeg :=
  let pre := limitAcc k.a acc jerk
  let k1 := k.endOf pre
  pre ++ rampSegs k1.v k1.a 0 acc jerk

/-- Phases to a velocity from a state. -/
def velSegs (k : Kin) (vt : Int) (acc jerk : Nat) : List JerkSeg :=
  let pre := limitAcc k.a acc jerk
  let k1 := k.endOf pre
  pre ++ rampSegs k1.v k1.a vt acc jerk

/-- The largest number of a range for which a falling condition holds, found by halving: lo, and lo + 2^n tried. -/
def bisect (f : Nat → Bool) : Nat → Nat → Nat
  | 0, lo => lo
  | n + 1, lo => bisect f n (if f (lo + 2 ^ n) then lo + 2 ^ n else lo)

/-- The fastest phases from a state, with velocity not against d, that come to rest after a distance d ≥ 0 without
reversing: toward the velocity limit as far as the stop leaves room, then the stop (R308). With them, the time at which
the final deceleration begins. -/
def reachSegs (k : Kin) (d : Int) (vel acc jerk : Nat) : List JerkSeg × Nat :=
  let up := rampSegs k.v k.a vel acc jerk
  let t := segsTime up
  let total (x : Nat) : Int := let c := Kin.run ⟨0, k.v, k.a⟩ up x; (c.endOf (rampSegs c.v c.a 0 acc jerk)).p
  if total t ≤ d then
    let cruise := if vel = 0 then 0 else ((d - total t) * 2 ^ 40 / vel).toNat
    (up ++ ⟨0, cruise⟩ :: rampSegs vel 0 0 acc jerk, t + cruise)
  else
    let x := bisect (fun x => decide (x ≤ t) && decide (total x ≤ d)) (t.log2 + 1) 0
    let c := Kin.run ⟨0, k.v, k.a⟩ up x
    (cutSegs up x ++ rampSegs c.v c.a 0 acc jerk, x + (max c.a 0 * 2 ^ 40 / jerk).toNat)

/-- A profile of R308 or R309 to a target, and whether it overshoots: step 1 brings acceleration and velocity within
their limits, step 2 reaches the target without reversing where it can, step 3 stops and comes back. -/
def planTo (k : Kin) (target : Int) (vel acc jerk clk : Nat) : Profile × Bool :=
  let pre1 := limitAcc k.a acc jerk
  let k1 := k.endOf pre1
  let pre2 := if k1.v.natAbs > vel then rampSegs k1.v k1.a (sgn1 k1.v * vel) acc jerk else []
  let k2 := k1.endOf pre2
  let stop := rampSegs k2.v k2.a 0 acc jerk
  let ks := k2.endOf stop
  let rest := k2.v == 0 && k2.a == 0
  let s := if rest then sgn1 (target - k2.p) else if k2.v = 0 then sgn1 k2.a else sgn1 k2.v
  let pre := pre1 ++ pre2
  if rest || decide (s * (target - k2.p) ≥ s * (ks.p - k2.p)) then
    let r := reachSegs ⟨0, s * k2.v, s * k2.a⟩ (s * (target - k2.p)) vel acc jerk
    (⟨k.p, k.v, k.a, pre ++ mirror s r.1, segsTime pre + r.2, some target, 0, clk⟩, false)
  else
    let s2 := sgn1 (target - ks.p)
    let r := reachSegs ⟨0, 0, 0⟩ (s2 * (target - ks.p)) vel acc jerk
    (⟨k.p, k.v, k.a, pre ++ stop ++ mirror s2 r.1, segsTime (pre ++ stop) + r.2, some target, 0, clk⟩, true)

/-- A profile to a velocity, which it keeps. -/
def planVel (k : Kin) (vt : Int) (acc jerk clk : Nat) : Profile :=
  ⟨k.p, k.v, k.a, velSegs k vt acc jerk, 0, none, vt, clk⟩

/-- Has a profile ended at a clock, to one lane clock? -/
def Profile.ended (pr : Profile) (clk : Nat) : Bool := decide (segsTime pr.segs < clkTime (clk - pr.startClk) + 2148)
/-- The state of a profile at a clock; at its end exactly the target or the velocity (R306). -/
def Profile.at (pr : Profile) (clk : Nat) : Kin :=
  let k := Kin.run ⟨pr.p0, pr.v0, pr.a0⟩ pr.segs (clkTime (clk - pr.startClk))
  if pr.ended clk then ⟨pr.pEnd.getD k.p, pr.vEnd, 0⟩ else k

end Sys2Proof.Machine
end

