-- ==== Sys2Proof/Machine/Path.lean ====
section
/-! DEFINITION. The path engine: segments, their geometry, the planning of the path velocity and the frame step of a group
(spec 09 R325 to R329). Lengths along a path are in 2^-40 path turn, angles in 2^-40 turn. -/
namespace Sys2Proof.Machine
open Sys2Proof

/-! ## Angles -/

/-- Sine of an angle, in 2^-40. -/
def sinT (t : Int) : Int :=
  let u := t % 2 ^ 40
  let v := if u ≥ 2 ^ 39 then u - 2 ^ 39 else u
  let s := sinTaylor ((if v > 2 ^ 38 then 2 ^ 39 - v else v) * (2 * pi40) / 2 ^ 40)
  if u ≥ 2 ^ 39 then -s else s
/-- Cosine of an angle, in 2^-40. -/
def cosT (t : Int) : Int := sinT (t + 2 ^ 38)
/-- The angle of a vector, from 0 to below a turn. -/
def atan2T (y x : Int) : Nat :=
  let q : Nat := if y ≥ 0 then (if x > 0 then 0 else 1) else (if x < 0 then 2 else 3)
  let (y1, x1) := match q with
    | 0 => (y, x)
    | 1 => (-x, y)
    | 2 => (-y, -x)
    | _ => (x, -y)
  q * 2 ^ 38 + bisect (fun t => decide (sinT t * x1 ≤ cosT t * y1) && decide (t ≤ 2 ^ 38)) 39 0
/-- The norm of a vector. -/
def normOf (l : List Int) : Nat := isqrtFrom 80 (l.foldl (fun s x => s + x * x) 0).toNat 0

/-! ## Segments (R326) -/

/-- Words of a segment of a group of n members, by its header; 0 for a reserved type. -/
def segLen (n : Nat) (h : W32) : Nat :=
  match fld h 3 0 with
  | 0 => 2 + n
  | 1 => 4 + n
  | 2 => 2 + 3 * n
  | 3 => 3
  | _ => 0
/-- End increment of member i of a line or arc, in 2^-40 turn. -/
def segD (w : List W32) (i : Nat) : Int := (wd w (2 + i)).toInt * 2 ^ 20
/-- Coefficient k (1 to 3) of member i of a cubic, in 2^-40 turn. -/
def segC (w : List W32) (i k : Nat) : Int := (wd w (1 + 3 * i + k)).toInt * 2 ^ 20
/-- The arc's plane members. -/
def segPx (w : List W32) : Nat := fld (wd w 0) 7 4
def segPy (w : List W32) : Nat := fld (wd w 0) 11 8
/-- End increment of a member over a segment. -/
def segEnd (w : List W32) (i : Nat) : Int :=
  match fld (wd w 0) 3 0 with
  | 2 => segC w i 1 + segC w i 2 + segC w i 3
  | 3 => 0
  | _ => segD w i

/-- Radius vectors of an arc at its start and end, from the centre. -/
def arcStart (n : Nat) (w : List W32) : Int × Int := (-(wd w (n + 2)).toInt * 2 ^ 20, -(wd w (n + 3)).toInt * 2 ^ 20)
def arcEnd (n : Nat) (w : List W32) : Int × Int :=
  ((arcStart n w).1 + segD w (segPx w), (arcStart n w).2 + segD w (segPy w))
/-- The angle an arc sweeps, positive anticlockwise: a full circle where its end increments are 0. -/
def arcSweep (n : Nat) (w : List W32) : Int :=
  let s := arcStart n w
  let e := arcEnd n w
  let cw := bitOf (wd w 0) 12
  if s = e then (if cw then -(2 ^ 40) else 2 ^ 40)
  else
    let t : Int := atan2T (s.1 * e.2 - s.2 * e.1) (s.1 * e.1 + s.2 * e.2)
    if cw then t - 2 ^ 40 else t
/-- Length of an arc in its plane. -/
def arcPlane (n : Nat) (w : List W32) : Nat :=
  let r : Nat := (normOf [(arcStart n w).1, (arcStart n w).2] + normOf [(arcEnd n w).1, (arcEnd n w).2]) / 2
  r * (2 * pi40).toNat / 2 ^ 40 * (arcSweep n w).natAbs / 2 ^ 40

/-- The marks of an arc, as parts of its sweep in 2^-40: its start, its end, and where it crosses an axis of its plane
between them, where a member of the plane is at an extreme of its position or its direction. -/
def arcMarks (n : Nat) (w : List W32) : List Nat :=
  let sweep := arcSweep n w
  let t0 : Int := atan2T (arcStart n w).2 (arcStart n w).1
  let part (k : Nat) : Int := if sweep = 0 then 0 else (((k : Int) - 5) * 2 ^ 38 - t0) * 2 ^ 40 / sweep
  let inner := (List.range 15).filter (fun k => decide (0 < part k) && decide (part k < 2 ^ 40))
  0 :: 2 ^ 40 :: inner.map (fun k => (part k).toNat)

/-- Derivative of a cubic's member at u in 2^-40. -/
def cubicSlope (w : List W32) (u : Nat) (i : Nat) : Int :=
  segC w i 1 + 2 * segC w i 2 * u / 2 ^ 40 + 3 * segC w i 3 * u / 2 ^ 40 * u / 2 ^ 40
/-- Second derivative of a cubic's member at u in 2^-40. -/
def cubicBend (w : List W32) (u : Nat) (i : Nat) : Int := 2 * segC w i 2 + 6 * segC w i 3 * u / 2 ^ 40
/-- The speed of a cubic at u. -/
def cubicSpeed (n : Nat) (w : List W32) (u : Nat) : Nat := normOf ((List.range n).map (cubicSlope w u))
/-- Nodes and weights of five-point Gauss quadrature on −1 to 1, in 2^-40. -/
def gauss : List (Int × Nat) :=
  [(0, 625499948246), (592053267662, 526257788601), (-592053267662, 526257788601), (996355277466, 260503865052),
   (-996355277466, 260503865052)]
/-- Length of a cubic from 0 to u, over 16 sub-intervals. -/
def cubicLen (n : Nat) (w : List W32) (u : Nat) : Nat :=
  (List.range 16).foldl (fun (acc i : Nat) =>
    let mid : Int := ((2 * i + 1) * u / 32 : Nat)
    acc + (gauss.foldl (fun s g => s + g.2 * cubicSpeed n w (mid + g.1 * (u : Int) / 32 / 2 ^ 40).toNat) 0) / 2 ^ 40 * u / 32 / 2 ^ 40) 0

/-- Length of a segment. -/
def segPath (n : Nat) (w : List W32) : Nat :=
  match fld (wd w 0) 3 0 with
  | 0 => normOf ((List.range n).map (segD w))
  | 1 => normOf ((arcPlane n w : Int) :: ((List.range n).filter (fun i => i != segPx w && i != segPy w)).map (segD w))
  | 2 => cubicLen n w (2 ^ 40)
  | _ => 0

/-- Increments of the members a length s into a segment of length len. -/
def segAt (n : Nat) (w : List W32) (len s : Nat) : List Int :=
  let f : Int := if len = 0 then 2 ^ 40 else s * 2 ^ 40 / len
  match fld (wd w 0) 3 0 with
  | 0 => (List.range n).map (fun i => segD w i * f / 2 ^ 40)
  | 1 =>
    let s0 := arcStart n w
    let r0 : Int := normOf [s0.1, s0.2]
    let r1 : Int := normOf [(arcEnd n w).1, (arcEnd n w).2]
    let t := arcSweep n w * f / 2 ^ 40
    let g := if r0 = 0 then 0 else (r0 + (r1 - r0) * f / 2 ^ 40) * 2 ^ 40 / r0
    let x := (s0.1 * cosT t - s0.2 * sinT t) / 2 ^ 40 * g / 2 ^ 40 - s0.1
    let y := (s0.1 * sinT t + s0.2 * cosT t) / 2 ^ 40 * g / 2 ^ 40 - s0.2
    (List.range n).map (fun i => if i = segPx w then x else if i = segPy w then y else segD w i * f / 2 ^ 40)
  | 2 =>
    let u := if s ≥ len then 2 ^ 40 else bisect (fun u => decide (cubicLen n w u ≤ s)) 40 0
    (List.range n).map (fun i =>
      segC w i 1 * u / 2 ^ 40 + segC w i 2 * u / 2 ^ 40 * u / 2 ^ 40 + segC w i 3 * u / 2 ^ 40 * u / 2 ^ 40 * u / 2 ^ 40)
  | _ => List.replicate n 0

/-- Directions of the members a length s into a segment: increments per path length, in 2^-40. -/
def segDir (n : Nat) (w : List W32) (len s : Nat) : List Int :=
  if len = 0 then List.replicate n 0
  else
    match fld (wd w 0) 3 0 with
    | 2 =>
      let u := if s ≥ len then 2 ^ 40 else bisect (fun u => decide (cubicLen n w u ≤ s)) 40 0
      let sp := max 1 (cubicSpeed n w u)
      (List.range n).map (fun i => cubicSlope w u i * 2 ^ 40 / sp)
    | 1 =>
      let f : Int := min s len * 2 ^ 40 / len
      let s0 := arcStart n w
      let r0 : Int := normOf [s0.1, s0.2]
      let r1 : Int := normOf [(arcEnd n w).1, (arcEnd n w).2]
      let t := arcSweep n w * f / 2 ^ 40
      let g := if r0 = 0 then 0 else (r0 + (r1 - r0) * f / 2 ^ 40) * 2 ^ 40 / r0
      let g1 := if r0 = 0 then 0 else (r1 - r0) * 2 ^ 40 / r0
      let turn := arcSweep n w * (2 * pi40) / 2 ^ 40 * g / 2 ^ 40
      let x := (s0.1 * cosT t - s0.2 * sinT t) / 2 ^ 40
      let y := (s0.1 * sinT t + s0.2 * cosT t) / 2 ^ 40
      (List.range n).map (fun i =>
        (if i = segPx w then x * g1 - y * turn else if i = segPy w then y * g1 + x * turn else segD w i * 2 ^ 40) / len)
    | _ => (List.range n).map (fun i => segD w i * 2 ^ 40 / len)

/-- Is a segment refused (R326)? -/
def badSeg (n : Nat) (w : List W32) : Bool :=
  let h := wd w 0
  let t := fld h 3 0
  rsv h 0xC000 || decide (t > 3) || (t != 1 && rsv h 0xFF0) ||
    (if t = 3 then wd w 1 != 0 || decide (fld (wd w 2) 31 0 < 1) || decide (fld (wd w 2) 31 0 > 10000000) else wd w 1 == 0) ||
    (t == 1 && (decide (segPx w ≥ n) || decide (segPy w ≥ n) || segPx w == segPy w ||
      decide (((normOf [(arcStart n w).1, (arcStart n w).2] : Int) - normOf [(arcEnd n w).1, (arcEnd n w).2]).natAbs > 2 ^ 30)))

/-- Segments packed in words: the segments, or the index of the first refused one; 0 where only the words do not match
them (R367; log entry 60). -/
def parseSegs (n : Nat) : Nat → Nat → List W32 → List (List W32) → Except Nat (List (List W32))
  | 0, _, ws, acc => if ws.isEmpty then .ok acc.reverse else .error 0
  | k + 1, i, ws, acc =>
    let m := segLen n (wd ws 0)
    if ws.length < max 1 m then .error 0
    else if m = 0 ∨ badSeg n (ws.take m) then .error i
    else parseSegs n k (i + 1) (ws.drop m) (ws.take m :: acc)

/-! ## Groups -/

/-- Members of a group, ascending. -/
def PathGroup.axes (g : PathGroup) : List AxisNo := (bitsOf 16 g.members.toNat).map ax
/-- The group an axis belongs to. -/
def Dev.groupOf (d : Dev) (a : AxisNo) : Option (Fin 8) :=
  (List.finRange 8).find? (fun g => d.mu.groups[g].members.getLsbD a.val)
/-- Change a group. -/
def Dev.modGroup (g : Fin 8) (f : PathGroup → PathGroup) (d : Dev) : Dev :=
  { d with mu := { d.mu with groups := vmod d.mu.groups g f } }
/-- Does a group run? -/
def PathGroup.runs (g : PathGroup) : Bool := g.state != .idle

/-- V_MAX of an axis, 2^-40 turn/s; 0 stands for VEL_FS (R307). -/
def Dev.vMax (d : Dev) (a : AxisNo) : Nat :=
  if d.plotW a 7 = 0 then 2 ^ fld d.ctl[a].scale0 19 16 * 2 ^ 40 else velUnit (d.plotW a 7)
/-- The headland in force: HOMED is 1, the limits are not both 0, and no homing runs (R321, R338). -/
def Dev.headland (d : Dev) (a : AxisNo) : Option (Int × Int) :=
  let lo := s64 (d.plotW a 8) (d.plotW a 9)
  let hi := s64 (d.plotW a 10) (d.plotW a 11)
  if d.mot[a].homed && d.mot[a].src != 6 && !(lo == 0 && hi == 0) then some (lo, hi) else none

/-- What planning needs of a segment: length, the velocity limit, the acceleration limit at a velocity, directions at its
ends, and whether the path rests at its end or throughout. -/
structure SegPlan where
  len : Nat
  cap : Nat
  acc : Nat → Nat
  dirA : List Int
  dirB : List Int
  exact : Bool
  dwell : Bool

/-- The largest magnitude of each member's direction over a segment, at the marks of an arc and at 17 points of a cubic. -/
def segDirMax (n : Nat) (w : List W32) (len : Nat) : List Nat :=
  let dirs := match fld (wd w 0) 3 0 with
    | 1 => (arcMarks n w).map (fun f => segDir n w len (len * f / 2 ^ 40))
    | 2 => (List.range 17).map (fun k =>
        let u := k * 2 ^ 36
        let sp := max 1 (cubicSpeed n w u)
        (List.range n).map (fun i => cubicSlope w u i * 2 ^ 40 / sp))
    | _ => [segDir n w len 0]
  dirs.foldl (fun acc dir => (acc.zip dir).map (fun x => max x.1 x.2.natAbs)) (List.replicate n 0)

/-- The largest curvature of each member along a segment: its second derivative by path length, in 2^-40 per turn. For an arc
it is that of the circle, whatever the direction. -/
def segBendMax (n : Nat) (w : List W32) : List Nat :=
  match fld (wd w 0) 3 0 with
  | 1 =>
    let r := max 1 (min (normOf [(arcStart n w).1, (arcStart n w).2]) (normOf [(arcEnd n w).1, (arcEnd n w).2]))
    (List.range n).map (fun i => if i = segPx w ∨ i = segPy w then 2 ^ 80 / r else 0)
  | 2 =>
    ((List.range 17).map (fun k =>
      let u := k * 2 ^ 36
      let sp : Int := max 1 (cubicSpeed n w u)
      let dir := (List.range n).map (fun i => cubicSlope w u i * 2 ^ 40 / sp)
      let bend := (List.range n).map (cubicBend w u)
      let along := (dir.zip bend).foldl (fun s x => s + x.1 * x.2 / 2 ^ 40) 0
      (dir.zip bend).map (fun x => ((x.2 - x.1 * along / 2 ^ 40) * 2 ^ 80 / (sp * sp)).natAbs))).foldl
        (fun acc b => (acc.zip b).map (fun x => max x.1 x.2)) (List.replicate n 0)
  | _ => List.replicate n 0

/-- Limit of a path quantity from a member's limit and direction. -/
def overDir (lim dir big : Nat) : Nat := if dir = 0 then big else min big (lim * 2 ^ 40 / dir)

/-- The path acceleration that a member's limit leaves at a path velocity, from the member's largest direction and curvature:
on an arc the two accelerations of the member are at right angles, elsewhere they may add up (R327 rules 2 and 3). -/
def memberAcc (lim dir bend : Nat) (arc : Bool) (big v : Nat) : Nat :=
  let side := bend * v * v / 2 ^ 80
  if side ≥ lim then 0 else overDir (if arc then isqrtFrom 80 (lim * lim - side * side) 0 else lim - side) dir big

/-- Plan data of a segment (R327 rules 1 to 4). -/
def Dev.segPlan (d : Dev) (g : PathGroup) (w : List W32) : SegPlan :=
  let axes := g.axes
  let n := axes.length
  let len := segPath n w
  let dir := segDirMax n w len
  let arc := fld (wd w 0) 3 0 == 1
  let ovr := axes.foldl (fun m a => min m d.mot[a].ovr.toNat) 0x2000
  let mem := axes.zip (dir.zip (segBendMax n w))
  let feed := velUnit (wd w 1) * ovr / 4096
  let aOf (a : AxisNo) : Nat := accUnit d.mot[a].limits[1]
  let cap := mem.foldl (fun m x =>
    let straight := overDir (min (velUnit d.mot[x.1].limits[0]) (d.vMax x.1)) x.2.1 m
    if x.2.2 = 0 then straight else min straight (isqrtFrom 80 (aOf x.1 * 2 ^ 80 / x.2.2) 0)) feed
  let acc (v : Nat) : Nat := mem.foldl (fun m x => memberAcc (aOf x.1) x.2.1 x.2.2 arc m v) (accUnit g.aPath)
  ⟨len, cap, acc, segDir n w len 0, segDir n w len len, bitOf (wd w 0) 13, fld (wd w 0) 3 0 == 3⟩

/-- Velocity allowed at a junction (R327 rule 5). -/
def cornerCap (cornerDv : Nat) (x y : SegPlan) : Nat :=
  if x.exact || x.dwell || y.dwell then 0
  else (x.dirB.zip y.dirA).foldl (fun m u => overDir cornerDv (u.1 - u.2).natAbs m) (min x.cap y.cap)

/-- The highest velocity from which ve is reached within a length, at the acceleration allowed at that velocity. -/
def maxEntry (ve len : Nat) (acc : Nat → Nat) (jerk cap : Nat) : Nat :=
  if cap ≤ ve then cap
  else bisect (fun v => decide (v ≤ cap) &&
    decide ((Kin.endOf ⟨0, v, 0⟩ (rampSegs v 0 ve (max 1 (acc v)) jerk)).p ≤ (len : Int))) (cap.log2 + 1) 0

/-- Velocity allowed at the end of the first of some segments, the last one ending at rest (R327 rule 6). -/
def exitCap (cornerDv jerk : Nat) : List SegPlan → Nat
  | [] => 0
  | [_] => 0
  | x :: y :: rest => min (cornerCap cornerDv x y) (maxEntry (exitCap cornerDv jerk (y :: rest)) y.len y.acc jerk y.cap)

/-- Does a segment, begun at given set-points, take a member beyond its headland at its end, or an arc on its way
(R328)? -/
def Dev.segBeyond (d : Dev) (g : PathGroup) (start : List Int) (w : List W32) : Bool :=
  let axes := g.axes
  let n := axes.length
  let len := segPath n w
  let pts := if fld (wd w 0) 3 0 = 1 then (arcMarks n w).map (fun f => segAt n w len (len * f / 2 ^ 40)) else [(List.range n).map (segEnd w)]
  pts.any (fun inc => ((axes.zip start).zip inc).any (fun x =>
    match d.headland x.1.1 with
    | some (lo, hi) => decide (x.1.2 + x.2 < lo * 2 ^ 20) || decide (x.1.2 + x.2 > hi * 2 ^ 20)
    | none => false))

/-- The look-ahead window: segments from the front of the queue up to the first one that would pass a headland. -/
def Dev.window (d : Dev) (g : PathGroup) : List Int → List (List W32) → List (List W32)
  | _, [] => []
  | start, w :: ws =>
    if d.segBeyond g start w then []
    else w :: d.window g ((start.zip (List.range start.length)).map (fun x => x.1 + segEnd w x.2)) ws

/-- The set-points at which the executing segment began. -/
def PathGroup.startOf (g : PathGroup) : List Int := g.axes.map (fun a => g.start[a])
/-- The executing segment is done: the next one begins where it ends. -/
def PathGroup.next (g : PathGroup) : PathGroup :=
  match g.queue with
  | [] => g
  | w :: ws =>
    { g with queue := ws, dwellUntil := none,
             start := Vector.ofFn (fun a : Fin 16 => match g.axes.idxOf? a with
               | some i => g.start[a] + segEnd w i
               | none => g.start[a]),
             segId := match ws with
               | x :: _ => BitVec.ofNat 16 (fld (wd x 0) 31 16)
               | [] => g.segId }

/-- Segments that the group has passed are done. -/
def PathGroup.pass (d : Dev) : Nat → PathGroup → PathGroup
  | 0, g => g
  | k + 1, g =>
    match g.queue with
    | [] => { g with s := 0, v := 0, a := 0 }
    | w :: _ =>
      if fld (wd w 0) 3 0 = 3 then g
      else
        let len := segPath g.axes.length w
        if g.s < len then g else PathGroup.pass d k { g.next with s := g.s - len }

/-- The state of the path a frame later under a new acceleration. -/
def pathNext (v a : Int) (a1 : Int) (dt : Nat) : Kin := Kin.after ⟨0, v, a⟩ ((a1 - a) * 2 ^ 40 / max 1 dt) dt

/-- The path velocity of a frame: the highest acceleration within the limits, a jerk step from the present one, from which
the velocity limit still holds and the exit velocity can still be reached in what remains. Where there is none, because a
limit has fallen, the path slows as fast as the limits allow (log entry 61). -/
def pathStep (v a : Int) (rem cap exit : Nat) (acc : Nat → Nat) (jerk dt : Nat) : Kin :=
  let dj : Int := jerk * dt / 2 ^ 40
  let at_ : Int := max 1 (acc v.toNat)
  let lo := min (a + dj) (max (-at_) (a - dj))
  let hi := max (a - dj) (min at_ (a + dj))
  let ok (x : Nat) : Bool :=
    let k := pathNext v a (lo + x) dt
    let up := max k.a 0
    let own := max 1 (acc k.v.toNat)
    decide (k.a ≤ own) && decide (k.v + up * up / (2 * jerk) ≤ cap) &&
      decide ((k.endOf (rampSegs k.v k.a exit own jerk)).p ≤ rem)
  let span := (hi - lo).toNat
  let x := bisect (fun x => decide (x ≤ span) && ok x) (span.log2 + 1) 0
  let k := if ok x then pathNext v a (lo + x) dt
    else Kin.run ⟨0, v, a⟩ (velSegs ⟨0, v, a⟩ (if v > cap then cap else min exit v.toNat) at_.toNat jerk) dt
  if k.v < 0 then ⟨max 0 k.p, 0, 0⟩ else k

/-- Lane clocks of a frame. -/
def Dev.frameClks (d : Dev) : Nat := d.tickClks * max 1 d.tk.conf.frameTicks.toNat

/-- A group stops along its path (R327): under the STOP limits, or under the QS limits. -/
def Dev.stopGroup (g : Fin 8) (quick : Bool) (d : Dev) : Dev :=
  d.modGroup g (fun x => if x.runs then { x with state := .stopping, quick := x.quick || quick } else x)

/-- The group is idle: its members' sources are idle at rest. -/
def Dev.idleGroup (g : Fin 8) (d : Dev) : Dev :=
  let d1 := d.modGroup g (fun x => { x with state := .idle, v := 0, a := 0, s := 0, dwellUntil := none, quick := false })
  d.mu.groups[g].axes.foldl (fun d a => d.modMot a (fun m =>
    if m.src = 3 then { m with src := 0, v := 0, a := 0, profile := none } else m)) d1

/-- The set-points of the members of a group that run on the path (R327). -/
def Dev.placeGroup (g : Fin 8) (d : Dev) : Dev :=
  let x := d.mu.groups[g]
  match x.queue with
  | [] => d
  | w :: _ =>
    let n := x.axes.length
    let len := segPath n w
    let s := min x.s.toNat len
    let pos := segAt n w len s
    let dir := segDir n w len s
    let h := max 1 (len / 4096)
    let dir2 := segDir n w len (min len (s + h))
    ((x.axes.zip pos).zip (dir.zip dir2)).foldl (fun d e =>
      d.modMot e.1.1 (fun m =>
        if m.src = 3 then
          { m with p := x.start[e.1.1] + e.1.2, v := e.2.1 * x.v / 2 ^ 40, profile := none,
                   a := e.2.1 * x.a / 2 ^ 40 + (e.2.2 - e.2.1) * (x.v * x.v / 2 ^ 40) / h }
        else m)) d

/-- The stop limits of a group's members along the present direction. -/
def Dev.stopLimits (d : Dev) (x : PathGroup) : Nat × Nat :=
  match x.queue with
  | [] => (1, 1)
  | w :: _ =>
    let n := x.axes.length
    let len := segPath n w
    let mem := x.axes.zip (segDir n w len (min x.s.toNat len))
    let (ia, ij) : Nat × Nat := if x.quick then (5, 6) else (3, 4)
    mem.foldl (fun m e =>
      let l := d.mot[e.1].limits.toList
      (overDir (accUnit (l.getD ia 0)) e.2.natAbs m.1, overDir (jerkUnit (l.getD ij 0)) e.2.natAbs m.2)) (2 ^ 76, 2 ^ 80)

/-- A group that has come to rest with no segment before it that it may run: starved, or stopped before the headland
(R328). -/
def Dev.endGroup (g : Fin 8) (d : Dev) : Dev :=
  let x := d.mu.groups[g]
  let axes := x.axes
  if x.queue.isEmpty then
    ((d.modGroup g (fun x => { x with starved := true })).idleGroup g).fire 94 (.axes axes)
  else
    ((d.modGroup g (fun x => { x with hlStop := true, queue := [] })).idleGroup g).fire 96 (.axes axes)

/-- One frame of a group that runs. -/
def Dev.runGroup (g : Fin 8) (d : Dev) : Dev :=
  let x := d.mu.groups[g]
  let dt := clkTime d.frameClks
  match d.window x x.startOf (x.queue.take x.lookahead.toNat) with
  | [] => d.endGroup g
  | w :: ws =>
    if fld (wd w 0) 3 0 = 3 then
      let until_ := x.dwellUntil.getD (d.clk + fld (wd w 2) 31 0 * 512)
      if d.clk ≥ until_ then d.modGroup g (fun x => x.next) else d.modGroup g (fun x => { x with dwellUntil := some until_ })
    else
      let jerk := jerkUnit x.jPath
      let plans := (w :: ws).map (d.segPlan x)
      let p := plans.headD ⟨0, 0, fun _ => 0, [], [], false, false⟩
      let exit := exitCap (velUnit x.cornerDv) jerk plans
      let rem := p.len - x.s.toNat
      let k := pathStep x.v x.a rem p.cap exit p.acc jerk dt
      let near := exit = 0 && decide (rem ≤ 2 ^ 21 + k.p.natAbs) && decide (k.v * dt / 2 ^ 40 ≤ 2 ^ 21)
      let k := if near then ⟨rem, 0, 0⟩ else k
      let held := p.cap = 0 && k.v == 0
      let d1 := d.modGroup g (fun x => PathGroup.pass d (x.queue.length + 1)
        { x with s := x.s + k.p, v := k.v, a := k.a, state := if held then .holding else .running })
      if d1.mu.groups[g].queue.isEmpty then
        let last := x.axes.foldl (fun d a => d.modMot a (fun m =>
          if m.src = 3 then { m with p := d1.mu.groups[g].start[a], v := 0, a := 0 } else m)) d1
        last.endGroup g
      else d1.placeGroup g

/-- One frame of a group that stops: at rest its queue is flushed (R327). -/
def Dev.haltGroup (g : Fin 8) (d : Dev) : Dev :=
  let x := d.mu.groups[g]
  let dt := clkTime d.frameClks
  let lim := d.stopLimits x
  let segs := stopSegs ⟨0, x.v, x.a⟩ (max 1 lim.1) (max 1 lim.2)
  let k := Kin.run ⟨0, x.v, x.a⟩ segs dt
  let isOver := decide (segsTime segs ≤ dt)
  let d1 := (d.modGroup g (fun x => PathGroup.pass d (x.queue.length + 1)
    { x with s := x.s + max 0 k.p, v := if isOver then 0 else max 0 k.v, a := if isOver then 0 else k.a })).placeGroup g
  if isOver || d1.mu.groups[g].queue.isEmpty then (d1.modGroup g (fun x => { x with queue := [] })).idleGroup g else d1

/-- One frame of every group (R327). -/
def Dev.pathFrame (d : Dev) : Dev :=
  (List.finRange 8).foldl (fun d g =>
    match d.mu.groups[g].state with
    | .idle => d
    | .stopping => d.haltGroup g
    | _ => d.runGroup g) d

end Sys2Proof.Machine
end

