-- ==== Sys2Proof/Machine/Motion.lean ====
section
/-! DEFINITION. The motion commands: their checks and what they do at their frame boundary (spec 09 R350 to R370). -/
namespace Sys2Proof.Machine
open Sys2Proof

/-! ## Axes -/

/-- Bridge off or charging, for types 1 to 4. -/
def Dev.offAxis (d : Dev) (a : AxisNo) : Bool := !d.noBridge a && !d.pwm[a].bridgeOn
/-- A position within R11. -/
def inR11 (x : Int) : Bool := decide (-(2 ^ 59) ≤ x) && decide (x < 2 ^ 59)

/-- The profile's state at the present boundary becomes the set-point state. -/
def Motion.sync (clk : Nat) (m : Motion) : Motion :=
  match m.profile with
  | some pr => let k := pr.at clk; { m with p := k.p, v := k.v, a := k.a }
  | none => m
/-- The set-point state. -/
def Motion.kin (m : Motion) : Kin := ⟨m.p, m.v, m.a⟩
/-- A limit of a move or its default (R307). -/
def orDefault (w dflt : W32) : W32 := if w = 0 then dflt else w
/-- Velocity limit in force for a V: min(V × OVR, V_MAX), in 2^-40 turn/s. -/
def Dev.velIn (d : Dev) (a : AxisNo) (v : W32) : Nat :=
  min (velUnit (orDefault v d.mot[a].limits[0]) * d.mot[a].ovr.toNat / 4096) (d.vMax a)
/-- The acceleration limit, above 0, and the jerk limit. -/
def Motion.accIn (m : Motion) (w : W32) : Nat := max 1 (accUnit (orDefault w m.limits[1]))
def Motion.jerkIn (m : Motion) (w : W32) : Nat := jerkUnit (orDefault w m.limits[2])

/-- A target within the headland, with HL_CLAMP and FS096 where it was not (R321). -/
def Dev.clampTarget (a : AxisNo) (t : Int) (d : Dev) : Int × Dev :=
  match d.headland a with
  | some (lo, hi) =>
    if lo ≤ t ∧ t ≤ hi then (t, d)
    else (clampI lo hi t, (d.modMot a (fun m => { m with hlClamp := true })).fire 96 (.axes [a]))
  | none => (t, d)

/-- A profile to a signed velocity, which stops at the headland in position mode (R316, R321). -/
def Dev.velProfile (d : Dev) (a : AxisNo) (sv : Int) (acc jerk : Nat) : Profile :=
  let k := d.mot[a].kin
  let free := planVel k sv acc jerk d.clk
  if d.modeIn a != 3 || sv = 0 then free
  else
    match d.headland a with
    | some (lo, hi) =>
      let t := (if sv < 0 then lo else hi) * 2 ^ 20
      if sgn1 sv * (t - k.p) < 0 then planVel k 0 acc jerk d.clk else (planTo k t sv.natAbs acc jerk d.clk).1
    | none => free

/-- A signed velocity in 2^-8 turn/s under OVR and V_MAX. -/
def Dev.signedVel (d : Dev) (a : AxisNo) (v : Int) : Int :=
  sgn1 v * (min (v.natAbs * 2 ^ 32 * d.mot[a].ovr.toNat / 4096) (d.vMax a) : Nat)

/-- The executing move or the jog is planned from the present state (R309, R310). -/
def Dev.replan (a : AxisNo) (d : Dev) : Dev :=
  let m := d.mot[a]
  match m.cur with
  | some e =>
    let acc := m.accIn e.move.a
    let jerk := m.jerkIn e.move.j
    if e.move.kind == .velocity then
      let pr := d.velProfile a (d.signedVel a e.move.pos) acc jerk
      d.modMot a (fun m => { m with profile := some pr })
    else if m.ovr = 0 then d.modMot a (fun m => { m with profile := some (planVel m.kin 0 acc jerk d.clk) })
    else
      let r := planTo m.kin (e.target * 2 ^ 20) (max 1 (d.velIn a e.move.v)) acc jerk d.clk
      d.modMot a (fun m => { m with profile := some r.1, overshoot := m.overshoot || r.2 })
  | none =>
    if m.src = 2 then
      let pr := d.velProfile a (d.signedVel a m.jogVel) (m.accIn 0) (m.jerkIn 0)
      d.modMot a (fun m => { m with profile := some pr })
    else d

/-- A move starts with a base for a relative distance, in 2^-20 turn (R311, R313, R343). -/
def Dev.startMove (a : AxisNo) (mv : Move) (base : Int) (d : Dev) : Dev :=
  let want := match mv.kind with
    | .absolute => mv.pos
    | .relative | .registration => base + mv.pos
    | .velocity => 0
  let (t, d1) := if mv.kind == .velocity then (0, d) else d.clampTarget a want
  (d1.modMot a (fun m =>
    { m with cur := some ⟨mv, t, d.clk, false⟩, src := 1, dwellUntil := none, still := false, stillF := 2 ^ 19,
             stillSince := d.clk })).replan a

/-- A stop of an axis from the present state, under the STOP or the QS limits (R317, R318). -/
def Dev.stopAxis (a : AxisNo) (quick : Bool) (kind : Nat) (d : Dev) : Dev :=
  d.modMot a (fun m =>
    let (ia, ij) : Fin 7 × Fin 7 := if quick then (5, 6) else (3, 4)
    { m with src := 7, stopKind := BitVec.ofNat 2 kind, jogVel := 0,
             profile := some ⟨m.p, m.v, m.a, stopSegs m.kin (max 1 (accUnit m.limits[ia])) (jerkUnit m.limits[ij]), 0, none, 0, d.clk⟩ })

/-- A follower is disengaged (R317, R318). -/
def Motion.disengage (m : Motion) : Motion :=
  { m with follow := .disengaged, engage := none, ramp := none, clamped := false, ratioAsked := none, outAsked := false }

/-- A homing run ends without a reference: HOME_STATE failed, and STATE with FAIL for its command (R339, R360). -/
def Dev.failHome (a : AxisNo) (fail : Nat) (d : Dev) : Dev :=
  match d.mot[a].home with
  | some r =>
    (d.modMot a (fun m => { m with home := none, homeState := .failed })).respond r.stall r.tag stState [mkw [(fail, 0, 3)]]
  | none => d

/-! ## Checks -/

/-- Which of a command's axes are unassigned or in fault state. -/
def Dev.anyUnfit (d : Dev) (mask : Nat) : Bool := (bitsOf 16 mask).any (fun k => d.axisUnfit (ax k))

/-- A move of a MoveQueue payload. -/
def moveOf (p : List W32) (j : Nat) : Move :=
  let m := 1 + 8 * j
  let w := wd p m
  let kind : MoveKind := match fld w 18 16 with
    | 0 => .absolute
    | 1 => .relative
    | 2 => .velocity
    | _ => .registration
  { kind := kind, id := BitVec.ofNat 16 (fld w 15 0), chain := bitOf w 19, probe := Fin.ofNat 16 (fld w 23 20),
    pos := if kind == .velocity then (wd p (m + 1)).toInt else s64 (wd p (m + 1)) (wd p (m + 2)),
    v := wd p (m + 3), a := wd p (m + 4), j := wd p (m + 5), dwellMs := BitVec.ofNat 16 (fld (wd p (m + 6)) 15 0),
    distAfter := (wd p (m + 7)).toInt }

/-- Is a move of a MoveQueue payload out of range (R357)? -/
def badMove (p : List W32) (j : Nat) : Bool :=
  let m := 1 + 8 * j
  let w := wd p m
  let k := fld w 18 16
  rsv w 0xFF000000 || decide (k > 3) || (k != 3 && (fld w 23 20 != 0 || wd p (m + 7) != 0)) || rsv (wd p (m + 6)) 0xFFFF0000 ||
    (if k = 2 then wd p (m + 2) != 0 else !inR11 (s64 (wd p (m + 1)) (wd p (m + 2))))

/-- An input number of HomeConfig. -/
def badInput (n : Nat) : Bool := decide (n > 47) && n != 63

/-- Does HomeConfig break a range (R359)? -/
def Dev.badHome (d : Dev) (c : Cmd) : Bool :=
  let p := c.payload
  let w := wd p 0
  let meth := fld w 7 4
  let w1 := wd p 1
  badLen c 10 || rsv w 0xFFFFF800 || decide (meth > 5) || rsv w1 0xFFC0C0C0 || badInput (fld w1 5 0) || badInput (fld w1 13 8) ||
    badInput (fld w1 21 16) || wd p 2 == 0 || wd p 3 == 0 || !inR11 (s64 (wd p 4) (wd p 5)) || rsv (wd p 6) 0xFFFF0000 ||
    wd p 6 == 0 || badWord20 (wd p 7) || decide ((wd p 7).toInt ≤ 0) || decide ((wd p 7).toNat > fld (d.plotW (axisOf c) 6) 19 0) ||
    wd p 8 == 0 || wd p 9 == 0 || ((meth == 1 || meth == 2) && fld w1 5 0 == 63) ||
    (meth == 4 && (if bitOf w 8 then fld w1 13 8 else fld w1 21 16) == 63)

/-- Does GearConfig break a range (R361)? -/
def Dev.badGear (d : Dev) (c : Cmd) : Bool :=
  let p := c.payload
  let w := wd p 0
  let kind := fld w 7 5
  let cam := bitOf w 4
  let dist := u64 (wd p 3) (wd p 4)
  badLen c 7 || rsv w 0xE000E000 || decide (kind > 4) || decide (kind != 2 ∧ fld w 12 8 > 15) ||
    (decide (kind ≥ 3) && fld w 28 26 == 0) || !(d.lawOn (axisOf c) (if cam then 4 else 3)) ||
    (fld w 12 8 == fld w 3 0 && (decide (kind ≤ 1) || (decide (kind ≥ 3) && d.ring.addrValid && fld w 25 16 == d.ring.addr.toNat))) ||
    wd p 2 == 0 || decide (dist > 2 ^ 40) || (cam && (decide ((wd p 6).toNat < 2 ^ 12) || decide ((wd p 6).toNat > 2 ^ 31)))

/-- Does StepConfig break a range or the rule of R345? -/
def badStep (c : Cmd) : Bool :=
  let w2 := wd c.payload 2
  let rate := fld w2 31 16
  badLen c 3 || rsv (wd c.payload 0) 0xFFFFFFC0 || rsv (wd c.payload 1) 0xFF000000 || fld (wd c.payload 1) 23 0 == 0 ||
    fld w2 7 0 == 0 || fld w2 15 8 == 0 || decide (rate < 1) || decide (rate > 8000) ||
    decide (1000000 < 2 * fld w2 7 0 * 50 * rate)

/-- Does a motion command's payload break a range? -/
def Dev.motParam (d : Dev) (c : Cmd) : Bool :=
  let p := c.payload
  let w := wd p 0
  let a := axisOf c
  let axisOnly := rsv w 0xFFFFFFF0
  match c.code.toNat with
  | 0x500 => badLen c 6 || rsv w 0xFFE0 || !inR11 (s64 (wd p 1) (wd p 2))
  | 0x501 => badLen c 1 || rsv w 0xC0000000 || decide (fld w 29 16 > 0x2000) || fld w 15 0 == 0
  | 0x502 => badLen c 3 || axisOnly || wd p 2 == 0
  | 0x503 => badLen c 2 || axisOnly || decide ((wd p 1).toInt.natAbs > d.mot[a].limits[0].toNat)
  | 0x504 => badLen c 1 || rsv w 0xFFFE0000 || fld w 15 0 == 0
  | 0x505 => badLen c 1 || axisOnly
  | 0x510 => badLen c 8 || axisOnly || (p.drop 1).any (fun x => x == 0)
  | 0x511 =>
      let n := fld w 7 4
      rsv w 0xFFFFFF00 || decide (n < 1) || decide (n > 8) || badLen c (1 + 8 * n) || (List.range n).any (badMove p)
  | 0x512 => badLen c 2 || rsv w 0xFFF0 || rsv (wd p 1) 0xFFFF0000 || wd p 1 == 0 || decide ((wd p 1).toNat > 60000)
  | 0x520 => d.badHome c
  | 0x521 => badLen c 1 || rsv w 0xFFFFFFE0
  | 0x530 => d.badGear c
  | 0x531 => badLen c 5 || rsv w 0xFFFFFFC0 || !inR11 (s64 (wd p 1) (wd p 2)) || !inR11 (s64 (wd p 3) (wd p 4))
  | 0x532 =>
      let n := fld (wd p 1) 8 0
      rsv w 0xF000FFE0 || rsv (wd p 1) 0xFFFFFE00 || n == 0 || badLen c (2 + 2 * n) || decide (fld w 27 16 + n > 4096)
  | 0x533 => badLen c 1 || rsv w 0xE000FF80 || decide (fld w 28 16 < 2) || decide (fld w 28 16 > 4096)
  | 0x534 => badLen c 1
  | 0x540 =>
      let axes := (bitsOf 16 (fld w 31 16)).map ax
      badLen c 5 || rsv w 0xFFF0 || rsv (wd p 1) 0xFFFF0000 ||
        (!bitOf w 3 && (decide ((wd p 1).toNat < 16) || decide ((wd p 1).toNat > 8192) || axes.isEmpty ||
          axes.any (fun a => !d.lawOn a 2 || !d.lawOn a 1)))
  | 0x541 => p.isEmpty || rsv w 0xFFFF00F8 || fld w 15 8 == 0
  | 0x542 => badLen c 1 || rsv w 0xFFFFFFC8 || fld w 5 4 == 3
  | 0x550 => badStep c
  | 0x551 => badLen c 3 || axisOnly || badWord20 (wd p 1) || bitOf (wd p 1) 19 || fld (wd p 2) 15 0 == 0 ||
      fld (wd p 2) 31 16 == 0 || d.mtype a != 3
  | _ => false

/-- The group a command names. -/
def groupNo (c : Cmd) : Fin 8 := Fin.ofNat 8 (fld (wd c.payload 0) 2 0)

/-- Is a motion command answered with STATE (R350 to R370)? At the boundary at which it applies, moves follow a Jog that
applied just before them there (R320). -/
def Dev.motState (d : Dev) (due : Bool) (c : Cmd) : Bool :=
  let p := c.payload
  let w := wd p 0
  let a := axisOf c
  let m := d.mot[a]
  let mask := d.namedAxes c.code.toNat p
  let mode := d.modeIn a
  let taken := m.src = 3 ∨ m.src = 4 ∨ m.src = 5 ∨ m.src = 6
  let jogged := due && decide (m.src = 2 ∧ m.stillSince = d.clk)
  let g := d.mu.groups[groupNo c]
  match c.code.toNat with
  | 0x500 => d.anyUnfit mask || d.offAxis a || mode != 3 || decide taken
  | 0x502 => d.anyUnfit mask || m.follow != .locked || bitOf m.gear[0] 4
  | 0x503 => d.anyUnfit mask || d.offAxis a || decide (mode ≤ 1) || decide taken
  | 0x505 => !d.assigned a
  | 0x511 =>
      d.anyUnfit mask || d.offAxis a || decide (mode ≤ 1) || !(m.src == 0 || m.src == 1 || m.src == 8 || jogged) ||
        (mode == 2 && (List.range (fld w 7 4)).any (fun j => (moveOf p j).kind != .velocity))
  | 0x512 => !d.assigned a
  | 0x520 => d.anyUnfit mask || m.home.isSome
  | 0x521 =>
      d.anyUnfit mask || (!bitOf w 4 &&
        (if fld m.homeConf[0] 7 4 = 0 then decide taken
         else !d.pwm[a].bridgeOn || mode != 3 || !(m.src == 0 || m.src == 8)))
  | 0x530 => d.anyUnfit mask || m.follow != .disengaged
  | 0x531 =>
      d.anyUnfit mask || (if bitOf w 4 then
          m.follow != .disengaged || !(m.src == 0 || m.src == 8) || m.gear[2] == 0 || !(d.noBridge a || (d.pwm[a].bridgeOn && mode == 3)) ||
            (bitOf m.gear[0] 4 && m.camNpts == 0)
        else m.follow == .disengaged)
  | 0x532 => d.anyUnfit mask || decide (fld w 4 4 = m.camTable.val)
  | 0x533 => d.anyUnfit mask || m.camPending.isSome
  | 0x540 =>
      if bitOf w 3 then g.runs
      else g.runs || (bitsOf 16 (fld w 31 16)).any (fun k =>
        let x := d.mot[ax k]
        d.axisUnfit (ax k) || (match d.groupOf (ax k) with | some h => h != groupNo c | none => false) ||
          x.follow != .disengaged || !(x.src == 0 || x.src == 8))
  | 0x541 => d.anyUnfit mask || g.members == 0
  | 0x542 =>
      d.anyUnfit mask || g.members == 0 ||
        (match fld w 5 4 with
         | 0 => g.axes.any (fun k => !d.pwm[k].bridgeOn || d.modeIn k != 3 || !(d.mot[k].src == 0 || d.mot[k].src == 8))
         | 2 => g.runs
         | _ => false)
  | 0x550 =>
      match d.sdAxis (fld w 2 0) with
      | some k => d.mot[k].moving
      | none => false
  | _ => d.anyUnfit mask

/-- The checks of a motion command: PARAM first where its rule lists it first (R361, R369), else the order of Table 3.8
(03 R93). -/
def Dev.motChecks (d : Dev) (c : Cmd) : List (Bool × Nat) :=
  if c.code = 0x530 ∨ c.code = 0x550 then [(d.motParam c, stParam), (d.motState false c, stState)]
  else [(noWord c, stParam), (d.motState false c, stState), (d.motParam c, stParam)]

/-- A motion command that applies at a frame boundary: its checks when it starts. -/
def doMotion (code : Nat) (st : Stall) (tag : BitVec 8) : Dev → Dev :=
  Dev.start st tag code fun c d =>
    Dev.checked c 1 (d.motChecks c) (fun d => d.await st tag .atFrame) d

/-! ## What the commands do at their boundary -/

/-- SetTarget (0x500). -/
def applySetTarget (c : Cmd) (d : Dev) : Dev :=
  let p := c.payload
  let a := axisOf c
  let w := wd p 0
  let d1 := d.modMot a (Motion.sync d.clk)
  let m := d1.mot[a]
  let base := match m.cur with
    | some e => if e.move.kind == .velocity then rdivUp m.p (2 ^ 20) else e.target
    | none => rdivUp m.p (2 ^ 20)
  let pos := s64 (wd p 1) (wd p 2)
  let mv : Move := { kind := .absolute, id := BitVec.ofNat 16 (fld w 31 16), chain := false, probe := 0,
                     pos := if bitOf w 4 then base + pos else pos, v := wd p 3, a := wd p 4, j := wd p 5, dwellMs := 0,
                     distAfter := 0 }
  let d2 := match m.cur with
    | some e => d1.moveEnd a e.move.id .replaced
    | none => d1
  ((d2.modMot a (fun m => { m with cur := none, overshoot := false, stopKind := 0, jogVel := 0 })).startMove a mv base).ok c []

/-- SetOverride (0x501). -/
def applySetOverride (c : Cmd) (d : Dev) : Dev :=
  let w := wd c.payload 0
  (((bitsOf 16 (fld w 15 0)).map ax).foldl (fun d a =>
    ((d.modMot a (Motion.sync d.clk)).modMot a (fun m => { m with ovr := BitVec.ofNat 14 (fld w 29 16) })).replan a) d).ok c []

/-- SetGearRatio (0x502). -/
def applySetGearRatio (c : Cmd) (d : Dev) : Dev :=
  (d.modMot (axisOf c) (fun m => { m with ratioAsked := some (wd c.payload 1, wd c.payload 2) })).ok c []

/-- Jog (0x503, R316). -/
def applyJog (c : Cmd) (d : Dev) : Dev :=
  let a := axisOf c
  let d1 := (d.modMot a (Motion.sync d.clk)).endMoves a .replaced .flushed
  ((d1.modMot a (fun m => { m with src := 2, jogVel := (wd c.payload 1).toInt, overshoot := false, stopKind := 0, still := false,
                                   stillF := 2 ^ 19, stillSince := d.clk })).replan a).ok c []

/-- Stop of one axis (R317). -/
def Dev.stopOne (quick : Bool) (a : AxisNo) (d : Dev) : Dev :=
  let d1 := ((d.modMot a (Motion.sync d.clk)).endMoves a .stopped .flushed).failHome a 3
  let m := d1.mot[a]
  let d2 := if m.src = 3 then (match d1.groupOf a with
      | some g => d1.stopGroup g quick
      | none => d1)
    else if d1.offAxis a || d1.modeIn a ≤ 1 then d1
    else d1.stopAxis a quick 1
  d2.modMot a (fun m => { m.disengage with overshoot := false })

/-- Stop (0x504). -/
def applyStop (c : Cmd) (d : Dev) : Dev :=
  let w := wd c.payload 0
  (((bitsOf 16 (fld w 15 0)).map ax).foldl (fun d a => d.stopOne (bitOf w 16) a) d).ok c []

/-- ReadStatus (0x505), answered at once with the words of the last frame boundary: those of the axis's status window
(R349, R355). -/
def doReadStatus (st : Stall) (tag : BitVec 8) : Dev → Dev :=
  Dev.start st tag 0x505 fun c d =>
    Dev.checked c 8 (d.motChecks c)
      (fun d =>
        let word (off : Nat) : W32 := Mem.read 0 d.hp.windows[axisOf c].snapshot (off / 4)
        d.ok c ([0x80, 0x84, 0x10, 0x14, 0x88, 0x8C, 0x90].map word)) d

/-- ProfileLimits (0x510, R356): a move that uses defaults re-plans, unless it started at this boundary (R320). -/
def applyProfileLimits (c : Cmd) (d : Dev) : Dev :=
  let a := axisOf c
  let d1 := (d.modMot a (Motion.sync d.clk)).modMot a (fun m =>
    { m with limits := Vector.ofFn (fun i : Fin 7 => wd c.payload (1 + i.val)) })
  (match d1.mot[a].cur with
   | some e => if e.startClk < d.clk ∧ (e.move.v = 0 ∨ e.move.a = 0 ∨ e.move.j = 0) then d1.replan a else d1
   | none => d1).ok c []

/-- MoveQueue (0x511): all moves are entered or none (R311). -/
def applyMoveQueue (c : Cmd) (d : Dev) : Dev :=
  let a := axisOf c
  let n := fld (wd c.payload 0) 7 4
  if d.mot[a].queue.length + n > 64 then d.reply c.stall c.tag stResource []
  else (d.modMot a (fun m => { m with queue := m.queue ++ (List.range n).map (moveOf c.payload) })).ok c []

/-- MoveWait (0x512, R358). -/
def doMoveWait (st : Stall) (tag : BitVec 8) : Dev → Dev :=
  Dev.start st tag 0x512 fun c d =>
    let m := d.mot[axisOf c]
    let id := BitVec.ofNat 16 (fld (wd c.payload 0) 31 16)
    let runs := (match m.cur with | some e => e.move.id == id | none => false) || m.queue.any (fun q => q.id == id)
    let ended := m.ends.find? (fun e => e.1 == id)
    Dev.checked c 2 (d.motChecks c ++ [(!runs && ended.isNone, stParam)])
      (fun d =>
        if runs then d.await st tag .started
        else d.ok c [mkw [((ended.map (·.2.code)).getD 0, 0, 3)]]) d

/-- HomeConfig (0x520). -/
def applyHomeConfig (c : Cmd) (d : Dev) : Dev :=
  ((d.modMot (axisOf c) (fun m => { m with homeConf := Vector.ofFn (fun i : Fin 10 => wd c.payload i.val) })).limitCheck
    (axisOf c)).ok c []

/-- GearConfig (0x530). -/
def applyGearConfig (c : Cmd) (d : Dev) : Dev :=
  (d.modMot (axisOf c) (fun m => { m with gear := Vector.ofFn (fun i : Fin 7 => wd c.payload i.val) })).ok c []

/-- GearEngage (0x531): engaging leaves DISENGAGED, disengaging asks for RAMP_OUT (R333, R334, R362). -/
def applyGearEngage (c : Cmd) (d : Dev) : Dev :=
  let p := c.payload
  let a := axisOf c
  let w := wd p 0
  if bitOf w 4 then
    (d.modMot a (fun m =>
      { m with follow := .waiting, src := if bitOf m.gear[0] 4 then 5 else 4, engage := some ⟨bitOf w 5, s64 (wd p 1) (wd p 2)⟩,
               camOrigin := if bitOf m.gear[0] 4 then s64 (wd p 3) (wd p 4) else m.camOrigin })).ok c []
  else (d.modMot a (fun m => { m with outAsked := true })).ok c []

/-- CamLoad (0x532): points of the table that is not in use (R336, R363). -/
def applyCamLoad (c : Cmd) (d : Dev) : Dev :=
  let p := c.payload
  let w := wd p 0
  (d.modMot (axisOf c) (fun m => { m with cams := vmod m.cams (Fin.ofNat 2 (fld w 4 4)) (fun t =>
    Mem.writes 0 t (2 * fld w 27 16) ((p.drop 2).take (2 * fld (wd p 1) 8 0))) })).ok c []

/-- A cam selection takes effect (R336). -/
def Motion.selectCam (w : W32) (m : Motion) : Motion :=
  { m with camTable := Fin.ofNat 2 (fld w 4 4), camCubic := bitOf w 6, camNpts := fld w 28 16, camPending := none }

/-- CamSelect (0x533, R364). -/
def applyCamSelect (c : Cmd) (d : Dev) : Dev :=
  let a := axisOf c
  let w := wd c.payload 0
  if bitOf w 5 then
    (d.modMot a (fun m => { m with camPending := some ⟨w, c.stall, c.tag⟩ })).await c.stall c.tag .started
  else (d.modMot a (Motion.selectCam w)).ok c []

/-- MasterPublish (0x534) at its network-cycle boundary (R365, 11 R420). -/
def applyMasterPublish (c : Cmd) (d : Dev) : Dev :=
  let w := wd c.payload 0
  let s := BitVec.ofNat 16 (fld w 15 0)
  let t := BitVec.ofNat 16 (fld w 31 16)
  let plan := plannedBytes (masterCount s t) d.ringOutCount (safetyBytes d.safeSet) d.ring.conf.acycBytes.toNat
  if decide (masterCount s t > masterCount d.mu.setMask d.mu.actMask) && d.breaksCycle plan then
    d.reply c.stall c.tag stResource []
  else Dev.ok c [] { d with mu := { d.mu with setMask := s, actMask := t } }

/-- PathGroup (0x540, R366). -/
def applyPathGroup (c : Cmd) (d : Dev) : Dev :=
  let p := c.payload
  let w := wd p 0
  let g := groupNo c
  let others := ((List.finRange 8).filter (fun h => h != g)).foldl (fun n h => n + d.mu.groups[h].lookahead.toNat) 0
  if bitOf w 3 then (d.modGroup g (fun _ => PathGroup.reset)).ok c []
  else if others + (wd p 1).toNat > 8192 then d.reply c.stall c.tag stResource []
  else
    (d.modGroup g (fun x =>
      { x with members := BitVec.ofNat 16 (fld w 31 16), lookahead := BitVec.ofNat 16 (wd p 1).toNat, aPath := wd p 2,
               jPath := wd p 3, cornerDv := wd p 4, queue := [], s := 0, v := 0, a := 0 })).ok c []

/-- PathAppend (0x541, R367). -/
def applyPathAppend (c : Cmd) (d : Dev) : Dev :=
  let g := groupNo c
  let x := d.mu.groups[g]
  let n := fld (wd c.payload 0) 15 8
  match parseSegs x.axes.length n 0 (c.payload.drop 1) [] with
  | .error i => d.respond c.stall c.tag stParam [mkw [(i, 0, 16)]]
  | .ok segs =>
    if x.queue.length + segs.length > 65535 then d.reply c.stall c.tag stResource [0]
    else
      (d.modGroup g (fun x => { x with queue := x.queue ++ segs,
                                       segId := if x.queue.isEmpty then BitVec.ofNat 16 (fld (wd (segs.headD []) 0) 31 16) else x.segId })).ok
        c [0]

/-- PathControl (0x542, R368). -/
def applyPathControl (c : Cmd) (d : Dev) : Dev :=
  let g := groupNo c
  let x := d.mu.groups[g]
  match fld (wd c.payload 0) 5 4 with
  | 0 =>
    let d1 := d.modGroup g (fun x =>
      { x with state := .running, starved := false, hlStop := false, quick := false, s := 0, v := 0, a := 0, dwellUntil := none,
               start := Vector.ofFn (fun a : Fin 16 => d.mot[a].p) })
    (x.axes.foldl (fun d a => d.modMot a (fun m =>
      { m with src := 3, profile := none, still := false, stillF := 2 ^ 19, stillSince := d.clk })) d1).ok c []
  | 1 => (d.stopGroup g false).ok c []
  | _ => (d.modGroup g (fun x => { x with queue := [] })).ok c []

/-- StepConfig (0x550, R369): at enabling the count is set without a step (R344). -/
def applyStepConfig (c : Cmd) (d : Dev) : Dev :=
  let p := c.payload
  let w := wd p 0
  let n : Fin 8 := Fin.ofNat 8 (fld w 2 0)
  Dev.ok c [] { d with mu := { d.mu with sd := vmod d.mu.sd n (fun x =>
    { x with en := bitOf w 3, dirInv := bitOf w 4, stepLow := bitOf w 5, stepsPerTurn := BitVec.ofNat 24 (fld (wd p 1) 23 0),
             pulse := BitVec.ofNat 8 (fld (wd p 2) 7 0), dirSetup := BitVec.ofNat 8 (fld (wd p 2) 15 8),
             maxRate := BitVec.ofNat 16 (fld (wd p 2) 31 16), active := false, lag := 0, plan := 0, carry := 0 }) } }

/-- StandstillConfig (0x551). -/
def applyStandstillConfig (c : Cmd) (d : Dev) : Dev :=
  let p := c.payload
  (d.modMot (axisOf c) (fun m => { m with stillFrac := (wd p 1).toInt, stillDelay := BitVec.ofNat 16 (fld (wd p 2) 15 0),
                                          stillRamp := BitVec.ofNat 16 (fld (wd p 2) 31 16) })).ok c []

end Sys2Proof.Machine
end

