-- ==== Sys2Proof/Machine/Phase.lean ====
section
/-! DEFINITION. The phase of the tick: the instants of R53, the slew and the step of R55, and where the present tick ends. -/
namespace Sys2Proof.Machine
open Sys2Proof

/-- Network time of one lane clock, in 2^-64 ns. -/
def Dev.clkUnit (d : Dev) : Int := d.ntStep 1
/-- The instant of tick number n by R53, in 2^-64 ns. -/
def Dev.target (d : Dev) (n : Nat) : Int := d.tk.epoch.toInt + (n * d.tickClks * 128000 : Nat) * 2 ^ 48
/-- The phase error of the boundary that began the present tick, in 2^-64 ns. -/
def Dev.phase (d : Dev) : Int := d.nt.nt - d.target d.tick
/-- Is the time base disciplined, so that the phase is corrected (Table 2.2)? -/
def Dev.corrects (d : Dev) : Bool := d.tk.sync == .acquire || d.tk.sync == .locked
/-- Is the present tick the last one of its configuration, which ends at a pending epoch (R66)? -/
def Dev.lastTick (d : Dev) : Bool :=
  match d.tk.pendingSet with
  | some p => decide (p.epoch.toInt - d.nt.nt < 2 * d.ntStep d.tickClks)
  | none => false
/-- Lane clocks that the slew takes out of the present tick, at most 16 in either direction (R55). -/
def Dev.slewClks (d : Dev) : Int := if d.corrects then clampI (-16) 16 (Int.tdiv d.phase (max 1 d.clkUnit)) else 0
/-- Does the present tick make the single step of R55: every bridge off and none charging (08 R631), and a phase error above
64 lane clocks? -/
def Dev.steps (d : Dev) : Bool :=
  d.corrects && d.liveAxes.isEmpty &&
    (decide (d.phase > 64 * d.clkUnit) || decide (d.phase < -(64 * d.clkUnit)))
/-- Number of the first aligned boundary at or after the present tick's normal end (R53, R55); the number never goes back or
repeats, so that it is at least the next one. -/
def Dev.nextAligned (d : Dev) : Nat := max (d.tick + 1) <|
  (cdivI (d.nt.nt + d.ntStep d.tickClks - d.tk.epoch.toInt) (max 1 ((d.tickClks * 128000 : Nat) * 2 ^ 48))).toNat
where
  cdivI (a b : Int) : Int := -(Int.fdiv (-a) b)

/-- Lane clocks until an instant, rounded up to the resolution of the time base. -/
def Dev.clksTo (d : Dev) (t : Int) : Nat := (-(Int.fdiv (-(t - d.nt.nt)) (max 1 d.clkUnit))).toNat

/-- Length of the present tick in lane clocks and the number of the next. -/
def Dev.tickEnd (d : Dev) : Nat × Nat :=
  let n := d.tickClks
  match d.tk.pendingSet with
  | some p => if d.lastTick then (max n (d.clksTo p.epoch.toInt), 0) else plain n
  | none => plain n
where
  plain (n : Nat) : Nat × Nat :=
    if d.tk.late then (2 * n, d.tick + 2)
    else if d.steps then (max n (d.clksTo (d.target d.nextAligned)), d.nextAligned)
    else ((n - d.slewClks).toNat, d.tick + 1)

end Sys2Proof.Machine
end

