-- ==== Sys2Proof/Machine/Pwm.lean ====
section
/-! DEFINITION. The timer array and the gate drive: switching periods, carry, interlock, refreshes, protection, and their
commands (spec 08). -/
namespace Sys2Proof.Machine
open Sys2Proof

/-! ## Configuration in force -/

/-- SPAN of PwmConfig word 0: 1, 2, 4. -/
def spanOf (w : W32) : Nat := 2 ^ fld w 7 6
/-- The divider D of PwmConfig word 0. -/
def divOf (w : W32) : Nat := 2 ^ fld w 5 4
/-- Switching period of a PwmConfig word 0 in fine units, in a tick of L lane clocks (R267). -/
def periodOf (w : W32) (L : Nat) : Nat := spanOf w * (8 * L / divOf w)
/-- Is a switching period within 4 µs to 250 µs (R267)? A microsecond has 4,096 fine units. -/
def periodOk (c : Nat) : Bool := decide (4 * 4096 ≤ c) && decide (c ≤ 250 * 4096)
/-- Switching period of an axis. -/
def Dev.cOf (d : Dev) (a : AxisNo) : Nat := periodOf d.pwm[a].pwm[0] d.tickClks
/-- REFRESH_NS in fine units. -/
def refreshFine (w : W32) : Nat := tenNs (fld w 7 0)
/-- The nominal length of a refresh pulse (R278). -/
def refreshLen (pwm : Vector W32 3) : Nat := refreshFine pwm[2] + 2 * fld pwm[1] 11 0
/-- An instant of the present tick, in fine units. -/
def Dev.fine (d : Dev) (at_ : Nat) : Nat := 8 * d.clk + at_
/-- t_hi of R271, from word 1. -/
def tHi (w : W32) : Nat := max (fld w 27 16) (fld w 11 0)
/-- The scope of a source of a leg: the axis whose plot holds it (R292). -/
def Dev.legScope (d : Dev) (l : LegNo) : Scope := .axes (d.legAxis l).toList
/-- BST_WARN and BST_UV in mV. -/
def bstWarnMv (w : W32) : Nat := fld w 23 16 * 100
/-- May a switch of a leg turn on: bridge on or charging, not latched, not masked, no STO (R286, R288, R290)? -/
def Dev.mayTurnOn (d : Dev) (a : AxisNo) (l : LegNo) : Bool :=
  d.bridgeBusy a && !d.legs[l].tripped && !d.legs[l].masked && !d.stoActive (dieOf l) && d.gates[dieOf l].supplyOk &&
    !d.gates[dieOf l].sto

/-! ## Edges (R268, R274) -/

/-- A commanded edge at an instant: the outgoing switch turns off, the incoming one waits for its interlock. -/
def Leg.edge (ext high : Bool) (t : Nat) (x : Leg) : Leg :=
  if high then { x.lowEnds (some t) with side := .high, edgeAt := t, lo := x.lo.toOff ext, hi := if x.hi.isOn then x.hi else .pending }
  else { x with side := .low, edgeAt := t, hi := x.hi.toOff ext, lo := if x.lo.isOn then x.lo else .pending,
                refresh := if x.refresh == .wanted then .none else x.refresh }
/-- A leg is commanded to a side it does not stand at, where it may turn on. -/
def Dev.drive (a : AxisNo) (l : LegNo) (high : Bool) (t : Nat) (d : Dev) : Dev :=
  if d.mayTurnOn a l && d.legs[l].side != (if high then .high else .low) then d.modLeg l (Leg.edge (d.extDriver a) high t) else d

/-- A refresh pulse begins at an instant: the high side goes off, the low side on; it is counted, and the count of full
periods restarts (R278). -/
def Leg.pulse (ext : Bool) (t on : Nat) (x : Leg) : Leg :=
  { x.edge ext false t with
      refresh := .running, pulseEnd := if x.lo.isOn then some (t + on) else none, pulsed := true, fullHigh := 0,
      refreshes := BitVec.ofNat 8 (satU 8 (x.refreshes.toNat + 1)) }
/-- Is a refresh pulse in progress at an instant? -/
def Leg.inPulse (t : Nat) (x : Leg) : Bool :=
  x.refresh == .running && (match x.pulseEnd with
    | some e => decide (t < e)
    | none => true)

/-! ## The high interval of a period (R268) -/

/-- Start of the high interval of a period that starts at an instant: with UPD 1 by the width of the set before (R269). -/
def Leg.rise (edgeAligned : Bool) (start : Nat) (x : Leg) : Nat :=
  if edgeAligned then start else start + (x.period - x.riseEmit) / 2
/-- End of the high interval. -/
def Leg.fall (edgeAligned : Bool) (start : Nat) (x : Leg) : Nat :=
  if edgeAligned then start + x.emit else start + (x.period - x.emit) / 2 + x.emit

/-! ## Application of the staging sets (R269 to R273) -/

/-- The width emitted and the carry left for a width in a period of c (R271). -/
def carryRule (thi tlo c : Nat) (w : Int) : Nat × Int :=
  if w < thi then (0, w)
  else if (c : Int) - w < tlo then (c, w - c)
  else (w.toNat, 0)

/-- The width of a lane duty in a period of c: ties up, a negative duty 0 (R269). -/
def widthOf (duty : Int) (c : Nat) : Nat := (rdivUp (max 0 duty * c) (2 ^ 19)).toNat

/-- One leg takes its width, or goes all-off by the mask; a refresh due on a masked leg is held (R288). -/
def Dev.applyLeg (a : AxisNo) (c w : Nat) (masked zeroCarry : Bool) (l : LegNo) (d : Dev) : Dev :=
  let cf := d.pwm[a].pwm
  let thi := tHi cf[1]
  let tlo := if bitOf cf[0] 8 then thi else 2 * thi
  d.modLeg l (fun x =>
    if masked || x.tripped then
      { (if masked then x.allOff (d.extDriver a) else x) with
          masked := masked, carry := 0, width := 0, emit := 0, period := c, fullHigh := 0,
          refresh := if masked && (x.refresh == .due || x.refresh == .held) then .held else .none }
    else
      let r := carryRule thi tlo c ((w : Int) + (if zeroCarry then 0 else x.carry))
      { x with masked := false, width := w, emit := r.1, carry := r.2, period := c })

/-- The latest set of an axis is applied to a period of c (R269, R270). -/
def Dev.applySet (a : AxisNo) (c : Nat) (d : Dev) : Dev :=
  let p := d.pwm[a]
  let legs := (d.axisLegs a).zip (List.range 4)
  if p.direct then
    let s := p.dirLatest.getD DirectSet.start
    let width (i : Nat) : Nat := s.width.toList.getD i 0
    let clamped := legs.any (fun x => decide (width x.2 > c))
    let changed := s.mask != p.applied.mask
    let d1 := (legs.foldl (fun d x => d.applyLeg a c (min c (width x.2)) (s.mask.getLsbD x.2) changed x.1) d).modPwm a
      (fun p => { p with applied := { OutSet.zero with mask := s.mask } })
    if clamped && !p.dirClamped then
      (d1.modPwm a (fun p => { p with dirClamped := true, pdMismatch := true })).fire 80 (.axes [a])
    else d1
  else
    let s := p.latest
    (legs.foldl (fun d x => d.applyLeg a c (widthOf (s.duty.toList.getD x.2 0) c) (s.mask.getLsbD x.2) false x.1) d).modPwm a
      (fun p => { p with applied := s })

/-- The stepper chopper drives one phase at a period start: the leg at i against the one at j (R273). -/
def Dev.chopDrive (a : AxisNo) (chop : Int) (i j c t : Nat) (d : Dev) : Dev :=
  let legs := d.axisLegs a
  let one (k : Nat) (high : Bool) (d : Dev) : Dev :=
    match legs[k]? with
    | some l =>
      let d1 := d.modLeg l (fun (x : Leg) =>
        { x with carry := 0, period := c, width := if high then c else 0, emit := if high then c else 0 })
      if d1.legs[l].inPulse t then d1 else d1.drive a l high t
    | none => d
  if chop > 0 then (d |> one i true |> one j false)
  else if chop < 0 then (d |> one j true |> one i false)
  else (d |> one i false |> one j false)

/-- The refresh that a period carries, if it has a high interval; one held over a mask, if the bootstrap is then below BST_WARN
(R278, R288). -/
def Dev.schedRefresh (a : AxisNo) (l : LegNo) (d : Dev) : Dev :=
  d.modLeg l (fun x =>
    let due := x.refresh == .due || (x.refresh == .held && !x.masked && x.emit != 0)
    if !due then x
    else if x.masked then { x with refresh := .held }
    else if x.tripped || x.emit = 0 || (x.refresh == .held && decide (x.bstMv.toNat ≥ bstWarnMv d.pwm[a].pwm[2])) then
      { x with refresh := .none }
    else { x with refresh := .due })

/-- What a leg counts over the period that ends at an instant: full high periods, and periods with an overcurrent trip (R278,
R282). With refreshes scheduled after some full periods, the last of those makes one due. -/
def Leg.periodEnd (after : Option Nat) (t : Nat) (x : Leg) : Leg :=
  let full := decide (0 < x.period) && x.emit == x.period && x.riseEmit == x.period && !x.masked && !x.pulsed && !x.ocNow
  let n := if full then x.fullHigh + 1 else 0
  let due := match after with
    | some k => full && decide (n ≥ k)
    | none => false
  let ended := x.refresh == .due || (x.refresh == .running && !x.inPulse t)
  { x with fullHigh := if due then 0 else n, refresh := if due then .due else if ended then .none else x.refresh,
           pulsed := x.inPulse t, ocRun := if x.ocNow then x.ocRun + 1 else 0, ocNow := false, ocLow := false }

/-- A period start: what the period before left, a GateProfile that waits, then the staging set with UPD 0, the chopper
drive, and the refreshes. -/
def Dev.periodStart (a : AxisNo) (c t : Nat) (d : Dev) : Dev :=
  let d0 := d.modPwm a (fun p =>
    let q := { p with start := some t, len := c, midDone := false, decayA := false, decayB := false, fastA := 0, fastB := 0 }
    match p.gatePending with
    | some g => { q with gate := g, gatePending := none }
    | none => q)
  if !d.pwm[a].bridgeOn then d0
  else
    let cf := d.pwm[a].pwm
    let after := if d.extDriver a || bitOf cf[0] 10 then none else some (fld cf[0] 19 12)
    let d1 := (d.axisLegs a).foldl (fun d l => d.modLeg l (Leg.periodEnd after t)) d0
    let p := d1.pwm[a]
    let strong := decide (d.mtype a = 3) && p.latest.strong && !p.direct
    let d2 := if strong && p.fresh then
        let s := p.latest
        ((((d.axisLegs a).zip (List.range 4)).foldl (fun d x => d.applyLeg a c 0 (s.mask.getLsbD x.2) true x.1) d1).modPwm a
          (fun p => { p with applied := s })) |>.chopDrive a s.chopA 0 1 c t |>.chopDrive a s.chopB 2 3 c t
      else if !bitOf cf[0] 9 && p.fresh then d1.applySet a c
      else (d.axisLegs a).foldl (fun d l => d.modLeg l (fun x => { x with period := c })) d1
    let d3 := (d.axisLegs a).foldl (fun d l => d.modLeg l (fun x => { x with riseEmit := x.emit })) d2
    (d.axisLegs a).foldl (fun d l => d.schedRefresh a l) d3

/-- Does a switching period of an axis start at an instant of the present tick? The answer is the number of its first PWM
period within the tick: a tick has D of them, they are numbered from the tick epoch, and switching period j begins with PWM
period SPAN × j (R267). -/
def Dev.periodAt (d : Dev) (a : AxisNo) (at_ : Nat) : Option Nat :=
  let w := d.pwm[a].pwm[0]
  (List.range (divOf w)).find? (fun k =>
    at_ == k * (8 * d.tickClks / divOf w) && (d.tick * divOf w + k) % spanOf w == 0)

/-- Length of the switching period that starts with a PWM period of the present tick. The slew of the tick at whose end it ends
belongs to it (R269): the present tick's is known, that of a later tick, at most 16 lane clocks, comes with the event. -/
def Dev.periodLen (d : Dev) (a : AxisNo) (k : Nat) (slew : Int) : Nat :=
  let w := d.pwm[a].pwm[0]
  let D := divOf w
  let by_ := if k + spanOf w = D then d.slewClks else if k + spanOf w > D then clampI (-16) 16 slew else 0
  ((d.cOf a : Int) - 8 * by_).toNat

/-- An application instant of an axis, in fine units after the present tick's start: the start of a period, or with UPD 1 its
midpoint (R269). -/
def doApplicationInstant (axis : AxisNo) (at_ : Nat) (slew : Int) (d : Dev) : Dev :=
  let p := d.pwm[axis]
  let t := d.fine at_
  if !d.assigned axis || d.noBridge axis || p.start == some t then d
  else
    match d.periodAt axis at_ with
    | some k => d.periodStart axis (d.periodLen axis k slew) t
    | none =>
      let mid := match p.start with
        | some s => t == s + p.len / 2 && !p.midDone
        | none => false
      if mid && p.bridgeOn && p.fresh && bitOf p.pwm[0] 9 && !(d.mtype axis == 3 && p.latest.strong && !p.direct) then
        (d.applySet axis p.len).modPwm axis (fun p => { p with midDone := true })
      else d

/-! ## Edges and gate events (R274 to R279) -/

/-- Is an axis in strong mode, chopping (R273)? -/
def Dev.chops (d : Dev) (a : AxisNo) : Bool := decide (d.mtype a = 3) && d.pwm[a].applied.strong && !d.pwm[a].direct

/-- Does the chopper drive the leg at a place high at an instant (R273): the driving leg until its phase decays, the sinking
leg while both are reversed? -/
def AxisPwm.chopHigh (p : AxisPwm) (k t : Nat) : Bool :=
  let (chop, decay, fast) := if k < 2 then (p.applied.chopA, p.decayA, p.fastA) else (p.applied.chopB, p.decayB, p.fastB)
  if chop = 0 then false
  else
    let driving := (k % 2 == 0) == decide (chop > 0)
    if decay then !driving && decide (t < fast) else driving

/-- Is a leg commanded high at an instant, refresh pulses and overcurrent trips apart (R268, R273)? -/
def Dev.highAt (d : Dev) (a : AxisNo) (l : LegNo) (t : Nat) : Bool :=
  let p := d.pwm[a]
  let x := d.legs[l]
  if d.chops a then p.chopHigh ((d.axisLegs a).idxOf l) t
  else
    let s := p.start.getD 0
    let al := bitOf p.pwm[0] 8
    decide (x.rise al s ≤ t) && decide (t < x.fall al s)

/-- The instants of a period at which the side a leg is commanded to may change: its start, the ends of the high interval or of
the reversal of its phase, and the end of a refresh pulse. -/
def Dev.edgeInstants (d : Dev) (a : AxisNo) (l : LegNo) : List Nat :=
  let p := d.pwm[a]
  let x := d.legs[l]
  let s := p.start.getD 0
  let al := bitOf p.pwm[0] 8
  s :: (if d.chops a then [p.fastA, p.fastB] else [x.rise al s, x.fall al s]) ++ x.pulseEnd.toList

/-- A commanded edge of a leg at an instant of the present tick: the start of its scheduled refresh pulse, or a change to the
side that the period commands at one of its instants; none while a pulse lasts, and no high one while a trip holds the leg
low (R282). -/
def doCommandedEdge (leg : LegNo) (high : Bool) (at_ : Nat) (d : Dev) : Dev :=
  match d.legAxis leg with
  | none => d
  | some a =>
    let x := d.legs[leg]
    let p := d.pwm[a]
    let t := d.fine at_
    if !p.bridgeOn || !d.mayTurnOn a leg || x.inPulse t then d
    else if !high && x.refresh == .due && x.side == .high && t == p.start.getD 0 + p.len / 2 - refreshLen p.pwm / 2 then
      d.modLeg leg (Leg.pulse (d.extDriver a) t (refreshFine p.pwm[2]))
    else if x.side == (if high then .high else .low) || d.highAt a leg t != high || (high && x.ocLow) ||
        !(d.edgeInstants a leg).contains t then d
    else
      d.modLeg leg (fun x =>
        { x.edge (d.extDriver a) high t with refresh := if x.refresh == .running then .none else x.refresh, pulseEnd := none })

/-- The dead time of a leg's turn-on recorded (R274). -/
def Leg.deadTime (high : Bool) (ns : Nat) (x : Leg) : Leg :=
  if high then { x with dtHi := BitVec.ofNat 8 (satU 8 ns) } else { x with dtLo := BitVec.ofNat 8 (satU 8 ns) }
/-- One switch of a leg. -/
def Leg.sw (high : Bool) (x : Leg) : SwitchState := if high then x.hi else x.lo
/-- One switch of a leg set. -/
def Leg.setSw (high : Bool) (s : SwitchState) (x : Leg) : Leg := if high then { x with hi := s } else { x with lo := s }

/-- Of one switch of a leg, the start of its last turn-on and of its hold. -/
def Leg.onAt (high : Bool) (x : Leg) : Nat := if high then x.hiOn else x.loOn
def Leg.holdAt (high : Bool) (x : Leg) : Nat := if high then x.hiHold else x.loHold
/-- The hold of one switch begins at an instant. -/
def Leg.holds (high : Bool) (t : Nat) (x : Leg) : Leg := if high then { x with hiHold := t } else { x with loHold := t }
/-- Nanoseconds of a time in fine units, rounded to nearest (log entry 119). -/
def fineNs (n : Nat) : Nat := (rdivUp (n * 1000 : Nat) 4096).toNat

/-- The interlock lets a pending turn-on start, DT_FLOOR or more and at most 1 µs after the commanded edge, with the opposite
gate off; profiles are not used in external mode (R274, R289). A refresh pulse lasts REFRESH_NS from here (R278). -/
def doInterlockTurnOn (leg : LegNo) (high : Bool) (at_ : Nat) (d : Dev) : Dev :=
  let x := d.legs[leg]
  let t := d.fine at_
  let cf := match d.legAxis leg with
    | some a => d.pwm[a].pwm
    | none => Vector.replicate 3 0
  if x.sw high != .pending || x.sw (!high) != .off || d.stoActive (dieOf leg) || decide (t < x.edgeAt + fld cf[1] 11 0) ||
      decide (t > x.edgeAt + 4096) then d
  else
    d.modLeg leg (fun x =>
      let y := ((x.setSw high (if d.legExt leg then .on3 else .on1)).deadTime high (fineNs (t - x.edgeAt))).holds high t
      let z := if high then { y with hiOn := t } else { y with loOn := t }
      if !high && z.refresh == .running && z.pulseEnd.isNone then { z with pulseEnd := some (t + refreshFine cf[2]) } else z)

/-- A turn-on not started within 1 µs is abandoned, and a refresh pulse that waits for it. -/
def doInterlockTimeout (leg : LegNo) (high : Bool) (at_ : Nat) (d : Dev) : Dev :=
  let x := d.legs[leg]
  if x.sw high != .pending || decide (d.fine at_ < x.edgeAt + 4096) then d
  else
    (d.modLeg leg (fun x =>
      { x.setSw high .off with
          ilTimeout := true, refresh := if !high && x.refresh == .running && x.pulseEnd.isNone then .none else x.refresh })).fire
      73 (d.legScope leg)

/-- The phase of a switch ends (R275). -/
def SwitchState.next : SwitchState → SwitchState
  | .on1 => .on2
  | .on2 => .on3
  | .off1 => .off2
  | .off2 => .off
  | .soft => .off
  | x => x

/-- Is no edge sequence of a leg in progress? -/
def Leg.settled (x : Leg) : Bool := (x.hi == .off || x.hi == .on3) && (x.lo == .off || x.lo == .on3)

/-- The refresh pulse of a warning begins where no edge sequence is in progress: BST_WARN is set and FS074 fires (R278). -/
def Dev.warnPulse (a : AxisNo) (l : LegNo) (t : Nat) (d : Dev) : Dev :=
  (d.modLeg l (fun x => { x.pulse (d.extDriver a) t (refreshFine d.pwm[a].pwm[2]) with bstWarn := true })).fire 74 (.axes [a])

/-- A gate-drive phase of a switch ends; a warning that waited for the end of the sequence has its pulse then. -/
def doGatePhaseEnd (leg : LegNo) (high : Bool) (at_ : Nat) (d : Dev) : Dev :=
  let t := d.fine at_
  let d1 := d.modLeg leg (fun x =>
    let y := x.setSw high (x.sw high).next
    if x.sw high == .on2 then y.holds high t else y)
  match d.legAxis leg with
  | some a => if d1.legs[leg].refresh == .wanted && d1.legs[leg].settled && d.mayTurnOn a leg then d1.warnPulse a leg t else d1
  | none => d1

/-- A leg all-off with the OFF profile, latched while its bridge is on or charging (R286). -/
def Dev.tripLeg (l : LegNo) (d : Dev) : Dev :=
  match d.legAxis l with
  | some a => d.modLeg l (fun x => { x.allOff (d.extDriver a) with tripped := x.tripped || d.bridgeBusy a, fullHigh := 0 })
  | none => d

/-- A failed gate check (R276). -/
def Dev.gateFail (l : LegNo) (d : Dev) : Dev :=
  ((d.tripLeg l).modLeg l (fun x => { x with gateErr := true })).fire 76 (d.legScope l)

/-- A switch fails its gate check while it is on; external mode has its own check (R276, R289). -/
def doGateCheckFail (leg : LegNo) (high : Bool) (d : Dev) : Dev :=
  if d.legExt leg || !(d.legs[leg].sw high).isOn then d else d.gateFail leg

/-- The output check of external mode, 100 ns after an edge (R289). -/
def doExtOutputCheck (leg : LegNo) (high ok : Bool) (d : Dev) : Dev :=
  let on := match d.legAxis leg with
    | some a => d.bridgeBusy a
    | none => false
  if !d.legExt leg || !on || ok || d.legs[leg].tripped || d.legs[leg].sw high == .pending then d else d.gateFail leg

/-- A bootstrap sample of a leg at an instant: the value shows, and one below BST_WARN with the high side on is a warning, whose
pulse begins at once or at the end of the edge sequence in progress (R277, R278); in external mode BST_MV is 0 (R289). -/
def Dev.bstSample (l : LegNo) (mv : BitVec 16) (t : Nat) (d : Dev) : Dev :=
  match d.legAxis l with
  | none => d.modLeg l (fun x => { x with bstMv := mv })
  | some a =>
    if d.extDriver a then d.modLeg l (fun x => { x with bstMv := 0 })
    else
      let d1 := d.modLeg l (fun x => { x with bstMv := mv })
      let x := d1.legs[l]
      if decide (mv.toNat ≥ bstWarnMv d.pwm[a].pwm[2]) || !d.pwm[a].bridgeOn || !d.mayTurnOn a l || !x.hi.isOn || x.side != .high then d1
      else if x.settled then d1.warnPulse a l t
      else d1.modLeg l (fun x => { x with refresh := .wanted })

/-- A bootstrap sample below BST_WARN. -/
def doBootstrapWarning (leg : LegNo) (mv : BitVec 16) (at_ : Nat) (d : Dev) : Dev :=
  match d.legAxis leg with
  | none => d.bstSample leg mv (d.fine at_)
  | some a => if d.extDriver a || decide (mv.toNat ≥ bstWarnMv d.pwm[a].pwm[2]) then d else d.bstSample leg mv (d.fine at_)

/-- A bootstrap UVLO of a leg whose bridge is on: BST_UV, FS075 and a refresh, without the refresh on a masked leg; none of it
while the leg is latched or its die under STO (R278, R288). -/
def doBootstrapUvlo (leg : LegNo) (at_ : Nat) (d : Dev) : Dev :=
  match d.legAxis leg with
  | none => d
  | some a =>
    let x := d.legs[leg]
    if d.extDriver a || !d.pwm[a].bridgeOn || (!d.mayTurnOn a leg && !x.masked) || x.tripped || d.stoActive (dieOf leg) then d
    else
      (d.modLeg leg (fun x =>
        { (if d.mayTurnOn a leg then x.pulse false (d.fine at_) (refreshFine d.pwm[a].pwm[2]) else x) with bstUv := true })).fire
        75 (.axes [a])

/-- Word w of the bank of an axis in use, as a number (05 R159). -/
def AxisLoop.coef (l : AxisLoop) (w : Nat) : Int := (Mem.read 0 (if l.bank then l.bankB else l.bankA) w).toInt
/-- DECAY of LAW_CFG in the bank in use: 0 slow, 1 fast, 2 mixed (06 R185, R193). -/
def Dev.decayMode (d : Dev) (a : AxisNo) : Nat := ((d.loops[a].coef 8).toNat / 8) % 4

/-! ## Protection (R273, R282 to R287) -/

/-- The chop comparator of a phase trips after CHOP_BLANK: the phase decays for the rest of the period, with both legs reversed
for all of it, for the share MIX of it, or not at all (R273). -/
def doChopTrip (axis : AxisNo) (phaseB : Bool) (at_ : Nat) (d : Dev) : Dev :=
  let p := d.pwm[axis]
  let s := p.applied
  let t := d.fine at_
  let start := p.start.getD 0
  let chop := if phaseB then s.chopB else s.chopA
  let done := if phaseB then p.decayB else p.decayA
  if !p.bridgeOn || !d.chops axis || chop = 0 || done || decide (t < start + tenNs (fld p.prot[2] 15 8)) then d
  else
    let legs := d.axisLegs axis
    let base := if phaseB then 2 else 0
    let (i, j) : Nat × Nat := if chop > 0 then (base, base + 1) else (base + 1, base)
    let left := start + p.len - t
    let fast := match d.decayMode axis with
      | 0 => 0
      | 1 => start + p.len
      | _ => t + min left (rdivUp (d.loops[axis].coef 0x023 * left) (2 ^ 19)).toNat
    let d1 := d.modPwm axis (fun p =>
      if phaseB then { p with decayB := true, fastB := fast } else { p with decayA := true, fastA := fast })
    match legs[i]?, legs[j]? with
    | some li, some lj =>
      let d2 := (d1.drive axis li false t).modLeg li (fun x => { x with emit := 0, fullHigh := 0 })
      if decide (t < fast) && !d2.legs[lj].inPulse t then d2.drive axis lj true t else d2
    | _, _ => d1

/-- The overcurrent comparator of a leg trips, OC_BLANK or more after a turn-on of either switch (R282). -/
def doOvercurrentTrip (leg : LegNo) (at_ : Nat) (d : Dev) : Dev :=
  match d.legAxis leg with
  | none => d
  | some a =>
    let x := d.legs[leg]
    let t := d.fine at_
    if !d.bridgeBusy a || x.tripped || d.stoActive (dieOf leg) ||
        decide (t < max x.hiOn x.loOn + tenNs (fld d.pwm[a].prot[2] 7 0)) then d
    else
      let d1 := d.modLeg leg (fun x => { x with oc := true })
      if !bitOf d.pwm[a].prot[0] 21 then (d1.tripLeg leg).fire 77 (.axes [a])
      else
        let d2 := d1.modLeg leg (fun (x : Leg) =>
          { (if x.side == .high then { x.edge (d.extDriver a) false t with ocLow := true } else x) with ocNow := true })
        if !x.ocNow && decide (x.ocRun + 1 ≥ fld d.pwm[a].prot[0] 31 24) then d2.fire 77 (.axes [a]) else d2

/-- Legs with a short that a detection at an instant meets: within 2 µs, or with the soft turn-off still running
(R285). -/
def Dev.shortPartners (d : Dev) (leg : LegNo) (t : Nat) : List LegNo :=
  (List.finRange 48).filter (fun l => l != leg && (match d.legs[l].shortAt with
    | some s => decide (t ≤ s + 8192) || d.legs[l].hi == .soft || d.legs[l].lo == .soft
    | none => false))

/-- Does a short comparator of a switch act at an instant: desaturation DESAT_BLANK after the start of its turn-on (R283), the
hard short 40 ns after its hold began (R284)? -/
def Dev.armed (d : Dev) (leg : LegNo) (high hard : Bool) (t : Nat) : Bool :=
  let x := d.legs[leg]
  let blank := match d.legAxis leg with
    | some a => fld d.pwm[a].prot[0] 20 13
    | none => 0
  if hard then x.sw high == .on3 && decide (t ≥ x.holdAt high + tenNs 4)
  else (x.sw high).isOn && decide (t ≥ x.onAt high + tenNs blank)

/-- A desaturation or a hard short of a switch that is on (R283 to R285): soft turn-off, latch, and two legs together. -/
def Dev.short (leg : LegNo) (high hard : Bool) (at_ : Nat) (d : Dev) : Dev :=
  let t := d.fine at_
  if d.legExt leg || !d.armed leg high hard t then d
  else
    let d1 := (d.modLeg leg (fun x =>
      { (if high then x else x.lowEnds (some t)).setSw high .soft with shortAt := some t, desat := x.desat || !hard, hshort := x.hshort || hard })).tripLeg leg
    let src := if hard then 71 else 70
    match d1.shortPartners leg t with
    | [] => d1.fire src (d.legScope leg)
    | ps =>
      let all := leg :: ps
      let axes := allAxes.filter (fun a => (d1.axisLegs a).any (fun l => all.contains l))
      let d2 := axes.foldl (fun d a => (d.axisLegs a).foldl (fun d l => d.tripLeg l) d) d1
      let d3 := all.foldl (fun d l => d.modLeg l (fun x => { x with multi := true })) d2
      (d3.fire src (d.legScope leg)).fire 72 (.axes axes)

/-- A desaturation comparator acts. -/
def doDesaturation (leg : LegNo) (high : Bool) (at_ : Nat) : Dev → Dev := Dev.short leg high false at_
/-- A hard-short comparator acts. -/
def doHardShort (leg : LegNo) (high : Bool) (at_ : Nat) : Dev → Dev := Dev.short leg high true at_

/-- The probe named by TRIP_SRC has its active level: every leg of the axis goes all-off (R287). -/
def doExternalTrip (axis : AxisNo) (d : Dev) : Dev :=
  let w := d.pwm[axis].prot[2]
  let k := fld w 21 16
  if !d.assigned axis || d.noBridge axis || decide (k > 15) || d.fb.probes[Fin.ofNat 16 k].level == bitOf w 22 then d
  else
    ((d.axisLegs axis).foldl (fun d l => (d.tripLeg l).modLeg l (fun x => { x with extTrip := true })) d).fire 79 (.axes [axis])

/-! ## STO at a gate die (R290, R291) -/

/-- The STO switches of a die open, 10 µs after the line: every switch is held off unpowered. -/
def doStoSwitchesOpen (die : Fin 2) (d : Dev) : Dev :=
  if !d.stoActive die then d
  else
    (dieLegs die).foldl (fun d l => d.modLeg l (fun x => { x.lowEnds none with hi := .off, lo := .off }))
      (d.modGate die (fun g => { g with switchesOpen := true, supplyOk := false }))

/-- The die reports STO_FB to both safety channels. -/
def doStoFeedback (die : Fin 2) (d : Dev) : Dev :=
  if d.stoActive die && d.gates[die].switchesOpen then d.modGate die (fun g => { g with fb := true }) else d

/-- The stage supply is within tolerance again: STO of the die ends. -/
def doStoSupplyRestored (die : Fin 2) (d : Dev) : Dev :=
  let good := if die = 0 then d.pw.vgdaOk else d.pw.vgdbOk
  if d.stoActive die || d.gates[die].switchesOpen || !good then d
  else d.modGate die (fun g => { g with supplyOk := true, sto := false, fb := false })

/-! ## Commands (R295 to R301) -/

/-- PARAM for an assigned axis of type 0 or 5. -/
def Dev.noPwm (d : Dev) (a : AxisNo) : Bool := d.assigned a && d.noBridge a
/-- Is a field notIn a range? -/
def notIn (v lo hi : Nat) : Bool := decide (v < lo) || decide (hi < v)

/-- Does PwmConfig break a range (R295)? -/
def Dev.badPwm (d : Dev) (c : Cmd) : Bool :=
  let p := c.payload
  let w0 := wd p 0
  let w1 := wd p 1
  let w2 := wd p 2
  let per := periodOf w0 d.tickClks
  rsv w0 0xFFF00800 || rsv w1 0xF000F000 || notIn (fld w0 19 12) 1 255 || notIn (fld w2 31 24) 40 90 ||
    notIn (fld w2 23 16) 50 95 || decide (fld w2 23 16 ≤ fld w2 31 24) || notIn (fld w2 15 8) 1 64 ||
    notIn (fld w2 7 0) 10 255 || fld w0 5 4 == 3 || fld w0 7 6 == 3 || !periodOk per || (bitOf w0 9 && bitOf w0 8) ||
    decide (per < 4 * tHi w1) || decide (per < 4 * (refreshFine w2 + 2 * fld w1 11 0))

/-- Does GateProfile break a range (R296)? -/
def badGate (p : List W32) : Bool :=
  let w1 := wd p 1
  let w2 := wd p 2
  rsv (wd p 0) 0xFF000000 || notIn (fld w1 31 24) 20 95 || notIn (fld w1 23 16) 5 40 || notIn (fld w1 15 8) 20 95 ||
    notIn (fld w1 7 0) 10 80 || notIn (fld w2 31 24) 1 50 || notIn (fld w2 23 16) 10 255 || notIn (fld w2 15 8) 1 255 ||
    notIn (fld w2 7 0) 1 255 ||
    !(decide (fld w1 23 16 < fld w1 7 0) && decide (fld w1 7 0 < fld w1 15 8) && decide (fld w1 15 8 ≤ fld w1 31 24))

/-- Does ProtectConfig break a range (R297)? -/
def badProtect (p : List W32) : Bool :=
  let w0 := wd p 0
  let w2 := wd p 2
  let src := fld w2 21 16
  rsv w0 0x00C01C00 || rsv w2 0xFF800000 || notIn (fld w0 31 24) 1 255 || notIn (fld w0 20 13) 10 200 ||
    notIn (fld w0 9 4) 2 63 || badWord20 (wd p 1) || decide ((wd p 1).toInt ≤ 0) || (decide (src > 15) && src != 63) ||
    notIn (fld w2 15 8) 10 255 || notIn (fld w2 7 0) 0 200

/-- Does PwmDirect break a range (R299)? -/
def Dev.badDirect (d : Dev) (c : Cmd) : Bool :=
  let p := c.payload
  let w := wd p 0
  rsv w 0xFFFFF080 || (bitOf w 4 && bitOf w 5) || (bitOf w 6 && bitOf w 5) ||
    (List.range 4).any (fun i => rsv (wd p (1 + i)) 0xFF000000 ||
      (decide (i ≥ legCount (d.mtype (axisOf c))) && wd p (1 + i) != 0))

/-- The check of an axis command of this chapter: its STATE and PARAM. -/
def Dev.pwmBad (d : Dev) (c : Cmd) : List (Bool × Nat) :=
  let a := axisOf c
  let w := wd c.payload 0
  match c.code.toNat with
  | 0x400 => [(noWord c, stParam), (d.axisUnfit a || d.bridgeBusy a, stState), (badLen c 3 || d.noPwm a || d.badPwm c, stParam)]
  | 0x401 => [(noWord c, stParam), (d.axisUnfit a, stState), (badLen c 3 || d.noPwm a || badGate c.payload, stParam)]
  | 0x402 => [(noWord c, stParam), (d.axisUnfit a, stState), (badLen c 3 || d.noPwm a || badProtect c.payload, stParam)]
  | 0x411 =>
      [(noWord c, stParam),
       (d.axisUnfit a || ((bitOf w 4 || bitOf w 5) && d.bridgeBusy a) || (!bitOf w 4 && !d.pwm[a].direct), stState),
       (badLen c 5 || d.noPwm a || d.badDirect c, stParam)]
  | _ => []

/-- PwmConfig (0x400). -/
def doPwmConfig (st : Stall) (tag : BitVec 8) : Dev → Dev :=
  Dev.start st tag 0x400 fun c d => Dev.checked c 1 (d.pwmBad c) (fun d => d.await st tag .atFrame) d
/-- GateProfile (0x401). -/
def doGateProfile (st : Stall) (tag : BitVec 8) : Dev → Dev :=
  Dev.start st tag 0x401 fun c d => Dev.checked c 1 (d.pwmBad c) (fun d => d.await st tag .atTick) d
/-- ProtectConfig (0x402). -/
def doProtectConfig (st : Stall) (tag : BitVec 8) : Dev → Dev :=
  Dev.start st tag 0x402 fun c d => Dev.checked c 1 (d.pwmBad c) (fun d => d.await st tag .atFrame) d
/-- PwmDirect (0x411): ENTER and LEAVE wait for a frame boundary. -/
def doPwmDirect (st : Stall) (tag : BitVec 8) : Dev → Dev :=
  Dev.start st tag 0x411 fun c d => Dev.checked c 1 (d.pwmBad c)
    (fun d => d.await st tag (if bitOf (wd c.payload 0) 4 || bitOf (wd c.payload 0) 5 then .atFrame else .atTick)) d
/-- PwmClear (0x412). -/
def doPwmClear (st : Stall) (tag : BitVec 8) : Dev → Dev :=
  Dev.start st tag 0x412 fun c d =>
    Dev.checked c 1 [(badLen c 2 || (wd c.payload 0 == 0 && wd c.payload 1 == 0), stParam)] (fun d => d.await st tag .atTick) d

/-- A command's three words with AXIS filled in. -/
def withAxis (a : AxisNo) (v : Vector W32 3) : List W32 :=
  [nW ((v[0].toNat / 16) * 16 + a.val), v[1], v[2]]

/-- PwmQuery (0x413). -/
def doPwmQuery (st : Stall) (tag : BitVec 8) : Dev → Dev :=
  Dev.start st tag 0x413 fun c d =>
    let a := axisOf c
    let p := d.pwm[a]
    Dev.checked c 10 [(noWord c, stParam), (!d.assigned a, stState), (badLen c 1 || d.noPwm a || rsv (wd c.payload 0) 0xFFFFFFF0, stParam)]
      (fun d => d.ok c (withAxis a p.pwm ++ withAxis a p.gate ++ withAxis a p.prot)) d

/-- BridgeControl (0x410): OFF waits for the tick boundary; every check of ON is made at F1 (R298). -/
def doBridgeControl (st : Stall) (tag : BitVec 8) : Dev → Dev :=
  Dev.start st tag 0x410 fun c d =>
    let w := wd c.payload 0
    let axes := (bitsOf 16 (fld w 15 0)).map ax
    if bitOf w 16 then d.await st tag .atFrame
    else Dev.checked c 2 [(badLen c 1 || rsv w 0xFFFE0000 || axes.isEmpty || axes.any d.noPwm, stParam)]
      (fun d => d.await st tag .atTick) d

/-- The three words of a payload without AXIS. -/
def confOf (p : List W32) : Vector W32 3 := ⟨#[nW (((wd p 0).toNat / 16) * 16), wd p 1, wd p 2], rfl⟩

/-- BridgeControl OFF for one axis (R281): a BridgeControl ON in flight for it completes with STATE, also one that waits for
F1; the moves end and a homing run fails (09 R313, R339). -/
def Dev.bridgeOffCmd (a : AxisNo) (d : Dev) : Dev :=
  if !d.bridgeBusy a then d.abortBridgeOn a
  else
    (((d.abortBridgeOn a).endMoves a .stopped .flushed).failHome a 3).bridgeOff a

/-- BridgeControl ON at F1: its checks for all named axes together (R298; under STO and while SS1 of the die runs, R291 and
15 R583), then the charge of R280. -/
def Dev.bridgeF1 (c : Cmd) (d : Dev) : Dev :=
  let w := wd c.payload 0
  let axes := (bitsOf 16 (fld w 15 0)).map ax
  let ss1 (g : Fin 2) : Bool := if g = 0 then d.sf.ss1A else d.sf.ss1B
  let stoOn (a : AxisNo) : Bool := [0, 1].any (fun (g : Fin 2) => d.onDie a g && (d.gates[g].sto || d.stoActive g || ss1 g))
  let noVgd (a : AxisNo) : Bool := (d.onDie a 0 && !d.pw.vgdaOk) || (d.onDie a 1 && !d.pw.vgdbOk)
  let state (a : AxisNo) : Bool := d.axisUnfit a || d.bridgeBusy a || noVgd a
  Dev.checked c 2
    [(axes.any stoOn, stSafetyLock), (axes.any state || d.tk.pendingSet.isSome, stState),
     (badLen c 1 || rsv w 0xFFFE0000 || axes.isEmpty || axes.any (fun a => d.noBridge a || !periodOk (d.cOf a)), stParam)]
    (fun d =>
      (axes.foldl (fun d a =>
        ((d.axisLegs a).foldl (fun d l => d.modLeg l (fun (x : Leg) =>
          { x.edge (d.extDriver a) false (d.fine 0) with
              carry := 0, fullHigh := 0, refresh := .none, pulseEnd := none, pulsed := false, masked := false, tripped := false,
              ocRun := 0, ocNow := false, ocLow := false, width := 0, emit := 0, riseEmit := 0, period := d.cOf a })) d).modPwm a
          (fun p => { p with charging := true, f1Clk := d.clk, sampled := false, sampleFailed := false, fresh := false })) d).await
        c.stall c.tag .started) d

/-- The frame boundary that may be F2 of a BridgeControl ON whose charge runs (R280). -/
def Dev.bridgeF2 (c : Cmd) (d : Dev) : Dev :=
  let mask := fld (wd c.payload 0) 15 0
  let axes := (bitsOf 16 mask).map ax
  if axes.any (fun a => !d.pwm[a].charging || !d.pwm[a].sampled || decide (d.clk < d.pwm[a].f1Clk + fld d.pwm[a].pwm[2] 15 8 * 512)) then d
  else
    let bad := axes.filter (fun a => d.pwm[a].sampleFailed)
    if bad.isEmpty then
      (axes.foldl (fun d a => d.modPwm a (fun p =>
        { p with charging := false, bridgeOn := true, sampled := false, fresh := false })) d).ok c [0]
    else
      let d1 := (axes.foldl (fun d a => d.bridgeOff a) d).respond c.stall c.tag stState [nW (maskOf (bad.map Fin.val))]
      bad.foldl (fun d a => d.fire 75 (.axes [a])) d1

/-- Every BridgeControl ON whose charge runs, at a frame boundary. -/
def Dev.bridgeFrame (d : Dev) : Dev :=
  (d.hp.inFlight.filter (fun c => c.code == 0x410 && c.phase == .started)).foldl (fun d c => d.bridgeF2 c) d

/-- The bootstraps of a charging axis are sampled at F1 + CHARGE_US; in external mode BST_MV reads 0 and nothing is
compared (R280, R289). -/
def doChargeSample (axis : AxisNo) (mv : List Nat) (d : Dev) : Dev :=
  let p := d.pwm[axis]
  if !p.charging || p.sampled then d
  else
    let ext := d.extDriver axis
    let legs := (d.axisLegs axis).zip (List.range 4)
    let failed := !ext && legs.any (fun x => decide (mv.getD x.2 0 < bstWarnMv p.pwm[2]))
    (legs.foldl (fun d x => d.modLeg x.1 (fun l =>
      { l with bstMv := if ext then 0 else BitVec.ofNat 16 (satU 16 (mv.getD x.2 0)) })) d).modPwm axis
      (fun p => { p with sampled := true, sampleFailed := failed })

/-- The sticky bits of a leg and REFRESHES cleared (R293, R300). -/
def Leg.clearSticky (x : Leg) : Leg :=
  { x with refreshes := 0, multi := false, gateErr := false, extTrip := false, oc := false, ilTimeout := false, bstUv := false,
           bstWarn := false, hshort := false, desat := false }

/-- A PWM command at its boundary. -/
def applyPwm (c : Cmd) (d : Dev) : Dev :=
  let a := axisOf c
  let p := c.payload
  let w := wd p 0
  match c.code.toNat with
  | 0x400 => Dev.checked c 1 (d.pwmBad c) (fun d => (d.modPwm a (fun x => { x with pwm := confOf p })).ok c []) d
  | 0x401 =>
      Dev.checked c 1 [(d.axisUnfit a, stState)] (fun d => (d.modPwm a (fun x => { x with gatePending := some (confOf p) })).ok c []) d
  | 0x402 => Dev.checked c 1 [(d.axisUnfit a, stState)] (fun d => (d.modPwm a (fun x => { x with prot := confOf p })).ok c []) d
  | 0x410 =>
      if bitOf w 16 then d.bridgeF1 c
      else (((bitsOf 16 (fld w 15 0)).map ax).foldl (fun d a => d.bridgeOffCmd a) d).ok c [0]
  | 0x411 =>
      Dev.checked c 1 (d.pwmBad c) (fun d =>
        let set : DirectSet := ⟨Vector.ofFn (fun i => fld (wd p (1 + i.val)) 23 0), BitVec.ofNat 4 (fld w 11 8)⟩
        let d1 := d.modPwm a (fun x =>
          if bitOf w 5 then { x with direct := false, dirStage := DirectSet.start, dirLatest := none, dirClamped := false }
          else
            { x with direct := true, dirStage := set,
                     dirLatest := if bitOf w 6 then some set else if bitOf w 4 then none else x.dirLatest,
                     dirClamped := x.dirClamped && !bitOf w 6 && !bitOf w 4 })
        d1.ok c []) d
  | 0x412 =>
      let legs := bitsOf 48 (w.toNat + fld (wd p 1) 15 0 * 2 ^ 32)
      let d1 := legs.foldl (fun d k => d.modLeg (lg k) Leg.clearSticky) d
      ((bitsOf 16 (fld (wd p 1) 31 16)).foldl (fun d k => d.modPwm (ax k) (fun x => { x with pdMismatch := false })) d1).ok c []
  | _ => d

/-- Defaults of R295 to R297, which PlotAssign writes. -/
def AxisPwm.defaults : AxisPwm :=
  { AxisPwm.reset with
      pwm := ⟨#[mkw [(16, 12, 8)], mkw [(820, 16, 12), (410, 0, 12)], mkw [(65, 24, 8), (80, 16, 8), (10, 8, 8), (50, 0, 8)]], rfl⟩
      gate := ⟨#[mkw [(1, 20, 4), (3, 16, 4), (15, 12, 4), (3, 8, 4), (15, 4, 4)],
                 mkw [(85, 24, 8), (15, 16, 8), (70, 8, 8), (30, 0, 8)],
                 mkw [(20, 24, 8), (100, 16, 8), (50, 8, 8), (10, 0, 8)]], rfl⟩
      prot := ⟨#[mkw [(4, 24, 8), (50, 13, 8), (15, 4, 6)], 0x7FFFF, mkw [(63, 16, 6), (50, 8, 8), (20, 0, 8)]], rfl⟩ }

/-! ## Meanings -/

/-- PWM_CONFIG. -/
def execPwmConfig (st : Stall) (tag : BitVec 8) (s : State) : Host.Outcome State Fault Refusal :=
  .next (s.on (doPwmConfig st tag))
/-- GATE_PROFILE. -/
def execGateProfile (st : Stall) (tag : BitVec 8) (s : State) : Host.Outcome State Fault Refusal :=
  .next (s.on (doGateProfile st tag))
/-- PROTECT_CONFIG. -/
def execProtectConfig (st : Stall) (tag : BitVec 8) (s : State) : Host.Outcome State Fault Refusal :=
  .next (s.on (doProtectConfig st tag))
/-- BRIDGE_CONTROL. -/
def execBridgeControl (st : Stall) (tag : BitVec 8) (s : State) : Host.Outcome State Fault Refusal :=
  .next (s.on (doBridgeControl st tag))
/-- CHARGE_SAMPLE. -/
def execChargeSample (axis : AxisNo) (mv : List Nat) (s : State) : Host.Outcome State Fault Refusal :=
  .next (s.on (doChargeSample axis mv))
/-- PWM_DIRECT. -/
def execPwmDirect (st : Stall) (tag : BitVec 8) (s : State) : Host.Outcome State Fault Refusal :=
  .next (s.on (doPwmDirect st tag))
/-- PWM_CLEAR. -/
def execPwmClear (st : Stall) (tag : BitVec 8) (s : State) : Host.Outcome State Fault Refusal :=
  .next (s.on (doPwmClear st tag))
/-- PWM_QUERY. -/
def execPwmQuery (st : Stall) (tag : BitVec 8) (s : State) : Host.Outcome State Fault Refusal :=
  .next (s.on (doPwmQuery st tag))
/-- APPLICATION_INSTANT. -/
def execApplicationInstant (axis : AxisNo) (at_ : Nat) (slew : Int) (s : State) : Host.Outcome State Fault Refusal :=
  .next (s.on (doApplicationInstant axis at_ slew))
/-- COMMANDED_EDGE. -/
def execCommandedEdge (leg : LegNo) (high : Timed Bool) (s : State) : Host.Outcome State Fault Refusal :=
  .next (s.on (doCommandedEdge leg high.val high.at_))
/-- INTERLOCK_TURN_ON. -/
def execInterlockTurnOn (leg : LegNo) (high : Bool) (at_ : Nat) (s : State) : Host.Outcome State Fault Refusal :=
  .next (s.on (doInterlockTurnOn leg high at_))
/-- INTERLOCK_TIMEOUT. -/
def execInterlockTimeout (leg : LegNo) (high : Timed Bool) (s : State) : Host.Outcome State Fault Refusal :=
  .next (s.on (doInterlockTimeout leg high.val high.at_))
/-- GATE_PHASE_END. -/
def execGatePhaseEnd (leg : LegNo) (high : Timed Bool) (s : State) : Host.Outcome State Fault Refusal :=
  .next (s.on (doGatePhaseEnd leg high.val high.at_))
/-- GATE_CHECK_FAIL. -/
def execGateCheckFail (leg : LegNo) (high : Bool) (s : State) : Host.Outcome State Fault Refusal :=
  .next (s.on (doGateCheckFail leg high))
/-- EXT_OUTPUT_CHECK. -/
def execExtOutputCheck (leg : LegNo) (high ok : Bool) (s : State) : Host.Outcome State Fault Refusal :=
  .next (s.on (doExtOutputCheck leg high ok))
/-- BOOTSTRAP_WARNING. -/
def execBootstrapWarning (leg : LegNo) (mv : Timed (BitVec 16)) (s : State) : Host.Outcome State Fault Refusal :=
  .next (s.on (doBootstrapWarning leg mv.val mv.at_))
/-- BOOTSTRAP_UVLO. -/
def execBootstrapUvlo (leg : Timed LegNo) (s : State) : Host.Outcome State Fault Refusal :=
  .next (s.on (doBootstrapUvlo leg.val leg.at_))
/-- CHOP_TRIP. -/
def execChopTrip (axis : AxisNo) (phaseB : Timed Bool) (s : State) : Host.Outcome State Fault Refusal :=
  .next (s.on (doChopTrip axis phaseB.val phaseB.at_))
/-- OVERCURRENT_TRIP. -/
def execOvercurrentTrip (leg : Timed LegNo) (s : State) : Host.Outcome State Fault Refusal :=
  .next (s.on (doOvercurrentTrip leg.val leg.at_))
/-- DESATURATION. -/
def execDesaturation (leg : LegNo) (high : Bool) (at_ : Nat) (s : State) : Host.Outcome State Fault Refusal :=
  .next (s.on (doDesaturation leg high at_))
/-- HARD_SHORT. -/
def execHardShort (leg : LegNo) (high : Bool) (at_ : Nat) (s : State) : Host.Outcome State Fault Refusal :=
  .next (s.on (doHardShort leg high at_))
/-- EXTERNAL_TRIP. -/
def execExternalTrip (axis : AxisNo) (s : State) : Host.Outcome State Fault Refusal := .next (s.on (doExternalTrip axis))
/-- STO_SWITCHES_OPEN. -/
def execStoSwitchesOpen (die : Fin 2) (s : State) : Host.Outcome State Fault Refusal := .next (s.on (doStoSwitchesOpen die))
/-- STO_FEEDBACK. -/
def execStoFeedback (die : Fin 2) (s : State) : Host.Outcome State Fault Refusal := .next (s.on (doStoFeedback die))
/-- STO_SUPPLY_RESTORED. -/
def execStoSupplyRestored (die : Fin 2) (s : State) : Host.Outcome State Fault Refusal :=
  .next (s.on (doStoSupplyRestored die))

end Sys2Proof.Machine
end

