-- ==== Sys2Proof/Machine/Laws.lean ====
section
/-! DEFINITION. The standard laws of an axis, step by step (spec 05 R139, 06 R179 to R215): what a lane computes between
entry and commit. Each line of the spec's formulas is exact in its Q1.19 operands and rounded once where it drops bits
(R180; log entry 70). -/
namespace Sys2Proof.Machine
open Sys2Proof

/-! ## What a tick's laws depend on -/

/-- Four values in plot-leg order. -/
def vec4 {α : Type} (a b c d : α) : Vector α 4 := ⟨#[a, b, c, d], rfl⟩

/-- A coefficient word. -/
def LawEnv.cf (e : LawEnv) (i : Nat) : Int := (Mem.read 0 e.bank i).toInt
/-- A gain of the bank. -/
def LawEnv.gain (e : LawEnv) (i : Nat) : Gain := gainAt e.bank i
/-- A bit of LAW_CFG. -/
def LawEnv.cfg (e : LawEnv) (i : Nat) : Bool := (Mem.read 0 e.bank 8).getLsbD i
/-- A law of plot word 5. -/
def LawEnv.has (e : LawEnv) (b : Nat) : Bool := bitOf e.w5 b
/-- An open-loop stepper (R192). -/
def LawEnv.openLoop (e : LawEnv) : Bool := e.t == 3 && !e.cfg 2

/-- A source by number. -/
def Dev.source? (d : Dev) (n : Nat) : Option FbSource := if n < 32 then some d.fb.src[Fin.ofNat 32 n] else none

/-- v_lim: V_MAX in Q1.19 of VEL_FS, full scale at most (R198). -/
def vLimOf (vMax : W32) (velExp : Nat) : Int :=
  if vMax = 0 then 2 ^ 19 - 1 else min (2 ^ 19 - 1) (rdivUp ((vMax.toNat * 2 ^ 11 : Nat) : Int) (2 ^ velExp))

/-- The environment of an axis at this tick. -/
def Dev.lawEnv (d : Dev) (a : AxisNo) : LawEnv :=
  let l := d.loops[a]
  let s0 := d.ctl[a].scale0
  let legs := d.axisLegs a
  let t := d.mtype a
  let die : Nat := match legs with
    | k :: _ => (dieOf k).val
    | [] => 0
  { a := a, t := t, w5 := d.plotW a 5, bank := if l.bank then l.bankB else l.bankA, frame := d.isFrame,
    on := d.pwm[a].bridgeOn, live := d.pwm[a].bridgeOn || d.noBridge a, direct := d.pwm[a].direct,
    reaction := d.axf[a].fault, mode := d.modeIn a, polePairs := fld s0 14 8, dirInv := bitOf s0 15, velExp := fld s0 19 16,
    accExp := fld s0 25 21, commOfs := int20 d.ctl[a].scale1, kth := d.kth a, tickClks := d.tickClks,
    frameTicks := max 1 d.tk.conf.frameTicks.toNat, iMax := fld (d.plotW a 6) 19 0, vLim := vLimOf (d.plotW a 7) (fld s0 19 16),
    followMax := (d.plotW a 13).toNat, homeOfs := d.mot[a].homeOfs,
    iLeg := Vector.ofFn (fun i => match legs[i.val]? with
      | some k => d.cap.legs[k].result
      | none => 0),
    vbus := if legs.isEmpty then 0 else Mem.read 0 d.aux (96 + 4 * die + fld (d.plotW a 2) 5 4),
    pri := d.source? (d.priSrc a), comm := d.source? (d.commSrc a), sec := d.source? (d.secSrc a),
    commOther := decide (d.commSrc a < 32) && d.commSrc a != d.priSrc a, clk := d.clk }

/-! ## Step 2: feedback (R183, R202) -/

/-- A source's speed in Q1.19 of VEL_FS. -/
def LawEnv.velOf (e : LawEnv) (x : FbSource) : Int := sat20 (rshift x.speed (11 + e.velExp))
/-- The electrical angle of a source position (R183). -/
def LawEnv.angleOf (e : LawEnv) (pos : Int) : Int :=
  let frac := pos % 2 ^ 20
  let f := if e.dirInv then (2 ^ 20 - frac) % 2 ^ 20 else frac
  wrap20 (f * e.polePairs % 2 ^ 20 + e.commOfs)
/-- KW × a velocity held to 2^-38 of VEL_FS, in 2^-20 turn (R184). -/
def LawEnv.kwMul (e : LawEnv) (w38 : Int) : Int := rdivUp (w38 * (2 ^ e.velExp * e.tickClks : Nat)) (2 ^ 18 * 512000000)

/-- Step 2. A bridged primary sample is predicted: by the observer, or from the last position and speed (R202). -/
def Ctl.stepFeedback (e : LawEnv) (c : Ctl) (s : Signals) : Ctl × Signals :=
  let (pos, vel, ok, br) : Int × Int × Bool × Bool := match e.pri with
    | none => (e.homeOfs, 0, false, false)
    | some x =>
      if x.bridged then
        if e.has 6 then (c.obsTh + e.kwMul c.obsW, c.sig.velEst, x.speedValid, true)
        else (c.sig.posPri + e.kwMul (c.sig.velEst * 2 ^ 19), c.sig.velEst, x.speedValid, true)
      else (x.pos + e.homeOfs, e.velOf x, x.speedValid, false)
  let angle := match e.comm with
    | some y => e.angleOf y.pos
    | none => e.angleOf (pos - e.homeOfs)
  let (ps, vs) : Int × Int := match e.sec with
    | some y => (y.pos, e.velOf y)
    | none => (0, 0)
  ({ c with bridgedNow := c.bridgedNow || br },
   { s with posPri := pos, velEst := vel, speedValid := ok, angleE := angle, posSec := ps, velSec := vs })

/-! ## Step 3: current conditioning (R186) -/

/-- The offset averages: tracked while the bridge is off, frozen while it is on. -/
def Ctl.trackOffsets (e : LawEnv) (c : Ctl) : Ctl :=
  let ofs : Vector Int 4 :=
    if !e.cfg 0 then Vector.replicate 4 0
    else if e.on then c.ofsAuto
    else Vector.ofFn (fun i => c.ofsAuto[i] + rshift (e.iLeg[i] * 2 ^ 19 - c.ofsAuto[i]) 8)
  { c with ofsAuto := ofs, ticksOff := if e.on then 0 else min 1024 (c.ticksOff + 1) }

/-- Step 3. -/
def Ctl.stepCurrents (e : LawEnv) (c0 : Ctl) (s : Signals) : Ctl × Signals :=
  let c := c0.trackOffsets e
  let ph : Vector Int 4 := Vector.ofFn (fun i =>
    sat20 (rshift (((e.iLeg[i] - e.cf i.val) * 2 ^ 19 - c.ofsAuto[i]) * e.cf (4 + i.val)) 36))
  let (al, be) : Int × Int := match e.t with
    | 1 | 2 => (sat20 (rdivUp (2 * ph[0] - ph[1] - ph[2]) 3), sat20 (rdivUp ((ph[1] - ph[2]) * 2 ^ 40) sqrt3_40.toNat))
    | 3 => (sat20 (rshift (ph[0] - ph[1]) 1), sat20 (rshift (ph[2] - ph[3]) 1))
    | 4 => (sat20 (rshift (ph[0] - ph[1]) 1), 0)
    | _ => (0, 0)
  (c, { s with iLeg := e.iLeg, iPh := ph, iAlpha := al, iBeta := be })

/-! ## Step 4: observer and plausibility (R201, R203) -/

/-- A check's counter moves; at PL_N it restarts and its source is due. -/
def PlausCheck.count (p : PlausCheck) (n : Nat) (fail : Option Bool) : PlausCheck :=
  match fail with
  | none => p
  | some false => { p with cnt := BitVec.ofNat 8 (p.cnt.toNat - 1) }
  | some true => if p.cnt.toNat + 1 ≥ max 1 n then ⟨0, true⟩ else { p with cnt := p.cnt + 1 }

/-- The observer in one tick: eps is formed from POS_PRI in every tick but a bridged one (R201, R202), and comes out for its
check where the sample is valid (R203). -/
def Ctl.stepObserver (e : LawEnv) (c : Ctl) (s : Signals) : Ctl × Signals × Option Int :=
  if !e.has 6 then (c, s, none)
  else if c.obsStart then
    ({ c with obsTh := s.posPri, obsW := s.velEst * 2 ^ 19, obsTau := 0, obsStart := false }, { s with loadEst := 0 }, none)
  else
    let thP := c.obsTh + e.kwMul c.obsW
    let wP := c.obsW + (e.gain 0x060).mul (c.iqPrev * 2 ^ 19 - c.obsTau)
    let bridged := (e.pri.map (·.bridged)).getD false
    let eps := if bridged then 0 else sat20 (s.posPri - thP)
    let valid := (e.pri.map (·.fbValid)).getD false && !bridged
    let th := thP + (e.gain 0x062).mul eps
    let w := satS 39 (wP + (e.gain 0x064).int eps)
    let tau := satS 39 (c.obsTau + (e.gain 0x066).int eps)
    ({ c with obsTh := th, obsW := w, obsTau := tau },
     { s with velEst := xOut w, loadEst := xOut tau, posPri := if bridged then th else s.posPri }, if valid then some eps else none)

/-- The tick-rate checks: observer residual, commutation, phase-current sum. -/
def Ctl.stepPlaus (e : LawEnv) (eps : Option Int) (c : Ctl) (s : Signals) : Ctl :=
  if !e.has 7 then c
  else
    let n := (e.cf 0x06C).toNat
    let obs : Option Bool := eps.map (fun x => decide ((x.natAbs : Int) > e.cf 0x068))
    let comm : Option Bool := match e.pri, e.comm with
      | some x, some y =>
        if e.commOther && x.fbValid && !x.bridged && y.fbValid && !y.bridged then
          some (decide (((wrap20 (e.angleOf y.pos - e.angleOf x.pos)).natAbs : Int) > e.cf 0x06A))
        else none
      | _, _ => none
    let sum : Option Bool :=
      if e.t = 1 ∨ e.t = 2 then some (decide (((s.iPh[0] + s.iPh[1] + s.iPh[2]).natAbs : Int) > e.cf 0x06B)) else none
    { c with plaus := vec4 (c.plaus[0].count n obs) c.plaus[1] (c.plaus[2].count n comm) (c.plaus[3].count n sum) }

/-- The frame-rate check of primary against secondary, and the latching of P₀ and S₀. -/
def Ctl.stepSecondary (e : LawEnv) (c : Ctl) (s : Signals) : Ctl :=
  match e.pri, e.sec with
  | some x, some y =>
    if !e.has 7 || !x.fbValid || x.bridged || !y.fbValid || y.bridged then c
    else if !c.plausLatched then { c with plausLatched := true, plausP0 := s.posPri, plausS0 := s.posSec }
    else
      let diff := (s.posSec - c.plausS0) - rshift (e.cf 0x06D * (s.posPri - c.plausP0)) 17
      { c with plaus := vset c.plaus 1 (c.plaus[1].count (e.cf 0x06C).toNat (some (decide ((diff.natAbs : Int) > e.cf 0x069)))) }
  | _, _ => c

/-! ## Excitation (R214) -/

/-- Lane clocks between samples of an excitation: the tick for the currents, the frame for the others. -/
def Excitation.step (x : Excitation) (e : LawEnv) : Nat := if x.point.toNat ≤ 1 then e.tickClks else e.tickClks * e.frameTicks

/-- One shift of a register of an order with feedback taps: the parity of the tapped bits comes in. -/
def lfsrStep (order taps x : Nat) : Nat :=
  x / 2 + (((List.range order).filter (fun i => x.testBit i && taps.testBit i)).length % 2) * 2 ^ (order - 1)

/-- Does a register run through all 2^order − 1 states before it comes back to state 1? -/
def lfsrLong (order taps : Nat) : Bool :=
  let rec back : Nat → Nat → Bool
    | 0, _ => true
    | n + 1, x => x != 1 && back n (lfsrStep order taps x)
  back (2 ^ order - 2) (lfsrStep order taps 1) && taps.testBit 0

/-- Feedback taps of one register of maximum length of each ORDER. -/
def lfsrTaps (order : Nat) : Nat :=
  match order with
  | 7 => 0x03
  | 8 => 0x1D
  | 9 => 0x11
  | 10 => 0x09
  | 11 => 0x05
  | 12 => 0x53
  | 13 => 0x1B
  | 14 => 0x2B
  | _ => 0x03

/-- Value n of the maximum-length sequence of an ORDER. The spec gives neither its register nor its start: both are free
among those of maximum length (R214, log entry 5). -/
def mlsBit (order n : Nat) : Bool :=
  let t := (Config.freeOf 20 [order, 0] % 2 ^ order).toNat
  let taps := if lfsrLong order t then t else lfsrTaps order
  let start := 1 + (Config.freeOf 20 [order, 1] % (2 ^ order - 1)).toNat
  (Nat.repeat (lfsrStep order taps) (n % (2 ^ order - 1)) start).testBit 0

/-- Sample n of an excitation (R214). -/
def Excitation.sample (x : Excitation) (e : LawEnv) : Int :=
  let n := x.samples
  let dt := x.step e
  match x.wave.toNat with
  | 0 => rshift (x.ampl * sin40 ((n * dt * x.f0 * 2 ^ 20 / 5120000000 : Nat) : Int)) 40
  | 1 =>
    let lin : Int := (n * dt * x.f0 * 2 ^ 20 / 5120000000 : Nat)
    let quad := Int.fdiv (((x.f1 : Int) - x.f0) * (n * dt * (n * dt) * 2 ^ 20 * 1000 : Nat)) (20 * max 1 x.durMs * 512000000 * 512000000)
    rshift (x.ampl * sin40 (lin + quad)) 40
  | 2 =>
    if mlsBit (x.f0 % 16) (n / max 1 (x.f0 / 256)) then x.ampl else -x.ampl
  | _ => x.ampl

/-- The sample for this tick at a point; it moves on in the first tick of a frame for frame-rate points. -/
def Ctl.takeExc (e : LawEnv) (c : Ctl) : Ctl × Int :=
  match c.excite with
  | none => (c, 0)
  | some x =>
    if decide (x.point.toNat ≤ 1) || e.frame then
      let v := x.sample e
      ({ c with excite := some { x with samples := x.samples + 1, last := v } }, v)
    else (c, x.last)

/-- The sample where an excitation acts on a point, else 0. -/
def Ctl.excAt (c : Ctl) (point : Nat) (v : Int) : Int :=
  match c.excite with
  | some x => if x.point.toNat = point then v else 0
  | none => 0

/-! ## The repetitive controller (R204 to R208) -/

/-- PERIOD and ORIGIN of RepConfig. -/
def Rep.period (r : Rep) : Nat := max 1 (u64 r.conf[1] r.conf[2])
def Rep.origin (r : Rep) : Int := s64 r.conf[3] r.conf[4]
/-- A bin of the table. -/
def Rep.at_ (r : Rep) (j : Int) : Int := (Mem.read 0 r.table (j % 4096).toNat).toInt

/-- The table interpolated between bin centres at a period position given as num ÷ (period × den). -/
def Rep.interp (r : Rep) (num : Int) (den : Nat) : Int :=
  let p := r.period * den
  let x := 8192 * (num % (p : Int)) - p
  let j := Int.fdiv x (2 * p)
  let f := x - j * (2 * p)
  rdivUp (r.at_ j * (2 * p - f) + r.at_ (j + 1) * f) (2 * p)

/-- REP_OUT of a frame at a period position; travel is that of the last frame (R205). -/
def Rep.out (r : Rep) (e : LawEnv) (pos travel : Int) : Int :=
  let y := r.interp ((pos - r.origin) * e.frameTicks + travel * fld r.conf[0] 15 8) e.frameTicks
  if r.enabledFrames < 256 then rdivUp (y * r.enabledFrames) 256 else y

/-- The bin centres passed between two period positions, as unwrapped indices: all i with the centre of bin i behind one
and not behind the other. -/
def Rep.passed (r : Rep) (p0 p1 : Int) : List Int :=
  let x (p : Int) : Int := 8192 * (p - r.origin) - r.period
  let d : Int := 2 * r.period
  let (lo, hi) : Int × Int :=
    if p1 ≥ p0 then (Int.fdiv (x p0) d + 1, Int.fdiv (x p1) d)
    else (-(Int.fdiv (-x p1) d), -(Int.fdiv (-x p0) d) - 1)
  (List.range (min 9 (hi - lo + 1).toNat)).map (fun (i : Nat) => lo + (i : Int))

/-- One bin updated: forgetting, and the weighted learning signal en ÷ ed (R206). -/
def Rep.touch (e : LawEnv) (en : Int) (ed wNum : Nat) (j : Int) (r : Rep) : Rep :=
  let k := (j % 4096).toNat
  let lim := e.cf 0x072
  let t := rdivUp ((2 ^ 19 - e.cf 0x071) * r.at_ j * (4 * ed) + e.cf 0x070 * wNum * en) (2 ^ 19 * 4 * ed)
  { r with table := Mem.write 0 r.table k (BitVec.ofInt 20 (clampI (-lim) lim t)), sat := r.sat || decide ((t.natAbs : Int) ≥ lim) }

/-- The updates of a bin centre passed: bins i − 1, i, i + 1. -/
def Rep.update (e : LawEnv) (p0 p1 e0 e1 : Int) (r : Rep) (i : Int) : Rep :=
  -- the learning signal at the centre, between the frames: (x − x0) ÷ (x1 − x0) of the way
  let x := 2 * r.period * i + r.period - 8192 * (p0 - r.origin)
  let span := 8192 * (p1 - p0)
  let (num, den) : Int × Nat := if span < 0 then (e0 * -span + (e1 - e0) * -x, span.natAbs) else (e0 * span + (e1 - e0) * x, span.natAbs)
  ((r.touch e num den 1 (i - 1)).touch e num den 2 i).touch e num den 1 (i + 1)

/-- Learning in a frame (R206 to R208): the table, LEARNING, REP_FAST, REP_SAT; true when a bin reached its limit. -/
def Rep.learn (e : LawEnv) (ok : Bool) (pos err : Int) (r0 : Rep) : Rep × Bool :=
  let first := !r0.primed || (r0.conf[1] == 0 && r0.conf[2] == 0)
  let bins := if first then [] else r0.passed r0.prevPos pos
  let fast := decide (bins.length > 8)
  let learns := ok && !r0.frozen && (r0.storing.isNone || decide (e.clk ≥ r0.copyEnd)) && !fast && !first
  let r1 := if learns then bins.foldl (Rep.update e r0.prevPos pos r0.prevErr err) r0 else r0
  let sat := r1.sat && !r0.sat
  ({ r1 with learning := learns, fast := fast, frozen := r1.frozen || sat, primed := true, prevPos := pos, prevErr := err,
             enabledFrames := min 256 (r0.enabledFrames + 1),
             bin := BitVec.ofNat 12 (((pos - r0.origin) % r0.period).toNat * 4096 / r0.period) }, sat)

/-! ## Filters (R195) -/

/-- One biquad on a sample; true when the output saturated. -/
def Biquad.run (b : Biquad) (k : Nat → Int) (x : Int) : Biquad × Int × Bool :=
  let acc := k 0 * x + k 1 * b.x1 + k 2 * b.x2 - k 3 * b.y1 - k 4 * b.y2 + b.res
  let r := rshift acc 17
  let y := sat20 r
  (⟨x, b.x1, y, b.y1, acc - r * 2 ^ 17⟩, y, r != y)

/-- The biquads from index j on, n of them, in series on a sample; the others of their rate keep zero state. -/
def Ctl.biquads4 (e : LawEnv) (base n : Nat) (c : Ctl) (x : Int) : Ctl × Int × Bool :=
  (List.range 4).foldl (fun (acc : Ctl × Int × Bool) i =>
    let j : Fin 8 := Fin.ofNat 8 (base + i)
    if i < n then
      let r := acc.1.biquads[j].run (fun k => e.cf (0x038 + 5 * j.val + k)) acc.2.1
      ({ acc.1 with biquads := vset acc.1.biquads j r.1 }, r.2.1, acc.2.2 || r.2.2)
    else ({ acc.1 with biquads := vset acc.1.biquads j Biquad.zero }, acc.2)) (c, x, false)

/-- The step angle in use (R192). -/
def LawEnv.stepAngle (e : LawEnv) (s : Signals) : Int := if e.openLoop then e.angleOf s.posRef else s.angleE

/-- Voltage limit VBUS × MOD_LIM, and that of the three-phase laws, divided by √3. -/
def LawEnv.uMax (e : LawEnv) : Int := mul19 e.vbus (e.cf 0x00A)
def LawEnv.uMax3 (e : LawEnv) : Int := rdivUp (e.vbus * e.cf 0x00A * 2 ^ 40) (2 ^ 19 * sqrt3_40.toNat)

/-! ## Winding identification (R215) -/

/-- The test currents of a stage, as references: along the d axis or the q axis of type 1, in one coil of types 3 and 4.
The square current of stage 3 reverses every half millisecond. -/
def Identify.drive (x : Identify) (e : LawEnv) (angle : Int) : Int × Int :=
  let i : Int := match x.stage.val with
    | 0 => rshift x.iTest 1
    | 1 => x.iTest
    | _ => 0
  let wave : Int := if (e.clk - x.stageClk) / 256000 % 2 = 0 then rshift x.iTest 2 else -(rshift x.iTest 2)
  match e.t with
  | 1 => (i, if x.stage = 3 then wave else 0)
  | 3 => (rot19 i (cos40 angle) 0 0, rot19 (-i) (sin40 angle) 0 0)
  | _ => (0, i)

/-- The voltages of a stage that steps a voltage, on the axes of the law in force: phase A or the coil in stage 2, phase B in
stage 3 of a stepper. -/
def Identify.force (x : Identify) (e : LawEnv) (thV : Int) : Option (Int × Int) :=
  match e.t, x.stage.val with
  | 1, 2 => some (x.uStep, 0)
  | 3, 2 => some (rot19 x.uStep (cos40 thV) 0 0, rot19 (-x.uStep) (sin40 thV) 0 0)
  | 3, 3 => some (rot19 x.uStep (sin40 thV) 0 0, rot19 x.uStep (cos40 thV) 0 0)
  | 4, 2 => some (0, x.uStep)
  | _, _ => none

/-- The measured current and voltage of the axis or coil under test, and the current of phase B. -/
def Identify.seen (e : LawEnv) (s : Signals) : Int × Int × Int :=
  match e.t with
  | 1 => (s.iD, s.uD, s.iQ)
  | 3 => (s.iAlpha, rot19 s.uD (cos40 s.angleStep) (-s.uQ) (sin40 s.angleStep), s.iBeta)
  | _ => (s.iAlpha, s.uQ, 0)

/-- Clocks that a stage lasts: the spec does not say, a free value (log entry 5). -/
def Identify.len (x : Identify) (e : LawEnv) : Nat := (Config.freeOf 28 [e.a.val, x.startClk, x.stage.val] % 5120000).toNat

/-- A stage begins. -/
def Identify.enter (x : Identify) (e : LawEnv) (stage : Fin 5) (i j : Int) : Identify :=
  let most := if e.t = 1 then e.uMax3 else e.uMax
  { x with stage := stage, stageClk := e.clk, i0 := if stage = 2 then i else x.i0, j0 := if stage = 3 then j else x.j0,
           uStep := if stage = 2 then 1 + Config.freeOf 28 [e.a.val, x.startClk, 5] % max 1 most else x.uStep }

/-- What a measurement takes from a tick: it fails when the position has moved by more than 1/64 of an electrical turn, or
when I_TEST is not reached within 10 ms; otherwise a stage that has lasted its time leaves its value (R215). -/
def Identify.after (x0 : Identify) (e : LawEnv) (s : Signals) : Identify :=
  let x := { x0 with pos0 := some (x0.pos0.getD s.posPri) }
  let (i, u, j) := Identify.seen e s
  let moved := decide ((s.posPri - x.pos0.getD s.posPri).natAbs * e.polePairs > 2 ^ 14)
  let past := decide (e.clk ≥ x.stageClk + x.len e)
  let reached := x.reached || decide (i ≥ x.iTest)
  if x.stage = 4 then x
  else if moved then { x with stage := 4, result := 1 }
  else match x.stage.val with
    | 0 => if past then { x.enter e 1 i j with u1 := u } else x
    | 1 =>
      if !reached && decide (e.clk > x.stageClk + 5120000) then { x with stage := 4, result := 2 }
      else if reached && past then { x.enter e 2 i j with u2 := u, reached := true }
      else { x with reached := reached }
    | 2 => if past then { x.enter e (if e.t = 4 then 4 else 3) i j with i1 := i, iClks := e.clk - x.stageClk } else x
    | _ => if past then { x.enter e 4 i j with j1 := j, jClks := e.clk - x.stageClk } else x

/-! ## Step 5: position, repetitive controller, velocity (R197 to R200) -/

/-- A move of one value toward a target by at most a slope. -/
def toward (x target slope : Int) : Int := clampI (x - slope) (x + slope) target

/-- IQ_REF limited by I_POS_LIM, I_NEG_LIM and the circle of I_MAX, the d axis first (R189, R198). -/
def LawEnv.limitIq (e : LawEnv) (id iq : Int) : Int :=
  let idl := clampI (-e.iMax) e.iMax id
  let r : Int := isqrt (e.iMax * e.iMax - idl * idl).toNat
  clampI (-r) r (clampI (-(e.cf 0x02F)) (e.cf 0x02E) iq)

/-- Velocity of a set-point in Q1.19 of VEL_FS, and acceleration of ACC_FS (09 R306). -/
def LawEnv.velFf (e : LawEnv) (v : Int) : Int := sat20 (rshift v (21 + e.velExp))
def LawEnv.accFf (e : LawEnv) (a : Int) : Int := sat20 (rshift a (21 + e.accExp))

/-- The velocity loop of a frame: VEL_REF, VEL_ERR, IQ_REF before limits at its point, and x_v (R198). -/
def Ctl.velocityLoop (e : LawEnv) (vIn exc repOut id : Int) (c : Ctl) (s : Signals) : Ctl × Signals :=
  let vRef := clampI (-e.vLim) e.vLim (vIn + c.dvHook)
  let f := c.biquads4 e 4 (fld e.w5 13 11) s.velEst
  let c1 := f.1
  let eV := sat20 (vRef - f.2.1)
  let kp := (e.gain 0x028).mul eV
  let kaf := (e.gain 0x02C).mul s.accFf
  let lim := e.iMax * 2 ^ 19
  let xv0 := match c1.presetV with
    | some b => clampI (-lim) lim ((c1.frameSig.iqRef - (gainAt b 0x028).mul eV - (gainAt b 0x02C).mul s.accFf - repOut) * 2 ^ 19)
    | none => c1.xv
  let iq := kp + xOut xv0 + kaf + repOut + exc
  let iqL := e.limitIq id iq
  let limited := iqL != iq
  let hold := limited && decide (Int.sign eV = Int.sign iqL)
  let xv := if e.live then clampI (-lim) lim (if hold then xv0 else xv0 + (e.gain 0x02A).int eV) else 0
  ({ c1 with xv := xv, presetV := none, iLim := limited, svNow := c1.svNow || f.2.2 },
   { s with velRef := vRef, velErr := eV, iqRef := sat20 iqL })

/-- What step 5 takes from the set-point generator and homing. -/
structure FrameRef where
  pos : Int
  vel : Int
  acc : Int
  /-- Standstill factor of an open-loop stepper, 2^-19. -/
  still : Int
  torqueStop : Bool
  torqueZero : Bool
  /-- HS_CURRENT while a hard stop is sought (09 R338). -/
  hsCurrent : Option Int
  /-- The position that marks the period of the repetitive controller, where it is a master's. -/
  master : Int

/-- Step 5. The sources that fire come with it: 43 following error, 47 a table bin at its limit. -/
def Ctl.stepFrame (e : LawEnv) (m : FrameRef) (exc : Int) (c0 : Ctl) (s0 : Signals) : Ctl × Signals × List Nat :=
  let man := c0.manual && !e.reaction
  let c1 := { c0 with manualValue := if man then toward c0.manualValue c0.manualTarget (e.cf 0x074) else c0.manualValue,
                      trqSet := if m.torqueStop then toward c0.trqSet 0 (e.cf 0x074) else c0.trqSet }
  let s1 := { s0 with posRef := m.pos + 2 * c0.excAt 3 exc, velFf := m.vel, accFf := m.acc, trqSet := c1.trqSet }
  -- position controller
  let diff := satS 32 (s1.posRef - s1.posPri)
  let s2 := if e.has 1 then { s1 with posErr := sat20 diff } else s1
  let vPos := (e.gain 0x030).mul diff + rshift (e.cf 0x032 * m.vel) 17
  let isOver := e.mode == 3 && e.on && e.followMax != 0 && decide (diff.natAbs > e.followMax)
  -- repetitive controller
  let rp := if bitOf c1.rep.conf[0] 4 then m.master else s2.posPri
  let travel := if c1.rep.primed then rp - c1.rep.prevPos else 0
  let repOut := if e.has 5 && e.on then sat20 (c1.rep.out e rp travel) else 0
  let s3 := { s2 with repOut := repOut }
  -- references
  let id := (if e.openLoop then mul19 (e.cf 0x020) m.still else 0)
  let vIn := (if e.mode = 3 then vPos else if man then c1.manualValue else m.vel) + c1.excAt 2 exc
  let idn := c1.identify.map (fun x => x.drive e (e.stepAngle s3))
  let (c2, s4) : Ctl × Signals := match idn with
    | some (i, q) => ({ c1 with iLim := false }, { s3 with idRef := i, iqRef := q })
    | none =>
      if e.openLoop then ({ c1 with iLim := false }, { s3 with idRef := id, iqRef := 0 })
      else if e.mode ≥ 2 then
        let r := c1.velocityLoop e vIn 0 repOut id s3
        (r.1, { r.2 with idRef := id })
      else
        let q := if e.mode = 1 then (if man then c1.manualValue else c1.trqSet) else 0
        let ql := e.limitIq id q
        ({ c1 with iLim := ql != q }, { s3 with idRef := id, iqRef := ql })
  let s5 := match m.hsCurrent with
    | some h => { s4 with iqRef := clampI (-h) h s4.iqRef }
    | none => s4
  let s6 := if m.torqueZero then { s5 with iqRef := 0 } else s5
  -- learning
  let ok := e.has 5 && e.on && s6.speedValid && decide ((s6.velEst.natAbs : Int) ≥ e.cf 0x073) && !e.reaction && !c2.bridgedNow &&
    !c2.bridged && c2.excite.isNone && c2.identify.isNone
  let (rep, sat) := if e.has 5 then c2.rep.learn e ok rp (if bitOf c2.rep.conf[0] 5 then s6.posErr else s6.velErr)
    else ({ c2.rep with enabledFrames := 0, primed := false, learning := false, fast := false }, false)
  -- overspeed (R200)
  let fast := e.on && decide (8 * (s6.velEst.natAbs : Int) > 9 * e.vLim)
  let n := if fast then min 5 (c2.overFrames + 1) else 0
  ({ c2 with rep := rep, followOver := isOver, overFrames := n, overDue := c2.overDue || decide (n = 4 ∧ c2.overFrames = 3) }, s6,
   (if isOver && !c0.followOver then [43] else []) ++ (if sat then [47] else []))

/-! ## Step 9: current control and modulation (R187 to R194) -/

/-- A duty from a voltage over VBUS times a factor num ÷ den, around one half. -/
def dutyOf (v num : Int) (vbus : Int) : Int := clampI 0 (2 ^ 19 - 1) (2 ^ 18 + rdivUp (v * num) vbus.toNat)

/-- One PI of R189 with its output limited to ±uLim and its integrator to ±xLim: the output, the integrator after it, and
whether the limit acted. -/
def piStep (kp ki : Gain) (hold : Bool) (e ff x uLim xLim : Int) : Int × Int × Bool :=
  let u0 := kp.mul e + xOut x + ff
  let u := clampI (-uLim) uLim u0
  let lim := u != u0
  let x1 := if hold || (lim && decide (Int.sign e = Int.sign u)) then x else x + ki.int e
  (u, clampI (-xLim * 2 ^ 19) (xLim * 2 ^ 19) x1, lim)

/-- References limited before use: the circle with the d axis first, and the limits of IQ_REF (R189). -/
def LawEnv.useRefs (e : LawEnv) (s : Signals) : Int × Int :=
  (clampI (-e.iMax) e.iMax s.idRef, e.limitIq s.idRef s.iqRef)

/-- The dq control of types 1 and 3: angles, currents, voltages and integrators; uMax is u_lim. -/
def Ctl.dqControl (e : LawEnv) (theta uMax : Int) (c : Ctl) (s : Signals) : Ctl × Signals × Int × Int :=
  let dth := mul19 e.kth s.velEst
  let thI := wrap20 (rshift (2 * theta - dth) 1)
  let iD := sat20 (rot19 s.iAlpha (cos40 thI) s.iBeta (sin40 thI))
  let iQ := sat20 (rot19 s.iBeta (cos40 thI) (-s.iAlpha) (sin40 thI))
  let (idr, iqr) := e.useRefs s
  let eD := sat20 (idr - iD)
  let eQ := sat20 (iqr - iQ)
  let ffD := (e.gain 0x01A).mul2 s.velEst (-iQ)
  let ffQ := (e.gain 0x018).mul2 s.velEst iD + (e.gain 0x01C).mul s.velEst
  let run := e.live && !e.direct
  let kpD := e.gain 0x010
  let kpQ := e.gain 0x014
  let clampX (x : Int) : Int := clampI (-uMax * 2 ^ 19) (uMax * 2 ^ 19) x
  let ffDIn (b : Mem W20) : Int := (gainAt b 0x01A).mul2 s.velEst (-iQ)
  let ffQIn (b : Mem W20) : Int := (gainAt b 0x018).mul2 s.velEst iD + (gainAt b 0x01C).mul s.velEst
  let xd0 := if !run then 0 else match c.presetI with
    | some b => clampX ((c.sig.uD - (gainAt b 0x010).mul eD - ffDIn b) * 2 ^ 19)
    | none => c.xd
  let xq0 := if !run then 0 else match c.presetI with
    | some b => clampX ((c.sig.uQ - (gainAt b 0x014).mul eQ - ffQIn b) * 2 ^ 19)
    | none => c.xq
  let thV := wrap20 (theta + rshift (e.cf 0x00B * dth) 17)
  match c.identify.bind (fun x => x.force e thV) with
  | some (ud, uq) => ({ c with uLimTicks := 0 }, { s with iD := iD, iQ := iQ, uD := ud, uQ := uq, uLimit := uMax }, thV, 0)
  | none =>
    let d := piStep kpD (e.gain 0x012) (!run) eD ffD xd0 uMax uMax
    let uq : Int := rsqrt (uMax * uMax - d.1 * d.1).toNat
    let q := piStep kpQ (e.gain 0x016) (!run) eQ ffQ xq0 uq uMax
    ({ c with xd := if run then d.2.1 else 0, xq := if run then q.2.1 else 0, presetI := none,
              uLimNow := c.uLimNow || d.2.2 || q.2.2,
              uLimTicks := if e.on && (d.2.2 || q.2.2) then min 257 (c.uLimTicks + 1) else 0 },
     { s with iD := iD, iQ := iQ, uD := d.1, uQ := q.1, uLimit := uMax }, thV, 0)

/-- Type 1 (R187). -/
def Ctl.foc (e : LawEnv) (c : Ctl) (s : Signals) : Ctl × Signals :=
  let r := c.dqControl e s.angleE e.uMax3 s
  let (c1, s1, thV) := (r.1, r.2.1, r.2.2.1)
  let al := rot19 s1.uD (cos40 thV) (-s1.uQ) (sin40 thV)
  let be := rot19 s1.uD (sin40 thV) s1.uQ (cos40 thV)
  let v1 := rshift (-al * 2 ^ 40 + be * sqrt3_40) 41
  let v2 := rshift (-al * 2 ^ 40 - be * sqrt3_40) 41
  let v0 := rshift (-(max al (max v1 v2) + min al (min v1 v2))) 1
  let du (v : Int) : Int := dutyOf (v + v0) (2 ^ 19) e.vbus
  (c1, { s1 with duty := vec4 (du al) (du v1) (du v2) 0 })

/-- One current PI, the q-axis one, of types 2 and 4 (R191). -/
def Ctl.onePi (e : LawEnv) (i : Int) (c : Ctl) (s : Signals) : Ctl × Signals :=
  let iqr := (e.useRefs s).2
  let eQ := sat20 (iqr - i)
  let run := e.live && !e.direct
  let kp := e.gain 0x014
  let lim := e.uMax * 2 ^ 19
  let x0 := if !run then 0 else match c.presetI with
    | some b => clampI (-lim) lim ((c.sig.uQ - (gainAt b 0x014).mul eQ) * 2 ^ 19)
    | none => c.xq
  match c.identify.bind (fun x => x.force e 0) with
  | some (_, uq) => ({ c with uLimTicks := 0 }, { s with iQ := i, uQ := uq, uLimit := e.uMax })
  | none =>
    let q := piStep kp (e.gain 0x016) (!run) eQ 0 x0 e.uMax e.uMax
    ({ c with xq := if run then q.2.1 else 0, presetI := none, uLimNow := c.uLimNow || q.2.2,
              uLimTicks := if e.on && q.2.2 then min 257 (c.uLimTicks + 1) else 0 },
     { s with iQ := i, uQ := q.1, uLimit := e.uMax })

/-- Driven and sinking leg of a sector. The spec does not say which legs a sector drives: free values (log entry 5). -/
def sectorLegs (s : Nat) : Nat × Nat :=
  let i := (Config.freeOf 18 [s] % 3).toNat
  (i, (i + 1 + (Config.freeOf 19 [s] % 2).toNat) % 3)

/-- The commutation sector (R191). -/
def LawEnv.sector (e : LawEnv) (s : Signals) : Nat :=
  let hall (x : FbSource) : Option Nat := if fld x.conf[0] 11 8 = 2 then some x.hallSector else none
  match (e.comm.bind hall) with
  | some k => k % 6
  | none => (Int.fdiv ((wrap20 (s.angleE + e.cf 0x00C) + 2 ^ 19) * 3) (2 ^ 19) % 6).toNat

/-- Type 2 (R191). -/
def Ctl.block (e : LawEnv) (c : Ctl) (s : Signals) : Ctl × Signals :=
  let (i, j) := sectorLegs (e.sector s)
  let ph (k : Nat) : Int := s.iPh.toList.getD k 0
  let r := c.onePi e (rshift (ph i - ph j) 1) s
  let u := r.2.uQ
  let d := clampI 0 (2 ^ 19 - 1) (rdivUp ((u.natAbs : Int) * 2 ^ 19) e.vbus.toNat)
  let hot := if u < 0 then j else i
  let off := 3 - i - j
  (r.1, { r.2 with duty := Vector.ofFn (fun k => if k.val = hot then d else 0), legMask := BitVec.ofNat 4 (2 ^ off) })

/-- Type 4 (R191). -/
def Ctl.dc (e : LawEnv) (c : Ctl) (s : Signals) : Ctl × Signals :=
  let r := c.onePi e s.iAlpha s
  (r.1, { r.2 with duty := vec4 (dutyOf r.2.uQ (2 ^ 18) e.vbus) (dutyOf (-r.2.uQ) (2 ^ 18) e.vbus) 0 0 })

/-- Has the step angle crossed a full-step position since the previous tick (R194)? -/
def crossedStep (prev now : Int) : Bool :=
  let cell (x : Int) : Int := Int.fdiv (x - 2 ^ 17) (2 ^ 18)
  cell prev != cell (prev + wrap20 (now - prev))

/-- The mode of a stepper in this tick: STEP_MODES, and its change at a full step (R194). -/
def Ctl.stepMode (e : LawEnv) (angle : Int) (c : Ctl) (s : Signals) : Ctl :=
  let m := fld e.w5 15 14
  if m = 0 then { c with stepStrong := false, prevStep := angle }
  else if m = 1 then { c with stepStrong := true, prevStep := angle }
  else
    let speed : Int := if e.openLoop then s.velFf.natAbs else s.velEst.natAbs
    let up := e.cf 0x021
    let dn := min (e.cf 0x022) up
    let want := if c.stepStrong then !decide (speed ≤ dn) else decide (speed ≥ up)
    if want != c.stepStrong && crossedStep c.prevStep angle then
      let kr := e.cf 0x00D
      if want then { c with stepStrong := true, prevStep := angle }
      else { c with stepStrong := false, prevStep := angle, xd := kr * s.idRef,
                    xq := kr * s.iqRef + (e.gain 0x01C).int s.velEst }
    else { c with prevStep := angle }

/-- CHOP_A and CHOP_B of strong mode (R193). -/
def LawEnv.chopRefs (e : LawEnv) (angle : Int) (s : Signals) : Signals :=
  let (idr, iqr) := e.useRefs s
  { s with chopA := sat20 (rot19 idr (cos40 angle) (-iqr) (sin40 angle)),
           chopB := sat20 (rot19 idr (sin40 angle) iqr (cos40 angle)) }

/-- Type 3 (R192 to R194). -/
def Ctl.stepper (e : LawEnv) (c0 : Ctl) (s0 : Signals) : Ctl × Signals :=
  let angle := e.stepAngle s0
  let s := { s0 with angleStep := angle }
  let c := c0.stepMode e angle s
  if c.stepStrong then
    ({ c with presetI := none, uLimTicks := 0, xd := if e.direct then 0 else c.xd, xq := if e.direct then 0 else c.xq },
     { e.chopRefs angle s with uD := 0, uQ := 0, uLimit := e.uMax })
  else
    let r := c.dqControl e angle e.uMax s
    let s1 := r.2.1
    let thV := r.2.2.1
    let vA := rot19 s1.uD (cos40 thV) (-s1.uQ) (sin40 thV)
    let vB := rot19 s1.uD (sin40 thV) s1.uQ (cos40 thV)
    (r.1, { s1 with duty := vec4 (dutyOf vA (2 ^ 18) e.vbus) (dutyOf (-vA) (2 ^ 18) e.vbus) (dutyOf vB (2 ^ 18) e.vbus)
                              (dutyOf (-vB) (2 ^ 18) e.vbus) })

/-- Step 9 below VBUS_MIN: every duty is one half, the integrators hold and U_LIM is set (R190), and in direct mode they stay
0 (08 R270). A stepper's angle and mode go on (R194). -/
def Ctl.lowVbus (e : LawEnv) (c0 : Ctl) (s : Signals) : Ctl × Signals :=
  let half := { s with duty := Vector.replicate 4 (2 ^ 18) }
  let angle := e.stepAngle s
  let c := if e.t = 3 then c0.stepMode e angle s else c0
  let s1 := if e.t = 3 then { (if c.stepStrong then e.chopRefs angle half else half) with angleStep := angle } else half
  ({ c with uLimNow := true, uLimTicks := 0, xd := if e.direct then 0 else c.xd, xq := if e.direct then 0 else c.xq }, s1)

/-- Step 9 (R187 to R194), and what a winding measurement takes from it (R215). -/
def Ctl.stepCurrent (e : LawEnv) (c : Ctl) (s0 : Signals) : Ctl × Signals :=
  let s := { s0 with legMask := 0, chopA := 0, chopB := 0, duty := Vector.replicate 4 0 }
  if e.t = 0 ∨ e.t ≥ 5 then (c, s)
  else
    let low := decide (e.vbus < e.cf 0x009) || decide (e.vbus ≤ 0)
    let r := if low then c.lowVbus e s
      else match e.t with
        | 1 => c.foc e s
        | 2 => c.block e s
        | 3 => c.stepper e s
        | _ => c.dc e s
    let c1 := r.1
    ({ c1 with iqPrev := r.2.iQ, identify := c1.identify.map (fun x => x.after e r.2), uLimDue := c1.uLimDue || decide (c1.uLimTicks = 256 ∧ c.uLimTicks = 255) }, r.2)

/-! ## The start of a tick -/

/-- What the chain does first: the presets of a bridge that has just gone on (R186, R201, R203, R212). -/
def Ctl.begin (e : LawEnv) (c : Ctl) : Ctl :=
  let c1 := if e.on && !c.wasOn then
      { c with ofsShort := decide (c.ticksOff < 1024), xd := 0, xv := 0, biquads := Vector.replicate 8 Biquad.zero, obsStart := true,
               plausLatched := false, presetV := none, presetI := none,
               xq := if e.direct then 0 else match e.pri with
                 | some x => if x.speedValid then (e.gain 0x01C).int (e.velOf x) else 0
                 | none => 0 }
    else c
  { c1 with wasOn := e.on, excite := if e.reaction || !e.live then none else c1.excite }

/-- A frame has ended: the flags of CTRL_STATUS that tell of its ticks (R217). -/
def Ctl.closeFrame (c : Ctl) : Ctl :=
  { c with bridged := c.bridgedNow, bridgedNow := false, uLim := c.uLimNow, uLimNow := false }

/-- The signals at entry: zero in the first tick of a frame, otherwise as that tick left them (R182). -/
def Ctl.entrySignals (e : LawEnv) (c : Ctl) (exc : Int) : Signals :=
  { (if e.frame then Signals.zero else c.frameSig) with vbus := e.vbus, trqSet := c.trqSet, exc := exc }

end Sys2Proof.Machine
end

