-- ==== Sys2Proof/Machine/Homing.lean ====
section
/-! DEFINITION. Homing (spec 09 R338 to R342, R360). -/
namespace Sys2Proof.Machine
open Sys2Proof

/-- Position of a source, without anything when the axis names none. -/
def Dev.priPos (d : Dev) (a : AxisNo) : Int := if d.priSrc a < 32 then d.fb.src[Fin.ofNat 32 (d.priSrc a)].pos else 0

/-- An axis shifts: POS_PRI, POS_REF, every target and P₀ by the same amount (R341). -/
def Dev.shiftAxis (a : AxisNo) (delta : Int) (d : Dev) : Dev :=
  let f := delta * 2 ^ 20
  (d.modMot a (fun m =>
    { m with p := m.p + f, homeOfs := m.homeOfs + delta, actPos := m.actPos + delta,
             profile := m.profile.map (fun pr => { pr with p0 := pr.p0 + f, pEnd := pr.pEnd.map (· + f) }),
             cur := m.cur.map (fun e => { e with target := e.target + delta }) })).modCtl a (fun c =>
    { c with sig := { c.sig with posPri := c.sig.posPri + delta, posRef := c.sig.posRef + delta }, obsTh := c.obsTh + delta,
             plausP0 := c.plausP0 + delta })

/-- The reference is known: HOME_OFS makes it read HOME_POS, and HOMED is set (R341). -/
def Dev.setReference (a : AxisNo) (ref : Int) (d : Dev) : Dev :=
  let m := d.mot[a]
  let home := s64 m.homeConf[4] m.homeConf[5]
  (d.shiftAxis a (home - (ref + m.homeOfs))).modMot a (fun m => { m with homed := true })

/-- HOME_OFS and HOMED are cleared (R342). -/
def Motion.unhome (m : Motion) : Motion := { m with homeOfs := 0, homed := false }
/-- HOME_OFS and HOMED of every axis whose primary source is i are cleared (R342). -/
def Dev.unhomeSrc (i : Nat) (d : Dev) : Dev :=
  allAxes.foldl (fun d a => if d.priSrc a == i then d.modMot a Motion.unhome else d) d

/-- Change a homing run. -/
def Motion.withRun (f : HomeRun → HomeRun) (m : Motion) : Motion := { m with home := m.home.map f }
/-- Method and direction. -/
def Motion.method (m : Motion) : Nat := fld m.homeConf[0] 7 4
def Motion.homeDir (m : Motion) : Int := if bitOf m.homeConf[0] 8 then -1 else 1
/-- The direction of travel of a phase: the search direction, or against it. -/
def Motion.travel (m : Motion) (r : HomeRun) : Int :=
  let s := if r.reversed then -m.homeDir else m.homeDir
  match r.phase with
  | .leave | .backOff | .away | .back => -s
  | _ => s
/-- HOME_STATE of a phase. -/
def HomePhase.state : HomePhase → HomeState
  | .leave | .search => .search
  | .backOff | .away => .backOff
  | .latch => .latch
  | .index => .indexSearch
  | .hard | .back => .hardStop
  | .rest => .latch

/-- A homing velocity in 2^-40 turn/s, within V_MAX. -/
def Dev.homeVel (d : Dev) (a : AxisNo) (w : W32) : Nat := min (velUnit w) (d.vMax a)

/-- A phase begins from rest, or from the present motion (R338). -/
def Dev.beginPhase (a : AxisNo) (ph : HomePhase) (d : Dev) : Dev :=
  let m := d.mot[a]
  match m.home with
  | none => d
  | some r =>
    let r1 := { r with phase := ph, resting := false, phaseStart := m.p }
    let acc := m.accIn 0
    let jerk := m.jerkIn 0
    let slow := ph == .latch || ph == .index || ph == .away
    let sv := m.travel r1 * d.homeVel a (if slow then m.homeConf[3] else m.homeConf[2])
    let pr := match ph with
      | .rest => planVel m.kin 0 acc jerk d.clk
      | .back =>
        (planTo m.kin ((r.reference.getD (d.priPos a) + m.homeOfs + m.travel r1 * m.homeConf[9].toNat) * 2 ^ 20)
          (max 1 (d.homeVel a m.homeConf[2])) acc jerk d.clk).1
      | _ => planVel m.kin sv acc jerk d.clk
    d.modMot a (fun m => { m with home := some r1, homeState := if ph == .rest then m.homeState else ph.state, profile := some pr })

/-- The axis comes to rest before a phase. -/
def Dev.restBefore (a : AxisNo) (ph : HomePhase) (rev : Bool) (d : Dev) : Dev :=
  d.modMot a (fun m =>
    { m.withRun (fun r => { r with phase := ph, resting := true, reversed := rev }) with
      homeState := ph.state, profile := some (planVel m.kin 0 (m.accIn 0) (m.jerkIn 0) d.clk) })

/-- A homing fault: FS091, HOME_STATE failed, a stop under STOP_DEC and STOP_JERK (R339). -/
def Dev.homeFault (a : AxisNo) (fail : Nat) (d : Dev) : Dev :=
  let d1 := (d.fire 91 (.axes [a])).failHome a fail
  (d1.modMot a (fun m => { m with home := none, homeState := .failed })).stopAxis a false 0

/-- Is an input active at a level? -/
def Motion.edgeActive (m : Motion) (e : HomeEdge) (home : Bool) : Bool := e.level != bitOf m.homeConf[0] (if home then 9 else 10)

/-- The position of the primary source at a clock, interpolated between the positions kept (R340, R253). -/
def HomeRun.posAt (r : HomeRun) (clk : Nat) : Int :=
  match r.hist.dropWhile (fun h => h.1 > clk), (r.hist.takeWhile (fun h => h.1 > clk)).getLast? with
  | (t0, p0) :: _, some (t1, p1) => p0 + rdivUp ((p1 - p0) * (clk - t0 : Nat)) (max 1 (t1 - t0))
  | (_, p0) :: _, none => p0
  | [], some (_, p1) => p1
  | [], none => 0

/-- What an edge does in the present phase (R338, R339). While a search rests after its reversal, later edges of the limit
that reversed it are ignored. -/
def Dev.homeOn (a : AxisNo) (e : HomeEdge) (d : Dev) : Dev :=
  let m := d.mot[a]
  match m.home with
  | none => d
  | some r =>
    let home := e.input == m.homeIn && e.input != 63
    let dirLim := if m.homeDir < 0 then m.limNegIn else m.limPosIn
    let isNeg := e.input == m.limNegIn && e.input != 63
    let isPos := e.input == m.limPosIn && e.input != 63
    let ref := r.posAt e.clk
    if isNeg || isPos then
      let act := m.edgeActive e false
      if m.method = 4 then
        if e.input = dirLim then
          match r.phase, act, r.resting with
          | .search, true, _ => d.restBefore a .away r.reversed
          | .away, false, false => (d.modMot a (Motion.withRun (fun r => { r with reference := some ref }))).beginPhase a .rest
          | _, _, _ => d
        else if act then d.homeFault a 1 else d
      else if !act then d
      else if r.phase == .search && r.resting && r.reversed then
        if e.input = dirLim then d else d.homeFault a 1
      else if r.phase == .search && !r.resting then
        if (isNeg && m.travel r < 0) || (isPos && m.travel r > 0) then
          (if r.reversed then d.homeFault a 1 else d.restBefore a .search true)
        else d
      else d.homeFault a 1
    else if home && !r.resting then
      match r.phase, m.edgeActive e true with
      | .leave, false => d.restBefore a .search false
      | .search, true => d.restBefore a .backOff r.reversed
      | .backOff, false => d.restBefore a .latch r.reversed
      | .latch, true =>
        if m.method = 2 then d.beginPhase a .index
        else (d.modMot a (Motion.withRun (fun r => { r with reference := some ref }))).beginPhase a .rest
      | _, _ => d
    else d

/-- The edge that acts in a frame: the earliest by its stamp, a limit before the home input at equal stamps (R339). -/
def firstEdge (m : Motion) : List HomeEdge → Option HomeEdge
  | [] => none
  | e :: es =>
    match firstEdge m es with
    | none => some e
    | some f => if f.clk < e.clk ∨ (f.clk = e.clk ∧ e.input = m.homeIn ∧ f.input ≠ m.homeIn) then some f else some e

/-- A limit that already stands active in the direction of travel when a phase begins is met at once (log entry 57). -/
def Dev.homeStart (a : AxisNo) (ph : HomePhase) (d : Dev) : Dev :=
  let d1 := d.beginPhase a ph
  let m := d1.mot[a]
  match m.home with
  | none => d1
  | some r =>
    let lim := if m.travel r < 0 then m.limNegIn else m.limPosIn
    match d1.inputLevel lim with
    | some l => if l != bitOf m.homeConf[0] 10 && ph != .away then d1.homeOn a ⟨lim, l, d.clk⟩ else d1
    | none => d1

/-- An index of the primary source in the index phase is the reference (R338, R340). -/
def Dev.homeIndex (i : Nat) (pos : Int) (d : Dev) : Dev :=
  allAxes.foldl (fun d a =>
    let m := d.mot[a]
    match m.home with
    | some r =>
      if d.priSrc a == i && r.phase == .index && !r.resting && r.reference.isNone then
        d.modMot a (Motion.withRun (fun r => { r with reference := some pos }))
      else d
    | none => d) d

/-- The hard stop has held for HS_TIME_MS: the position read now is the reference, and the axis moves back. -/
def Dev.hardStop (a : AxisNo) (d : Dev) : Dev :=
  (d.modMot a (Motion.withRun (fun r => { r with reference := some (d.priPos a), hsSince := none }))).beginPhase a .back

/-- HOMING_HARD_STOP: the condition of method 5 has held, at the latest within the present tick. -/
def doHomingHardStop (a : AxisNo) (d : Dev) : Dev :=
  let m := d.mot[a]
  match m.home with
  | some r =>
    match r.phase, r.hsSince with
    | .hard, some t => if t + m.homeConf[6].toNat * clksPerMs ≤ d.clk + d.tickClks then d.hardStop a else d
    | _, _ => d
  | none => d

/-- Positions of the primary source are kept through a run, for stamps up to the longest debounce (R340). -/
def Dev.homeTick (d : Dev) : Dev :=
  allAxes.foldl (fun d a =>
    if d.mot[a].home.isSome then
      d.modMot a (Motion.withRun (fun r =>
        { r with hist := (d.clk, d.priPos a) :: r.hist.filter (fun h => decide (h.1 + 60 * clksPerMs > d.clk)) }))
    else d) d

/-- One frame of a homing run (R338 to R341). -/
def Dev.homeFrame (a : AxisNo) (d0 : Dev) : Dev :=
  let d := d0.modMot a (Motion.sync d0.clk)
  match d.mot[a].home with
  | none => d.stopAxis a false 0
  | some r0 =>
    let d1 := match firstEdge d.mot[a] r0.edges with
      | some e => d.homeOn a e
      | none => d
    let d2 := d1.modMot a (Motion.withRun (fun r => { r with edges := [] }))
    let m := d2.mot[a]
    match m.home with
    | none => d2
    | some r =>
      let d3 := match r.reference with
        | some ref =>
          if r.applied then d2
          else (d2.modMot a (Motion.withRun (fun r => { r with applied := true }))).setReference a ref
        | none => d2
      let m := d3.mot[a]
      let isOver := match m.profile with
        | some pr => pr.ended d.clk
        | none => true
      if r.resting then (if isOver then d3.homeStart a r.phase else d3)
      else
        match r.phase with
        | .index =>
          if r.reference.isSome then d3.beginPhase a .rest
          else if (m.p - r.phaseStart).natAbs > 2 ^ 40 then d3.homeFault a 2
          else d3
        | .hard =>
          let err := (d.ctl[a].sig.posRef - d.ctl[a].sig.posPri).natAbs
          if err ≤ m.homeConf[8].toNat then d3.modMot a (Motion.withRun (fun r => { r with hsSince := none }))
          else
            match r.hsSince with
            | none => d3.modMot a (Motion.withRun (fun r => { r with hsSince := some d.clk }))
            | some t => if t + m.homeConf[6].toNat * clksPerMs ≤ d.clk then d3.hardStop a else d3
        | .rest | .back =>
          if isOver then
            (d3.modMot a (fun m => { m with home := none, homeState := .done, src := 0, profile := none, v := 0, a := 0 })).respond
              r.stall r.tag stOk [0]
          else d3
        | _ => d3

/-- HomeStart (0x521) at its boundary. -/
def applyHomeStart (c : Cmd) (d : Dev) : Dev :=
  let a := axisOf c
  let m := d.mot[a]
  if bitOf (wd c.payload 0) 4 then
    (if m.home.isSome then ((d.modMot a (Motion.sync d.clk)).failHome a 3).stopAxis a false 0 else d).ok c []
  else if m.method = 0 then
    ((d.setReference a (d.priPos a)).modMot a (fun m => { m with homeState := .done })).ok c [0]
  else
    let run : HomeRun := ⟨c.stall, c.tag, .search, false, false, m.p, none, false, none, [], []⟩
    let d1 := (d.modMot a (fun m => { m with src := 6, home := some run })).await c.stall c.tag .started
    match m.method with
    | 1 | 2 =>
      if d.inputActive m.homeIn (bitOf m.homeConf[0] 9) then d1.homeStart a .leave else d1.homeStart a .search
    | 3 => d1.homeStart a .index
    | 4 => d1.homeStart a .search
    | _ => d1.homeStart a .hard

end Sys2Proof.Machine
end

