-- ==== Sys2Proof/Machine/MotionFrame.lean ====
section
/-! DEFINITION. The frame step of the set-point generators: moves, jogs, stops, followers and cams, the stepper's
standstill, step outputs and published records (spec 09 R302 to R345), and the meanings of the motion rows. -/
namespace Sys2Proof.Machine
open Sys2Proof

/-! ## Moves -/

/-- A registration move takes the first valid probe position at or after its start (R312). -/
def Dev.registration (a : AxisNo) (d : Dev) : Dev :=
  let m := d.mot[a]
  match m.cur with
  | some e =>
    if e.move.kind != .registration || e.retargeted then d
    else
      match d.fb.probes[e.move.probe].fresh.find? (fun f => decide (f.1 ≥ e.startClk)) with
      | some f =>
        let (t, d1) := d.clampTarget a (f.2 + m.homeOfs + e.move.distAfter)
        (d1.modMot a (fun m => { m with cur := some { e with target := t, retargeted := true } })).replan a
      | none => d
  | none => d

/-- The first queued move starts with a base (R313). -/
def Dev.startNext (a : AxisNo) (base : Int) (d : Dev) : Dev :=
  match d.mot[a].queue with
  | [] => d
  | mv :: rest => (d.modMot a (fun m => { m with queue := rest, cur := none })).startMove a mv base

/-- Moves that end at this boundary end, and their successors start (R306, R313, R314). -/
def Dev.runQueue (a : AxisNo) : Nat → Dev → Dev
  | 0, d => d
  | n + 1, d =>
    let m := d.mot[a]
    let here := rdivUp m.p (2 ^ 20)
    match m.cur with
    | some e =>
      let chained := match m.queue with
        | q :: _ => q.chain
        | [] => false
      match m.profile with
      | none => d
      | some pr =>
        if e.move.kind == .velocity then
          if (m.ovr != 0 || e.move.pos == 0) && (pr.ended d.clk || (m.a == 0 && m.v == d.signedVel a e.move.pos)) then
            let d1 := (d.moveEnd a e.move.id .done).modMot a (fun m =>
              { m with cur := none, overshoot := false,
                       dwellUntil := if chained then none else some (d.clk + e.move.dwellMs.toNat * clksPerMs) })
            Dev.runQueue a n d1
          else d
        else if pr.pEnd.isSome && pr.ended d.clk then
          let res := if e.move.kind == .registration && !e.retargeted then MoveResult.noEdge else .done
          let d1 := (d.moveEnd a e.move.id res).modMot a (fun m =>
            { m with cur := none, overshoot := false, profile := none, p := e.target * 2 ^ 20, v := 0, a := 0,
                     dwellUntil := if chained then none else some (d.clk + e.move.dwellMs.toNat * clksPerMs) })
          Dev.runQueue a n d1
        else if chained && pr.pEnd.isSome && decide (pr.decelAt < clkTime (d.clk - pr.startClk) + 2148) then
          Dev.runQueue a n (((d.moveEnd a e.move.id .done).modMot a (fun m => { m with overshoot := false })).startNext a e.target)
        else d
    | none =>
      let chained := match m.queue with
        | q :: _ => q.chain
        | [] => false
      if !chained && (match m.dwellUntil with | some t => decide (d.clk < t) | none => false) then d
      else
        let d1 := d.modMot a (fun m => { m with dwellUntil := none })
        if m.queue.isEmpty then
          (if m.src = 1 && m.v == 0 then d1.modMot a (fun m => { m with src := 0, profile := none, a := 0 }) else d1)
        else Dev.runQueue a n (d1.startNext a here)

/-- DWELL_END: the dwell of a finished move ends within the present tick; the next move starts at the next frame
boundary (R313). -/
def doDwellEnd (a : AxisNo) (d : Dev) : Dev :=
  match d.mot[a].dwellUntil with
  | some t => if t ≤ d.clk + d.tickClks then d.modMot a (fun m => { m with dwellUntil := none }) else d
  | none => d

/-! ## Followers (R330 to R337) -/

/-- A master: position, velocity and acceleration, and the age of the record in ticks, none when there is no record. -/
structure Master where
  p : Int
  v : Int
  a : Int
  age : Option Nat

/-- A position extrapolated (R331). -/
def extrapolate (p v a : Int) (dt : Nat) : Kin := ⟨p + v * dt / 2 ^ 40 + a * dt * dt / 2 ^ 81, v + a * dt / 2 ^ 40, a⟩

/-- The master of a follower at this frame boundary; old holds the axes as the previous frame left them (Table 9.8). -/
def Dev.master (old : Vector Motion 16) (a : AxisNo) (d : Dev) : Master :=
  let m := d.mot[a]
  let w := m.gear[0]
  let i := fld w 12 8
  let x := old[ax i]
  let dt := clkTime d.frameClks
  match fld w 7 5 with
  | 0 => let k := extrapolate x.p x.v x.a dt; ⟨k.p, k.v, k.a, some 0⟩
  | 1 => let k := extrapolate (x.actPos * 2 ^ 20) x.actVel 0 dt; ⟨k.p, k.v, 0, some 0⟩
  | 2 => let s := d.fb.src[Fin.ofNat 32 i]; ⟨s.pos * 2 ^ 20, s.speed * 2 ^ 10, 0, some 0⟩
  | k =>
    match Mem.read none d.mu.remote (fld w 25 16 * 32 + (if k = 4 then 16 else 0) + i) with
    | some r =>
      let age := (BitVec.ofNat 32 d.tick - r.tickLo).toNat
      let old := decide (age > fld w 28 26 * d.cycleTicks)
      let e := extrapolate (r.pos * 2 ^ 20) (r.vel * 2 ^ 28) (if old then 0 else r.acc * 2 ^ 36) (clkTime (age * d.tickClks))
      ⟨e.p, e.v, e.a, some age⟩
    | none => ⟨m.prevMaster, 0, 0, none⟩

/-- Point i of the table in use, the one after the last being point 0 a cycle on: value and slope, in 2^-20 turn. -/
def Motion.camPoint (m : Motion) (i : Nat) : Int × Int :=
  let t := m.cams[m.camTable]
  if i < m.camNpts then ((Mem.read 0 t (2 * i)).toInt, (Mem.read 0 t (2 * i + 1)).toInt)
  else ((Mem.read 0 t 0).toInt + m.gear[5].toInt, (Mem.read 0 t 1).toInt)

/-- The cam at a master position: unwrapped value, first and second derivative by the master position, the derivatives in
2^-40 per turn (R335). -/
def Motion.camAt (m : Motion) (mp : Int) : Int × Int × Int :=
  let per : Nat := m.gear[6].toNat * 2 ^ 20
  if per = 0 ∨ m.camNpts = 0 then (0, 0, 0)
  else
    let rel := mp - m.camOrigin * 2 ^ 20
    let turns := Int.fdiv rel per
    let ph : Nat := (Int.fmod rel per).toNat * m.camNpts
    let i : Nat := ph / per
    let r : Int := (ph % per : Nat)
    let q : Int := per
    let (v0, s0) := m.camPoint i
    let (v1, s1) := m.camPoint (i + 1)
    let base := turns * m.gear[5].toInt * 2 ^ 20
    let n : Int := m.camNpts
    if m.camCubic then
      let c3 := 2 * v0 - 2 * v1 + s0 + s1
      let c2 := 3 * v1 - 3 * v0 - 2 * s0 - s1
      (base + v0 * 2 ^ 20 + rdivUp ((s0 * q * q * r + c2 * q * r * r + c3 * r * r * r) * 2 ^ 20) (per * per * per),
       rdivUp ((s0 * q * q + 2 * c2 * q * r + 3 * c3 * r * r) * n * 2 ^ 60) (per * per * per),
       rdivUp ((2 * c2 * q + 6 * c3 * r) * n * n * 2 ^ 100) (per * per * per))
    else (base + v0 * 2 ^ 20 + rdivUp ((v1 - v0) * r * 2 ^ 20) per, rdivUp ((v1 - v0) * n * 2 ^ 60) per, 0)

/-- The ratio or weight of a ramp after a master travel x, as a fraction. -/
def FollowRamp.ratio (r : FollowRamp) (x : Int) : Int × Nat :=
  let d : Nat := r.dist * 2 ^ 20
  if d = 0 then (r.num1, r.den1)
  else ((r.num0 * r.den1 * d + (r.num1 * r.den0 - r.num0 * r.den1) * x), r.den0 * r.den1 * d)

/-- Master travel into a ramp. -/
def FollowRamp.travel (r : FollowRamp) (mp : Int) : Int := max 0 (r.sigma * (mp - r.m0))
/-- Is a ramp over? -/
def FollowRamp.ended (r : FollowRamp) (mp : Int) : Bool := r.dist == 0 || decide (r.travel mp > r.dist * 2 ^ 20)

/-- A gear's set-point at a master position (R333, R334). -/
def FollowRamp.gear (r : FollowRamp) (k : Master) : Kin :=
  let d : Nat := r.dist * 2 ^ 20
  if d = 0 then
    ⟨r.s0 + Int.fdiv (r.num1 * (k.p - r.m0)) r.den1, Int.fdiv (r.num1 * k.v) r.den1, Int.fdiv (r.num1 * k.a) r.den1⟩
  else
    let x := r.travel k.p
    let dd := r.den0 * r.den1
    let k0 := r.num0 * r.den1
    let dk := r.num1 * r.den0 - k0
    let (n, m) := r.ratio x
    ⟨r.s0 + r.sigma * Int.fdiv (2 * d * k0 * x + dk * x * x) (2 * d * dd), Int.fdiv (n * k.v) m,
     Int.fdiv (n * k.a) m + r.sigma * Int.fdiv (dk * k.v * k.v) (d * dd * 2 ^ 40)⟩

/-- A gear ramp that is over becomes a fixed ratio from its end (R333). -/
def FollowRamp.lock (r : FollowRamp) : FollowRamp :=
  let d : Nat := r.dist * 2 ^ 20
  { r with m0 := r.m0 + r.sigma * d,
           s0 := r.s0 + r.sigma * Int.fdiv ((r.num0 * r.den1 + r.num1 * r.den0) * d) (2 * r.den0 * r.den1), num0 := r.num1,
           den0 := r.den1, dist := 0 }

/-- A cam's set-point (R335): weight, cam value held or live. -/
def Motion.camKin (m : Motion) (r : FollowRamp) (k : Master) : Kin :=
  let (c, c1, c2) := m.camAt k.p
  let (n, dn) := if r.ended k.p then (r.num1, r.den1) else r.ratio (r.travel k.p)
  let w := Int.fdiv (n * 2 ^ 40) dn
  let live := r.hold.isNone
  let delta := r.hold.getD c - r.c0
  let slope := if live then c1 else 0
  let curve := if live then c2 else 0
  let w1 := if r.ended k.p then 0 else r.sigma * Int.fdiv ((r.num1 * r.den0 - r.num0 * r.den1) * 2 ^ 40) (r.den0 * r.den1)
  let wv := if r.dist = 0 then 0 else Int.fdiv (w1 * k.v) (r.dist * 2 ^ 20)
  let wa := if r.dist = 0 then 0 else Int.fdiv (w1 * k.a) (r.dist * 2 ^ 20)
  let cv := slope * k.v / 2 ^ 40
  let ca := slope * k.a / 2 ^ 40 + curve * k.v / 2 ^ 40 * k.v / 2 ^ 40
  ⟨r.s0 + w * delta / 2 ^ 40, w * cv / 2 ^ 40 + wv * delta / 2 ^ 40,
   w * ca / 2 ^ 40 + 2 * (wv * cv / 2 ^ 40) + wa * delta / 2 ^ 40⟩

/-- The set-point of a follower, held at the headland (R321). -/
def Dev.placeFollower (a : AxisNo) (k : Kin) (d : Dev) : Dev :=
  match d.headland a with
  | some (lo, hi) =>
    if k.p < lo * 2 ^ 20 ∨ k.p > hi * 2 ^ 20 then
      let was := d.mot[a].clamped
      let d1 := d.modMot a (fun m => { m with p := clampI (lo * 2 ^ 20) (hi * 2 ^ 20) k.p, v := 0, a := 0, clamped := true, profile := none })
      if was then d1 else d1.fire 96 (.axes [a])
    else d.modMot a (fun m => { m with p := k.p, v := k.v, a := k.a, clamped := false, profile := none })
  | none => d.modMot a (fun m => { m with p := k.p, v := k.v, a := k.a, clamped := false, profile := none })

/-- A cam selection that waits takes effect at the wrap of the master period (R336, R364). -/
def Dev.camWrap (a : AxisNo) (k : Master) (d : Dev) : Dev :=
  let m := d.mot[a]
  let per : Nat := m.gear[6].toNat * 2 ^ 20
  match m.camPending with
  | some x =>
    let turn (p : Int) : Int := Int.fdiv (p - m.camOrigin * 2 ^ 20) per
    if per ≠ 0 ∧ turn k.p ≠ turn m.prevMaster then
      (d.modMot a (Motion.selectCam x.word)).respond x.stall x.tag stOk []
    else d
  | none => d

/-- The start of an engagement: positions are latched, and a stepper's current is full again (R333, R343). -/
def Motion.engageAt (clk : Nat) (k : Master) (m : Motion) : Motion :=
  let cam := bitOf m.gear[0] 4
  let dist := u64 m.gear[3] m.gear[4]
  { m with follow := .rampIn, engage := none, still := false, stillF := 2 ^ 19, stillSince := clk,
           ramp := some { m0 := k.p, s0 := m.p, sigma := sgn1 k.v, num0 := 0, den0 := 1,
                          num1 := if cam then 1 else m.gear[1].toInt, den1 := if cam then 1 else max 1 m.gear[2].toNat,
                          dist := dist, c0 := if cam then (m.camAt k.p).1 else 0, hold := none } }

/-- The ramp begins afresh at the present master position, from the ratio or weight in force (R334); a follower held at the
headland goes on from its computed set-point (R321). -/
def Motion.rebase (k : Master) (num1 : Int) (den1 : Nat) (m : Motion) : Motion :=
  let cam := bitOf m.gear[0] 4
  match m.ramp with
  | none => m
  | some r =>
    let (n, dn) := if r.ended k.p then (r.num1, r.den1) else r.ratio (r.travel k.p)
    { m with ramp := some { r with m0 := k.p, s0 := if cam then r.s0 else (r.gear k).p, sigma := sgn1 k.v, num0 := n, den0 := max 1 dn,
                                   num1 := num1, den1 := max 1 den1, dist := u64 m.gear[3] m.gear[4],
                                   hold := if cam then some (m.camAt k.p).1 else none } }

/-- The state of a follower moves on when its ramp is over; it comes to rest no further than the headland (R333, R334,
R321). -/
def Dev.followOn (a : AxisNo) (k : Master) (d : Dev) : Dev :=
  let m := d.mot[a]
  match m.ramp with
  | none => d
  | some r =>
    if !r.ended k.p then d
    else if m.follow == .rampOut then
      let last := if bitOf m.gear[0] 4 then r.s0 else r.lock.s0
      (d.placeFollower a ⟨last, 0, 0⟩).modMot a (fun m => { m.disengage with src := 0 })
    else d.modMot a (fun m =>
      { m with follow := .locked, ramp := if bitOf m.gear[0] 4 || r.dist == 0 then some r else some r.lock })

/-- Asked-for changes of a follower: a new ratio in LOCKED, and the ramp out (R334). -/
def Dev.followAsk (a : AxisNo) (k : Master) (d : Dev) : Dev :=
  let m := d.mot[a]
  if m.outAsked then
    if m.follow == .waiting then d.modMot a (fun m => { m.disengage with src := 0 })
    else if m.follow == .rampOut || m.follow == .disengaged then d.modMot a (fun m => { m with outAsked := false })
    else (d.modMot a (fun m => { m.rebase k 0 1 with follow := .rampOut, outAsked := false, ratioAsked := none })).followOn a k
  else
    match m.ratioAsked with
    | some (n, dn) => d.modMot a (fun m => { if m.follow == .locked then m.rebase k n.toInt dn.toNat else m with ratioAsked := none })
    | none => d

/-- One frame of a follower (R330 to R337). -/
def Dev.followFrame (old : Vector Motion 16) (a : AxisNo) (d : Dev) : Dev :=
  let m := d.mot[a]
  let k := d.master old a
  let late := match k.age with
    | some n => decide (n > fld m.gear[0] 28 26 * d.cycleTicks)
    | none => true
  let remote := decide (fld m.gear[0] 7 5 ≥ 3)
  let d1 := (if remote && late then d.fire 92 (.axes [a]) else d).camWrap a k
  let m := d1.mot[a]
  let crossed := match m.engage with
    | some e => !e.atPos || decide ((m.prevMaster - e.mpos * 2 ^ 20) * (k.p - e.mpos * 2 ^ 20) ≤ 0)
    | none => false
  let d2 := if m.follow == .waiting && crossed then d1.modMot a (Motion.engageAt d.clk k) else d1
  let d3 : Dev := d2.followOn a k
  let m : Motion := d3.mot[a]
  let d4 : Dev := match m.ramp with
    | some r =>
      if m.follow == .disengaged || m.follow == .waiting then d3
      else d3.placeFollower a (if bitOf m.gear[0] 4 then m.camKin r k else r.gear k)
    | none => d3
  (d4.followAsk a k).modMot a (fun m => { m with prevMaster := k.p })

/-- Cam wraps and crossings are watched while a follower is configured, engaged or not. -/
def Dev.watchMaster (old : Vector Motion 16) (a : AxisNo) (d : Dev) : Dev :=
  let m := d.mot[a]
  if m.gear[2] = 0 then d
  else
    let k := d.master old a
    (d.camWrap a k).modMot a (fun m => { m with prevMaster := k.p })

/-! ## The generator of an axis -/

/-- The bridge is off: the source is tracking, and what ran ends (R303). -/
def Dev.trackAxis (a : AxisNo) (d : Dev) : Dev :=
  let d1 := if d.mot[a].src = 3 then (match d.groupOf a with
      | some g => d.stopGroup g true
      | none => d)
    else d
  ((d1.endMoves a .stopped .flushed).failHome a 3).modMot a (fun m =>
    { m.disengage with src := 8, p := d.ctl[a].sig.posPri * 2 ^ 20, v := 0, a := 0, profile := none, jogVel := 0, stopAsked := 0,
                       stopKind := 0, torqueStop := false, torqueZero := false, overshoot := false })

/-- A stop event taken in the lane starts its stop (R318, R319). -/
def Dev.startReaction (a : AxisNo) (d : Dev) : Dev :=
  let m := d.mot[a]
  let quick := m.stopAsked == 3
  let kind := m.stopAsked
  -- a manual velocity is the generator's from here on (log entry 63)
  let v (m : Motion) : Int :=
    if d.ctl[a].manual && d.modeIn a == 2 then d.ctl[a].sig.velRef * 2 ^ (21 + fld d.ctl[a].scale0 19 16) else m.v
  let d1 := d.modMot a (fun m => { m.disengage with stopAsked := 0, stopKind := kind, overshoot := false, v := v m })
  if m.src = 3 then (match d1.groupOf a with
    | some g => d1.stopGroup g quick
    | none => d1)
  else if d1.modeIn a ≤ 1 then
    d1.modMot a (fun m => { m with torqueStop := m.torqueStop || !quick, torqueZero := m.torqueZero || quick })
  else d1.stopAxis a quick kind.toNat

/-- A stop that has come to rest: idle, but for the stops of a reaction, which hold until recovery (R317, R318). -/
def Dev.stopFrame (a : AxisNo) (d : Dev) : Dev :=
  let m := d.mot[a]
  let isOver := match m.profile with
    | some pr => pr.ended d.clk
    | none => true
  if !isOver then d
  else
    d.modMot a (fun m =>
      { m with v := 0, a := 0, profile := none, src := if d.axf[a].fault && m.stopKind ≥ 2 then 7 else 0,
               stopKind := if d.axf[a].fault then m.stopKind else 0 })

/-- Standstill of a stepper (R343): the set-point has changed, or not. -/
def Motion.standstill (changed : Bool) (clk : Nat) (m : Motion) : Motion :=
  if changed then { m with still := false, stillF := 2 ^ 19, stillSince := clk }
  else
    let delay := m.stillDelay.toNat * clksPerMs
    let ramp := max 1 (m.stillRamp.toNat * clksPerMs)
    let gone := clk - m.stillSince - delay
    if clk < m.stillSince + delay then m
    else { m with still := true, stillF := 2 ^ 19 - (2 ^ 19 - m.stillFrac) * (min gone ramp : Nat) / ramp }

/-- STANDSTILL_DELAY: POS_REF has not changed for DELAY_MS, at the latest at the end of the present tick. -/
def doStandstillDelay (a : AxisNo) (d : Dev) : Dev :=
  let m := d.mot[a]
  if d.mtype a = 3 ∧ m.stillSince + m.stillDelay.toNat * clksPerMs ≤ d.clk + d.tickClks then
    d.modMot a (fun m => { m with still := true })
  else d

/-- One frame of the generator of an axis (R302 to R324); without a lane it holds (14 R536). -/
def Dev.motAxis (old : Vector Motion 16) (d : Dev) (a : AxisNo) : Dev :=
  if !d.assigned a || (d.laneOf a).isNone then d
  else if d.offAxis a then (d.trackAxis a).watchMaster old a
  else
    let d1 := if d.mot[a].stopAsked = 0 then d.modMot a (Motion.sync d.clk) else (d.modMot a (Motion.sync d.clk)).startReaction a
    let m := d1.mot[a]
    let d2 := match m.src.toNat with
      | 7 => d1.stopFrame a
      | 6 => d1.homeFrame a
      | 2 =>
        if m.jogVel = 0 && (match m.profile with | some pr => pr.ended d.clk | none => true) then
          d1.modMot a (fun m => { m with src := 0, v := 0, a := 0, profile := none })
        else d1
      | 4 | 5 => d1.followFrame old a
      | 0 | 1 => (d1.registration a).runQueue a 200
      | _ => d1
    let d3 := if m.src = 4 ∨ m.src = 5 then d2 else d2.watchMaster old a
    let d4 := d3.modMot a (fun m => { m with
      stopKind := if m.src != 7 && m.src != 3 && !d.axf[a].fault then 0 else m.stopKind,
      torqueStop := m.torqueStop && d.axf[a].fault, torqueZero := m.torqueZero && d.axf[a].fault })
    d4

/-- After the paths: MOVING, standstill, limits. -/
def Dev.motAfter (old : Vector Motion 16) (d : Dev) (a : AxisNo) : Dev :=
  if !d.assigned a then d
  else
    let changed := rdivUp d.mot[a].p (2 ^ 20) != rdivUp old[a].p (2 ^ 20)
    let d1 := d.modMot a (fun m => { m with moving := changed })
    (if d.mtype a = 3 then d1.modMot a (Motion.standstill changed d.clk) else d1).limitCheck a

/-- The frame step of all generators and paths; old holds the axes as the previous frame left them. -/
def Dev.motionFrame (old : Vector Motion 16) (d : Dev) : Dev :=
  let d1 := (allAxes.foldl (Dev.motAxis old) d).pathFrame
  let d2 := allAxes.foldl (Dev.motAfter old) d1
  { d2 with fb := { d2.fb with probes := d2.fb.probes.map (fun p => { p with fresh := [] }) } }

/-! ## Step outputs (R344, R345) -/

/-- The steps of the frame just ended are done (R344). -/
def StepOut.stepped (x : StepOut) : StepOut :=
  { x with count := x.count + x.plan, plan := 0, carry := 0, slack := x.slackEnd, slackEnd := 0, wait := x.wait - x.len,
           pulsed := x.plan != 0 }

/-- The steps that MAX_RATE and DIR_SETUP let through within t clocks of the frame, in 1/512,000. -/
def StepOut.room (x : StepOut) (t : Nat) : Nat :=
  if t < x.wait then 0 else min 512000 (x.slack + x.wait * x.maxRate.toNat) + (t - x.wait) * x.maxRate.toNat

/-- The steps of a frame of a given length toward a goal: as many as fit, DIR set for them at the frame's beginning
(R344, R345). -/
def StepOut.toward (goal : Int) (len : Nat) (x : StepOut) : StepOut :=
  let todo := (goal - x.count).natAbs
  let neg := decide (goal < x.count)
  let turn := todo != 0 && neg != x.dirNeg
  let y := { x with len := len, wait := if turn then (x.dirSetup.toNat * 256 + 9) / 10 else x.wait,
                    dirNeg := if turn then neg else x.dirNeg }
  let go := min todo (y.room len / 512000)
  { y with plan := sgn1 (goal - x.count) * go, carry := todo - go, slackEnd := if go < todo then y.room len % 512000 else 0 }

/-- One frame of a step output: the steps of the frame before are done and LAG shows what they left; then the steps toward
the target count of this frame boundary are planned. At enabling the count is set with no step (R344). -/
def Dev.stepFrame (d : Dev) (n : Fin 8) : Dev :=
  let x := d.mu.sd[n]
  let y := x.stepped
  let put (y : StepOut) : Dev := { d with mu := { d.mu with sd := vset d.mu.sd n y } }
  match d.sdAxis n.val with
  | none => put { y with active := false, lag := 0, axis := none }
  | some a =>
    let c0 := Int.fdiv (rdivUp d.mot[a].p (2 ^ 20) * x.stepsPerTurn.toNat) (2 ^ 20)
    let c := if x.dirInv then -c0 else c0
    if !x.en then put { y with active := false, lag := 0, axis := some a }
    else if x.axis != some a || !x.active then
      put { y with active := true, count := c, lag := 0, slack := 0, wait := 0, pulsed := false, axis := some a }
    else
      let d1 := put ({ y with lag := BitVec.ofNat 16 (satU 16 x.carry) }.toward c d.frameClks)
      if x.carry > 1024 ∧ x.lag.toNat ≤ 1024 then d1.fire 93 (.axes [a]) else d1

/-- Is a step output driven: enabled and held by a plot? Otherwise it stays in its reset state (R345). -/
def StepOut.driven (x : StepOut) : Bool := x.en && x.axis.isSome

/-- Steps done t clocks into the frame: spread evenly over it, and no closer than 1 ÷ MAX_RATE (R344). -/
def StepOut.doneAt (x : StepOut) (t : Nat) : Nat :=
  min x.plan.natAbs (min (t * (x.plan.natAbs + x.carry) / max 1 x.len) (x.room t / 512000))

/-- Is a step's pulse of PULSE × 50 ns under way t clocks into the frame, to one clock (R345)? -/
def StepOut.pulsing (x : StepOut) (t : Nat) : Bool :=
  let w := x.pulse.toNat * 256
  if t * 10 < w then decide (x.doneAt t > 0) || (x.pulsed && decide ((t + x.slack / max 1 x.maxRate.toNat) * 10 < w))
  else decide (x.doneAt t > x.doneAt ((t * 10 - w) / 10))

/-- The levels of STEP and DIR t clocks into the frame; DIR is high for steps down (DESIGN CHOICE, log entry 115). -/
def StepOut.levels (x : StepOut) (t : Nat) : Bool × Bool := (x.pulsing t != x.stepLow, x.dirNeg)

/-! ## Published records (R332) -/

/-- The record of a local axis: its set-point, or its actual position, which its lane has read at this boundary. -/
def Dev.sampleRecord (d : Dev) (a : AxisNo) (act : Bool) : MasterRec :=
  let m := d.mot[a]
  if act then ⟨BitVec.ofNat 32 d.tick, m.actPos, satS 32 (rdivUp m.actVel (2 ^ 28)), 0⟩
  else ⟨BitVec.ofNat 32 d.tick, rdivUp m.p (2 ^ 20), satS 32 (rdivUp m.v (2 ^ 28)), satS 32 (rdivUp m.a (2 ^ 36))⟩

/-- At the first tick of a network cycle the published records are sampled. -/
def Dev.sampleMasters (d : Dev) : Dev :=
  let put (act : Bool) (set : BitVec 16) (m : Mem (Option MasterRec)) : Mem (Option MasterRec) :=
    (bitsOf 16 set.toNat).foldl (fun m k => Mem.write none m (k + if act then 16 else 0) (some (d.sampleRecord (ax k) act))) m
  { d with mu := { d.mu with published := put true d.mu.actMask (put false d.mu.setMask []) } }

/-- Records that have arrived are usable from a frame boundary on. -/
def Dev.takeRecords (d : Dev) : Dev :=
  { d with mu := { d.mu with
      remote := d.mu.arrived.foldl (fun m e => Mem.write none m e.1 e.2) d.mu.remote, arrived := [] } }

/-- What a motion command does at its frame boundary, if it still may (R320). -/
def applyMotion (c : Cmd) (d : Dev) : Dev :=
  if d.motState true c then d.respond c.stall c.tag stState []
  else
    match c.code.toNat with
    | 0x500 => applySetTarget c d
    | 0x501 => applySetOverride c d
    | 0x502 => applySetGearRatio c d
    | 0x503 => applyJog c d
    | 0x504 => applyStop c d
    | 0x510 => applyProfileLimits c d
    | 0x511 => applyMoveQueue c d
    | 0x520 => applyHomeConfig c d
    | 0x521 => applyHomeStart c d
    | 0x530 => applyGearConfig c d
    | 0x531 => applyGearEngage c d
    | 0x532 => applyCamLoad c d
    | 0x533 => applyCamSelect c d
    | 0x534 => applyMasterPublish c d
    | 0x540 => applyPathGroup c d
    | 0x541 => applyPathAppend c d
    | 0x542 => applyPathControl c d
    | 0x550 => applyStepConfig c d
    | 0x551 => applyStandstillConfig c d
    | _ => d

/-- SetTarget (R350). -/
def doSetTarget (st : Stall) (tag : BitVec 8) : Dev → Dev := doMotion 0x500 st tag
/-- SetOverride (R351). -/
def doSetOverride (st : Stall) (tag : BitVec 8) : Dev → Dev := doMotion 0x501 st tag
/-- SetGearRatio (R352). -/
def doSetGearRatio (st : Stall) (tag : BitVec 8) : Dev → Dev := doMotion 0x502 st tag
/-- Jog (R353). -/
def doJog (st : Stall) (tag : BitVec 8) : Dev → Dev := doMotion 0x503 st tag
/-- Stop (R354). -/
def doStop (st : Stall) (tag : BitVec 8) : Dev → Dev := doMotion 0x504 st tag
/-- ProfileLimits (R356). -/
def doProfileLimits (st : Stall) (tag : BitVec 8) : Dev → Dev := doMotion 0x510 st tag
/-- MoveQueue (R357). -/
def doMoveQueue (st : Stall) (tag : BitVec 8) : Dev → Dev := doMotion 0x511 st tag
/-- HomeConfig (R359). -/
def doHomeConfig (st : Stall) (tag : BitVec 8) : Dev → Dev := doMotion 0x520 st tag
/-- HomeStart (R360). -/
def doHomeStart (st : Stall) (tag : BitVec 8) : Dev → Dev := doMotion 0x521 st tag
/-- GearConfig (R361). -/
def doGearConfig (st : Stall) (tag : BitVec 8) : Dev → Dev := doMotion 0x530 st tag
/-- GearEngage (R362). -/
def doGearEngage (st : Stall) (tag : BitVec 8) : Dev → Dev := doMotion 0x531 st tag
/-- CamLoad (R363). -/
def doCamLoad (st : Stall) (tag : BitVec 8) : Dev → Dev := doMotion 0x532 st tag
/-- CamSelect (R364). -/
def doCamSelect (st : Stall) (tag : BitVec 8) : Dev → Dev := doMotion 0x533 st tag
/-- MasterPublish (R365). -/
def doMasterPublish (st : Stall) (tag : BitVec 8) : Dev → Dev := doMotion 0x534 st tag
/-- PathGroup (R366). -/
def doPathGroup (st : Stall) (tag : BitVec 8) : Dev → Dev := doMotion 0x540 st tag
/-- PathAppend (R367). -/
def doPathAppend (st : Stall) (tag : BitVec 8) : Dev → Dev := doMotion 0x541 st tag
/-- PathControl (R368). -/
def doPathControl (st : Stall) (tag : BitVec 8) : Dev → Dev := doMotion 0x542 st tag
/-- StepConfig (R369). -/
def doStepConfig (st : Stall) (tag : BitVec 8) : Dev → Dev := doMotion 0x550 st tag
/-- StandstillConfig (R370). -/
def doStandstillConfig (st : Stall) (tag : BitVec 8) : Dev → Dev := doMotion 0x551 st tag

/-! ## Meanings -/

/-- SET_TARGET. -/
def execSetTarget (st : Stall) (tag : BitVec 8) (s : State) : Host.Outcome State Fault Refusal :=
  .next (s.on (doSetTarget st tag))
/-- SET_OVERRIDE. -/
def execSetOverride (st : Stall) (tag : BitVec 8) (s : State) : Host.Outcome State Fault Refusal :=
  .next (s.on (doSetOverride st tag))
/-- SET_GEAR_RATIO. -/
def execSetGearRatio (st : Stall) (tag : BitVec 8) (s : State) : Host.Outcome State Fault Refusal :=
  .next (s.on (doSetGearRatio st tag))
/-- JOG. -/
def execJog (st : Stall) (tag : BitVec 8) (s : State) : Host.Outcome State Fault Refusal := .next (s.on (doJog st tag))
/-- STOP. -/
def execStop (st : Stall) (tag : BitVec 8) (s : State) : Host.Outcome State Fault Refusal := .next (s.on (doStop st tag))
/-- READ_STATUS. -/
def execReadStatus (st : Stall) (tag : BitVec 8) (s : State) : Host.Outcome State Fault Refusal :=
  .next (s.on (doReadStatus st tag))
/-- PROFILE_LIMITS. -/
def execProfileLimits (st : Stall) (tag : BitVec 8) (s : State) : Host.Outcome State Fault Refusal :=
  .next (s.on (doProfileLimits st tag))
/-- MOVE_QUEUE. -/
def execMoveQueue (st : Stall) (tag : BitVec 8) (s : State) : Host.Outcome State Fault Refusal :=
  .next (s.on (doMoveQueue st tag))
/-- MOVE_WAIT. -/
def execMoveWait (st : Stall) (tag : BitVec 8) (s : State) : Host.Outcome State Fault Refusal :=
  .next (s.on (doMoveWait st tag))
/-- DWELL_END. -/
def execDwellEnd (axis : AxisNo) (s : State) : Host.Outcome State Fault Refusal := .next (s.on (doDwellEnd axis))
/-- HOME_CONFIG. -/
def execHomeConfig (st : Stall) (tag : BitVec 8) (s : State) : Host.Outcome State Fault Refusal :=
  .next (s.on (doHomeConfig st tag))
/-- HOME_START. -/
def execHomeStart (st : Stall) (tag : BitVec 8) (s : State) : Host.Outcome State Fault Refusal :=
  .next (s.on (doHomeStart st tag))
/-- HOMING_HARD_STOP. -/
def execHomingHardStop (axis : AxisNo) (s : State) : Host.Outcome State Fault Refusal := .next (s.on (doHomingHardStop axis))
/-- GEAR_CONFIG. -/
def execGearConfig (st : Stall) (tag : BitVec 8) (s : State) : Host.Outcome State Fault Refusal :=
  .next (s.on (doGearConfig st tag))
/-- GEAR_ENGAGE. -/
def execGearEngage (st : Stall) (tag : BitVec 8) (s : State) : Host.Outcome State Fault Refusal :=
  .next (s.on (doGearEngage st tag))
/-- CAM_LOAD. -/
def execCamLoad (st : Stall) (tag : BitVec 8) (s : State) : Host.Outcome State Fault Refusal :=
  .next (s.on (doCamLoad st tag))
/-- CAM_SELECT. -/
def execCamSelect (st : Stall) (tag : BitVec 8) (s : State) : Host.Outcome State Fault Refusal :=
  .next (s.on (doCamSelect st tag))
/-- MASTER_PUBLISH. -/
def execMasterPublish (st : Stall) (tag : BitVec 8) (s : State) : Host.Outcome State Fault Refusal :=
  .next (s.on (doMasterPublish st tag))
/-- PATH_GROUP. -/
def execPathGroup (st : Stall) (tag : BitVec 8) (s : State) : Host.Outcome State Fault Refusal :=
  .next (s.on (doPathGroup st tag))
/-- PATH_APPEND. -/
def execPathAppend (st : Stall) (tag : BitVec 8) (s : State) : Host.Outcome State Fault Refusal :=
  .next (s.on (doPathAppend st tag))
/-- PATH_CONTROL. -/
def execPathControl (st : Stall) (tag : BitVec 8) (s : State) : Host.Outcome State Fault Refusal :=
  .next (s.on (doPathControl st tag))
/-- STEP_CONFIG. -/
def execStepConfig (st : Stall) (tag : BitVec 8) (s : State) : Host.Outcome State Fault Refusal :=
  .next (s.on (doStepConfig st tag))
/-- STANDSTILL_CONFIG. -/
def execStandstillConfig (st : Stall) (tag : BitVec 8) (s : State) : Host.Outcome State Fault Refusal :=
  .next (s.on (doStandstillConfig st tag))
/-- STANDSTILL_DELAY. -/
def execStandstillDelay (axis : AxisNo) (s : State) : Host.Outcome State Fault Refusal :=
  .next (s.on (doStandstillDelay axis))

end Sys2Proof.Machine
end

