-- ==== Sys2Proof/Machine/Chain.lean ====
section
/-! DEFINITION. The law chain of a tick as the lanes run it: entry, the steps and hooks, events, commit, overrun and the
hand-over of the outputs (spec 05 R136 to R158, 02 R47, R49, R61, R62). -/
namespace Sys2Proof.Machine
open Sys2Proof

/-! ## Local memory (Tables 5.2, 6.2) -/

/-- The three words of a position. -/
def posWords (k : Nat) (p : Int) : List (Nat × Int) := [(k, p), (k + 1, Int.fdiv p (2 ^ 20)), (k + 2, Int.fdiv p (2 ^ 40))]

/-- FLAGS_IN. -/
def Dev.flagsIn (d : Dev) (a : AxisNo) : Nat :=
  b2n d.isFrame + 2 * b2n d.pwm[a].bridgeOn + 4 * b2n d.axf[a].fault + 8 * b2n d.loops[a].laneChanged + 16 * b2n d.ctl[a].work.speedValid

/-- The words of SIG and OUT, addresses rising. -/
def Signals.words (s : Signals) (tickLo flags : Nat) : List (Nat × Int) :=
  [(0x600, (tickLo : Int)), (0x601, (flags : Int)), (0x602, s.vbus), (0x604, s.iLeg[0]), (0x605, s.iLeg[1]), (0x606, s.iLeg[2]),
   (0x607, s.iLeg[3]), (0x608, s.iPh[0]), (0x609, s.iPh[1]), (0x60A, s.iPh[2]), (0x60B, s.iPh[3]), (0x60C, s.iAlpha),
   (0x60D, s.iBeta), (0x60E, s.iD), (0x60F, s.iQ)] ++ posWords 0x610 s.posPri ++
  [(0x613, s.velEst), (0x614, s.loadEst), (0x615, s.posErr), (0x616, s.velErr)] ++ posWords 0x618 s.posSec ++
  [(0x61B, s.velSec), (0x620, s.angleE), (0x621, s.angleStep)] ++ posWords 0x624 s.posRef ++
  [(0x627, s.velFf), (0x628, s.idRef), (0x629, s.iqRef), (0x62A, s.accFf), (0x62B, s.trqSet), (0x62C, s.repOut),
   (0x630, s.velRef), (0x634, s.uD), (0x635, s.uQ), (0x636, s.uLimit), (0x63F, s.exc), (0x700, s.duty[0]), (0x701, s.duty[1]),
   (0x702, s.duty[2]), (0x703, s.duty[3]), (0x704, (s.legMask.toNat : Int)), (0x705, s.chopA), (0x706, s.chopB)]

/-- A sparse memory of words whose addresses rise. -/
def memOf (l : List (Nat × Int)) : Mem W20 :=
  (l.map (fun x => (x.1, BitVec.ofInt 20 x.2))).filter (fun x => x.2 != 0)

/-- SIG and OUT of an axis as its lane holds them. -/
def Dev.sigMem (d : Dev) (a : AxisNo) : Mem W20 := memOf (d.ctl[a].work.words (d.tick % 2 ^ 20) (d.flagsIn a))

/-- The user law program that runs at a hook of an axis. -/
def Dev.hookProg (d : Dev) (a : AxisNo) (h : Fin 3) : Bool :=
  !d.loops[a].bypassed && (match d.prog? (d.userProg a) with
    | some p => p.hook == h
    | none => false)

/-- The lane begins the program at a hook: local memory filled, registers and flags 0 (R136). -/
def Dev.openHook (a : AxisNo) (ln : LaneNo) (h : Fin 3) (d : Dev) : Dev :=
  let l := d.loops[a]
  let bank := (if l.bank then l.bankB else l.bankA).map (fun x => (x.1 + 0x200, x.2))
  d.modLane ln (fun x =>
    { Lane.reset x.role x.axis with pmOk := x.pmOk, errors := x.errors, entries := x.entries, stdState := x.stdState, stdTick := x.stdTick,
                                    lm := x.lm ++ bank ++ d.sigMem a, phase := .atHook h })

/-! ## The chain (Table 5.3) -/

/-- A law step of an axis: its control state and the signals in progress, from what the lane sampled at its entry (05 R137). -/
def Dev.lawStep (a : AxisNo) (f : LawEnv → Ctl → Signals → Ctl × Signals) (d : Dev) : Dev :=
  let e := d.ctl[a].env.getD (d.lawEnv a)
  d.modCtl a (fun c => let r := f e c c.work; { r.1 with work := r.2 })

/-- Steps 9 to 11: current control, hook T2, and the chain is done: the signals are those of this tick (R182, R197). -/
def Dev.lawDone (a : AxisNo) (ln : LaneNo) (d : Dev) : Dev :=
  (d.modCtl a (fun c =>
    { c with sig := c.work,
             frameSig := if d.isFrame then { c.work with idRef := c.frameSig.idRef, iqRef := c.frameSig.iqRef } else c.frameSig })).modLane ln
    (fun x => { x with phase := .ready })

/-- Step 9 and hook T2. -/
def Dev.lawOut (a : AxisNo) (ln : LaneNo) (d : Dev) : Dev :=
  let d1 := d.lawStep a Ctl.stepCurrent
  if d1.hookProg a 2 then d1.openHook a ln 2 else d1.lawDone a ln

/-- Step 7, the tick-rate biquads on the references as held from hook F, with a current excitation, and hook T1. -/
def Dev.lawTick (a : AxisNo) (ln : LaneNo) (d : Dev) : Dev :=
  let d1 := d.lawStep a (fun e c0 s =>
    let c := if e.frame then { c0 with frameSig := { c0.frameSig with idRef := s.idRef, iqRef := s.iqRef } } else c0
    let r := c.biquads4 e 0 (fld e.w5 10 8) (sat20 (c.frameSig.iqRef + c.excAt 1 s.exc))
    ({ r.1 with svNow := r.1.svNow || r.2.2 }, { s with idRef := sat20 (c.frameSig.idRef + c.excAt 0 s.exc), iqRef := r.2.1 }))
  if d1.hookProg a 1 then d1.openHook a ln 1 else d1.lawOut a ln

/-- The set-point generator meets the chain in the first tick of a frame: tracking, landing at the actual position, and
the actual position and speed for its followers (09 R302, R303, R330). -/
def Dev.meetMotion (a : AxisNo) (d : Dev) : Dev :=
  let c := d.ctl[a]
  let here := c.work.posPri
  let vel := c.work.velEst * 2 ^ (21 + fld c.scale0 19 16)
  d.modMot a (fun m =>
    let m1 := { m with actPos := here, actVel := vel }
    if m.src = 8 then
      { m1 with src := if d.offAxis a then 8 else 0, p := here * 2 ^ 20, v := 0, a := 0, profile := none }
    else m1)

/-- FS090: POS_PRI beyond a headland by more than the tolerance with the bridge on (09 R322). -/
def Dev.headlandCheck (a : AxisNo) (d : Dev) : Dev :=
  let pos := d.ctl[a].work.posPri
  let tol := (d.plotW a 12).toNat
  let out := d.pwm[a].bridgeOn && (match d.headland a with
    | some (lo, hi) => decide (pos < lo - tol) || decide (pos > hi + tol)
    | none => false)
  let d1 := d.modMot a (fun m => { m with hlFired := out })
  if out && !d.mot[a].hlFired then d1.fire 90 (.axes [a]) else d1

/-- What step 5 takes from the generator of an axis. -/
def Dev.frameRef (d : Dev) (a : AxisNo) (e : LawEnv) : FrameRef :=
  let m := d.mot[a]
  let track := decide (m.src = 8)
  { pos := if track then d.ctl[a].work.posPri else rdivUp m.p (2 ^ 20),
    vel := if track then 0 else e.velFf m.v, acc := if track then 0 else e.accFf m.a, still := m.stillF,
    torqueStop := m.torqueStop && e.mode == 1, torqueZero := m.torqueZero && e.mode == 1,
    hsCurrent := match m.home with
      | some r => if r.phase == .hard && !r.resting then some (int20 m.homeConf[7]) else none
      | none => none,
    master := rdivUp m.prevMaster (2 ^ 20) }

/-- Steps 1 to 6 of a tick: entry, feedback, currents, observer, and in the first tick of a frame step 5 and hook F. -/
def Dev.lawStart (a : AxisNo) (ln : LaneNo) (d0 : Dev) : Dev :=
  let e := d0.lawEnv a
  let d1 := d0.modCtl a (fun c0 =>
    let c := { c0 with env := some e }.begin e
    let x := c.takeExc e
    let r2 := x.1.stepFeedback e (x.1.entrySignals e x.2)
    let r3 := r2.1.stepCurrents e r2.2
    let r4 := r3.1.stepObserver e r3.2
    let c4 := r4.1.stepPlaus e r4.2.2 r4.2.1
    { (if e.frame then c4.stepSecondary e r4.2.1 else c4) with work := r4.2.1 })
  if !e.frame then d1.lawTick a ln
  else
    let d2 := (d1.meetMotion a).headlandCheck a
    let c := d2.ctl[a]
    let r := c.stepFrame e (d2.frameRef a e) c.work.exc c.work
    let d3 := d2.modCtl a (fun _ => { r.1 with work := r.2.1 })
    let d4 := r.2.2.foldl (fun d src => d.fire src (.axes [a])) d3
    if d4.hookProg a 0 then d4.openHook a ln 0
    else (d4.modCtl a (fun c => { c with dvHook := 0 })).lawTick a ln

/-- A lane enters the tick of its axis (R136), or idles where its axis has no plot (R134). -/
def Dev.enterLane (d : Dev) (ln : LaneNo) : Dev :=
  let x := d.lanes[ln]
  if x.role != .inService then d
  else
    let a := x.axis
    let l := d.loops[a]
    let i : Fin 2 := if l.slot then 1 else 0
    let d1 := d.modLane ln (fun x =>
      { Lane.reset x.role x.axis with
          pmOk := x.pmOk, errors := x.errors, stdState := l.marks[i], stdTick := d.age,
          lm := l.slots[i].filter (fun w => decide (0x180 ≤ w.1)) })
    let d2 := d1.modLoop a (fun l =>
      { l with discarded := false, laneChanged := l.prevLane != BitVec.ofNat 5 ln.val, prevLane := BitVec.ofNat 5 ln.val })
    if d.assigned a then d2.lawStart a ln else d2

/-! ## The end of a program (R152, END) -/

/-- The signals that the program may have written at its hook. -/
def Dev.takeHook (a : AxisNo) (ln : LaneNo) (h : Fin 3) (d : Dev) : Dev :=
  let w (k : Nat) : Int := (Mem.read 0 d.lanes[ln].lm k).toInt
  d.modCtl a (fun c =>
    let s := c.work
    match h.val with
    | 0 => { c with dvHook := w 0x630 - s.velRef, work := { s with idRef := w 0x628, iqRef := w 0x629, velRef := w 0x630 } }
    | 1 => { c with work := { s with idRef := w 0x628, iqRef := w 0x629 } }
    | _ => { c with work := { s with duty := vec4 (w 0x700) (w 0x701) (w 0x702) (w 0x703) } })

/-- END: every result is written, the hook ends, and the chain goes on. -/
def Dev.endHook (ln : LaneNo) (d : Dev) : Dev :=
  let x := d.lanes[ln]
  match x.phase with
  | .atHook h =>
    let a := x.axis
    let d1 := (d.modLane ln (fun l => { l.drain with cycles := l.cycles + 3, phase := .idle })).takeHook a ln h
    match h.val with
    | 0 => d1.lawTick a ln
    | 1 => d1.lawOut a ln
    | _ => d1.lawDone a ln
  | _ => d

/-- END. It stands in no delay slot and is not repeated. -/
def execEndProg (ln : LaneNo) (s : State) : Host.Outcome State Fault Refusal :=
  let l := s.dev.lanes[ln]
  if l.hook?.isSome && (l.rep.isSome || l.slots != 0) then .refused .illegalInstruction
  else if l.hook?.isSome then .next (s.on (Dev.endHook ln))
  else .next s

/-! ## Events (02 R49, 05 R158, 09 R319) -/

/-- The handler of an event records the kind of stop: 2 for severity 3, 3 for severity 4 and, on an axis without a bridge,
above. -/
def Dev.takeEvent (a : AxisNo) (ev : AxisEvent) (d : Dev) : Dev :=
  match ev with
  | .reaction _ sev =>
    let k : Nat := if sev = 3 then 2 else if sev = 4 || d.noBridge a then 3 else 0
    d.modMot a (fun m => { m with stopAsked := BitVec.ofNat 2 (max m.stopAsked.toNat k) })

/-- The first pending event of an axis is taken in its lane, at most two in a tick. -/
def Dev.eventEntry (ln : LaneNo) (d : Dev) : Dev :=
  let x := d.lanes[ln]
  if x.role != .inService || x.entries ≥ 2 then d
  else match d.loops[x.axis].events with
    | [] => d
    | ev :: rest =>
      ((d.modLoop x.axis (fun l => { l with events := rest })).modLane ln (fun y => { y with entries := y.entries + 1 })).takeEvent
        x.axis ev

/-- EVENT_ENTRY: between entry and commit, at an instruction boundary that is not held off (R158). -/
def doEventEntry (ln : LaneNo) (d : Dev) : Dev :=
  let x := d.lanes[ln]
  match x.phase with
  | .atHook _ => if x.slots != 0 || x.rep.isSome then d else d.eventEntry ln
  | .ready => d.eventEntry ln
  | _ => d

/-! ## Commit (R138, R144, R149) -/

/-- The outputs of an axis as its staging set (08 R269). -/
def Dev.outSet (d : Dev) (a : AxisNo) : OutSet :=
  let s := d.ctl[a].work
  ⟨s.duty, s.legMask, s.chopA, s.chopB, d.mtype a == 3 && d.ctl[a].stepStrong⟩

/-- AXIS_PEAK of a commit: a peak above the admitted cost fires FS030 (02 R62). -/
def Dev.notePeak (a : AxisNo) (cycles : Nat) (d : Dev) : Dev :=
  let above := decide (cycles > d.tk.admitted[a].toNat)
  let d1 := { d with tk := { d.tk with peaks := vmod d.tk.peaks a (fun p =>
    { p with peak := BitVec.ofNat 16 (satU 16 (max p.peak.toNat cycles)), peakAbove := p.peakAbove || above }) } }
  if above then d1.fire 30 (.axes [a]) else d1

/-- LANE_COMMIT with the law clocks of the tick: the events still pending are taken (R158); a program fault discards the tick and bypasses the program; otherwise the
committed slot switches, far stores and outputs take effect. -/
def doLaneCommit (ln : LaneNo) (cycles : Nat) (d0 : Dev) : Dev :=
  let d := (d0.eventEntry ln).eventEntry ln
  if d0.lanes[ln].phase != .ready || d0.lanes[ln].role != .inService then d0
  else if d0.lanes[ln].aerr then
    let a := d0.lanes[ln].axis
    ((d.discardTick ln).modLoop a (fun l => { l with bypassed := true, aerr := true })).fire 36 (.axes [a])
  else
    let x := d.lanes[ln]
    let a := x.axis
    let l := d.loops[a]
    let i : Fin 2 := if l.slot then 0 else 1
    let sig := d.sigMem a
    let d1 := d.modLoop a (fun l =>
      { l with slots := vset l.slots i (x.lm.filter (fun w => decide (0x180 ≤ w.1 ∧ w.1 < 0x200))), marks := vset l.marks i (some d.age),
               slot := !l.slot, userFar := x.far.foldl (fun m f => Mem.write 0 m f.1 f.2) l.userFar, sigOut := sig,
               svUser := l.svUser || x.sv, svStd := l.svStd || d.ctl[a].svNow, lastCycles := BitVec.ofNat 16 (satU 16 cycles),
               lane := BitVec.ofNat 5 ln.val })
    let d2 := (d1.modPwm a (fun p => if d.noBridge a then p else { p with staged := some (d.outSet a) })).modCtl a
      (fun c => { c with svNow := false })
    let d3 := { d2.modLane ln (fun y => { y with phase := .idle, far := [] }) with saved := vset d2.saved a none }
    let d4 := if x.sv then d3.fire 35 (.axes [a]) else d3
    d4.notePeak a cycles

/-- LANE_OVERRUN: a lane has not begun commit by the deadline (02 R61). -/
def doLaneOverrun (ln : LaneNo) (d : Dev) : Dev :=
  let x := d.lanes[ln]
  let running := match x.phase with
    | .atHook _ | .ready => true
    | _ => false
  if x.role != .inService || !running then d
  else
    ({ d with tk := { d.tk with peaks := vmod d.tk.peaks x.axis (fun p =>
      { p with overruns := BitVec.ofNat 8 (satU 8 (p.overruns.toNat + 1)) }) } }).laneFault ln 30

/-- STAGING_HANDOVER: the staging sets of all axes go to the timer array (Table 2.1, 08 R269). -/
def doStagingHandover (d : Dev) : Dev :=
  { d with pwm := d.pwm.map (fun p =>
      match p.staged with
      | some s => { p with latest := s, staged := none, fresh := p.fresh || p.bridgeOn }
      | none => { p with fresh := p.fresh || (p.direct && p.bridgeOn) }) }

end Sys2Proof.Machine
end

