-- ==== Sys2Proof/Machine/Control.lean ====
section
/-! DEFINITION. The commands of the control laws and the events of their timers and counters (spec 06 R183, R196, R204 to
R224). -/
namespace Sys2Proof.Machine
open Sys2Proof

/-! ## LawScale and LawMode (R218, R219) -/

/-- The checks of LawScale. -/
def Dev.scaleChecks (d : Dev) (c : Cmd) : List (Bool × Nat) :=
  let w := wd c.payload 0
  let a := axisOf c
  [(noWord c, stParam), (d.axisUnfit a || d.bridgeBusy a, stState),
   (badLen c 2 || rsv w 0xFC1000F0 || decide (fld w 25 21 > 20) || decide (fld w 19 16 > 12) || notIn (fld w 14 8) 1 64 ||
      badWord20 (wd c.payload 1), stParam)]

/-- The checks of LawMode. -/
def Dev.modeChecks (d : Dev) (c : Cmd) : List (Bool × Nat) :=
  let w := wd c.payload 0
  let a := axisOf c
  let m := fld w 5 4
  let only := bitOf w 7
  [(noWord c, stParam), (d.axisUnfit a, stState),
   (badLen c 2 || rsv w 0xFFFFFF00 || badWord20 (wd c.payload 1) || d.noBridge a ||
      (if only then !d.ctl[a].manual
       else m == 0 || (m == 2 && !d.lawOn a 0) || (m == 3 && !d.lawOn a 1) || (bitOf w 6 && m == 3)), stParam)]

/-- LAW_SCALE. -/
def doLawScale (st : Stall) (tag : BitVec 8) : Dev → Dev :=
  Dev.start st tag 0x240 fun c d => Dev.checked c 1 (d.scaleChecks c) (fun d => d.await st tag .atFrame) d
/-- LAW_MODE. -/
def doLawMode (st : Stall) (tag : BitVec 8) : Dev → Dev :=
  Dev.start st tag 0x241 fun c d => Dev.checked c 1 (d.modeChecks c) (fun d => d.await st tag .atFrame) d

/-- The generator of an axis whose mode changes: what runs ends, and it starts from the actual position, from the present
VEL_REF, or at rest (R199, R212). -/
def Dev.modeMotion (a : AxisNo) (mode : Nat) (d : Dev) : Dev :=
  let c := d.ctl[a]
  let d1 := (d.endMoves a .stopped .flushed).failHome a 3
  if mode = 3 then d1.modMot a (fun m => { m.disengage with src := 8, profile := none, jogVel := 0 })
  else if mode = 2 then
    (d1.modMot a (fun m => { m.disengage with src := 2, jogVel := 0, a := 0, v := c.sig.velRef * 2 ^ (21 + fld c.scale0 19 16),
                                              profile := none })).replan a
  else d1.modMot a (fun m => { m.disengage with src := 0, jogVel := 0, v := 0, a := 0, profile := none })

/-- An axis takes a control mode, with or without the manual value (R196, R212). -/
def Dev.setMode (a : AxisNo) (mode : Nat) (manual : Bool) (value : Int) (d : Dev) : Dev :=
  let c := d.ctl[a]
  let old := c.mode.toNat
  let preset := (decide (old = 1) && decide (mode ≥ 2)) || (c.manual && old == 2 && mode == 2 && !manual)
  let enters := manual && (!c.manual || old != mode)
  let d1 := d.modCtl a (fun c =>
    { c with mode := BitVec.ofNat 2 mode, manual := manual, presetV := if preset then some (d.loops[a].bankOf false) else c.presetV,
             trqSet := if mode = 1 ∧ old ≠ 1 then c.sig.iqRef else c.trqSet,
             manualTarget := if manual then value else c.manualTarget,
             manualValue := if enters then (if mode = 1 then c.sig.iqRef else c.sig.velRef) else c.manualValue })
  if mode = old ∨ d.offAxis a = true then d1 else d1.modeMotion a mode

/-! ## RepConfig, RepControl, RepStore (R220 to R222) -/

/-- Is a slot bound to an axis at all? -/
def Dev.slotBound (d : Dev) (slot : Nat) : Bool :=
  allAxes.any (fun b => d.assigned b && bitOf d.ctl[b].rep.conf[5] 22 && fld d.ctl[b].rep.conf[5] 21 16 == slot)

/-- Is a slot bound to another axis? -/
def Dev.boundElsewhere (d : Dev) (a : AxisNo) (slot : Nat) : Bool :=
  allAxes.any (fun b => b != a && d.assigned b && bitOf d.ctl[b].rep.conf[5] 22 && fld d.ctl[b].rep.conf[5] 21 16 == slot)

/-- Would a RepConfig change PERIOD, ORIGIN or SRC? -/
def Rep.moves (r : Rep) (p : List W32) : Bool :=
  bitOf (wd p 0) 4 != bitOf r.conf[0] 4 || wd p 1 != r.conf[1] || wd p 2 != r.conf[2] || wd p 3 != r.conf[3] || wd p 4 != r.conf[4]

/-- The checks of RepConfig. -/
def Dev.repChecks (d : Dev) (c : Cmd) : List (Bool × Nat) :=
  let p := c.payload
  let w := wd p 0
  let w5 := wd p 5
  let a := axisOf c
  let save := fld w5 15 0
  [(noWord c, stParam), (d.axisUnfit a || (d.bridgeBusy a && d.lawOn a 5 && d.ctl[a].rep.moves p), stState),
   (badLen c 6 || rsv w 0xFFFF00C0 || rsv w5 0xFF800000 || decide (u64 (wd p 1) (wd p 2) < 2 ^ 12) || decide (u64 (wd p 1) (wd p 2) > 2 ^ 40) ||
      !inR11 (s64 (wd p 3) (wd p 4)) || (save != 0 && notIn save 10 3600) || (bitOf w 4 && !d.lawOn a 3 && !d.lawOn a 4) ||
      (bitOf w5 22 && save == 0), stParam),
   (d.boundElsewhere a (fld w5 21 16), stResource)]

/-- The checks of RepControl. -/
def Dev.repControlChecks (d : Dev) (c : Cmd) : List (Bool × Nat) :=
  let w := wd c.payload 0
  let a := axisOf c
  [(noWord c, stParam), (d.axisUnfit a, stState), (badLen c 1 || rsv w 0xFFFFFFC0 || fld w 5 4 == 3 || !d.lawOn a 5, stParam)]

/-- The copy of a slot that a restore uses: the valid one with the higher count. -/
def bestCopy (v : Vector SlotCopy 2) : Option SlotCopy :=
  match v[0].valid, v[1].valid with
  | true, true => some (if v[1].count > v[0].count then v[1] else v[0])
  | true, false => some v[0]
  | false, true => some v[1]
  | false, false => none

/-- Slot and operation of RepStore. -/
def slotOf (c : Cmd) : Fin 64 := Fin.ofNat 64 (fld (wd c.payload 0) 13 8)
def storeOp (c : Cmd) : Nat := fld (wd c.payload 0) 5 4

/-- The checks of RepStore. An erase names no axis, so any axis that has bound the slot is another one (DEDUCED, log entry
65). -/
def Dev.storeChecks (d : Dev) (c : Cmd) : List (Bool × Nat) :=
  let w := wd c.payload 0
  let a := axisOf c
  let op := storeOp c
  let r := d.ctl[a].rep
  let best := bestCopy d.slots[slotOf c]
  let differs := match best with
    | none => true
    | some x => x.tableId != wd c.payload 1 || x.period != u64 r.conf[1] r.conf[2] || x.origin != r.origin || x.src != bitOf r.conf[0] 4
  [(noWord c, stParam), (op ≤ 1 && (d.axisUnfit a || !d.lawOn a 5 || (op == 1 && d.bridgeBusy a)), stState),
   (badLen c 2 || rsv w 0xFFFFC0C0 || op == 3 || (op == 1 && differs), stParam),
   (if op == 2 then d.slotBound (fld w 13 8) else d.boundElsewhere a (fld w 13 8), stResource)]

/-- Does a restore find its slot empty, so that FS048 fires (R209)? -/
def Dev.restoreEmpty (d : Dev) (c : Cmd) : Bool :=
  firstBad (d.storeChecks c) == stParam && !badLen c 2 && !rsv (wd c.payload 0) 0xFFFFC0C0 && storeOp c == 1 &&
    (bestCopy d.slots[slotOf c]).isNone

/-- REP_CONFIG. -/
def doRepConfig (st : Stall) (tag : BitVec 8) : Dev → Dev :=
  Dev.start st tag 0x250 fun c d => Dev.checked c 1 (d.repChecks c) (fun d => d.await st tag .atFrame) d
/-- REP_CONTROL. -/
def doRepControl (st : Stall) (tag : BitVec 8) : Dev → Dev :=
  Dev.start st tag 0x251 fun c d => Dev.checked c 1 (d.repControlChecks c) (fun d => d.await st tag .atFrame) d
/-- REP_STORE: a restore from an empty slot fires FS048 (R209). -/
def doRepStore (st : Stall) (tag : BitVec 8) : Dev → Dev :=
  Dev.start st tag 0x252 fun c d =>
    let d1 := Dev.checked c 2 (d.storeChecks c) (fun d => d.await st tag .atFrame) d
    if d.restoreEmpty c then d1.fire 48 (.axes [axisOf c]) else d1

/-- The table taken away from a running axis: x_v takes up what REP_OUT gave (R212). -/
def Ctl.dropRepOut (iMax : Int) (on : Bool) (c : Ctl) : Ctl :=
  if on then { c with xv := clampI (-iMax * 2 ^ 19) (iMax * 2 ^ 19) (c.xv + c.sig.repOut * 2 ^ 19) } else c

/-- A save starts: the state of this frame boundary is what it stores. How long the copy takes is open up to 2 ms: a free
value (R209, R210; log entry 5). -/
def Dev.startSave (a : AxisNo) (slot : Fin 64) (id : W32) (cmd : Option (Stall × BitVec 8)) (d : Dev) : Dev :=
  d.modCtl a (fun c =>
    let r := c.rep
    let copy : SlotCopy :=
      { valid := true, tableId := id, period := u64 r.conf[1] r.conf[2], origin := r.origin, src := bitOf r.conf[0] 4, count := 0,
        table := r.table }
    { c with rep := { r with storing := some (slot.val, cmd), draft := copy,
                             copyEnd := d.clk + (Config.freeOf 31 [a.val, slot.val, d.clk] % (2 * clksPerMs + 1)).toNat } })

/-- The save count in a response: 16 bits, at most 65,535 (DESIGN CHOICE beyond, log entry 117). -/
def countWord (n : Nat) : W32 := mkw [(satU 16 n, 0, 16)]

/-- REP_AUTO_SAVE: AUTO_SAVE_S has passed, at the latest at the end of the present tick; skipped while another save runs,
not made while the table is frozen. The TABLE_ID is that of the slot; where it is empty the spec gives none: a free value. -/
def doRepAutoSave (a : AxisNo) (d : Dev) : Dev :=
  let r := d.ctl[a].rep
  let w5 := r.conf[5]
  let slot : Fin 64 := Fin.ofNat 64 (fld w5 21 16)
  if !d.lawOn a 5 || !bitOf w5 22 || fld w5 15 0 == 0 || !d.passedMs r.lastSave (1000 * fld w5 15 0) then d
  else
    let d1 := d.modCtl a (fun c => { c with rep := { c.rep with lastSave := d.clk } })
    if r.frozen || r.storing.isSome then d1
    else
      let id := ((bestCopy d.slots[slot]).map (·.tableId)).getD (iW (Config.freeOf 23 [a.val, slot.val]))
      d1.startSave a slot id none

/-- REP_SAVE_DONE: the copy with the lower save count is written, and its count raised above the other (R209). Once a
power-down has closed the MRAM nothing is written (01 R29). -/
def doRepSaveDone (a : AxisNo) (d : Dev) : Dev :=
  let r := d.ctl[a].rep
  match r.storing with
  | none => d
  | some (slot, cmd) =>
    let k : Fin 64 := Fin.ofNat 64 slot
    let v := d.slots[k]
    let n (i : Fin 2) : Nat := if v[i].valid then v[i].count else 0
    let i : Fin 2 := if n 1 < n 0 then 1 else 0
    let count := max (n 0) (n 1) + 1
    let d1 := { d.modCtl a (fun c => { c with rep := { c.rep with storing := none } }) with
      slots := if d.pw.mramShut then d.slots else vset d.slots k (vset v i { r.draft with count := count }) }
    match cmd with
    | some (st, tag) => d1.respond st tag stOk [countWord count]
    | none => d1

/-- RepStore at its frame boundary; a save waits while another one of its axis runs. -/
def applyRepStore (c : Cmd) (d : Dev) : Dev :=
  let a := axisOf c
  let op := storeOp c
  if op = 0 ∧ d.ctl[a].rep.storing.isSome = true then d
  else if d.restoreEmpty c then (d.respondN c.stall c.tag stParam 2).fire 48 (.axes [a])
  else Dev.checked c 2 (d.storeChecks c) (fun d =>
    match op with
    | 0 => (d.startSave a (slotOf c) (wd c.payload 1) (some (c.stall, c.tag))).await c.stall c.tag .started
    | 1 => (match bestCopy d.slots[slotOf c] with
      | some x => (d.modCtl a (fun y => { y with rep := { y.rep with table := x.table, restored := true } })).ok c [countWord x.count]
      | none => d)
    | _ => ({ d with slots := vset d.slots (slotOf c) (Vector.replicate 2 SlotCopy.empty) }).ok c [0]) d

/-! ## Tuning aids (R214, R215, R223, R224) -/

/-- Is a frequency in 0.1 Hz 0, or above half the rate of a point? -/
def Dev.badFreq (d : Dev) (point f : Nat) : Bool :=
  let step := d.tickClks * (if point ≤ 1 then 1 else max 1 d.tk.conf.frameTicks.toNat)
  f == 0 || decide (f * step > 2560000000)

/-- The checks of TuneExcite. -/
def Dev.exciteChecks (d : Dev) (c : Cmd) : List (Bool × Nat) :=
  let p := c.payload
  let w := wd p 0
  let w2 := wd p 2
  let w3 := wd p 3
  let a := axisOf c
  let stop := bitOf w 8
  let wave := fld w 7 6
  let pt := fld w 5 4
  let x := d.ctl[a]
  let busy := x.excite.isSome || x.identify.isSome
  let freq := match wave with
    | 0 => d.badFreq pt (fld w2 15 0) || fld w3 15 0 != 0
    | 1 => d.badFreq pt (fld w2 15 0) || d.badFreq pt (fld w3 15 0)
    | 2 => notIn (fld w2 3 0) 7 15 || fld w2 7 4 != 0 || fld w2 15 8 == 0 || fld w3 15 0 != 0
    | _ => fld w3 15 0 != 0
  [(noWord c, stParam), (d.axisUnfit a || !d.bridgeBusy a || (if stop then x.excite.isNone else busy), stState),
   (badLen c 4 || rsv w 0xFFFFFE00 || (!stop && (rsv w2 0xFFFF0000 || badWord20 (wd p 1) || decide ((wd p 1).toInt ≤ 0) || freq ||
      fld w3 31 16 == 0 || (pt == 2 && !d.lawOn a 0) || (pt == 3 && !d.lawOn a 1) || (decide (pt ≤ 1) && d.noBridge a))), stParam)]

/-- The checks of TuneIdentify. -/
def Dev.identifyChecks (d : Dev) (c : Cmd) : List (Bool × Nat) :=
  let p := c.payload
  let a := axisOf c
  let x := d.ctl[a]
  let t := d.mtype a
  [(noWord c, stParam),
   (d.axisUnfit a || !d.bridgeBusy a || !(t == 1 || t == 3 || t == 4) || x.excite.isSome || x.identify.isSome ||
      (x.sig.speedValid && decide (x.sig.velEst.natAbs ≥ 512)), stState),
   (badLen c 3 || rsv (wd p 0) 0xFFFFFFF0 || badWord20 (wd p 1) || decide ((wd p 1).toInt ≤ 0) || decide ((wd p 1).toNat > fld (d.plotW a 6) 19 0) ||
      rsv (wd p 2) 0xFFFF0000 || notIn (fld (wd p 2) 15 0) 10 20000, stParam)]

/-- TUNE_EXCITE. -/
def doTuneExcite (st : Stall) (tag : BitVec 8) : Dev → Dev :=
  Dev.start st tag 0x260 fun c d => Dev.checked c 1 (d.exciteChecks c) (fun d => d.await st tag .atFrame) d
/-- TUNE_IDENTIFY. -/
def doTuneIdentify (st : Stall) (tag : BitVec 8) : Dev → Dev :=
  Dev.start st tag 0x261 fun c d => Dev.checked c 9 (d.identifyChecks c) (fun d => d.await st tag .atFrame) d

/-- EXCITATION_END: the duration has passed, at the latest at the end of the present tick. -/
def doExcitationEnd (a : AxisNo) (d : Dev) : Dev :=
  d.modCtl a (fun c => { c with excite := c.excite.filter (fun x => !d.passedMs x.startClk x.durMs) })

/-- At a tick boundary excitations whose duration is over have ended. -/
def Dev.exciteTick (d : Dev) : Dev :=
  { d with ctl := d.ctl.map (fun c => { c with excite := c.excite.filter (fun x => decide (d.clk < x.startClk + x.durMs * clksPerMs)) }) }

/-- A gain num ÷ den as a gain word: the exponent that gives the largest mantissa below 1 (R215). -/
def gainWord (num den : Nat) : W32 :=
  let man (e : Int) : Int := if e ≥ 0 then rdivUp ((num * 2 ^ 19 : Nat) : Int) (den * 2 ^ e.toNat) else rdivUp ((num * 2 ^ 19 * 2 ^ (-e).toNat : Nat) : Int) den
  if num = 0 then 0
  else
    let e := (((List.range 39).map (fun (i : Nat) => (i : Int) - 19)).find? (fun e => decide (man e < 2 ^ 19))).getD 19
    mkw [((e % 64).toNat, 24, 6), ((min (man e) (2 ^ 19 - 1)).toNat, 0, 20)]

/-- Full scale of a current range in µV. -/
def rangeUv (k : Nat) : Nat := 25000 * 2 ^ k

/-- R_UOHM: (u₂ − u₁) ÷ (I_TEST ÷ 2), from a voltage full scale of 100 V and I_FS of the range and shunt (R215). -/
def Identify.rUohm (x : Identify) (uv shunt : Nat) : Nat := (rdivUp (200000000 * (x.u2 - x.u1) * shunt) (max 1 (x.iTest.toNat * uv))).toNat

/-- An inductance in nH from a voltage step: (u − R·i) ÷ (di/dt), of the current i at its start and i' at its end; a free
value where the current has not risen (R215; log entry 5). -/
def Identify.lNh (x : Identify) (uv shunt : Nat) (i i' : Int) (clks : Nat) : Nat :=
  let num := (x.uStep * x.iTest - 2 * (x.u2 - x.u1) * i) * (100000000000 * clks * shunt : Nat)
  if i' ≤ i then (Config.freeOf 29 [x.startClk, x.stage.val] % 2 ^ 32).toNat
  else (rdivUp num (max 1 (x.iTest.toNat * 512000000 * (i' - i).toNat * uv))).toNat

/-- LQ_NH: that of phase B of a stepper. The spec gives no formula for the square current of type 1, and a single coil has
no phase B: there it is what the measurement found. -/
def Identify.lqNh (x : Identify) (found : BitVec 32) (t uv shunt : Nat) : Nat :=
  if t = 3 then x.lNh uv shunt x.j0 x.j1 x.jClks else found.toNat

/-- IDENTIFY_DONE: a measurement that has ended gives its results and the suggested gains K_P = 2π × BW × L × I_FS ÷ 100 V
and K_I = 2π × BW × R × T_tick × I_FS ÷ 100 V; FS049 where it failed. The loops resume bumplessly (R215, R224). -/
def doIdentifyDone (a : AxisNo) (found : BitVec 32) (d : Dev) : Dev :=
  match d.ctl[a].identify with
  | none => d
  | some x =>
    let d1 := d.modCtl a (fun c => { c with identify := none, presetV := some (d.loops[a].bankOf false) })
    let w2 := d.plotW a 2
    let uv := rangeUv (fld w2 9 8)
    let shunt := fld w2 31 16
    let tail := mkw [(x.result.toNat, 24, 8), (satU 16 ((d.clk - x.startClk) / clksPerMs), 0, 16)]
    if x.stage ≠ 4 then d
    else if x.result ≠ 0 then (d1.respond x.stall x.tag stOk [0, 0, 0, 0, 0, 0, 0, tail]).fire 49 (.axes [a])
    else
      let r := x.rUohm uv shunt
      let ld := x.lNh uv shunt x.i0 x.i1 x.iClks
      let lq := x.lqNh found (d.mtype a) uv shunt
      let scale := 2 * pi40.toNat * x.bwHz * uv
      let den := 2 ^ 40 * shunt * 100
      let kp (nH : Nat) : W32 := gainWord (scale * nH) (den * 1000000000)
      let ki : W32 := gainWord (scale * r * d.tickClks) (den * 1000000 * 512000000)
      d1.respond x.stall x.tag stOk [nW r, nW ld, nW lq, kp ld, ki, kp lq, ki, tail]

/-! ## Counters that have reached their limit -/

/-- VOLTAGE_LIMIT_PERSIST (R189). -/
def doVoltageLimitPersist (a : AxisNo) (d : Dev) : Dev :=
  if d.ctl[a].uLimDue then (d.modCtl a (fun c => { c with uLimDue := false })).fire 46 (.axes [a]) else d
/-- OVERSPEED (R200). -/
def doOverspeed (a : AxisNo) (d : Dev) : Dev :=
  if d.ctl[a].overDue then (d.modCtl a (fun c => { c with overDue := false })).fire 44 (.axes [a]) else d
/-- Source of a plausibility check. -/
def plausSrc (k : Fin 4) : Nat :=
  match k.val with
  | 0 => 40
  | 1 => 41
  | 2 => 42
  | _ => 45
/-- PLAUS_COUNT_LIMIT (R203). -/
def doPlausCountLimit (a : AxisNo) (k : Fin 4) (d : Dev) : Dev :=
  if d.ctl[a].plaus[k].due then
    (d.modCtl a (fun c => { c with plaus := vmod c.plaus k (fun x => { x with due := false }) })).fire (plausSrc k) (.axes [a])
  else d

/-- What the tick before left due and no row has taken fires at the tick boundary; an inductance without a formula is then
a free value (log entry 5). -/
def Dev.lawDues (d : Dev) : Dev :=
  allAxes.foldl (fun d a =>
    doIdentifyDone a (BitVec.ofInt 32 (Config.freeOf 30 [a.val, d.clk])) ((List.finRange 4).foldl (fun d k => doPlausCountLimit a k d) (doOverspeed a (doVoltageLimitPersist a d)))) d

/-! ## At the frame boundary -/

/-- A command of the control laws at its frame boundary. -/
def applyControl (c : Cmd) (d : Dev) : Dev :=
  let a := axisOf c
  let p := c.payload
  let w := wd p 0
  match c.code.toNat with
  | 0x240 => Dev.checked c 1 (d.scaleChecks c)
      (fun d => (d.modCtl a (fun x => { x with scale0 := w, scale1 := wd p 1 })).ok c []) d
  | 0x241 => Dev.checked c 1 (d.modeChecks c) (fun d =>
      let v := int20 (wd p 1)
      (if bitOf w 7 then d.modCtl a (fun x => { x with manualTarget := v }) else d.setMode a (fld w 5 4) (bitOf w 6) v).ok c []) d
  | 0x250 => Dev.checked c 1 (d.repChecks c) (fun d =>
      (d.modCtl a (fun x =>
        let r := x.rep
        let r1 : Rep := if r.moves p then { r with table := [], restored := false, primed := false } else r
        { x with rep := { r1 with conf := Vector.ofFn (fun i => wd p i.val),
                                  lastSave := if bitOf (wd p 5) 22 && !bitOf r.conf[5] 22 then d.clk else r.lastSave } })).ok c []) d
  | 0x251 => Dev.checked c 1 (d.repControlChecks c) (fun d =>
      (d.modCtl a (fun x =>
        match fld w 5 4 with
        | 0 => { x with rep := { x.rep with frozen := false, sat := false } }
        | 1 => { x with rep := { x.rep with frozen := true } }
        | _ => { x.dropRepOut (fld (d.plotW a 6) 19 0) d.pwm[a].bridgeOn with
                   rep := { x.rep with table := [], sat := false, restored := false } })).ok c []) d
  | 0x252 => applyRepStore c d
  | 0x260 => Dev.checked c 1 (d.exciteChecks c) (fun d =>
      let x : Excitation :=
        { wave := BitVec.ofNat 2 (fld w 7 6), point := BitVec.ofNat 2 (fld w 5 4), ampl := int20 (wd p 1), f0 := fld (wd p 2) 15 0,
          f1 := fld (wd p 3) 15 0, durMs := fld (wd p 3) 31 16, samples := 0, startClk := d.clk, last := 0 }
      (d.modCtl a (fun y => { y with excite := if bitOf w 8 then none else some x })).ok c []) d
  | 0x261 => Dev.checked c 9 (d.identifyChecks c) (fun d =>
      (d.modCtl a (fun y => { y with identify := some (Identify.begin (int20 (wd p 1)) (fld (wd p 2) 15 0) c.stall c.tag d.clk) })).await c.stall c.tag
        .started) d
  | _ => d

/-! ## Meanings -/

/-- LAW_SCALE. -/
def execLawScale (st : Stall) (tag : BitVec 8) (s : State) : Host.Outcome State Fault Refusal :=
  .next (s.on (doLawScale st tag))
/-- LAW_MODE. -/
def execLawMode (st : Stall) (tag : BitVec 8) (s : State) : Host.Outcome State Fault Refusal :=
  .next (s.on (doLawMode st tag))
/-- REP_CONFIG. -/
def execRepConfig (st : Stall) (tag : BitVec 8) (s : State) : Host.Outcome State Fault Refusal :=
  .next (s.on (doRepConfig st tag))
/-- REP_CONTROL. -/
def execRepControl (st : Stall) (tag : BitVec 8) (s : State) : Host.Outcome State Fault Refusal :=
  .next (s.on (doRepControl st tag))
/-- REP_STORE. -/
def execRepStore (st : Stall) (tag : BitVec 8) (s : State) : Host.Outcome State Fault Refusal :=
  .next (s.on (doRepStore st tag))
/-- REP_AUTO_SAVE. -/
def execRepAutoSave (axis : AxisNo) (s : State) : Host.Outcome State Fault Refusal := .next (s.on (doRepAutoSave axis))
/-- REP_SAVE_DONE. -/
def execRepSaveDone (axis : AxisNo) (s : State) : Host.Outcome State Fault Refusal := .next (s.on (doRepSaveDone axis))
/-- TUNE_EXCITE. -/
def execTuneExcite (st : Stall) (tag : BitVec 8) (s : State) : Host.Outcome State Fault Refusal :=
  .next (s.on (doTuneExcite st tag))
/-- EXCITATION_END. -/
def execExcitationEnd (axis : AxisNo) (s : State) : Host.Outcome State Fault Refusal := .next (s.on (doExcitationEnd axis))
/-- TUNE_IDENTIFY. -/
def execTuneIdentify (st : Stall) (tag : BitVec 8) (s : State) : Host.Outcome State Fault Refusal :=
  .next (s.on (doTuneIdentify st tag))
/-- IDENTIFY_DONE. -/
def execIdentifyDone (axis : AxisNo) (lqNh : BitVec 32) (s : State) : Host.Outcome State Fault Refusal :=
  .next (s.on (doIdentifyDone axis lqNh))
/-- VOLTAGE_LIMIT_PERSIST. -/
def execVoltageLimitPersist (axis : AxisNo) (s : State) : Host.Outcome State Fault Refusal :=
  .next (s.on (doVoltageLimitPersist axis))
/-- OVERSPEED. -/
def execOverspeed (axis : AxisNo) (s : State) : Host.Outcome State Fault Refusal := .next (s.on (doOverspeed axis))
/-- PLAUS_COUNT_LIMIT. -/
def execPlausCountLimit (axis : AxisNo) (check : Fin 4) (s : State) : Host.Outcome State Fault Refusal :=
  .next (s.on (doPlausCountLimit axis check))

end Sys2Proof.Machine
end

