-- ==== Sys2Proof/Machine/Dma.lean ====
section
/-! DEFINITION. The DMA engine (spec 10 R390 to R396, R400). -/
namespace Sys2Proof.Machine
open Sys2Proof

/-- A byte of DRAM as the DMA engine reads it: above 8 GB a free value, since the spec names none (log entry 5). -/
def dmaByte (m : Memory) (a : Nat) : Byte :=
  if a < 2 ^ 33 then Memory.byte m a else BitVec.ofInt 8 (Config.freeOf 10 [(a : Int)])

/-- Bytes of a descriptor's address reduced to 64 bits. -/
def descAddr (x : BitVec 64) : Nat := x.toNat / 64 * 64

/-- DMA_IRQ bits are set; the DMA cause of the claiming stall, when DMA_IRQ AND DMA_IRQ_EN becomes non-zero (R400). -/
def Dev.dmaIrq (ch : Fin 8) (bits : Nat) (d : Dev) : Dev :=
  let c := d.cap.dma[ch]
  let now := c.irq ||| BitVec.ofNat 3 bits
  let d1 := d.modDma ch (fun c => { c with irq := now })
  if c.claimed && (c.irq &&& c.irqEn) == 0 && (now &&& c.irqEn) != 0 then d1.setIrq c.stall irqDma else d1

/-- Interrupt bits of DMA_IRQ. -/
def dmaEoc : Nat := 1
def dmaBad : Nat := 2
def dmaHalt : Nat := 4

/-- A channel that stops: an awaited release takes effect (R390). -/
def Dev.dmaStop (ch : Fin 8) (st : DmaState) (d : Dev) : Dev :=
  d.modDma ch (fun c => if c.release then c.free else { c with state := st, abort := false })

/-- A descriptor fetch fails: the channel halts with FETCH_ERR and FS101 (R394). -/
def Dev.dmaFetchFail (ch : Fin 8) (d : Dev) : Dev :=
  (((d.modDma ch (fun c => { c with fetchErr := true, words := [] })).dmaIrq ch dmaHalt).fire 101 .device).dmaStop ch .halted

/-- Fetch the descriptor at an address with its space in bit 0: from DRAM, or the words that host memory gave. A channel
that S0 has not claimed cannot reach host memory, and there is no DRAM at 8 GB and above. -/
def Dev.dmaFetch (m : Memory) (ch : Fin 8) (cur : BitVec 64) (fetched : Option (List W32)) (d : Dev) : Dev :=
  let a := descAddr cur
  let d1 := d.modDma ch (fun c => { c with cur := cur, state := .running })
  let words : Option (List W32) :=
    if cur.getLsbD 0 then (if d.cap.dma[ch].claimed && d.cap.dma[ch].stall == 0 && d.present 0 then fetched else none)
    else if a < 2 ^ 33 then some (wordsOf 16 ((List.range 64).map (fun i => Memory.byte m (a + i)))) else none
  match words with
  | some ws => d1.modDma ch (fun c => { c with words := ws })
  | none => d1.dmaFetchFail ch

/-- COUNT, SRC, DST, SWAP of a descriptor. -/
def descCount (w : List W32) : Nat := (wd w 1).toNat
def descSrc (w : List W32) : Nat := u64 (wd w 2) (wd w 3)
def descDst (w : List W32) : Nat := u64 (wd w 4) (wd w 5)
def descSwap (w : List W32) : Nat := fld (wd w 0) 3 2
def descSrcHost (w : List W32) : Bool := bitOf (wd w 0) 4
def descDstHost (w : List W32) : Bool := bitOf (wd w 0) 5
def descLast (w : List W32) : Bool := bitOf (wd w 0) 1

/-- Bytes that a SWAP value reorders together (R393). -/
def swapUnit (s : Nat) : Nat := if s = 1 then 2 else if s = 0 then 1 else 4
/-- A group of bytes reordered (R393). -/
def swapBytes (s : Nat) (bs : List Byte) : List Byte :=
  if s = 2 then bs.drop 2 ++ bs.take 2 else if s = 0 then bs else bs.reverse

/-- The error found before any byte moves (Table 10.6), 0 none. -/
def preError (s0 : Bool) (w : List W32) : Nat :=
  let u := swapUnit (descSwap w)
  if descCount w = 0 then 0
  else if !descDstHost w && (descDst w < 0x40000000 || descDst w + descCount w > 0x80000000) then 3
  else if descCount w % u != 0 || descSrc w % u != 0 || descDst w % u != 0 then 4
  else if !s0 && (descSrcHost w || descDstHost w) then 5
  else if descSrcHost w && descDstHost w then 6
  else 0

/-- The first n groups of a transfer in ascending order: a DRAM source already written by the transfer itself reads as
written (R392). -/
def dmaGroups (rd : Nat → Byte) (w : List W32) : Nat → List Byte
  | 0 => []
  | n + 1 =>
    let acc := dmaGroups rd w n
    let u := swapUnit (descSwap w)
    let at_ (j : Nat) : Byte :=
      let a := descSrc w + n * u + j
      if !descSrcHost w && !descDstHost w && descDst w ≤ a && a < descDst w + n * u then acc.getD (a - descDst w) 0
      else rd (n * u + j)
    acc ++ swapBytes (descSwap w) ((List.range u).map at_)

/-- The first n bytes that a transfer writes. -/
def dmaData (m : Memory) (w : List W32) (hostData : List Byte) (n : Nat) : List Byte :=
  let rd (i : Nat) : Byte := if descSrcHost w then hostData.getD i 0 else dmaByte m (descSrc w + i)
  (dmaGroups rd w (cdiv n (swapUnit (descSwap w)))).take n

/-- Bytes to a place in DRAM or host memory. -/
def Dev.dmaStore (host : Bool) (a : Nat) (bs : List Byte) (d : Dev) : Dev :=
  if bs.isEmpty then d else if host then d.emit (.hostWrite a bs) else d.put a bs

/-- A descriptor ends: its data, then BYTES_DONE, then STATUS, and DMA_DONE_CNT (R392, R394, R396). -/
def Dev.dmaEnd (m : Memory) (ch : Fin 8) (moved : Nat) (hostData : List Byte) (err : Nat) (d : Dev) : Dev :=
  let c := d.cap.dma[ch]
  let w := c.words
  let host := c.cur.getLsbD 0
  let a := descAddr c.cur
  let status := mkw [(b2n (err == 0), 31, 1), (b2n (err != 0), 30, 1), (err, 0, 8)]
  (((d.dmaStore (descDstHost w) (descDst w) (dmaData m w hostData moved)).dmaStore host (a + 36) (wordBytes (nW moved))).dmaStore
    host (a + 32) (wordBytes status)).modDma ch (fun c => { c with doneCnt := c.doneCnt + 1 })

/-- Does S0 claim a channel? -/
def DmaChan.ofS0 (c : DmaChan) : Bool := c.claimed && c.stall == 0

/-- How a descriptor ends, before what DMA_DESCRIPTOR_END brings: bytes moved, error, host bytes. -/
def dmaResult (c : DmaChan) : DmaOutcome → Nat × Nat × List Byte
  | o =>
    let pre := preError c.ofS0 c.words
    if pre ≠ 0 then (0, pre, [])
    else if descCount c.words = 0 then (0, 0, [])
    else match o with
      | .done h => (descCount c.words, 0, h)
      | .failed e moved h => (min moved (descCount c.words), if e.val = 1 then 1 else 2, h)

/-- The descriptor in progress ends (R392, R394); the next one is fetched after everything before it has been written. -/
def doDmaDescriptorEnd (ch : Fin 8) (o : DmaOutcome) (fetched : Option (List W32)) (m : Memory) (d : Dev) : Dev :=
  let c := d.cap.dma[ch]
  if c.state != .running then d
  else
    let r := dmaResult c o
    let d1 := d.dmaEnd m ch r.1 r.2.2 r.2.1
    let next := BitVec.ofNat 64 (u64 (wd c.words 6) (wd c.words 7) / 64 * 64 + b2n (bitOf (wd c.words 0) 6))
    let bad := r.2.1 != 0
    let ecc := r.2.1 == 2 && !descSrcHost c.words && d.sownDram (descSrc c.words) (descCount c.words)
    let d2 := if ecc then d1.withSown 6 0 101 (fun d => (d.dmaIrq ch dmaBad).fire 101 .device)
      else if bad then (d1.dmaIrq ch dmaBad).fire 101 .device
      else if bitOf (wd c.words 0) 0 then d1.dmaIrq ch dmaEoc else d1
    if bad && !c.skipBad then (d2.dmaIrq ch dmaHalt).dmaStop ch .halted
    else if descLast c.words then d2.dmaStop ch .idle
    else d2.dmaFetch (dramApply m d2.wr) ch next fetched

/-- A write to DMA_CTRL of a channel by a stall: only the claimer, or CLAIM of a free channel; otherwise an access error
(R390). -/
def Dev.dmaCtrl (st : Stall) (ch : Fin 8) (f : Dev → Dev) (d : Dev) : Dev :=
  if !d.present st then d
  else if d.cap.dma[ch].claimed && d.cap.dma[ch].stall == st then f d
  else d.accessErr st

/-- CLAIM (R390). -/
def doDmaClaim (st : Stall) (ch : Fin 8) (d : Dev) : Dev :=
  if d.present st && !d.cap.dma[ch].claimed then d.modDma ch (fun c => { c with claimed := true, stall := st })
  else d.dmaCtrl st ch id

/-- RELEASE: a running channel is aborted first (R390). -/
def doDmaRelease (st : Stall) (ch : Fin 8) : Dev → Dev :=
  Dev.dmaCtrl st ch fun d => d.modDma ch (fun c => c.leave st)

/-- START (R395): from DMA_DESC, unless the channel runs. -/
def doDmaStart (st : Stall) (ch : Fin 8) (fetched : Option (List W32)) (m : Memory) : Dev → Dev :=
  Dev.dmaCtrl st ch fun d =>
    if d.cap.dma[ch].state == .running then d
    else (d.modDma ch (fun c => { c with doneCnt := 0 })).dmaFetch m ch d.cap.dma[ch].desc fetched

/-- ABORT (R395): its effect comes with DMA_ABORT_EFFECT. -/
def doDmaAbort (st : Stall) (ch : Fin 8) : Dev → Dev :=
  Dev.dmaCtrl st ch fun d => d.modDma ch (fun c => if c.state == .running then { c with abort := true } else c)

/-- An abort takes effect: the descriptor is BAD with ERR 7, or DONE where all its bytes have moved, and the channel halts
(R395). -/
def doDmaAbortEffect (ch : Fin 8) (moved : Nat) (fromHost : List Byte) (m : Memory) (d : Dev) : Dev :=
  let c := d.cap.dma[ch]
  if c.state != .running || !c.abort then d
  else
    let n := if preError c.ofS0 c.words ≠ 0 then 0 else min moved (descCount c.words)
    if preError c.ofS0 c.words = 0 && n == descCount c.words then
      ((d.dmaEnd m ch n fromHost 0).dmaIrq ch dmaHalt).dmaStop ch .halted
    else
      (((d.dmaEnd m ch n fromHost 7).dmaIrq ch (dmaBad + dmaHalt)).fire 101 .device).dmaStop ch .halted

/-! ## Meanings -/

/-- DMA_CLAIM. -/
def execDmaClaim (st : Stall) (ch : Fin 8) (s : State) : Host.Outcome State Fault Refusal :=
  .next (s.on (doDmaClaim st ch))
/-- DMA_RELEASE. -/
def execDmaRelease (st : Stall) (ch : Fin 8) (s : State) : Host.Outcome State Fault Refusal :=
  .next (s.on (doDmaRelease st ch))
/-- DMA_START. -/
def execDmaStart (st : Stall) (ch : Fin 8) (fetched : Option (List W32)) (s : State) : Host.Outcome State Fault Refusal :=
  .next (s.onMem (doDmaStart st ch fetched))
/-- DMA_ABORT. -/
def execDmaAbort (st : Stall) (ch : Fin 8) (s : State) : Host.Outcome State Fault Refusal :=
  .next (s.on (doDmaAbort st ch))
/-- DMA_ABORT_EFFECT. -/
def execDmaAbortEffect (ch : Fin 8) (moved : Nat) (fromHost : List Byte) (s : State) :
    Host.Outcome State Fault Refusal := .next (s.onMem (doDmaAbortEffect ch moved fromHost))
/-- DMA_DESCRIPTOR_END. -/
def execDmaDescriptorEnd (ch : Fin 8) (outcome : DmaOutcome) (fetched : Option (List W32)) (s : State) :
    Host.Outcome State Fault Refusal := .next (s.onMem (doDmaDescriptorEnd ch outcome fetched))

end Sys2Proof.Machine
end

