-- ==== Sys2Proof/Machine/FieldIo.lean ====
section
/-! DEFINITION. The field inputs and outputs (spec 13 R487 to R499, R511 to R515). -/
namespace Sys2Proof.Machine
open Sys2Proof

/-- Change the field bank. -/
def Dev.modFio (f : FieldIo → FieldIo) (d : Dev) : Dev := { d with fio := f d.fio }

/-- FIO_FLT becomes 1: FS130 and the FIELD_IO cause (R494, R499). -/
def Dev.fioFault (d : Dev) : Dev :=
  if d.fio.fioFlt then d
  else ((d.modFio (fun f => { f with fioFlt := true })).setIrqAll irqField).fire 130 .device

/-! ## Events -/

/-- An edge is accepted on an input: its stamp is that of the first sample of the run that held for DEB_US, less the
front-end delay of 1 µs. A count that ran when DEB_US changed began again there (R488 to R490). -/
def doInEdge (n : Fin 32) (level : Bool) (at_ : Nat) (d : Dev) : Dev :=
  let x := d.fio.ins[n]
  if x.level == level || decide (d.clk + 2 * at_ < x.debClk + 512 * x.debUs.toNat) then d
  else
    let t := ntOf (d.nt.nt + d.ntStep (2 * at_) - d.ntStep (512 * (x.debUs.toNat + 1)))
    let bit : W32 := nW (2 ^ n.val)
    let d1 := d.modFio (fun f =>
      { f with ins := vmod f.ins n (fun x => { x with level := level, riseStamp := if level then t else x.riseStamp,
                                                      fallStamp := if level then x.fallStamp else t }),
               inRise := if level then f.inRise ||| bit else f.inRise, inFall := if level then f.inFall else f.inFall ||| bit })
    let d2 : Dev := { d1 with cap := { d1.cap with units := d1.cap.units.map (fun u =>
      if u.state == .waiting || u.state == .pre then { u with events := u.events ++ [.input n level t] } else u) } }
    (if (level && x.irqRise) || (!level && x.irqFall) then d2.setIrqAll irqField else d2).homeEdge n.val level
      (d.clk + 2 * at_ - 512 * (x.debUs.toNat + 1))

/-- A readback level is accepted within the present tick (R493). -/
def doReadbackEdge (n : Fin 16) (level : Bool) (d : Dev) : Dev :=
  let o := d.fio.outs[n]
  if d.clk + d.tickClks < o.debClk + 512 * o.debUs.toNat then d
  else d.modFio (fun f => { f with outs := vmod f.outs n (fun o => { o with read := level }) })

/-- An output is in mismatch (R494, R495): its settle time has ended within the present tick at the latest. -/
def doOutputMismatch (n : Fin 16) (d : Dev) : Dev :=
  let o := d.fio.outs[n]
  if o.read == o.cmd || !d.pw.v24aOk || d.clk + d.tickClks < o.since + o.settleUs.toNat * 512 then d
  else
    (d.modFio (fun f => { f with outs := vmod f.outs n (fun o => { o with latched := o.latched || (o.fltLatch && o.cmd) }) })).fioFault

/-- The bank exceeds its shutdown limit (R497). -/
def doBankOvertemp (d : Dev) : Dev :=
  if d.fio.bankHot then d
  else
    let d1 := d.modFio (fun f => { f with bankHot := true, bankOt := true })
    (if d.fio.bankOt then d1 else d1.setIrqAll irqField).fire 131 .device

/-- The bank has cooled by 15 °C (R497). -/
def doBankCooled (d : Dev) : Dev := d.modFio (fun f => { f with bankHot := false })

/-! ## Commands -/

/-- FioInConfig (0x900, R511): applies at the next tick boundary (R490). -/
def doFioInConfig (st : Stall) (tag : BitVec 8) : Dev → Dev :=
  Dev.start st tag 0x900 fun c d =>
    let w := wd c.payload 1
    Dev.checked c 1 [(badLen c 2 || wd c.payload 0 == 0 || rsv w 0xFFFC0000 || fld w 15 0 < 1 || fld w 15 0 > 50000, stParam)]
      (fun d => d.await st tag .atTick) d

/-- FioInConfig at its boundary: a changed DEB_US restarts a count that runs (R490). -/
def applyFioInConfig (c : Cmd) (d : Dev) : Dev :=
  let w := wd c.payload 1
  (d.modFio (fun f => { f with ins := Vector.ofFn (fun n : Fin 32 =>
    if bitOf (wd c.payload 0) n.val then
      { f.ins[n] with debUs := BitVec.ofNat 16 (fld w 15 0), irqRise := bitOf w 16, irqFall := bitOf w 17,
                      debClk := if f.ins[n].debUs.toNat = fld w 15 0 then f.ins[n].debClk else d.clk }
    else f.ins[n]) })).ok c []

/-- FioOutConfig (0x901, R512): applies at the next tick boundary. -/
def doFioOutConfig (st : Stall) (tag : BitVec 8) : Dev → Dev :=
  Dev.start st tag 0x901 fun c d =>
    let w0 := wd c.payload 0
    let w := wd c.payload 1
    Dev.checked c 1
      [(badLen c 2 || fld w0 15 0 == 0 || rsv w0 0xFFFC0000 || fld w 15 0 < 1 || fld w 15 0 > 50000 || fld w 31 16 < 10, stParam)]
      (fun d => d.await st tag .atTick) d

/-- FioOutConfig at its boundary: a changed SETTLE_US restarts the settle time, a changed DEB_US the count. -/
def applyFioOutConfig (c : Cmd) (d : Dev) : Dev :=
  let w0 := wd c.payload 0
  let w := wd c.payload 1
  (d.modFio (fun f => { f with outs := Vector.ofFn (fun n : Fin 16 =>
    let o := f.outs[n]
    if bitOf w0 n.val then
      { o with debUs := BitVec.ofNat 16 (fld w 15 0), settleUs := BitVec.ofNat 16 (fld w 31 16), failOff := bitOf w0 16,
               fltLatch := bitOf w0 17, debClk := if o.debUs.toNat = fld w 15 0 then o.debClk else d.clk,
               since := if o.settleUs.toNat = fld w 31 16 then o.since else d.clk }
    else o) })).ok c []

/-- Would an OutSet turn on an output with FAIL_OFF while a reaction of severity 6 or 7 is in force (R498)? -/
def Dev.outHeld (d : Dev) (c : Cmd) : Bool :=
  let w := wd c.payload 0
  decide (d.sevMax ≥ 6) && (List.finRange 16).any (fun n => bitOf w n.val && bitOf w (16 + n.val) && d.fio.outs[n].failOff)

/-- OutSet (0x902, R513): applies at the next tick boundary (R492). -/
def doOutSet (st : Stall) (tag : BitVec 8) : Dev → Dev :=
  Dev.start st tag 0x902 fun c d =>
    Dev.checked c 1 [(d.outHeld c, stState), (badLen c 1 || fld (wd c.payload 0) 15 0 == 0, stParam)]
      (fun d => d.await st tag .atTick) d

/-- OutSet at its boundary: latches of R495 and holds of R498 are released. -/
def applyOutSet (c : Cmd) (d : Dev) : Dev :=
  let w := wd c.payload 0
  if d.outHeld c then d.respondN c.stall c.tag stState 1
  else
    (d.modFio (fun f => { f with outs := Vector.ofFn (fun n : Fin 16 =>
      let o := f.outs[n]
      let v := bitOf w (16 + n.val)
      if bitOf w n.val then
        { o with cmd := v, latched := false, held := o.held && !v, since := if o.cmd == v then o.since else d.clk }
      else o) })).ok c []

/-- FioClear (0x903, R514): applies at the next tick boundary. -/
def doFioClear (st : Stall) (tag : BitVec 8) : Dev → Dev :=
  Dev.start st tag 0x903 fun c d =>
    Dev.checked c 1 [(badLen c 1 || rsv (wd c.payload 0) 0xFFFFFFFC || wd c.payload 0 == 0, stParam)]
      (fun d => d.await st tag .atTick) d

/-- FioClear at its boundary: FIO_FLT is set again by a mismatch that exists. -/
def applyFioClear (c : Cmd) (d : Dev) : Dev :=
  let w := wd c.payload 0
  let d1 := if bitOf w 1 then d.modFio (fun f => { f with inRise := 0, inFall := 0 }) else d
  let d2 := if bitOf w 0 then
      let e := d1.modFio (fun f => { f with fioFlt := false, bankOt := false })
      if (List.finRange 16).any e.mismatch then e.fioFault else e
    else d1
  d2.ok c []

/-- FioStamp (0x904, R515). -/
def doFioStamp (st : Stall) (tag : BitVec 8) : Dev → Dev :=
  Dev.start st tag 0x904 fun c d =>
    let x := d.fio.ins[Fin.ofNat 32 (fld (wd c.payload 0) 4 0)]
    Dev.checked c 7 [(badLen c 1 || rsv (wd c.payload 0) 0xFFFFFFE0, stParam)]
      (fun d => d.ok c (x.riseStamp.words ++ x.fallStamp.words)) d

/-- FioQuery (0x905, R515). -/
def doFioQuery (st : Stall) (tag : BitVec 8) : Dev → Dev :=
  Dev.start st tag 0x905 fun c d =>
    let ch := fld (wd c.payload 0) 5 0
    Dev.checked c 3 [(badLen c 1 || rsv (wd c.payload 0) 0xFFFFFFC0 || ch > 47, stParam)]
      (fun d =>
        if ch < 32 then
          let x := d.fio.ins[Fin.ofNat 32 ch]
          d.ok c [mkw [(x.debUs.toNat, 0, 16), (b2n x.irqRise, 16, 1), (b2n x.irqFall, 17, 1)], 0]
        else
          let o := d.fio.outs[Fin.ofNat 16 (ch - 32)]
          d.ok c [mkw [(o.debUs.toNat, 0, 16), (o.settleUs.toNat, 16, 16)], mkw [(b2n o.failOff, 0, 1), (b2n o.fltLatch, 1, 1)]]) d

/-! ## Meanings -/

/-- FIO_IN_CONFIG. -/
def execFioInConfig (st : Stall) (tag : BitVec 8) (s : State) : Host.Outcome State Fault Refusal :=
  .next (s.on (doFioInConfig st tag))
/-- FIO_OUT_CONFIG. -/
def execFioOutConfig (st : Stall) (tag : BitVec 8) (s : State) : Host.Outcome State Fault Refusal :=
  .next (s.on (doFioOutConfig st tag))
/-- OUT_SET. -/
def execOutSet (st : Stall) (tag : BitVec 8) (s : State) : Host.Outcome State Fault Refusal := .next (s.on (doOutSet st tag))
/-- FIO_CLEAR. -/
def execFioClear (st : Stall) (tag : BitVec 8) (s : State) : Host.Outcome State Fault Refusal :=
  .next (s.on (doFioClear st tag))
/-- FIO_STAMP. -/
def execFioStamp (st : Stall) (tag : BitVec 8) (s : State) : Host.Outcome State Fault Refusal :=
  .next (s.on (doFioStamp st tag))
/-- FIO_QUERY. -/
def execFioQuery (st : Stall) (tag : BitVec 8) (s : State) : Host.Outcome State Fault Refusal :=
  .next (s.on (doFioQuery st tag))
/-- IN_EDGE. -/
def execInEdge (n : Fin 32) (level : Bool) (at_ : Nat) (s : State) : Host.Outcome State Fault Refusal :=
  .next (s.on (doInEdge n level at_))
/-- READBACK_EDGE. -/
def execReadbackEdge (n : Fin 16) (level : Bool) (s : State) : Host.Outcome State Fault Refusal :=
  .next (s.on (doReadbackEdge n level))
/-- OUTPUT_MISMATCH. -/
def execOutputMismatch (n : Fin 16) (s : State) : Host.Outcome State Fault Refusal := .next (s.on (doOutputMismatch n))
/-- BANK_OVERTEMP. -/
def execBankOvertemp (s : State) : Host.Outcome State Fault Refusal := .next (s.on doBankOvertemp)
/-- BANK_COOLED. -/
def execBankCooled (s : State) : Host.Outcome State Fault Refusal := .next (s.on doBankCooled)

end Sys2Proof.Machine
end

