-- ==== Sys2Proof/Machine/Spm.lean ====
section
/-! DEFINITION. The SPI master ports and the mapped serial memory (spec 13 R500 to R508, R516 to R520). -/
namespace Sys2Proof.Machine
open Sys2Proof

/-- Change a port, and the mapping. -/
def Dev.modSpm (p : Fin 2) (f : SpmPort → SpmPort) (d : Dev) : Dev := d.modFio (fun x => { x with spm := vmod x.spm p f })
def Dev.modMap (f : SpmMap → SpmMap) (d : Dev) : Dev := d.modFio (fun x => { x with map := f x.map })

/-- The mapped select of SPM0. -/
def SpmMap.cs (m : SpmMap) : Nat := fld m.conf[0] 2 1
/-- Is a select of a port the mapped one (R504)? -/
def Dev.mappedSel (d : Dev) (p s : Nat) : Bool := d.fio.map.en && p == 0 && d.fio.map.cs == s
/-- Bytes of the mapped memory. -/
def SpmMap.size (m : SpmMap) : Nat := 2 ^ fld m.conf[0] 12 8

/-- The transfer that runs, or runs next: the first, or under a hold the first for the held select (R503). -/
def SpmPort.running (p : SpmPort) : Option SpmXfer :=
  match p.held with
  | none => p.queue.head?
  | some s => p.queue.find? (fun x => x.cs == s)

/-- CPOL of a select, and its CS_SETUP, CS_HOLD and CS_GAP in units of 5 ns (R500). -/
def SpmPort.cpol (p : SpmPort) (s : Fin 4) : Bool := (p.selects[s].map (fun c => bitOf c.1 4)).getD false
def SpmPort.setup (p : SpmPort) (s : Fin 4) : Nat := (p.selects[s].map (fun c => fld c.2 7 0)).getD 0
def SpmPort.holdTime (p : SpmPort) (s : Fin 4) : Nat := (p.selects[s].map (fun c => fld c.2 15 8)).getD 0
def SpmPort.gap (p : SpmPort) (s : Fin 4) : Nat := (p.selects[s].map (fun c => fld c.2 23 16)).getD 0

/-- The settings of a select (R500). -/
def SpmPort.settings (p : SpmPort) (s : Fin 4) : W32 × W32 := p.selects[s].getD (0, 0)

/-- Before a select of another CPOL falls, SCK moves to the new idle level (R501). -/
def SpmPort.sckMove (p : SpmPort) (s : Fin 4) : List SpmLine :=
  if p.sck = some (p.cpol s) then [] else [.sck (p.cpol s), .wait (p.setup s)]

/-- What a port does with its lines for words of a select (R501, R503): the select falls, unless it is held; with CONT clear
it rises after every word; after the last word it rises, unless it stays held. The times are the least ones. -/
def SpmPort.lines (p : SpmPort) (t : SpmXfer) : List SpmLine :=
  let between : List SpmLine := if t.cont then [] else [.wait (p.holdTime t.cs), .rise, .wait (p.gap t.cs), .fall, .wait (p.setup t.cs)]
  let first : List SpmLine := if p.held.isSome then [.wait (p.gap t.cs)] else p.sckMove t.cs ++ [.fall, .wait (p.setup t.cs)]
  let last : List SpmLine := if t.hold then [] else [.wait (p.holdTime t.cs), .rise]
  first ++ ((t.words.map (fun w => [SpmLine.word w])).intersperse between).flatten ++ last

/-! ## Transfers (R500 to R503, R516 to R518) -/

/-- SpmSelect (0x910): the first one of a port drives SCK, at the idle level of the select it names (R500). -/
def applySpmSelect (c : Cmd) (d : Dev) : Dev :=
  let w := wd c.payload 0
  let p : Fin 2 := Fin.ofNat 2 (fld w 0 0)
  let s : Fin 4 := Fin.ofNat 4 (fld w 2 1)
  let x := d.fio.spm[p]
  Dev.checked c 1
    [(noWord c, stParam), (d.mappedSel p.val s.val, stResource), (x.queue.any (fun t => t.cs == s) || x.held == some s, stState),
     (badLen c 2 || rsv w 0xFF00F800 || fld w 10 6 < 3 || fld (wd c.payload 1) 31 28 == 0, stParam)]
    (fun d => (d.modSpm p (fun x =>
      { x with selects := vset x.selects s (some (w, wd c.payload 1)), sck := some (x.sck.getD (bitOf w 4)) })).ok c []) d
/-- It waits for a tick boundary, and does everything there (03 R95). -/
def doSpmSelect (st : Stall) (tag : BitVec 8) : Dev → Dev := Dev.startAtTick st tag 0x910

/-- SpmTransfer (0x911): queued; its words are answered when it ends. -/
def doSpmTransfer (st : Stall) (tag : BitVec 8) : Dev → Dev :=
  Dev.start st tag 0x911 fun c d =>
    let w := wd c.payload 0
    let p : Fin 2 := Fin.ofNat 2 (fld w 0 0)
    let s : Fin 4 := Fin.ofNat 4 (fld w 2 1)
    let n := fld w 25 16
    let x := d.fio.spm[p]
    Dev.checked c 1
      [(noWord c, stParam), (x.selects[s].isNone, stState), (x.queue.length ≥ 16 || d.mappedSel p.val s.val, stResource),
       (c.payload.length != 1 + n || rsv w 0xFC00FFC0 || n < 1 || n > 1022, stParam)]
      (fun d => (d.await st tag .started).modSpm p (fun x =>
        { x with queue := x.queue ++ [⟨st, tag, s, bitOf w 3, bitOf w 4, bitOf w 5, c.payload.drop 1⟩] })) d

/-- Low bits of a word of the select's length. -/
def SpmPort.mask (p : SpmPort) (s : Fin 4) (w : W32) : W32 :=
  match p.selects[s] with
  | some cfg => w &&& nW (2 ^ (fld cfg.1 10 6 + 1) - 1)
  | none => w

/-- Bytes leave for the mapped memory in one select assertion, with dummy clocks and bytes to be read after them; SCK has
moved to the idle level of its select (R501, R505). -/
def Dev.emitMem (bytes : List Byte) (dummy read : Nat) (d : Dev) : Dev :=
  let s : Fin 4 := Fin.ofNat 4 d.fio.map.cs
  let x := d.fio.spm[0]
  let d1 := if (x.sckMove s).isEmpty then d
    else (d.modSpm 0 (fun x => { x with sck := some (x.cpol s) })).emit (.spm 0 s.val (x.settings s) (x.sckMove s))
  d1.emit (.spmMem d.fio.map.cs bytes dummy read)

/-- The address bytes of a command to the memory. -/
def SpmMap.addrBytes (m : SpmMap) (a : Nat) : List Byte := beBytes (if bitOf m.conf[0] 3 then 4 else 3) a
/-- READ_CMD, PROG_CMD, WREN_CMD, RDSR_CMD and ERASE_CMD. -/
def SpmMap.op_ (m : SpmMap) (i : Nat) : Byte := BitVec.ofNat 8 (fld m.conf[4] (8 * i + 7) (8 * i))
def SpmMap.eraseCmd (m : SpmMap) : Byte := BitVec.ofNat 8 (fld m.conf[3] 7 0)
/-- DUMMY clocks. -/
def SpmMap.dummy (m : SpmMap) : Nat := fld m.conf[1] 31 24
/-- Bytes of a page, and of a sector. -/
def SpmMap.pageSize (m : SpmMap) : Nat := 2 ^ fld m.conf[0] 19 16
def SpmMap.sector (m : SpmMap) : Nat := 2 ^ fld m.conf[0] 24 20

/-- A read of the mapped memory leaves the device, and a status read. -/
def Dev.emitRead (a n : Nat) (d : Dev) : Dev := d.emitMem (d.fio.map.op_ 0 :: d.fio.map.addrBytes a) d.fio.map.dummy n
def Dev.emitStatusRead (d : Dev) : Dev := d.emitMem [d.fio.map.op_ 3] 0 1

/-- Cache lines that an address range covers are invalidated. -/
def SpmMap.invalidate (m : SpmMap) (a n : Nat) : SpmMap :=
  { m with cache := m.cache.filter (fun e => e.1 < a / 64 || (a + n - 1) / 64 < e.1) }

/-- The next piece of a write, or sector of an erase, begins: WREN, then the program or erase with its address. -/
def Dev.mapBegin (o : MapOp) (d : Dev) : Dev :=
  let m := d.fio.map
  let n := if o.erase then m.sector else min o.rest.length (m.pageSize - o.addr % m.pageSize)
  let d1 := d.modMap (fun m =>
    { (if o.erase then m.invalidate o.addr n else m) with op := some { o with piece := n, polled := 0 } })
  (d1.emitMem [m.op_ 2] 0 0).emitMem
    (if o.erase then m.eraseCmd :: m.addrBytes o.addr else (m.op_ 1 :: m.addrBytes o.addr) ++ o.rest.take n) 0 0

/-- A write or erase starts: a write invalidates every line it covers (R506). -/
def Dev.mapStart (o : MapOp) (d : Dev) : Dev :=
  (if o.erase then d else d.modMap (fun m => m.invalidate o.addr o.rest.length)).mapBegin o

/-- The write or erase that waits starts, once the memory is ready and no select is held (R503, R508). -/
def Dev.mapNext (d : Dev) : Dev :=
  if d.fio.map.op.isSome || d.fio.spm[0].held.isSome then d
  else match d.fio.map.waiting with
    | [] => d
    | x :: xs => (d.modMap (fun m => { m with waiting := xs })).mapStart x

/-- The running transfer of a port ends (R502, R503): its select rises, or is held. -/
def doSpmTransferDone (p : Fin 2) (rx : List W32) (d : Dev) : Dev :=
  let x := d.fio.spm[p]
  match x.running with
  | none => d
  | some t =>
    let got := (List.range t.words.length).map (fun i => x.mask t.cs (wd rx i))
    let d1 := (d.modSpm p (fun x => { x with queue := x.queue.erase t, held := if t.hold then some t.cs else none,
                                             sck := some (x.cpol t.cs), heldSince := d.clk })).emit
      (.spm p.val t.cs.val (x.settings t.cs) (x.lines { t with words := t.words.map (x.mask t.cs) }))
    (d1.respond t.stall t.tag stOk (if t.noRx then [] else got)).mapNext

/-- A held select rises, and is held no longer. -/
def Dev.spmRelease (p : Fin 2) (d : Dev) : Dev :=
  match d.fio.spm[p].held with
  | some s => ((d.modSpm p (fun x => { x with held := none })).emit (.spm p.val s.val (d.fio.spm[p].settings s) [.rise])).mapNext
  | none => d

/-- HOLD_TO of a held select has passed without a transfer for it (R503). -/
def doSpmHoldLapse (p : Fin 2) (d : Dev) : Dev :=
  let x := d.fio.spm[p]
  match x.held with
  | none => d
  | some s =>
    let hold := match x.selects[s] with
      | some cfg => fld cfg.2 31 28
      | none => 0
    if x.running.isSome || d.clk + d.tickClks < x.heldSince + hold * 51200 then d
    else ((d.spmRelease p).modSpm p (fun x => { x with holdLapse := true })).fire 132 .device

/-- SpmControl (0x912): CLEAR and FLUSH (R518). -/
def applySpmControl (c : Cmd) (d : Dev) : Dev :=
  let w := wd c.payload 0
  let p : Fin 2 := Fin.ofNat 2 (fld w 0 0)
  let op := fld w 5 4
  Dev.checked c 1 [(badLen c 1 || rsv w 0xFFFFFFCE || op > 1, stParam)]
    (fun d =>
      if op = 0 then ((d.modSpm p (fun x => { x with holdLapse := false })).modMap (fun m => { m with failed := false })).ok c []
      else
        let x := d.fio.spm[p]
        let run := x.running
        let gone := x.queue.filter (fun t => run != some t)
        let d0 := if run.isSome then d else d.spmRelease p
        let d1 := d0.modSpm p (fun x => { x with queue := x.queue.filter (fun t => run == some t) })
        (gone.foldl (fun d t => d.respond t.stall t.tag stDiscarded []) d1).ok c []) d
/-- It waits for a tick boundary, and does everything there (03 R95). -/
def doSpmControl (st : Stall) (tag : BitVec 8) : Dev → Dev := Dev.startAtTick st tag 0x912

/-! ## The mapped memory (R504 to R508, R519, R520) -/

/-- Is a select configured as R504 requires: mode 0 or 3, 8-bit words? -/
def Dev.mapSelOk (d : Dev) (s : Nat) : Bool :=
  match d.fio.spm[0].selects[Fin.ofNat 4 s] with
  | some cfg => (fld cfg.1 4 3 == 0 || fld cfg.1 4 3 == 3) && fld cfg.1 10 6 == 7
  | none => false

/-- SpmMap (0x920). -/
def applySpmMap (c : Cmd) (d : Dev) : Dev :=
  let w := wd c.payload 0
  let w1 := wd c.payload 1
  let w2 := wd c.payload 2
  let size := fld w 12 8
  let within (lo hi v : Nat) : Bool := decide (lo ≤ v ∧ v ≤ hi)
  Dev.checked c 1
    [(noWord c, stParam), (d.fio.map.op.isSome || d.fio.spm[0].queue.any (fun t => t.cs.val == fld w 2 1), stState),
     (badLen c 5 || rsv w 0xFE00E0C0 || rsv (wd c.payload 3) 0xFFFFFF00 || !within 16 28 size || !within 4 12 (fld w 19 16) ||
        !within 8 18 (fld w 24 20) || fld w1 23 16 == 0 || fld w1 31 24 > 32 || fld w2 15 0 == 0 || fld w2 31 16 == 0 ||
        (size ≥ 24 && !bitOf w 3) || (bitOf w 0 && !d.mapSelOk (fld w 2 1)), stParam)]
    (fun d => (d.modMap (fun m =>
      { m with en := bitOf w 0, cache := [],
               conf := ⟨#[w, w1, w2, wd c.payload 3, wd c.payload 4], rfl⟩ })).ok c []) d
/-- It waits for a tick boundary, and does everything there (03 R95). -/
def doSpmMap (st : Stall) (tag : BitVec 8) : Dev → Dev := Dev.startAtTick st tag 0x920

/-- A mapped write or erase ends: its response, and the one that waits starts. -/
def Dev.mapEnd (o : MapOp) (result failAddr : Nat) (d : Dev) : Dev :=
  let d1 := (d.modMap (fun m => { m with op := none, failed := m.failed || result != 0 })).respond o.stall o.tag stOk
    [nW result, nW failAddr]
  (if result = 0 then d1 else d1.fire 133 .device).mapNext

/-- A status poll of the memory (R506, R507), with what a verify of the piece reads back. It waits while a select is held. -/
def doSpmStatusPoll (status : Byte) (readBack : List Byte) (d : Dev) : Dev :=
  let m := d.fio.map
  match m.op with
  | none => d
  | some o =>
    if d.fio.spm[0].held.isSome then d else
    let polled := o.polled + fld m.conf[1] 23 16
    let limit := (if o.erase then fld m.conf[2] 31 16 else fld m.conf[2] 15 0) * 1000
    let wip := (status.toNat &&& fld m.conf[1] 7 0) != 0
    let err := (status.toNat &&& fld m.conf[1] 15 8) != 0
    let d0 := d.emitStatusRead
    if wip && polled < limit then d0.modMap (fun m => { m with op := some { o with polled := polled } })
    else if wip then d0.mapEnd o 2 o.addr
    else if err then d0.mapEnd o 3 o.addr
    else if o.erase then
      (if o.sectors ≤ 1 then d0.mapEnd o 0 0 else d0.mapBegin { o with addr := o.addr + o.piece, sectors := o.sectors - 1 })
    else if bitOf m.conf[0] 5 && readBack.take o.piece != o.rest.take o.piece then (d0.emitRead o.addr o.piece).mapEnd o 1 o.addr
    else
      let d1 := if bitOf m.conf[0] 5 then d0.emitRead o.addr o.piece else d0
      if o.rest.length ≤ o.piece then d1.mapEnd o 0 0
      else d1.mapBegin { o with addr := o.addr + o.piece, rest := o.rest.drop o.piece }

/-- A read by the management processors through the cache of 1,024 lines of 64 bytes (R504): a line that is not held is
read from the memory; where the cache is full, the line that leaves is a free choice. -/
def doMappedRead (addr : Nat) (line : List Byte) (d : Dev) : Dev :=
  let m := d.fio.map
  let k := addr / 64
  if !m.en || m.op.isSome || d.fio.spm[0].held.isSome || addr ≥ m.size || (Mem.read none m.cache k).isSome then d
  else
    let d1 := d.emitRead (k * 64) 64
    if m.cache.length < 1024 then d1.modMap (fun m => { m with cache := Mem.write none m.cache k (some (line.take 64)) })
    else
      let r := d1.draw
      r.2.modMap (fun m => { m with cache := Mem.write none (m.cache.eraseIdx (r.1 % m.cache.length)) k (some (line.take 64)) })

/-- Address and range of a mapped command: COUNT units of the given bytes within the memory. -/
def SpmMap.outside (m : SpmMap) (a unit n : Nat) : Bool := a % unit != 0 || decide (a + unit * n > m.size)

/-- SpmMemRead (0x921): waits while the memory is busy or a select is held (R508). -/
def doSpmMemRead (st : Stall) (tag : BitVec 8) (data : List W32) : Dev → Dev :=
  Dev.start st tag 0x921 fun c d =>
    let m := d.fio.map
    let a := (wd c.payload 0).toNat
    let w := wd c.payload 1
    let n := fld w 9 0
    if m.en && (m.op.isSome || d.fio.spm[0].held.isSome) then d
    else
      Dev.checked c 1
        [(!m.en, stState), (badLen c 2 || rsv w 0xFFFFFC00 || n < 1 || n > 1022 || m.outside a 4 n, stParam)]
        (fun d => (d.emitRead a (4 * n)).ok c ((List.range n).map (wd data))) d

/-- A mapped write or erase starts, or waits until the memory is ready and no select is held. -/
def Dev.mapQueue (o : MapOp) (d : Dev) : Dev := (d.modMap (fun m => { m with waiting := m.waiting ++ [o] })).mapNext

/-- SpmMemWrite (0x922). -/
def doSpmMemWrite (st : Stall) (tag : BitVec 8) : Dev → Dev :=
  Dev.start st tag 0x922 fun c d =>
    let m := d.fio.map
    let a := (wd c.payload 0).toNat
    let w := wd c.payload 1
    let n := fld w 9 0
    Dev.checked c 3
      [(!m.en || !bitOf m.conf[0] 4, stState),
       (c.payload.length != 2 + n || rsv w 0xFFFFFC00 || n < 1 || n > 1022 || m.outside a 4 n, stParam)]
      (fun d => (d.await st tag .started).mapQueue ⟨st, tag, false, a, bytesOf (c.payload.drop 2), 0, 0, 0⟩) d

/-- SpmMemErase (0x923). -/
def doSpmMemErase (st : Stall) (tag : BitVec 8) : Dev → Dev :=
  Dev.start st tag 0x923 fun c d =>
    let m := d.fio.map
    let a := (wd c.payload 0).toNat
    let w := wd c.payload 1
    let n := fld w 15 0
    Dev.checked c 3
      [(!m.en || !bitOf m.conf[0] 4, stState), (badLen c 2 || rsv w 0xFFFF0000 || n < 1 || m.outside a m.sector n, stParam)]
      (fun d => (d.await st tag .started).mapQueue ⟨st, tag, true, a, [], 0, n, 0⟩) d

/-! ## Meanings -/

/-- SPM_SELECT. -/
def execSpmSelect (st : Stall) (tag : BitVec 8) (s : State) : Host.Outcome State Fault Refusal :=
  .next (s.on (doSpmSelect st tag))
/-- SPM_TRANSFER. -/
def execSpmTransfer (st : Stall) (tag : BitVec 8) (s : State) : Host.Outcome State Fault Refusal :=
  .next (s.on (doSpmTransfer st tag))
/-- SPM_CONTROL. -/
def execSpmControl (st : Stall) (tag : BitVec 8) (s : State) : Host.Outcome State Fault Refusal :=
  .next (s.on (doSpmControl st tag))
/-- SPM_MAP. -/
def execSpmMap (st : Stall) (tag : BitVec 8) (s : State) : Host.Outcome State Fault Refusal := .next (s.on (doSpmMap st tag))
/-- SPM_MEM_READ. -/
def execSpmMemRead (st : Stall) (tag : BitVec 8) (data : List W32) (s : State) : Host.Outcome State Fault Refusal :=
  .next (s.on (doSpmMemRead st tag data))
/-- SPM_MEM_WRITE. -/
def execSpmMemWrite (st : Stall) (tag : BitVec 8) (s : State) : Host.Outcome State Fault Refusal :=
  .next (s.on (doSpmMemWrite st tag))
/-- SPM_MEM_ERASE. -/
def execSpmMemErase (st : Stall) (tag : BitVec 8) (s : State) : Host.Outcome State Fault Refusal :=
  .next (s.on (doSpmMemErase st tag))
/-- SPM_TRANSFER_DONE. -/
def execSpmTransferDone (port : Fin 2) (rx : List W32) (s : State) : Host.Outcome State Fault Refusal :=
  .next (s.on (doSpmTransferDone port rx))
/-- SPM_HOLD_LAPSE. -/
def execSpmHoldLapse (port : Fin 2) (s : State) : Host.Outcome State Fault Refusal := .next (s.on (doSpmHoldLapse port))
/-- SPM_STATUS_POLL. -/
def execSpmStatusPoll (status : Byte) (readBack : List Byte) (s : State) : Host.Outcome State Fault Refusal :=
  .next (s.on (doSpmStatusPoll status readBack))
/-- MAPPED_READ. -/
def execMappedRead (addr : Nat) (line : List Byte) (s : State) : Host.Outcome State Fault Refusal :=
  .next (s.on (doMappedRead addr line))

end Sys2Proof.Machine
end

