-- ==== Sys2Proof/Machine/Mailbox.lean ====
section
/-! DEFINITION. The mailboxes: taking doorbells, posting responses, time limits, mailbox resets (spec 03 R91 to R100). -/
namespace Sys2Proof.Machine
open Sys2Proof

/-- Is a command cut off by the hand-over or release that its stall has asked for (R88)? -/
def Dev.cutOff (d : Dev) (st : Stall) : Bool := d.hp.own.handover.isSome && d.isOwner st

/-- The checks behind RESOURCE that are made when a command is taken (R93): UNKNOWN, NOT_OWNER, and STATE in device safe
state. -/
def Dev.takeStatus (d : Dev) (st : Stall) (code : Nat) : Nat :=
  firstBad
    [(!commandCodes.contains code, stUnknown),
     (!anyStallCodes.contains code && (!d.isOwner st || (d.cutOff st && code != 0x004)), stNotOwner),
     (d.ft.safeState && !safeStateCodes.contains code, stState)]

/-- Change the ownership. -/
def Dev.modOwn (f : Ownership → Ownership) (d : Dev) : Dev := { d with hp := { d.hp with own := f d.hp.own } }

/-- The last tick of the owner's heartbeat interval (R87, R89). -/
def Dev.lastHbTick (d : Dev) : Bool := d.hp.own.valid && d.age == d.hp.own.since + d.hbTicks
/-- The interval has ended without a heartbeat, at the boundary that began the present tick or before (R89). -/
def Dev.lapsed (d : Dev) : Bool := d.hp.own.valid && decide (d.age > d.hp.own.since + d.hbTicks)
/-- Is an interval out of its range, 10 to 10,000 ms? -/
def badInterval (n : Nat) : Bool := decide (n < 10 ∨ n > 10000)

/-- The status of an OwnerClaim, decided in the tick in which it is taken (R87, R107). -/
def Dev.claimStatus (d : Dev) (c : Cmd) : Nat :=
  let w := wd c.payload 0
  let own := d.hp.own
  firstBad
    [(badLen c 1 || rsv w 0xFFFFC000 || badInterval (fld w 13 0), stParam),
     (own.handover.isSome || (own.valid && own.stall != c.stall && !d.lastHbTick), stState)]

/-- The status of an OwnerHandOver or OwnerRelease, decided in the tick in which it is taken (R88, R108, R109). -/
def Dev.handOverStatus (d : Dev) (c : Cmd) : Nat :=
  let w := wd c.payload 0
  let target : Stall := Fin.ofNat 8 (fld w 2 0)
  if c.code = 0x002 then firstBad [(d.hp.own.handover.isSome, stState), (badLen c 0, stParam)]
  else firstBad
    [(badLen c 1 || rsv w 0xC000FFF8 || badInterval (fld w 29 16) || target == c.stall || !d.present target, stParam),
     (d.hp.own.handover.isSome, stState)]

/-- A hand-over or release is taken and accepted (R88): h is the present tick, PENDING is set and the cut-off begins. -/
def Dev.beginHandOver (c : Cmd) (d : Dev) : Dev :=
  let w := wd c.payload 0
  let release := c.code == 0x002
  d.modOwn (fun o =>
    { o with handover := some ⟨release, if release then 0 else Fin.ofNat 8 (fld w 2 0),
        if release then 0 else BitVec.ofNat 14 (fld w 29 16), c.tag, c.stall, d.age + d.msTicks 100⟩ })

/-- What the taking of an ownership command does at once, whatever waits before it: a claim is collected or renews the
interval (R87), a hand-over or release begins (R88), a Heartbeat counts (R110). The status found is kept for its answer. -/
def Dev.ownTaken (c : Cmd) (d : Dev) : Dev :=
  let keep (s : Nat) : Dev := d.modCmd c.stall c.tag (fun x => { x with aux := s })
  match c.code.toNat with
  | 0x001 =>
    let s := d.claimStatus c
    let iv := BitVec.ofNat 14 (fld (wd c.payload 0) 13 0)
    if s ≠ 0 then keep s
    else if d.isOwner c.stall then d.modOwn (fun o => { o with intervalMs := iv, since := d.age, warned := false })
    else d.modOwn (fun o => { o with claims := o.claims ++ [⟨c.stall, c.tag, iv⟩] })
  | 0x002 | 0x003 => if d.handOverStatus c ≠ 0 then keep (d.handOverStatus c) else d.beginHandOver c
  | 0x004 =>
    if c.payload.isEmpty && d.isOwner c.stall then d.modOwn (fun o => { o with since := d.age, warned := false }) else d
  | _ => d

/-- Ticks by which the limit of a command starts later than its taking: the limit of a CoefSwap with AT_TICK is counted from
its tick (05 R177). -/
def Dev.limitFrom (d : Dev) (code : Nat) (p : List W32) : Nat :=
  if code = 0x231 ∧ bitOf (wd p 0) 5 = true then u64 (wd p 1) (wd p 2) - d.tick else 0

/-- Take a command whose payload has been copied (R92, R93, R98): BUSY_TAG, RESOURCE, then the checks of takeStatus. A
CoefRead keeps the bank in use at this moment (05 R178). -/
def Dev.takeCmd (st : Stall) (code : BitVec 12) (tag : BitVec 8) (payload : List W32) (d : Dev) : Dev :=
  let mine := d.hp.inFlight.filter (fun c => c.stall == st)
  let express := expressCodes.contains code.toNat
  if mine.any (fun c => c.tag == tag) then d.refuse st code tag stBusyTag
  else if mine.length ≥ 32 ∨ (!express && (mine.filter (fun c => !c.express)).length ≥ 28) = true then
    d.refuse st code tag stResource
  else
    let limit := (ownLimit code.toNat payload).getD d.hp.stalls[st].mbxTimeout.toNat
    let c : Cmd := ⟨st, code, tag, payload, express, d.age, if express then none else some (d.age + d.limitFrom code.toNat payload + d.msTicks limit),
      .waiting, if code = 0x232 then b2n d.loops[ax (fld (wd payload 0) 3 0)].bank else 0, false⟩
    let d1 := { d with hp := { d.hp with inFlight := d.hp.inFlight ++ [c] } }
    let s := d.takeStatus st code.toNat
    if s = 0 then d1.ownTaken c else d1.respond st tag s (d.fixedWords code)

/-- Take a doorbell (R92): LENGTH, then copy the payload and advance CMD_RD_PTR. -/
def Dev.takeHeader (st : Stall) (header : W32) (d : Dev) : Dev :=
  let code := BitVec.ofNat 12 (fld header 31 20)
  let tag := BitVec.ofNat 8 (fld header 19 12)
  let len := fld header 11 0
  if len > 1024 then d.refuse st code tag stLength
  else
    let s := d.hp.stalls[st]
    (d.modStall st (fun s => { s with cmdRdPtr := s.cmdRdPtr + BitVec.ofNat 11 len })).takeCmd st code tag
      (areaRead s.cmdArea s.cmdRdPtr.toNat len)

/-- Are doorbells held: until DEV_READY, and while the standby restarts after an aborted live update (14 R545)? -/
def Dev.holdsDoorbells (d : Dev) : Bool :=
  !d.hp.devReady || (match d.sv.mpChange with
    | .restart _ | .restarted _ => true
    | _ => false)

/-- A doorbell of a present stall arrives (R92, R100). -/
def Dev.ring_ (st : Stall) (header : W32) (d : Dev) : Dev :=
  let s := d.hp.stalls[st]
  if s.mbxReset then d
  else if !d.holdsDoorbells && s.held.isEmpty then d.takeHeader st header
  else if s.held.length ≥ 32 then d.dbLost st
  else
    let d1 := d.modStall st (fun s => { s with held := s.held ++ [header] })
    { d1 with hp := { d1.hp with heldOrder := d1.hp.heldOrder ++ [st] } }

/-- DOORBELL. -/
def doDoorbell (st : Stall) (header : W32) (d : Dev) : Dev := if d.present st then d.ring_ st header else d

/-- RESERVED_COMMAND_CODE: a doorbell whose code no table assigns; it answers UNKNOWN unless a check before it applies. -/
def doReservedCommandCode (st : Stall) (header : W32) (d : Dev) : Dev :=
  if commandCodes.contains (fld header 31 20) then d else doDoorbell st header d

/-- Held doorbells are taken when DEV_READY is set, in the order in which they arrived (R92). -/
def Dev.takeHeld (d : Dev) : Dev :=
  d.hp.heldOrder.foldl (fun d st => match d.hp.stalls[st].held with
    | [] => d
    | h :: hs => (d.modStall st (fun s => { s with held := hs })).takeHeader st h) { d with hp := { d.hp with heldOrder := [] } }

/-- A command that a transport delivers whole (11 R432, 12 R474): its payload goes into the command area behind those of
held doorbells, then its doorbell rings. A word count other than LEN + 1 is answered as LEN wrong (12 R474). -/
def Dev.deliver (st : Stall) (header : W32) (payload : List W32) (d : Dev) : Dev :=
  let len := fld header 11 0
  let s := d.hp.stalls[st]
  let ahead := s.held.foldl (fun n h => n + fld h 11 0) 0
  let d1 := d.modStall st (fun s => { s with cmdArea := areaWrite s.cmdArea (s.cmdRdPtr.toNat + ahead) (payload.take 1024) })
  let d2 := doDoorbell st header d1
  if len > 1024 ∨ payload.length = len then d2
  else
    let tag := BitVec.ofNat 8 (fld header 19 12)
    let fresh : Bool := match d2.cmd? st tag with
      | some c => (d.cmd? st tag).isNone && c.phase == .waiting
      | none => false
    if fresh then d2.respond st tag stParam (d2.fixedWords (BitVec.ofNat 12 (fld header 31 20))) else d2

/-- A write to RSP_RD_PTR (R94, R101): beyond RSP_WR_PTR it is ignored; otherwise waiting responses may find room. A value
with a reserved bit set is no pointer and counts as beyond (DESIGN CHOICE, log entry 111). -/
def Dev.setRspRd (st : Stall) (v : W32) (d : Dev) : Dev :=
  let s := d.hp.stalls[st]
  let p := BitVec.ofNat 11 v.toNat
  if rsv v 0xFFFFF800 || decide ((p - s.rspRdPtr).toNat > rspUsed s) then d.accessErr st
  else (d.modStall st (fun s => { s with rspRdPtr := p })).flushRsp st

/-- RSP_RD_PTR_WRITE. -/
def doRspRdPtrWrite (st : Stall) (v : W32) (d : Dev) : Dev := if d.present st then d.setRspRd st v else d

/-- MBX_RESET is set (R100): what has not started is discarded without a response; started commands answer no more. -/
def Dev.startMbxReset (st : Stall) (d : Dev) : Dev := (d.dropCmds st).modStall st (fun s => { s with mbxReset := true })

/-- MBX_RESET. -/
def doMbxReset (st : Stall) (d : Dev) : Dev := if d.present st then d.startMbxReset st else d

/-- The mailbox reset completes when no command of the stall is in flight any more (R100). -/
def doMbxResetDone (st : Stall) (d : Dev) : Dev :=
  if d.hp.stalls[st].mbxReset && !d.hp.inFlight.any (fun c => c.stall == st) then
    d.modStall st (fun s => { s with cmdRdPtr := 0, rspWrPtr := 0, rspRdPtr := 0, mbxReset := false })
  else d

/-- What the mapped memory and the SPI ports keep for a command that ends is dropped; the operation that waits next
starts. -/
def Dev.abandonSpm (c : Cmd) (d : Dev) : Dev :=
  let mine (s : Stall) (t : BitVec 8) : Bool := s == c.stall && t == c.tag
  match c.code.toNat with
  | 0x911 => [(0 : Fin 2), 1].foldl (fun d p => d.modSpm p (fun x =>
      { x with queue := x.queue.filter (fun t => !mine t.stall t.tag) })) d
  | 0x922 | 0x923 =>
    let d1 := d.modMap (fun m => { m with waiting := m.waiting.filter (fun o => !mine o.stall o.tag) })
    match d1.fio.map.op with
    | some o =>
      if mine o.stall o.tag then
        (d1.modMap (fun m => { m with op := none })).mapNext
      else d1
    | none => d1
  | _ => d

/-- A command ends with TIMEOUT and nothing of it is applied (R98); a hand-over that it has begun ends with it (R88). -/
def Dev.timeOut (c : Cmd) (d : Dev) : Dev :=
  if d.hp.own.handover.any (fun h => h.stall == c.stall && h.tag == c.tag) then d.endHandOver stTimeout
  else ((d.abandon c).abandonSpm c).respond c.stall c.tag stTimeout (d.fixedWords c.code)

/-- Has a command's limit passed in a tick before the present one (R98, 02 R64)? None passes while the management pairs change
(14 R541). -/
def Dev.expired (d : Dev) (c : Cmd) : Bool := d.pairActs && c.deadline.any (fun t => decide (t < d.age))

/-- MAILBOX_TIMEOUT (R98). -/
def doMailboxTimeout (st : Stall) (tag : BitVec 8) (d : Dev) : Dev :=
  match d.cmd? st tag with
  | none => d
  | some c => if d.expired c then d.timeOut c else d

/-! ## Meanings -/

/-- RESERVED_COMMAND_CODE. -/
def execReservedCommandCode (st : Stall) (header : W32) (s : State) : Host.Outcome State Fault Refusal :=
  .next (s.on (doReservedCommandCode st header))
/-- DOORBELL. -/
def execDoorbell (st : Stall) (header : W32) (s : State) : Host.Outcome State Fault Refusal :=
  .next (s.on (doDoorbell st header))
/-- RSP_RD_PTR_WRITE. -/
def execRspRdPtrWrite (st : Stall) (value : W32) (s : State) : Host.Outcome State Fault Refusal :=
  .next (s.on (doRspRdPtrWrite st value))
/-- MBX_RESET. -/
def execMbxReset (st : Stall) (s : State) : Host.Outcome State Fault Refusal := .next (s.on (doMbxReset st))
/-- MBX_RESET_DONE. -/
def execMbxResetDone (st : Stall) (s : State) : Host.Outcome State Fault Refusal := .next (s.on (doMbxResetDone st))
/-- MAILBOX_TIMEOUT. -/
def execMailboxTimeout (st : Stall) (tag : BitVec 8) (s : State) : Host.Outcome State Fault Refusal :=
  .next (s.on (doMailboxTimeout st tag))

end Sys2Proof.Machine
end

