-- ==== Sys2Proof/Machine/Owner.lean ====
section
/-! DEFINITION. The device and stall commands, and what ownership does at boundaries (spec 03 R85 to R90, R106 to R111). -/
namespace Sys2Proof.Machine
open Sys2Proof

/-- ECHO (R106). -/
def doEcho (st : Stall) (tag : BitVec 8) : Dev → Dev :=
  Dev.start st tag 0x000 fun c => Dev.checked c 1 [(c.payload.length > 64, stParam)] (fun d => d.ok c c.payload)

/-- OWNER_CLAIM (R87, R107): what its taking has decided is answered; a claim collected waits for the boundary. -/
def doOwnerClaim (st : Stall) (tag : BitVec 8) : Dev → Dev :=
  Dev.start st tag 0x001 fun c d =>
    if c.aux ≠ 0 then d.respond st tag c.aux [d.ownerRsp]
    else if d.hp.own.claims.any (fun x => x.stall == st && x.tag == tag) then d.await st tag .started
    else d.ok c [d.ownerRsp]

/-- The claims of the tick that ends are decided: the lowest-numbered present stall becomes owner, the others are
answered with STATE (R87). Claims held while an owner exists wait for a lapse that is due. -/
def Dev.decideClaims (d : Dev) : Dev :=
  let cs := d.hp.own.claims
  if cs.isEmpty || d.lapsed then d
  else
    let d1 := d.modOwn (fun o => { o with claims := [] })
    let win := if d.hp.own.valid then none
      else allStalls.find? (fun st => d.present st && cs.any (fun x => x.stall == st))
    match win with
    | none => cs.foldl (fun d x => d.respond x.stall x.tag stState [d.ownerRsp]) d1
    | some st =>
      let mine := cs.filter (fun x => x.stall == st)
      let d2 := d1.setOwner (some st) (mine.foldl (fun _ x => x.intervalMs) 0)
      cs.foldl (fun d x => d.respond x.stall x.tag (if x.stall = st then stOk else stState) [d.ownerRsp]) d2

/-- OWNER_RELEASE (R108): begun or refused when it was taken. -/
def doOwnerRelease (st : Stall) (tag : BitVec 8) : Dev → Dev :=
  Dev.start st tag 0x002 fun c d => if c.aux ≠ 0 then d.respond st tag c.aux [] else d.await st tag .started

/-- OWNER_HAND_OVER (R109): begun or refused when it was taken. -/
def doOwnerHandOver (st : Stall) (tag : BitVec 8) : Dev → Dev :=
  Dev.start st tag 0x003 fun c d => if c.aux ≠ 0 then d.respond st tag c.aux [d.ownerRsp] else d.await st tag .started

/-- State-changing commands of the old owner that have not completed, apart from the hand-over itself. -/
def Dev.oldPending (h : HandOver) (d : Dev) : Bool :=
  d.hp.inFlight.any (fun c => c.stall == h.stall && c.tag != h.tag && c.phase != .answered && c.code != 0x004 &&
    !anyStallCodes.contains c.code.toNat)

/-- At a frame boundary, after the commands of the boundary: the change of owner, when nothing of the old owner is
pending; past its limit there is none any more (R88, 02 R64). -/
def Dev.changeOwner (d : Dev) : Dev :=
  match d.hp.own.handover with
  | none => d
  | some h =>
    if d.age > h.deadline then d.endHandOver stTimeout
    else if d.oldPending h then d
    else (d.setOwner (if h.release then none else some h.target) h.intervalMs).endHandOver stOk

/-- HANDOVER_TIMEOUT: 100 ms have passed without the change (R88). -/
def doHandoverTimeout (d : Dev) : Dev :=
  match d.hp.own.handover with
  | none => d
  | some h => if d.age > h.deadline then d.endHandOver stTimeout else d

/-- HEARTBEAT (R110): it counted when it was taken. -/
def doHeartbeat (st : Stall) (tag : BitVec 8) : Dev → Dev :=
  Dev.start st tag 0x004 fun c => Dev.checked c 1 [(badLen c 0, stParam)] (fun d => d.ok c [])

/-- HEARTBEAT_WARN (R90): half of the interval has passed. -/
def doHeartbeatWarn (d : Dev) : Dev :=
  let o := d.hp.own
  if o.valid && !o.warned && decide (2 * (d.age - o.since) ≥ d.hbTicks) then
    (d.modOwn (fun o => { o with warned := true })).setIrq o.stall irqHbWarn
  else d

/-- HEARTBEAT_LAPSE (R89): ownership is vacated, and claims of the last tick are decided. -/
def doHeartbeatLapse (d : Dev) : Dev := if d.lapsed then d.vacate.decideClaims else d

/-- IRQ_ROUTE (R111). -/
def applyIrqRoute (c : Cmd) : Dev → Dev :=
  let w := wd c.payload 0
  Dev.checked c 1 [(badLen c 1 || rsv w 0xFFFFFFF0, stParam)]
    (fun d => (d.modOwn (fun o => { o with irqbEn := bitOf w 3, irqbStall := Fin.ofNat 8 (fld w 2 0) })).ok c [])
/-- It waits for a tick boundary, and does everything there (03 R95). -/
def doIrqRoute (st : Stall) (tag : BitVec 8) : Dev → Dev := Dev.startAtTick st tag 0x006

/-! ## Meanings -/

/-- ECHO. -/
def execEcho (st : Stall) (tag : BitVec 8) (s : State) : Host.Outcome State Fault Refusal := .next (s.on (doEcho st tag))
/-- OWNER_CLAIM. -/
def execOwnerClaim (st : Stall) (tag : BitVec 8) (s : State) : Host.Outcome State Fault Refusal :=
  .next (s.on (doOwnerClaim st tag))
/-- OWNER_RELEASE. -/
def execOwnerRelease (st : Stall) (tag : BitVec 8) (s : State) : Host.Outcome State Fault Refusal :=
  .next (s.on (doOwnerRelease st tag))
/-- OWNER_HAND_OVER. -/
def execOwnerHandOver (st : Stall) (tag : BitVec 8) (s : State) : Host.Outcome State Fault Refusal :=
  .next (s.on (doOwnerHandOver st tag))
/-- HANDOVER_TIMEOUT. -/
def execHandoverTimeout (s : State) : Host.Outcome State Fault Refusal := .next (s.on doHandoverTimeout)
/-- HEARTBEAT. -/
def execHeartbeat (st : Stall) (tag : BitVec 8) (s : State) : Host.Outcome State Fault Refusal :=
  .next (s.on (doHeartbeat st tag))
/-- HEARTBEAT_WARN. -/
def execHeartbeatWarn (s : State) : Host.Outcome State Fault Refusal := .next (s.on doHeartbeatWarn)
/-- HEARTBEAT_LAPSE. -/
def execHeartbeatLapse (s : State) : Host.Outcome State Fault Refusal := .next (s.on doHeartbeatLapse)
/-- IRQ_ROUTE. -/
def execIrqRoute (st : Stall) (tag : BitVec 8) (s : State) : Host.Outcome State Fault Refusal :=
  .next (s.on (doIrqRoute st tag))

end Sys2Proof.Machine
end

