-- ==== Sys2Proof/Machine/Host.lean ====
section
/-! DEFINITION. Accesses of the masters: the blocks of BAR0, reads with their latches and freezes, writes, the SPI host port,
and the PCI Express endpoint (spec 03 R69 to R84, R101 to R104). Offsets are bytes. -/
namespace Sys2Proof.Machine
open Sys2Proof

/-! ## The map (R71, R73) -/

/-- The blocks of Table 3.2 below the plot window, as (start, end). -/
def fixedBlocks : List (Nat × Nat) :=
  [(0x0000000, 0x0000FFF), (0x0001000, 0x00018FF), (0x0020000, 0x003FFFF), (0x0100000, 0x01FFFFF), (0x0200000, 0x02FFFFF),
   (0x0300000, 0x03FFFFF), (0x1000000, 0x13FFFFF), (0x2000000, 0x3FFFFFF)]

/-- The block that holds an offset, as (start, end): those above, the areas of the stalls, and the status windows. -/
def blockOf (off : Nat) : Option (Nat × Nat) :=
  if 0x10000 ≤ off ∧ off < 0x20000 then some (off / 0x1000 * 0x1000, off / 0x1000 * 0x1000 + 0xFFF)
  else if 0x40000 ≤ off ∧ off < 0x50000 then some (off / 0x1000 * 0x1000, off / 0x1000 * 0x1000 + 0xFFF)
  else fixedBlocks.find? (fun b => decide (b.1 ≤ off ∧ off ≤ b.2))

/-- Does an offset lie in the DRAM window? -/
def inDramWin (off : Nat) : Bool := decide (0x2000000 ≤ off ∧ off < 0x4000000)
/-- The DRAM address behind an offset of the DRAM window (R73). -/
def Dev.winAddr (d : Dev) (st : Stall) (off : Nat) : Nat := d.hp.stalls[st].dramWinBase.toNat * 2 ^ 25 + (off - 0x2000000)

/-! ## Reads -/

/-- The status window of an axis as a stall reads it: frozen for it, or the snapshot of the last frame boundary (R84). -/
def Dev.windowRead (d : Dev) (st : Stall) (a : AxisNo) (i : Nat) : W32 :=
  let w := d.hp.windows[a]
  match w.freeze[st] with
  | some f => if f.lapsed then Mem.read 0 w.snapshot i else Mem.read 0 f.snapshot i
  | none => Mem.read 0 w.snapshot i

/-- A word of BAR0 as it reads without latches, apart from the sequence words. -/
def Dev.live (d : Dev) (m : Memory) (st : Stall) (off : Nat) : W32 :=
  if off < 0x1000 then d.identReg off
  else if off < 0x1800 then d.stallWord (Fin.ofNat 8 ((off - 0x1000) / 0x100)) (off % 0x100)
  else if off < 0x1900 then d.ownWord off
  else if off < 0x10000 then 0
  else if off < 0x20000 then
    let s := d.hp.stalls[Fin.ofNat 8 ((off - 0x10000) / 0x2000)]
    Mem.read 0 (if off / 0x1000 % 2 = 0 then s.cmdArea else s.rspArea) (off % 0x1000 / 4)
  else if off < 0x30000 then d.faultWord (off - 0x20000)
  else if off < 0x40000 then d.safetyWord (off - 0x30000)
  else if off < 0x50000 then d.windowRead st (ax ((off - 0x40000) / 0x1000)) (off % 0x1000 / 4)
  else if off < 0x100000 then 0
  else if off < 0x180000 then d.ringWord (off - 0x100000)
  else if off < 0x181000 then d.canWord (Fin.ofNat 2 ((off - 0x180000) / 0x800)) (off % 0x800)
  else if off < 0x200000 then 0
  else if off < 0x300000 then d.dmaWord (off - 0x200000)
  else if off < 0x400000 then d.capWord (off - 0x300000)
  else if off < 0x1000000 then 0
  else if off < 0x1400000 then d.plotMemWord (off - 0x1000000)
  else if inDramWin off then
    let a := d.winAddr st off
    nW (leNat ((List.range 4).map (fun i => Memory.byte m (a + i))))
  else 0

/-- The words that a read of an offset latches: the high word of a 64-bit register, or the seconds of a stamp (R83, 11
R447). -/
def latchHighs (off : Nat) : List Nat :=
  let at_ (base size n o : Nat) : Bool := decide (base ≤ off ∧ off < base + size * n ∧ (off - base) % size = o)
  if [0x10, 0x410, 0x418, 0x508, 0x668, 0x100208].contains off then [off + 4]
  else if off = 0x100210 ∨ off = 0x100220 then [off + 4, off + 8]
  else if at_ 0xA00 0x20 32 0x08 || at_ 0xA00 0x20 32 0x14 || at_ 0xE00 0x10 16 0x08 || at_ 0x40000 0x1000 16 0x10 ||
      at_ 0x40000 0x1000 16 0x80 || at_ 0x300000 0x100 8 0x10 || at_ 0x200000 0x100 8 0x08 || at_ 0x200000 0x100 8 0x10 then
    [off + 4]
  else []

/-- A read of a sequence word (R84): it freezes the window for the stall, or releases it. -/
def Dev.winSeq (st : Stall) (a : AxisNo) (d : Dev) : W32 × Dev :=
  let w := d.hp.windows[a]
  let put (f : Option Freeze) : Dev :=
    { d with hp := { d.hp with windows := vset d.hp.windows a { w with freeze := vset w.freeze st f } } }
  let word (seq : Nat) (frozen lapsed : Bool) : W32 := mkw [(b2n lapsed, 0, 1), (b2n frozen, 1, 1), (seq, 8, 24)]
  let frozen : Dev := put (some ⟨Mem.write 0 w.snapshot 0 (mkw [(w.seq.toNat, 8, 24)]), 0, false⟩)
  match w.freeze[st] with
  | none => (word w.seq.toNat true false, frozen)
  | some f =>
    if f.lapsed then (word w.seq.toNat true true, frozen)
    else (word (fld (Mem.read 0 f.snapshot 0) 31 8) false false, put none)

/-- A stall's latches, and what a read leaves in them. -/
def Dev.latch (st : Stall) (m : Memory) (highs : List Nat) (d : Dev) : Dev :=
  highs.foldl (fun e h => e.modStall st (fun s => { s with latches := Mem.write none s.latches h (some (d.live m st h)) })) d

/-- One word read by a stall at an offset inside a block. -/
def Dev.readWord (m : Memory) (st : Stall) (off : Nat) (d : Dev) : W32 × Dev :=
  if 0x40000 ≤ off ∧ off < 0x50000 ∧ off % 0x1000 = 0 then d.winSeq st (ax ((off - 0x40000) / 0x1000))
  else
    match latchHighs off with
    | [] => ((Mem.read none d.hp.stalls[st].latches off).getD (d.live m st off), d)
    | hs => (d.live m st off, d.latch st m hs)

/-- Words of DRAM that an uncorrectable error has hit: their value is open, free by the address (log entry 5). -/
def lostWords (a n : Nat) : List W32 := (List.range n).map (fun i => BitVec.ofInt 32 (Config.freeOf 26 [((a + 4 * i : Nat) : Int)]))

/-- n words from an offset on (R71, R72): words past the end of the block read 0 and set OVERRUN; gaps read 0 and set
ACCESS_ERR. -/
def Dev.readBurst (m : Memory) (st : Stall) (off n : Nat) (d : Dev) : List W32 × Dev :=
  (List.range n).foldl (fun (acc : List W32 × Dev) i =>
    let o := off + 4 * i
    match blockOf off with
    | none => (acc.1 ++ [0], acc.2.accessErr st)
    | some b =>
      if o > b.2 then (acc.1 ++ [0], acc.2.overrun st)
      else
        let r := acc.2.readWord m st o
        (acc.1 ++ [r.1], r.2)) ([], d)

/-- A burst through the DRAM window that meets an uncorrectable ECC error, a sown one or another: FS006 fires, and the words
are lost (R76). None: no such error. -/
def Dev.eccBurst (st : Stall) (off n : Nat) (eccBad : Bool) (d : Dev) : Option (List W32 × Dev) :=
  if !inDramWin off || n = 0 then none
  else if d.sownDram (d.winAddr st off) (4 * n) then
    some (lostWords (d.winAddr st off) n, d.withSown 6 0 6 (fun d => d.fire 6 .device))
  else if eccBad then some (lostWords (d.winAddr st off) n, d.fire 6 .device)
  else none

/-- A burst as a transport without a mark for poisoned data reads it. -/
def Dev.readChecked (m : Memory) (st : Stall) (off n : Nat) (eccBad : Bool) (d : Dev) : List W32 × Dev :=
  (d.eccBurst st off n eccBad).getD (d.readBurst m st off n)

/-- A read of BAR0; whole DWORDs (R75). -/
def Dev.regRead (m : Memory) (st : Stall) (off n : Nat) (d : Dev) : Dev :=
  let r := d.readBurst m st (off / 4 * 4) n
  r.2.answer r.1 false

/-- HOST_READ: n words of BAR0, or n bytes of DRAM through BAR2, which S0 alone has. An uncorrectable ECC error of DRAM
completes with poisoned data (R76). -/
def doHostRead (st : Stall) (dram : Bool) (addr n : Nat) (eccBad : Bool) (m : Memory) (d : Dev) : Dev :=
  let a := if dram then addr else d.winAddr st addr
  let sown := (dram || inDramWin addr) && d.sownDram a (if dram then n else 4 * n)
  if !d.present st || (dram && st != 0) then d
  else if sown then d.withSown 6 0 6 (fun d => (d.answer [] true).fire 6 .device)
  else if eccBad && (dram || inDramWin addr) then (d.answer [] true).fire 6 .device
  else if dram then
    d.answer (wordsOf (cdiv n 4) ((List.range n).map (fun i => if addr + i < 2 ^ 33 then Memory.byte m (addr + i) else 0))) false
  else d.regRead m st addr n

/-- LOW_WORD_READ and HIGH_WORD_READ: one word, with the latches of R83. -/
def doLowWordRead (st : Stall) (off : BitVec 24) (m : Memory) (d : Dev) : Dev :=
  if d.present st then d.regRead m st off.toNat 1 else d
def doHighWordRead (st : Stall) (off : BitVec 24) (m : Memory) (d : Dev) : Dev :=
  if d.present st then d.regRead m st off.toNat 1 else d
/-- NT_NS_READ: the nanoseconds of network time or of the last PPS_IN edge (11 R447). -/
def doNtNsRead (st : Stall) (pps : Bool) (m : Memory) (d : Dev) : Dev :=
  if d.present st then d.regRead m st (if pps then 0x100220 else 0x100210) 1 else d
/-- WIN_SEQ_READ. -/
def doWinSeqRead (st : Stall) (a : AxisNo) (m : Memory) (d : Dev) : Dev :=
  if d.present st then d.regRead m st (0x40000 + 0x1000 * a.val) 1 else d
/-- WINDOW_FREEZE_LAPSE: at the second frame boundary after the read that set it (R84). -/
def doWindowFreezeLapse (st : Stall) (a : AxisNo) (d : Dev) : Dev :=
  let w := d.hp.windows[a]
  let f := w.freeze[st].map (fun (f : Freeze) => { f with lapsed := f.lapsed || decide (f.frames ≥ 2) })
  { d with hp := { d.hp with windows := vset d.hp.windows a { w with freeze := vset w.freeze st f } } }

/-! ## Interrupt registers (R103, R104) -/

/-- A pending vector of S0 whose cause is not active any more is pending no longer (PRESUMED from the PCI Express Base
Specification, log entry 9). -/
def Dev.msixSettle (d : Dev) : Dev :=
  { d with hp := { d.hp with pcie := { d.hp.pcie with msixPending := d.hp.pcie.msixPending &&& (d.irqActive 0).setWidth 16 } } }

/-- IRQ_STATUS bits are written with 1. -/
def Dev.irqClear (st : Stall) (v : W32) (d : Dev) : Dev :=
  let d1 := d.modStall st (fun s => { s with irqStatus := s.irqStatus &&& ~~~(v.setWidth 11) })
  if st = 0 then d1.msixSettle else d1

/-- IRQ_ENABLE is written: a cause whose enabled value goes to 1 is delivered. -/
def Dev.irqEnableWrite (st : Stall) (v : W32) (d : Dev) : Dev :=
  let s := d.hp.stalls[st]
  let d1 := d.modStall st (fun s => { s with irqEnable := v.setWidth 11 })
  let rises := bitsOf 11 (s.irqStatus &&& v.setWidth 11 &&& ~~~s.irqEnable).toNat
  if st = 0 then rises.foldl (fun d k => d.msix k) d1.msixSettle
  else if d.irqActive st = 0 ∧ d1.irqActive st ≠ 0 then d1.irqTransport st else d1

/-- Pending vectors that are unmasked are sent, with MSI-X and bus mastering on. -/
def Dev.msixPump (d : Dev) : Dev :=
  let p := d.hp.pcie
  if !(d.present 0 && p.busMaster && p.msixEnable && !p.msixFuncMask) then d
  else
    let go := bitsOf 16 (p.msixPending &&& ~~~p.msixMask).toNat
    go.foldl (fun (d : Dev) k => d.emit (.msix k))
      { d with hp := { d.hp with pcie := { p with msixPending := p.msixPending &&& p.msixMask } } }

/-- The mask bit of a vector. -/
def Dev.msixMaskWrite (k : Fin 16) (masked : Bool) (d : Dev) : Dev :=
  let p := d.hp.pcie
  let bit := BitVec.ofNat 16 (2 ^ k.val)
  let mask := if masked then p.msixMask ||| bit else p.msixMask &&& ~~~bit
  ({ d with hp := { d.hp with pcie := { p with msixMask := mask } } }).msixPump

/-- INTERRUPT_REGISTER_WRITE; the MSI-X table is S0's alone. -/
def doInterruptRegisterWrite (st : Stall) (t : IrqTarget) (v : W32) (d : Dev) : Dev :=
  if !d.present st then d
  else match t with
    | .status => d.irqClear st v
    | .enable => d.irqEnableWrite st v
    | .msixMask k => if st = 0 then d.msixMaskWrite k (bitOf v 0) else d.accessErr st

/-! ## Writes (R70, R101, 10 R398 to R400) -/

/-- A write to a stall's own page. -/
def Dev.pageWrite (st : Stall) (o : Nat) (v : W32) (d : Dev) : Dev :=
  match o with
  | 0x00 => d.modStall st (fun s => { s with dbLost := s.dbLost && !bitOf v 4, accessErr := s.accessErr && !bitOf v 3,
                                             overrun := s.overrun && !bitOf v 2 })
  | 0x08 => d.ring_ st v
  | 0x10 => d.setRspRd st v
  | 0x14 => d.irqClear st v
  | 0x18 => d.irqEnableWrite st v
  | 0x1C =>
    let ms := fld v 15 0
    if ms = 0 ∨ ms > 60000 then d.accessErr st else d.modStall st (fun s => { s with mbxTimeout := BitVec.ofNat 16 ms })
  | 0x20 => d.modStall st (fun s => { s with dramWinBase := v.setWidth 8 })
  | 0x24 => if bitOf v 0 then d.startMbxReset st else d
  | _ => d

/-- The DMA cause when an enable makes DMA_IRQ AND DMA_IRQ_EN non-zero (10 R400). -/
def Dev.dmaIrqEnabled (ch : Fin 8) (old : BitVec 3) (d : Dev) : Dev :=
  let c := d.cap.dma[ch]
  if (c.irq &&& old) == 0 && (c.irq &&& c.irqEn) != 0 then d.setIrq c.stall irqDma else d

/-- A write to the page of a DMA channel: CLAIM of a free channel by anyone, the rest by the claimer. START of a chain in
host memory comes as DMA_START, which brings the descriptor's words. -/
def Dev.dmaWrite (m : Memory) (st : Stall) (ch : Fin 8) (o : Nat) (v : W32) (d : Dev) : Dev :=
  let claims := if o = 0 ∧ bitOf v 3 = true ∧ d.cap.dma[ch].claimed = false then doDmaClaim st ch d else d
  claims.dmaCtrl st ch fun d =>
    let c := d.cap.dma[ch]
    match o with
    | 0x00 =>
      let d1 := d.modDma ch (fun c => { c with skipBad := bitOf v 2 })
      let d2 := if bitOf v 0 && !c.desc.getLsbD 0 then doDmaStart st ch none m d1 else d1
      let d3 := if bitOf v 1 then doDmaAbort st ch d2 else d2
      if bitOf v 4 then doDmaRelease st ch d3 else d3
    | 0x04 => d.modDma ch (fun c => { c with fetchErr := c.fetchErr && !bitOf v 6 })
    | 0x08 => d.modDma ch (fun c => { c with desc := BitVec.ofNat 64 (u64 (v &&& 0xFFFFFFC1) (hiW c.desc.toNat)) })
    | 0x0C => d.modDma ch (fun c => { c with desc := BitVec.ofNat 64 (u64 (loW c.desc.toNat) v) })
    | 0x18 => d.modDma ch (fun c => { c with irq := c.irq &&& ~~~(v.setWidth 3) })
    | 0x1C => (d.modDma ch (fun c => { c with irqEn := v.setWidth 3 })).dmaIrqEnabled ch c.irqEn
    | _ => d
/-- A write to the capture block. -/
def Dev.capWrite (m : Memory) (st : Stall) (o : Nat) (v : W32) (d : Dev) : Dev :=
  if o < 0x800 then
    let u : Fin 8 := Fin.ofNat 8 (o / 0x100)
    if !d.claims u st then d.accessErr st
    else match o % 0x100 with
      | 0x00 => d.modUnit u (fun x => { x with ringLate := x.ringLate && !bitOf v 7, clamped := x.clamped && !bitOf v 6,
                                               ringSkip := x.ringSkip && !bitOf v 5 })
      | 0x04 => if bitOf v 0 then doCapCtrlForce st u m d else d
      | 0x08 => doCapDoneRelease st u v d
      | _ => d
  else if 0xA00 ≤ o ∧ o < 0xAC0 ∧ d.isOwner st = true then
    (if bitOf v 10 then { d with cap := { d.cap with legs := vmod d.cap.legs (lg ((o - 0xA00) / 4)) (fun x => { x with held := false }) } }
     else d)
  else d.accessErr st

/-- Bytes written by a host to DRAM from an address on: those in the host-writable region land, the others are ignored
with ACCESS_ERR (R70, 10 R371). -/
def Dev.dramStore (st : Stall) (a : Nat) (bs : List Byte) (d : Dev) : Dev :=
  let lo := max a 0x40000000
  let hi := min (a + bs.length) 0x80000000
  let d1 := if lo < hi then d.put lo ((bs.drop (lo - a)).take (hi - lo)) else d
  if a < 0x40000000 ∨ a + bs.length > 0x80000000 then d1.accessErr st else d1

/-- One word written by a stall at an offset inside a block. -/
def Dev.writeWord (m : Memory) (st : Stall) (off : Nat) (v : W32) (d : Dev) : Dev :=
  if 0x20 ≤ off ∧ off < 0x30 then
    { d with hp := { d.hp with scratch := vset d.hp.scratch (Fin.ofNat 4 ((off - 0x20) / 4)) v } }
  else if 0x800 ≤ off ∧ off < 0x904 ∧ st = 0 then
    (if off ≥ 0x900 then d
     else if off % 16 = 12 then d.msixMaskWrite (Fin.ofNat 16 ((off - 0x800) / 16)) (bitOf v 0)
     else { d with hp := { d.hp with pcie := { d.hp.pcie with
              msixTable := Mem.write 0 d.hp.pcie.msixTable ((off - 0x800) / 4) v } } })
  else if 0x1000 + 0x100 * st.val ≤ off ∧ off < 0x1100 + 0x100 * st.val then d.pageWrite st (off % 0x100) v
  else if 0x10000 + 0x2000 * st.val ≤ off ∧ off < 0x11000 + 0x2000 * st.val then
    d.modStall st (fun s => { s with cmdArea := Mem.write 0 s.cmdArea (off % 0x1000 / 4) v })
  else if 0x200000 ≤ off ∧ off < 0x200800 then
    d.dmaWrite m st (Fin.ofNat 8 ((off - 0x200000) / 0x100)) (off % 0x100) v
  else if 0x300000 ≤ off ∧ off < 0x400000 then d.capWrite m st (off - 0x300000) v
  else if inDramWin off then d.dramStore st (d.winAddr st off) (wordBytes v)
  else d.accessErr st

/-- Words written from an offset on (R71, R72): past the end of the block they are ignored and set OVERRUN, in a gap
ACCESS_ERR. -/
def Dev.writeBurst (m : Memory) (st : Stall) (off : Nat) (ws : List W32) (d : Dev) : Dev :=
  match blockOf off with
  | none => if ws.isEmpty then d else d.accessErr st
  | some b => (ws.zipIdx).foldl (fun d wi =>
      if off + 4 * wi.2 > b.2 then d.overrun st else d.writeWord m st (off + 4 * wi.2) wi.1) d

/-- REGISTER_WRITE: DWORD-aligned with all byte enables, or ignored (R75). -/
def doRegisterWrite (st : Stall) (off : BitVec 26) (ws : List W32) (be : BitVec 4) (m : Memory) (d : Dev) : Dev :=
  if !d.present st then d
  else if be != 0xF || off.toNat % 4 != 0 then d.accessErr st
  else d.writeBurst m st off.toNat ws

/-- DRAM_WRITE: through BAR2, which S0 alone has, at a DRAM address, with any size and alignment; or through the DRAM window
at a BAR0 offset, whole words. -/
def doDramWrite (st : Stall) (viaWindow : Bool) (addr : Nat) (bs : List Byte) (d : Dev) : Dev :=
  if !d.present st then d
  else if viaWindow then
    (if !inDramWin addr || addr % 4 != 0 || bs.length % 4 != 0 then d.accessErr st
     else
       let fit := bs.take (0x4000000 - addr)
       let d1 := d.dramStore st (d.winAddr st addr) fit
       if fit.length < bs.length then d1.overrun st else d1)
  else if st = 0 then d.dramStore st addr bs
  else d

/-! ## The endpoint (R69, R76, R104) -/

/-- POISONED_WRITE_TLP: dropped, and reported through Advanced Error Reporting. -/
def doPoisonedWriteTlp (d : Dev) : Dev := if d.present 0 then d.emit .aer else d
/-- UNSUPPORTED_REQUEST: a request to an unimplemented BAR. -/
def doUnsupportedRequest (d : Dev) : Dev := if d.present 0 then d.emit .unsupported else d

/-- What follows a change of the endpoint's state: S0 goes away, or becomes present, when every enabled cause counts as
going from 0 to 1; pending messages go out. -/
def Dev.s0Changed (was : Bool) (d : Dev) : Dev :=
  let is := d.present 0
  let d1 := if was && !is then d.stallGone 0
    else if is && !was then (bitsOf 11 (d.irqActive 0).toNat).foldl (fun d k => d.msix k) d else d
  d1.msixPump

/-- PCIE_LINK_CHANGE: no link comes up before training may begin (01 R28). -/
def doPcieLinkChange (linkUp busMaster memSpace msixEn funcMask : Bool) (d : Dev) : Dev :=
  let link := linkUp && d.pw.pcie != PcieLink.down
  let p := d.pw
  ({ d with pw := { p with pcie := if p.pcie == PcieLink.down then PcieLink.down else if link then PcieLink.up else PcieLink.training },
            hp := { d.hp with pcie := { d.hp.pcie with
              linkUp := link, busMaster := busMaster, memSpace := memSpace, msixEnable := msixEn, msixFuncMask := funcMask } } }).s0Changed (d.present 0)

/-- BUS_MASTER_ENABLE. -/
def doBusMasterEnable (d : Dev) : Dev :=
  ({ d with hp := { d.hp with pcie := { d.hp.pcie with busMaster := true } } }).s0Changed (d.present 0)

/-- DEBUG_ACCESS_SELECT: S7 is present while the instruction is selected (R69). -/
def doDebugAccessSelect (sel : Bool) (d : Dev) : Dev :=
  let d1 := { d with hp := { d.hp with debugSel := sel } }
  if d.hp.debugSel && !sel then d1.stallGone 7 else d1

/-! ## The SPI host port (R77 to R80) -/

/-- SPI_STATUS. -/
def Dev.spiStatus (d : Dev) : W32 :=
  let p := d.hp.spi
  let s := d.hp.stalls[(1 : Stall)]
  mkw [(0b1010, 28, 4), (p.prevGood.toNat, 16, 8), (b2n p.prevUnderrun, 7, 1), (b2n p.prevAccessErr, 6, 1), (b2n s.overrun, 5, 1),
    (b2n (d.irqActive 1 != 0), 4, 1), (b2n (d.isOwner 1), 3, 1), (b2n (rspUsed s != 0), 2, 1), (b2n d.hp.devReady, 1, 1)]

/-- Did an access of a frame break a rule? Asked of the device with both bits clear. -/
def Dev.breaks (f : Dev → Dev) (d : Dev) : Bool :=
  let e := f (d.modStall 1 (fun s => { s with accessErr := false, overrun := false }))
  e.hp.stalls[(1 : Stall)].accessErr || e.hp.stalls[(1 : Stall)].overrun

/-- SPI_FRAME: the header, the words that follow it whole on SPH_SDI, the bits of a last word begun, how many read words of
the DRAM window were ready, and whether they met an uncorrectable error. Words that the host clocks beyond the last are
sent as zeros (R78). PREV_GOOD of a read frame that ends inside a word without an underrun counts the words clocked whole
(DESIGN CHOICE, log entry 112). -/
def doSpiFrame (header : W32) (headerBits : Nat) (mosi : List W32) (tailBits ready : Nat) (eccBad : Bool) (m : Memory) (d : Dev) : Dev :=
  let clocked := mosi.length + (if tailBits = 0 then 0 else 1)
  let sent (ws : List W32) (good : Nat) (under : Bool) (f : Dev → Dev) (e : Dev) : Dev :=
    let data := (ws ++ List.replicate (clocked - ws.length) 0).take clocked
    { e with hp := { e.hp with spi := ⟨BitVec.ofNat 8 good, under, d.breaks f, d.spiStatus :: data⟩ } }
  let off := 4 * fld header 23 0
  let cnt := fld header 30 24 + 1
  if !d.hp.sphUp || headerBits < 32 then d
  else if bitOf header 31 then
    let begun := min cnt (clocked - 1)
    let whole := min cnt (mosi.length - 1)
    let r := d.readChecked m 1 off begun eccBad
    let under := inDramWin off && decide (ready < begun)
    let last := if ready = 0 then 0 else wd r.1 (ready - 1)
    let ws := if under then r.1.take ready ++ List.replicate (begun - ready) last else r.1
    sent (0 :: ws) (if under then min ready whole else whole) under (fun e => (e.readChecked m 1 off begun eccBad).2) (r.2.answer ws false)
  else
    let ws := mosi.take cnt
    sent [] ws.length false (fun e => e.writeBurst m 1 off ws) (d.writeBurst m 1 off ws)

/-- Does an access through BAR2 reach DRAM that does not exist (10 R371)? -/
def State.noDram (s : State) (st : Stall) (bar2 : Bool) (addr n : Nat) : Bool :=
  bar2 && st == 0 && s.dev.present 0 && decide (addr + n > 2 ^ 33)

/-! ## Meanings -/

/-- REGISTER_WRITE. -/
def execRegisterWrite (st : Stall) (offset : BitVec 26) (data : List W32) (be : BitVec 4) (s : State) : Host.Outcome State Fault Refusal :=
  .next (s.onMem (doRegisterWrite st offset data be))
/-- DRAM_WRITE. -/
def execDramWrite (st : Stall) (viaWindow : Bool) (addr : Nat) (bytes : List Byte) (s : State) :
    Host.Outcome State Fault Refusal :=
  if s.noDram st (!viaWindow) addr bytes.length then .fault .noDram
  else .next (s.on (doDramWrite st viaWindow addr bytes))
/-- POISONED_WRITE_TLP. -/
def execPoisonedWriteTlp (s : State) : Host.Outcome State Fault Refusal := .next (s.on doPoisonedWriteTlp)
/-- UNSUPPORTED_REQUEST. -/
def execUnsupportedRequest (s : State) : Host.Outcome State Fault Refusal := .next (s.on doUnsupportedRequest)
/-- PCIE_LINK_CHANGE. -/
def execPcieLinkChange (linkUp : Bool) (busMaster : Bool) (memSpace : Bool) (msix : MsixControl) (s : State) : Host.Outcome State Fault Refusal :=
  .next (s.on (doPcieLinkChange linkUp busMaster memSpace msix.en msix.funcMask))
/-- BUS_MASTER_ENABLE. -/
def execBusMasterEnable (s : State) : Host.Outcome State Fault Refusal := .next (s.on doBusMasterEnable)
/-- DEBUG_ACCESS_SELECT. -/
def execDebugAccessSelect (sel : Bool) (s : State) : Host.Outcome State Fault Refusal :=
  .next (s.on (doDebugAccessSelect sel))
/-- SPI_FRAME. -/
def execSpiFrame (header : W32) (headerBits : Nat) (mosi : List W32) (tailBits : Nat) (ready : EccRead Nat) (s : State) : Host.Outcome State Fault Refusal :=
  .next (s.onMem (doSpiFrame header headerBits mosi tailBits ready.val ready.eccBad))
/-- LOW_WORD_READ. -/
def execLowWordRead (st : Stall) (offset : BitVec 24) (s : State) : Host.Outcome State Fault Refusal :=
  .next (s.onMem (doLowWordRead st offset))
/-- HIGH_WORD_READ. -/
def execHighWordRead (st : Stall) (offset : BitVec 24) (s : State) : Host.Outcome State Fault Refusal :=
  .next (s.onMem (doHighWordRead st offset))
/-- NT_NS_READ. -/
def execNtNsRead (st : Stall) (pps : Bool) (s : State) : Host.Outcome State Fault Refusal :=
  .next (s.onMem (doNtNsRead st pps))
/-- WIN_SEQ_READ. -/
def execWinSeqRead (st : Stall) (axis : AxisNo) (s : State) : Host.Outcome State Fault Refusal :=
  .next (s.onMem (doWinSeqRead st axis))
/-- WINDOW_FREEZE_LAPSE. -/
def execWindowFreezeLapse (st : Stall) (axis : AxisNo) (s : State) : Host.Outcome State Fault Refusal :=
  .next (s.on (doWindowFreezeLapse st axis))
/-- HOST_READ. -/
def execHostRead (st : Stall) (dram : Bool) (addr count : Nat) (eccBad : Bool) (s : State) :
    Host.Outcome State Fault Refusal :=
  if s.noDram st dram addr count then .fault .noDram
  else .next (s.onMem (doHostRead st dram addr count eccBad))
/-- INTERRUPT_REGISTER_WRITE. -/
def execInterruptRegisterWrite (st : Stall) (target : IrqTarget) (value : W32) (s : State) : Host.Outcome State Fault Refusal :=
  .next (s.on (doInterruptRegisterWrite st target value))

end Sys2Proof.Machine
end

