-- ==== Sys2Proof/Machine/Gateway.lean ====
section
/-! DEFINITION. Requests of the CAN gateway's master: stall S6 (spec 12 R473, R474). A command carries the 16 words of one
frame. -/
namespace Sys2Proof.Machine
open Sys2Proof

/-- Change the gateway. -/
def Dev.modGw (f : Gateway → Gateway) (d : Dev) : Dev := { d with can := { d.can with gw := f d.can.gw } }

/-- OP, FIRST, LAST, SEQ and the data words of a gateway frame. -/
def gwOp (ws : List W32) : Nat := fld (wd ws 0) 9 8
def gwFirst (ws : List W32) : Bool := bitOf (wd ws 0) 4
def gwLast (ws : List W32) : Bool := bitOf (wd ws 0) 5
def gwSeq (ws : List W32) : BitVec 4 := BitVec.ofNat 4 (fld (wd ws 0) 3 0)
def gwData (ws : List W32) : List W32 := (ws.drop 1).take (fld (wd ws 0) 19 16)

/-- An ERROR frame whose word 1 holds the expected SEQ. -/
def Dev.gwError (d : Dev) : Dev := (d.gwQueue 3 [nW d.can.gw.rxSeq.toNat] false false).gwPump

/-- A frame out of sequence: the partial request is discarded, GW_SEQ_ERR, FS127 and an ERROR frame. -/
def Dev.gwOutOfSeq (d : Dev) : Dev :=
  match d.can.gw.ctrl with
  | none => d
  | some k => (((d.modGw (fun g => { g with part := none })).canEvent k evGwSeq).fire 127 .device).gwError

/-- A frame of a request arrives: f acts on the data words of the whole request. -/
def Dev.gwFrame (ws : List W32) (f : List W32 → Dev → Dev) (d : Dev) : Dev :=
  let g := d.can.gw
  let op := BitVec.ofNat 2 (gwOp ws)
  let next (p : Option (BitVec 2 × List W32)) (d : Dev) : Dev := d.modGw (fun g => { g with part := p, rxSeq := gwSeq ws + 1 })
  let take (data : List W32) : Dev := if gwLast ws then f data (next none d) else next (some (op, data)) d
  if g.ctrl.isNone then d
  else if gwFirst ws then take (gwData ws)
  else match g.part with
    | some p => if gwSeq ws == g.rxSeq && p.1 == op then take (p.2 ++ gwData ws) else d.gwOutOfSeq
    | none => d.gwOutOfSeq

/-- GW_COMMAND: the command header of Table 3.7 and the payload; its doorbell is the arrival of the LAST frame. A frame with
the reserved OP is answered with ERROR (R473). -/
def doGwCommand (ws : List W32) (d : Dev) : Dev :=
  if d.can.gw.ctrl.isNone then d
  else if gwOp ws = 3 then d.gwError
  else if gwOp ws ≠ 0 then d
  else d.gwFrame ws fun data d => (d.deliver 6 (wd data 0) (data.drop 1)).gwPump

/-- GW_READ: up to 15 words from a word address, read as S6 and answered by one READ_DATA frame. -/
def doGwRead (ws : List W32) (eccBad : Bool) (m : Memory) (d : Dev) : Dev :=
  if gwOp ws ≠ 1 then d
  else d.gwFrame ws fun data d =>
    let w := wd data 0
    let r := d.readChecked m 6 (4 * fld w 23 0) (min 15 (fld w 27 24 + 1)) eccBad
    ((r.2.answer r.1 false).gwQueue 1 r.1 false false).gwPump

/-- GW_IRQ_CLEAR: a single frame; its words are written to S6's IRQ_STATUS and STALL_STATUS. -/
def doGwIrqClear (ws : List W32) (d : Dev) : Dev :=
  if gwOp ws ≠ 2 then d
  else if d.can.gw.ctrl.isSome && !(gwFirst ws && gwLast ws) then d.gwOutOfSeq
  else d.gwFrame ws fun data d => ((d.irqClear 6 (wd data 0)).pageWrite 6 0 (wd data 1)).gwPump

/-! ## Meanings -/

/-- GW_COMMAND. -/
def execGwCommand (words : List W32) (s : State) : Host.Outcome State Fault Refusal := .next (s.on (doGwCommand words))
/-- GW_READ. -/
def execGwRead (words : EccRead (List W32)) (s : State) : Host.Outcome State Fault Refusal :=
  .next (s.onMem (doGwRead words.val words.eccBad))
/-- GW_IRQ_CLEAR. -/
def execGwIrqClear (words : List W32) (s : State) : Host.Outcome State Fault Refusal := .next (s.on (doGwIrqClear words))

end Sys2Proof.Machine
end

