-- ==== Sys2Proof/Machine/SafetyCmd.lean ====
section
/-! DEFINITION. Safety commands, commissioning, the safety layer (spec 15 R592, R595 to R612), and the meanings of the
safety commands. -/
namespace Sys2Proof.Machine
open Sys2Proof

/-! ## SafetyAck (R592, R609) -/

/-- Does a cause of a lock-out persist: a pair that disagrees or missed its last test pulse, an OSSD output that still fails its readback, a monitor
whose channels differ or cannot measure, a channel that does not run or a die without STO_FB, an invalid set? -/
def Dev.causePersists (d : Dev) (u : Nat) : Bool :=
  let s := d.sf
  if u < 8 then pairDisagrees s.chA u || pairDisagrees s.chB u || s.pairs[Fin.ofNat 8 u].missNow != 0
  else if u < 12 then
    let o0 := s.ossd[Fin.ofNat 8 (2 * (u - 8))]
    let o1 := s.ossd[Fin.ofNat 8 (2 * (u - 8) + 1)]
    (o0.failed && o0.read) || (o1.failed && o1.read)
  else if u < 20 then
    let x := s.sls[Fin.ofNat 8 (u - 12)]
    x.discSince.isSome || x.unmeasSince.isSome
  else if u = unitDevice then
    !s.chA.run || !s.chB.run || (d.stoActive 0 && !d.gates[0].fb) || (d.stoActive 1 && !d.gates[1].fb)
  else !s.paramValid || paramCrcOf s.chA.params != s.paramCrc || paramCrcOf s.chB.params != s.paramCrc

/-- The units of a lock-out are checked afresh after it, and the VSAFE feed closes (log entry 33). -/
def Safety.cleared (s : Safety) : Safety :=
  { s with lockout := 0, degEnded := 0, vsafeOpen := false,
           pairs := Vector.ofFn (fun p : Fin 8 =>
             if s.lockout.getLsbD p.val then { s.pairs[p] with discFault := false, miss := 0 } else s.pairs[p]),
           ossd := Vector.ofFn (fun i : Fin 8 =>
             if s.lockout.getLsbD (8 + i.val / 2) then { s.ossd[i] with failed := false, marked := false } else s.ossd[i]),
           sls := Vector.ofFn (fun k : Fin 8 =>
             if s.lockout.getLsbD (12 + k.val) then { s.sls[k] with discFault := false } else s.sls[k]) }

/-- Each safety command of the owner restarts the idle time of an open commissioning (R603). -/
def Dev.touch (d : Dev) : Dev := d.modSafe (fun s => { s with commClk := d.clk })

/-- SafetyAck (0xA00). -/
def doSafetyAck (st : Stall) (tag : BitVec 8) : Dev → Dev :=
  Dev.start st tag 0xA00 fun c d =>
    let s := d.sf
    let persists := (List.range 22).any (fun u => s.lockout.getLsbD u && d.causePersists u)
    Dev.checked c 1
      [(s.lockout != 0 && (!s.armed || persists || s.lockout == unitBit unitParam), stSafetyLock),
       (s.lockout == 0, stState), (badLen c 0, stParam)]
      (fun d =>
        let d1 := d.modSafe Safety.cleared
        ((d1.stoEdge 0 (d.stoActive 0)).stoEdge 1 (d.stoActive 1)).ok c []) d.touch

/-! ## The checks of VERIFY (R604) -/

/-- Reserved bits of a word of the set; every bit of an unlisted word. -/
def setMask (i : Nat) : Nat :=
  if i = 0 then 0
  else if i = 1 then 0xFF00FC00
  else if i = 2 then 0xF000FC00
  else if i = 3 then 0xFFFFE000
  else if i < 12 then 0xF0008880
  else if i < 18 then 0
  else if i < 20 then 0x0000FFFE
  else if i < 44 then 0xFFFF0000
  else if i < 76 then (if i % 4 = 0 then 0xC0E0E008 else if i % 4 = 3 then 0x0000F000 else 0)
  else if i < 80 then 0xFFFFFFFF
  else if i < 336 then (if i % 4 = 0 then 0xFC000000 else if i % 4 = 3 then 0xC0000000 else 0)
  else 0xFFFFFFFF

/-- Permits in use: functions of a type, remote permits with EN. -/
def usedPermits (m : Mem W32) : W32 :=
  nW (maskOf ((List.range 32).filter (fun i => if i < 8 then ifType m i != 0 else bitOf (prm m (12 + i)) 15)))

/-- Reason 2: an input function breaks Table 15.1 or R574. -/
def functionBad (m : Mem W32) (p : Nat) : Bool :=
  let w := ifWord m p
  let t0 := fld w 10 8
  let t1 := fld w 14 12
  let ty := fld w 2 0
  ((t0 == 7) != (t1 == 7)) || (t0 == t1 && t0 != 7) || (ty == 1 && (!bitOf w 3 || t0 == 7)) || (ty == 4 && t0 != 7) ||
    (ty != 2 && bitOf w 6) ||
    (ty == 3 && (bitOf w 3 || ifType m (if p % 2 = 0 then p + 1 else p - 1) != 3))

/-- A ring transport, and the CAN controller's key of an identifier. -/
def connKey (m : Mem W32) (c : Nat) : Nat × Nat := (fld (connWord m c 0) 3 2, fld (connWord m c 3) 29 0)

/-- The reasons found at word i of a set, by number; 0 where the word is good. -/
def wordReason (m : Mem W32) (i : Nat) : Nat :=
  let w := prm m i
  let used := usedPermits m
  let pick (r1 r2 r3 r4 r5 : Bool) : Nat := if r1 then 1 else if r2 then 2 else if r3 then 3 else if r4 then 4 else if r5 then 5 else 0
  let res := rsv w (setMask i)
  if i = 0 then pick (res || fld w 31 16 != 1) false false false false
  else if i = 1 then pick (res || outside 10 1000 (fld w 9 0) || outside 20 80 (fld w 23 16)) false false false false
  else if i = 2 then pick (res || outside 10 1000 (fld w 9 0) || outside 10 80 (fld w 23 16)) false false false false
  else if i = 3 then pick (res || outside 1 6000 (fld w 12 0)) false false false false
  else if i < 12 then
    let ty := fld w 2 0
    if ty = 0 then pick res false false false false
    else
      let tpBad (t : Nat) : Bool := 3 < t && t < 7
      pick (res || ty > 4 || outside 10 4000 (fld w 27 16) || tpBad (fld w 10 8) || tpBad (fld w 14 12)) (functionBad m (i - 4))
        false false false
  else if i < 18 then pick res false ((w &&& ~~~used) != 0) false false
  else if i < 20 then pick (res || (bitOf w 0 && outside 10 60000 (fld w 31 16))) false false false false
  else if i < 44 then
    let cw := connWord m (fld w 5 0) 0
    pick (res || (bitOf w 15 && bitOf cw 0 && fld w 10 6 ≥ fld cw 9 4)) false false false
      (bitOf w 15 && (!bitOf cw 0 || bitOf cw 1))
  else if i < 76 then
    let en := slsEn m ((i - 44) / 4)
    let j := i % 4
    let act := fld w 29 24
    pick (res || (en && ((j == 0 && 31 < act && act < 63) || (j == 1 && outside 1 100 (fld w 31 24)) ||
        (j == 2 && fld w 31 24 > 64) || (j == 3 && (outside 10 4000 (fld w 11 0) || fld w 31 16 > 60000))))) false false
      (en && ((j == 1 && fld w 23 0 == 0) || (j == 2 && (fld w 23 0 == 0 || fld w 31 24 == 0)))) false
  else if i < 80 then pick res false false false false
  else if i < 336 then
    let c := (i - 80) / 4
    let j := i % 4
    let w0 := connWord m c 0
    let en := bitOf w0 0
    let ring := fld w0 3 2 == 0
    let before := (List.range c).filter (fun k => bitOf (connWord m k 0) 0)
    pick (res || (en && ((j == 0 && (fld w0 3 2 == 3 || outside 1 32 (fld w0 9 4))) ||
        (j == 2 && (outside 1 1000 (fld w 15 0) ||
          (if !ring && bitOf w0 1 then outside 1 1000 (fld w 31 16) else fld w 31 16 != 0))) ||
        (j == 3 && ((ring && w != 0) || (!ring && !bitOf w 29 && fld w 28 0 > 0x7FF)))))) false false false
      (en && ((j == 0 && ring && !bitOf w0 1 && fld w0 25 16 == 0) ||
        (j == 1 && (w == 0 || before.any (fun k => connWord m k 1 == w))) ||
        (j == 3 && !ring && (fld w 28 0 == 0 || before.any (fun k => fld (connWord m k 0) 3 2 != 0 && connKey m k == connKey m c)))))
  else pick res false false false false

/-- The first failing word of a set and its reason; none where it passes. -/
def verifySet (m : Mem W32) : Option (Nat × Nat) :=
  ((List.range 383).map (fun i => (i, wordReason m i))).find? (fun x => x.2 != 0)

/-! ## SafetyCommission (R603, R610) -/

/-- A CAN buffer that a set must reserve holds a pending frame. -/
def Dev.buffersTaken (d : Dev) (m : Mem W32) : Bool :=
  (List.finRange 2).any (fun k => (List.finRange 32).any (fun b =>
    let x := d.can.ctl[k].bufs[b]
    (reservedFor m k.val b.val).isSome && x.safety.isNone && (x.result == .pending || x.result == .onBus)))

/-- Do the producers of a set break the cycle rule (R420)? -/
def Dev.producersBreak (d : Dev) (m : Mem W32) : Bool :=
  d.breaksCycle (plannedBytes (masterCount d.mu.setMask d.mu.actMask) d.ringOutCount (safetyBytes m)
    d.ring.conf.acycBytes.toNat)

/-- A wrong access code is counted; the fifth in succession blocks OPEN (R605). -/
def Dev.wrongCode (d : Dev) : Dev :=
  d.modSafe (fun s => { s with wrongCodes := s.wrongCodes + 1, codeBlocked := s.codeBlocked || decide (s.wrongCodes + 1 ≥ 5),
                                 blockClk := if s.codeBlocked then s.blockClk else d.clk })

/-- OPEN: targets held off, the staging set a copy of the set in force or zeros. -/
def Dev.openCommission (d : Dev) : Dev :=
  (d.ossdAllOff.stoAll).modSafe (fun s =>
    { s with commissioning := true, commClk := d.clk, wrongCodes := 0,
             chA := { s.chA with staging := if s.paramValid then Mem.write 0 s.chA.params 383 0 else [] },
             chB := { s.chB with staging := if s.paramValid then Mem.write 0 s.chB.params 383 0 else [] } })

/-- BAD_WORD and REASON. -/
def badWords (r : Option (Nat × Nat)) : W32 :=
  match r with
  | some x => mkw [(x.1, 0, 9), (x.2, 12, 4)]
  | none => 0

/-- CRC_A, CRC_B, BAD_WORD and REASON of the staging set. -/
def Dev.verdict (d : Dev) : List W32 :=
  [paramCrcOf d.sf.chA.staging, paramCrcOf d.sf.chB.staging, badWords (verifySet d.sf.chB.staging)]

/-- Does the staging set fail its checks, or differ in CRC from the one confirmed? -/
def Dev.confirmFails (d : Dev) (crc : W32) : Bool :=
  (verifySet d.sf.chB.staging).isSome || crc != paramCrcOf d.sf.chA.staging || crc != paramCrcOf d.sf.chB.staging

/-- Do the producers or the buffers of the staging set hinder CONFIRM (RESOURCE)? -/
def Dev.confirmTaken (d : Dev) : Bool := d.producersBreak d.sf.chB.staging || d.buffersTaken d.sf.chB.staging

/-- VERIFY and CONFIRM: the checks, the CRCs, and the wait for SRESET. -/
def Dev.verifyOrConfirm (c : Cmd) (op : Nat) (d : Dev) : Dev :=
  if (verifySet d.sf.chB.staging).isSome || (op == 2 && d.confirmFails (wd c.payload 1)) then
    d.respond c.stall c.tag stParam d.verdict
  else if op = 1 then d.ok c d.verdict
  else
    (d.await c.stall c.tag .started).modSafe (fun s =>
      { s with confirm := some ⟨c.stall, c.tag, if bitOf (wd c.payload 0) 4 then some (wd c.payload 2) else none,
                                wd c.payload 1, d.clk⟩ })

/-- The set confirmed is stored in both channels and started as at power-up (Table 15.5, step 5). -/
def Dev.storeSet (newCode : Option W32) (d : Dev) : Dev :=
  let crc := paramCrcOf d.sf.chB.staging
  let set (c : SafeChan) : SafeChan := { c with params := Mem.write 0 c.staging 383 crc, staging := [] }
  (d.modSafe (fun s =>
    { s with chA := set s.chA, chB := set s.chB, paramValid := true, paramCrc := crc, paramCount := s.paramCount + 1,
             code := newCode.getD s.code, commissioning := false, confirm := none,
             lockout := if s.lockout == unitBit unitParam then 0 else s.lockout })).startSet

/-- The accepted pulse that a CONFIRM waits for: the set is checked as at CONFIRM once more (log entry 126) and stored. -/
def Dev.confirmed (w : ConfirmWait) (d : Dev) : Dev :=
  let d1 := d.modSafe (fun s => { s with confirm := none })
  if d.confirmTaken then d1.respondN w.stall w.tag stResource 4
  else if d.confirmFails w.crc then d1.respond w.stall w.tag stParam d.verdict
  else (d.storeSet w.newCode).respond w.stall w.tag stOk d.verdict

/-- An SRESET pulse of the given length ends (R576): accepted from 0.25 s to 3 s by channels that have started; the
release of a stuck input. -/
def doSresetAccept (ms : Nat) (d : Dev) : Dev :=
  if ms > 3000 then d.modSafe (fun s => { s with sresetStuck := false })
  else if ms < 250 || !d.sf.chA.started || !d.sf.chB.started then d
  else
    let d1 := d.modSafe (fun s => { s with resetA := true, resetB := true, armed := true, armedClk := d.clk })
    match d.sf.confirm with
    | some w => d1.confirmed w
    | none => d1

/-- SafetyCommission (0xA10). -/
def doSafetyCommission (st : Stall) (tag : BitVec 8) : Dev → Dev :=
  Dev.start st tag 0xA10 fun c d =>
    let s := d.sf
    let p := c.payload
    let w := wd p 0
    let op := fld w 1 0
    let form := badLen c 3 || rsv w 0xFFFFFFEC || (!bitOf w 4 && wd p 2 != 0) ||
      ((op == 1 || op == 3) && wd p 1 != 0)
    let open_ := op == 0 && !form
    let wrong := open_ && wd p 1 != s.code
    let d1 := if wrong && !s.codeBlocked && !s.commissioning then d.wrongCode else d
    Dev.checked c 4
      [(noWord c, stParam),
       (op == 2 && s.commissioning && !form && d.confirmTaken, stResource),
       (open_ && (wrong || s.codeBlocked), stSafetyLock),
       ((op == 0) == s.commissioning || (op == 2 && s.confirm.isSome), stState), (form, stParam)]
      (fun d =>
        match op with
        | 0 => (d.openCommission).ok c [0, 0, 0]
        | 3 => (d.abortCommission).ok c [0, 0, 0]
        | _ => d.verifyOrConfirm c op) d1.touch

/-- SafetyParamWrite (0xA11). -/
def doSafetyParamWrite (st : Stall) (tag : BitVec 8) : Dev → Dev :=
  Dev.start st tag 0xA11 fun c d =>
    let w := wd c.payload 0
    let ofs := fld w 8 0
    let n := fld w 24 16
    Dev.checked c 1
      [(!d.sf.commissioning, stState),
       (c.payload.length != 1 + n || rsv w 0xFE00FE00 || ofs + n > 383, stParam)]
      (fun d =>
        let put (x : SafeChan) : SafeChan := { x with staging := Mem.writes 0 x.staging ofs (c.payload.drop 1) }
        (d.modSafe (fun s => { s with chA := put s.chA, chB := put s.chB })).ok c []) d.touch

/-- SafetyParamRead (0xA12). -/
def doSafetyParamRead (st : Stall) (tag : BitVec 8) : Dev → Dev :=
  Dev.start st tag 0xA12 fun c d =>
    let w := wd c.payload 0
    let ofs := fld w 8 0
    let n := fld w 24 16
    let staging := bitOf w 31
    Dev.checked c 1
      [(noWord c, stParam), (staging && !d.sf.commissioning, stState), (badLen c 1 || rsv w 0x7E00FE00 || ofs + n > 384, stParam)]
      (fun d => d.ok c (Mem.reads 0 (if staging then d.sf.chB.staging else d.safeSet) ofs n)) d.touch

/-- The check of the stored set every 10 s (R605). -/
def doParamCrcCheck (d : Dev) : Dev := d.checkParams

/-- 30 minutes without a safety command (R603). -/
def doCommissionIdleTimeout (d : Dev) : Dev :=
  if d.sf.commissioning && d.clk ≥ d.sf.commClk + 1800000 * clksPerMs then d.abortCommission else d

/-- 60 s without an SRESET pulse (R610): commissioning stays open. -/
def doCommissionConfirmTimeout (d : Dev) : Dev :=
  match d.sf.confirm with
  | some c =>
    if d.past c.since (60000 * clksPerMs) then (d.modSafe (fun s => { s with confirm := none })).respondN c.stall c.tag stTimeout 4
    else d
  | none => d

/-- The block of OPEN ends after 10 minutes (R605). -/
def doCodeBlockExpiry (d : Dev) : Dev :=
  if d.sf.codeBlocked && d.past d.sf.blockClk (600000 * clksPerMs) then
    d.modSafe (fun s => { s with codeBlocked := false, wrongCodes := 0 })
  else d

/-! ## The safety layer (R595 to R601) -/

/-- CHECK of a telegram's bytes: CRC-32C over CONN_ID and the bytes before it (R596). -/
def telegramCheck (connId : W32) (bs : List Byte) : W32 := crc32c (beBytes 4 connId.toNat ++ bs)

/-- The transmit data of a producer (R601). -/
def Dev.txData (d : Dev) (len : Nat) : List Byte :=
  let s := d.sf
  let sto (z : Fin 2) : Bool := s.chA.zones[z].sto || s.chB.zones[z].sto
  (beBytes 4 (permitsAfter s s.chA.permits).toNat ++ beBytes 2 (s.chA.sin &&& s.chB.sin).toNat ++
    [BitVec.ofNat 8 (maskOf ((List.range 4).filter (fun n => s.ossdOn n))),
     BitVec.ofNat 8 (b2n (sto 0) + 2 * b2n (sto 1) + 4 * b2n (s.lockout != 0) + 8 * b2n ((s.degraded ||| s.degEnding) != 0))] ++
    List.replicate 24 0).take len

/-- The telegram of a producing connection with its present SEQ (R596). -/
def Dev.telegram (d : Dev) (i : Fin 64) : List Byte :=
  let w := connWord d.safeSet i.val 0
  let len := fld w 9 4
  let head := [BitVec.ofNat 8 i.val, BitVec.ofNat 8 len] ++ beBytes 2 d.sf.conns[i].lastSeq.toNat ++
    beBytes 2 (fld (connWord d.safeSet i.val 2) 15 0) ++ [0, 0] ++ d.txData len
  head ++ beBytes 4 (telegramCheck (connWord d.safeSet i.val 1) head).toNat

/-- SEQ of a producer goes up by one (R597). -/
def Dev.nextSeq (i : Fin 64) (d : Dev) : Dev :=
  d.modSafe (fun s => { s with conns := vmod s.conns i (fun c => { c with lastSeq := c.lastSeq + 1 }) })

/-- Does the transport of a connection bring its telegrams (R600, 12 R472, 11 R422)? -/
def Dev.connCarried (d : Dev) (i : Fin 64) : Bool :=
  let w := connWord d.safeSet i.val 0
  let tr := fld w 3 2
  if tr = 0 then
    d.ring.fn != .off && (match Mem.read none d.ring.nodes (fld w 25 16) with
      | some n => n.hdr.tickClks == d.tk.conf.tickClks && n.hdr.cycleTicks.toNat == d.cycleTicks
      | none => true)
  else
    let c := d.can.ctl[Fin.ofNat 2 (tr - 1)]
    (c.state == .active || c.state == .passive) && c.mode == 0 && c.fdEn

/-- A rejected telegram is counted, and FS175 fires (R598). -/
def Dev.rejectTelegram (i : Fin 64) (d : Dev) : Dev :=
  (d.modSafe (fun s => { s with conns := vmod s.conns i (fun c =>
    { c with rejects := BitVec.ofNat 8 (satU 8 (c.rejects.toNat + 1)) }) })).fire 175 .device

/-- A telegram arrived for a consuming connection (R598). -/
def doSafetyTelegram (i : Fin 64) (bs : List Byte) (d : Dev) : Dev :=
  let m := d.safeSet
  let w := connWord m i.val 0
  let x := d.sf.conns[i]
  if !bitOf w 0 || bitOf w 1 || !d.connCarried i || x.state == .off || !d.sf.chA.run || !d.sf.chB.run then d
  else
    let len := fld w 9 4
    let slot := if fld w 3 2 = 0 then fld w 15 10 else i.val
    let body := bs.take (8 + len)
    let good := bs.length ≥ 12 + len && (bs.getD 0 0).toNat == slot && (bs.getD 1 0).toNat == len &&
      beNat ((bs.drop 4).take 2) == fld (connWord m i.val 2) 15 0 &&
      beNat ((bs.drop (8 + len)).take 4) == (telegramCheck (connWord m i.val 1) body).toNat
    let seq := BitVec.ofNat 16 (beNat ((bs.drop 2).take 2))
    let dd := (seq - x.lastSeq).toNat
    let data := (bs.drop 8).take len
    if !good then d.rejectTelegram i
    else if !x.refSet then d.modSafe (fun s => { s with conns := vmod s.conns i (fun c => { c with refSet := true, lastSeq := seq }) })
    else if dd = 0 then d
    else if dd ≤ 1000 then
      d.modSafe (fun s => { s with conns := vmod s.conns i (fun c =>
        { c with state := .valid, lastSeq := seq, age := 0, data := data }) })
    else d.rejectTelegram i

/-- The smallest FD frame length that holds n bytes. -/
def fdLength (n : Nat) : Nat := ([8, 12, 16, 20, 24, 32, 48, 64].find? (fun l => n ≤ l)).getD 64

/-- The frame that carries the telegram of a CAN producer on controller k (12 R472). -/
def Dev.telegramTx (d : Dev) (i : Fin 64) (k : Fin 2) : CanTx :=
  let bs := d.telegram i
  let idw := connWord d.safeSet i.val 3
  let send := fld (connWord d.safeSet i.val 2) 31 16
  ⟨{ ide := bitOf idw 29, id := BitVec.ofNat 29 (fld idw 28 0), fdf := true, brs := d.can.ctl[k].brsEn, esi := false,
     remote := false, data := bs ++ List.replicate (fdLength bs.length - bs.length) 0 },
   false, false, 0, 0, some (d.clk + send * clksPerMs)⟩

/-- A producer's telegram is due on CAN, and whether the channels' CHECK values agree; the ring carries its telegrams in
the cycle frames (R597, R600). -/
def doSafetyTelegramSend (i : Fin 64) (agree : Bool) (d : Dev) : Dev :=
  let w := connWord d.safeSet i.val 0
  if !bitOf w 0 || !bitOf w 1 || !d.sf.chA.run || !d.sf.chB.run then d
  else if !agree then (d.fire 170 .device).functionFault unitDevice
  else if fld w 3 2 = 0 || !d.connCarried i then d
  else
    let k : Fin 2 := Fin.ofNat 2 (fld w 3 2 - 1)
    let d1 := d.nextSeq i
    match (List.finRange 32).find? (fun b => d.can.ctl[k].bufs[b].safety == some i) with
    | some b => (d1.bufSend k b (d1.telegramTx i k)).canKick k
    | none => d

/-- No telegram accepted for TEXP_MS (R599): the check cycle of the expiry, in which one would count, is over (02 R64). -/
def doConnTimeout (i : Fin 64) (d : Dev) : Dev :=
  let x := d.sf.conns[i]
  if x.state == .valid && !bitOf (connWord d.safeSet i.val 0) 1 && x.age > 4 * fld (connWord d.safeSet i.val 2) 15 0 then
    (d.modSafe (fun s => { s with conns := vmod s.conns i (fun c =>
      { c with state := .timedOut, data := [], refSet := false,
               timeouts := BitVec.ofNat 16 (satU 16 (c.timeouts.toNat + 1)) }) })).fire 174 .device
  else d

/-! ## Meanings -/

/-- SAFETY_ACK. -/
def execSafetyAck (st : Stall) (tag : BitVec 8) (s : State) : Host.Outcome State Fault Refusal :=
  .next (s.on (doSafetyAck st tag))
/-- SAFETY_COMMISSION. -/
def execSafetyCommission (st : Stall) (tag : BitVec 8) (s : State) : Host.Outcome State Fault Refusal :=
  .next (s.on (doSafetyCommission st tag))
/-- SAFETY_PARAM_WRITE. -/
def execSafetyParamWrite (st : Stall) (tag : BitVec 8) (s : State) : Host.Outcome State Fault Refusal :=
  .next (s.on (doSafetyParamWrite st tag))
/-- SAFETY_PARAM_READ. -/
def execSafetyParamRead (st : Stall) (tag : BitVec 8) (s : State) : Host.Outcome State Fault Refusal :=
  .next (s.on (doSafetyParamRead st tag))
/-- CHANNEL_B_START. -/
def execChannelBStart (s : State) : Host.Outcome State Fault Refusal := .next (s.on doChannelBStart)
/-- SAFETY_CHECK_CYCLE. -/
def execSafetyCheckCycle (chB : Bool) (inp : CheckInputs) (s : State) : Host.Outcome State Fault Refusal :=
  .next (s.on (doSafetyCheckCycle chB inp))
/-- SAFETY_INPUT_ACCEPT. -/
def execSafetyInputAccept (chB : Bool) (n : Fin 16) (level : Bool) (s : State) : Host.Outcome State Fault Refusal :=
  .next (s.on (doSafetyInputAccept chB n level))
/-- TEST_PULSE_START. -/
def execTestPulseStart (n : Fin 4) (s : State) : Host.Outcome State Fault Refusal := .next (s.on (doTestPulseStart n))
/-- TEST_PULSE_END. -/
def execTestPulseEnd (n : Fin 4) (seenOff : BitVec 16) (s : State) : Host.Outcome State Fault Refusal :=
  .next (s.on (doTestPulseEnd n seenOff))
/-- INPUT_DISCREPANCY. -/
def execInputDiscrepancy (pair : Fin 8) (s : State) : Host.Outcome State Fault Refusal :=
  .next (s.on (doInputDiscrepancy pair))
/-- SRESET_ACCEPT. -/
def execSresetAccept (ms : Nat) (s : State) : Host.Outcome State Fault Refusal := .next (s.on (doSresetAccept ms))
/-- SRESET_STUCK. -/
def execSresetStuck (s : State) : Host.Outcome State Fault Refusal := .next (s.on doSresetStuck)
/-- SRESET_ARM_EXPIRY. -/
def execSresetArmExpiry (s : State) : Host.Outcome State Fault Refusal := .next (s.on doSresetArmExpiry)
/-- TWO_HAND_LAPSE. -/
def execTwoHandLapse (pair : Fin 8) (s : State) : Host.Outcome State Fault Refusal := .next (s.on (doTwoHandLapse pair))
/-- SS1_EXPIRY. -/
def execSs1Expiry (chB : Bool) (zone : Fin 2) (s : State) : Host.Outcome State Fault Refusal :=
  .next (s.on (doSs1Expiry chB zone))
/-- OSSD_TEST_PULSE. -/
def execOssdTestPulse (out : Fin 8) (s : State) : Host.Outcome State Fault Refusal := .next (s.on (doOssdTestPulse out))
/-- OSSD_PULSE_END. -/
def execOssdPulseEnd (out : Fin 8) (readOff : Bool) (s : State) : Host.Outcome State Fault Refusal :=
  .next (s.on (doOssdPulseEnd out readOff))
/-- OSSD_OFF_CHECK. -/
def execOssdOffCheck (out : Fin 8) (readOff : Bool) (s : State) : Host.Outcome State Fault Refusal :=
  .next (s.on (doOssdOffCheck out readOff))
/-- SLS_ACT_DELAY_END. -/
def execSlsActDelayEnd (m : Fin 8) (s : State) : Host.Outcome State Fault Refusal := .next (s.on (doSlsActDelayEnd m))
/-- SLS_DISCREPANCY. -/
def execSlsDiscrepancy (m : Fin 8) (s : State) : Host.Outcome State Fault Refusal := .next (s.on (doSlsDiscrepancy m))
/-- DEGRADED_END. -/
def execDegradedEnd (unit : Fin 22) (s : State) : Host.Outcome State Fault Refusal := .next (s.on (doDegradedEnd unit))
/-- STO_FB_TIMEOUT. -/
def execStoFbTimeout (die : Fin 2) (s : State) : Host.Outcome State Fault Refusal := .next (s.on (doStoFbTimeout die))
/-- SAFETY_TELEGRAM. -/
def execSafetyTelegram (conn : Fin 64) (bytes : List Byte) (s : State) : Host.Outcome State Fault Refusal :=
  .next (s.on (doSafetyTelegram conn bytes))
/-- SAFETY_TELEGRAM_SEND. -/
def execSafetyTelegramSend (conn : Fin 64) (agree : Bool) (s : State) : Host.Outcome State Fault Refusal :=
  .next (s.on (doSafetyTelegramSend conn agree))
/-- CONN_TIMEOUT. -/
def execConnTimeout (conn : Fin 64) (s : State) : Host.Outcome State Fault Refusal := .next (s.on (doConnTimeout conn))
/-- PARAM_CRC_CHECK. -/
def execParamCrcCheck (s : State) : Host.Outcome State Fault Refusal := .next (s.on doParamCrcCheck)
/-- COMMISSION_IDLE_TIMEOUT. -/
def execCommissionIdleTimeout (s : State) : Host.Outcome State Fault Refusal := .next (s.on doCommissionIdleTimeout)
/-- COMMISSION_CONFIRM_TIMEOUT. -/
def execCommissionConfirmTimeout (s : State) : Host.Outcome State Fault Refusal := .next (s.on doCommissionConfirmTimeout)
/-- CODE_BLOCK_EXPIRY. -/
def execCodeBlockExpiry (s : State) : Host.Outcome State Fault Refusal := .next (s.on doCodeBlockExpiry)
/-- SAFETY_CHANNEL_FAULT. -/
def execSafetyChannelFault (chB : Bool) (s : State) : Host.Outcome State Fault Refusal :=
  .next (s.on (doSafetyChannelFault chB))

end Sys2Proof.Machine
end

