-- ==== Sys2Proof/Machine/Ring.lean ====
section
/-! DEFINITION. The Atnal ring: the ring function, cycle frames, breaks and restores, acyclic messages, remote stalls and
proxies (spec 11 R407 to R433, R449 to R454). -/
namespace Sys2Proof.Machine
open Sys2Proof

/-- Change the ring, and a port of it. -/
def Dev.modRing (f : Ring → Ring) (d : Dev) : Dev := { d with ring := f d.ring }
def Dev.modPort (b : Bool) (f : RingPort → RingPort) (d : Dev) : Dev :=
  d.modRing (fun r => if b then { r with portB := f r.portB } else { r with portA := f r.portA })
def Ring.port (r : Ring) (b : Bool) : RingPort := if b then r.portB else r.portA
def Ring.looped (r : Ring) (b : Bool) : Bool := if b then r.loopB else r.loopA
def Ring.setLoop (b v : Bool) (r : Ring) : Ring := if b then { r with loopB := v } else { r with loopA := v }

/-! ## Acyclic messages (R429) -/

/-- Words of data that one fragment carries. -/
def Ring.fragWords (r : Ring) : Nat := min 1024 (r.conf.acycBytes.toNat - 12) / 4

/-- Queue a message; with ACYC_BYTES 0 the device sends none (R449). -/
def Dev.sendMsg (m : AcycMsg) (d : Dev) : Dev :=
  if d.ring.conf.acycBytes = 0 then d
  else
    let own : AcycMsg := { m with src := d.ring.addr, srcUnset := !d.ring.addrValid }
    d.modRing (fun r => { r with sendQ := r.sendQ ++ [own] })

/-- A message of a kind to a node. -/
def msgTo (dst : BitVec 10) (hop : Bool) (kind code : Nat) (epoch trans : BitVec 16) (stall : Nat) (data : List W32) : AcycMsg :=
  { dst := dst, src := 0, hopAddr := hop, srcUnset := false, kind := BitVec.ofNat 4 kind, code := BitVec.ofNat 4 code,
    epoch := epoch, trans := trans, frag := 0, last := true, stall := BitVec.ofNat 3 stall, data := data }

/-- Message kinds of Table 11.4. -/
def kConnect : Nat := 0
def kAccept : Nat := 1
def kReject : Nat := 2
def kDisconnect : Nat := 3
def kKeepalive : Nat := 4
def kReadData : Nat := 6
def kWriteDone : Nat := 8
def kCommand : Nat := 9
def kAck : Nat := 10
def kResponse : Nat := 11
def kIrq : Nat := 12

/-- The messages and fragments that leave within a number of bytes, in order, and what stays: a fragment carries at most
`per` words, counts FRAG from 0, and only the last carries LAST (R429). -/
def takeFitting (per : Nat) : Nat → Nat → List AcycMsg → List AcycMsg × List AcycMsg
  | _, _, [] => ([], [])
  | 0, _, ms => ([], ms)
  | fuel + 1, room, m :: ms =>
    let n := min per m.data.length
    if 12 + 4 * n ≤ room then
      if m.data.length ≤ per then
        let r := takeFitting per fuel (room - (12 + 4 * n)) ms
        (m :: r.1, r.2)
      else
        let r := takeFitting per fuel (room - (12 + 4 * n)) ({ m with data := m.data.drop n, frag := m.frag + 1 } :: ms)
        ({ m with data := m.data.take n, last := false } :: r.1, r.2)
    else ([], m :: ms)

/-! ## Remote stalls (R430 to R433) -/

/-- The stall of a remote index. -/
def remoteStall (i : Fin 4) : Stall := Fin.ofNat 8 (i.val + 2)

/-- A connection ends (R433). -/
def Dev.endRemote (i : Fin 4) (d : Dev) : Dev :=
  (d.modRemote i (fun r => { r with connected := false, trans := [], irqDue := false })).endStall (remoteStall i)

/-- Every connection ends. -/
def Dev.endRemotes (d : Dev) : Dev :=
  (List.finRange 4).foldl (fun d i => if d.ring.remote[i].connected then d.endRemote i else d) d

/-- Is a connection that of the sender of a message? -/
def RemoteStall.of (r : RemoteStall) (m : AcycMsg) : Bool := r.connected && r.peer == m.src && r.peerHop == m.srcUnset
/-- Do a stall's settings let in the sender of a message? -/
def RemoteStall.admits (r : RemoteStall) (m : AcycMsg) : Bool := r.enabled && (r.any || (!m.srcUnset && r.node == m.src))

/-- A reply to the sender of a message. -/
def replyTo (m : AcycMsg) (kind code : Nat) (epoch : BitVec 16) (stall : Nat) (data : List W32) : AcycMsg :=
  msgTo m.src m.srcUnset kind code epoch m.trans stall data

/-- RING_CONNECT (R430). -/
def doRingConnect (m : AcycMsg) (d : Dev) : Dev :=
  if d.ring.fn != .active || d.ring.conf.acycBytes = 0 then d
  else
    let d1 := (List.finRange 4).foldl (fun d i => if d.ring.remote[i].of m then d.endRemote i else d) d
    let want := fld (wd m.data 0) 2 0
    let cands := (List.finRange 4).filter (fun i => want == 0 || want == i.val + 2)
    match cands.find? (fun i => d1.ring.remote[i].admits m && !d1.ring.remote[i].connected) with
    | some i =>
      let e := d1.ring.remote[i].epoch + 1
      (d1.modRemote i (fun r => { r with epoch := e, connected := true, peer := m.src, peerHop := m.srcUnset, lastClk := d.clk,
                                         trans := [], irqDue := false })).sendMsg (replyTo m kAccept 0 e (i.val + 2) [])
    | none =>
      d1.sendMsg (replyTo m kReject (if cands.any (fun i => d1.ring.remote[i].admits m) then 2 else 3) m.epoch want [])

/-- A message of a node with a connection has arrived (R433). -/
def Dev.heardPeer (m : AcycMsg) (d : Dev) : Dev :=
  d.modRing (fun r => { r with remote := r.remote.map (fun x => if x.of m then { x with lastClk := d.clk } else x) })

/-- A request to a remote stall (R431): refused where the sender is not connected to it or its epoch is stale. -/
def Dev.remoteReq (m : AcycMsg) (f : Fin 4 → Dev → Dev) (d : Dev) : Dev :=
  if d.ring.fn != .active then d
  else
    let i : Fin 4 := Fin.ofNat 4 (m.stall.toNat + 2)
    let r := d.ring.remote[i]
    let d1 := d.heardPeer m
    if m.stall.toNat < 2 ∨ m.stall.toNat > 5 ∨ r.of m = false then d1.sendMsg (replyTo m kReject 4 m.epoch m.stall.toNat [])
    else
      if r.epoch != m.epoch then d1.sendMsg (replyTo m kReject 1 m.epoch m.stall.toNat []) else f i d1

/-- A request that is carried out once: a TRANS among the last 32 sends its stored replies again (R431). -/
def Dev.onceReq (m : AcycMsg) (tag : Option (BitVec 8)) (f : Fin 4 → Dev → AcycMsg × Dev) (d : Dev) : Dev :=
  d.remoteReq m fun i d =>
    match d.ring.remote[i].trans.find? (fun t => t.trans == m.trans) with
    | some t => t.replies.foldl (fun d x => d.sendMsg x) d
    | none =>
      let r := f i d
      (r.2.modRemote i (fun s => { s with trans := (⟨m.trans, tag, [r.1]⟩ :: s.trans).take 32 })).sendMsg r.1

/-- RING_DISCONNECT: of a remote stall's connection, or of one of the device's own, whose commands then end with their
limit. -/
def doRingDisconnect (m : AcycMsg) (d : Dev) : Dev :=
  let mine := (List.finRange 4).find? (fun i => d.ring.remote[i].of m && d.ring.remote[i].epoch == m.epoch &&
    m.stall.toNat == i.val + 2)
  match mine with
  | some i => d.endRemote i
  | none => d.modRing (fun r => { r with proxies := r.proxies.filter (fun p =>
      !(p.node == m.src && p.hop == m.srcUnset && p.stall.isSome && p.epoch == m.epoch)) })

/-- RING_KEEPALIVE. -/
def doRingKeepalive (m : AcycMsg) : Dev → Dev := Dev.remoteReq m fun _ d => d

/-- RING_READ (R432): 1 to 256 words from a word address, read as the stall. -/
def doRingRead (m : AcycMsg) (eccBad : Bool) (mem : Memory) : Dev → Dev :=
  Dev.onceReq m none fun i d =>
    let w := wd m.data 0
    let r := d.readChecked mem (remoteStall i) (4 * fld w 23 0) (fld w 31 24 + 1) eccBad
    (replyTo m kReadData 0 m.epoch m.stall.toNat r.1, r.2.answer r.1 false)

/-- RING_WRITE (R432): its WRITE_DONE says which rule the write broke. -/
def doRingWrite (m : AcycMsg) (mem : Memory) : Dev → Dev :=
  Dev.onceReq m none fun i d =>
    let st := remoteStall i
    let go (d : Dev) : Dev := d.writeBurst mem st (4 * fld (wd m.data 0) 23 0) (m.data.drop 1)
    let e := go (d.modStall st (fun s => { s with accessErr := false, overrun := false }))
    let s := e.hp.stalls[st]
    (replyTo m kWriteDone (b2n s.accessErr + 2 * b2n s.overrun) m.epoch m.stall.toNat [], go d)

/-- RING_COMMAND (R432): a doorbell of the stall, acknowledged with ACK. -/
def doRingCommand (m : AcycMsg) : Dev → Dev :=
  Dev.onceReq m (some (BitVec.ofNat 8 (fld (wd m.data 0) 19 12))) fun i d =>
    (replyTo m kAck 0 m.epoch m.stall.toNat [], d.deliver (remoteStall i) (wd m.data 0) (m.data.drop 1))

/-- REMOTE_STALL_TIMEOUT (R433). -/
def doRemoteStallTimeout (st : Stall) (d : Dev) : Dev :=
  if st.val < 2 ∨ st.val > 5 then d
  else
    let i : Fin 4 := Fin.ofNat 4 (st.val - 2)
    let r := d.ring.remote[i]
    if r.connected && d.past r.lastClk (d.ring.conf.timeoutMs.toNat * clksPerMs) then (d.endRemote i).fire 117 .device else d

/-- The responses in a stall's response area, each header first. -/
def rspAll (s : StallState) : Nat → Nat → List (List W32)
  | _, 0 => []
  | p, fuel + 1 =>
    if p % 2048 = s.rspWrPtr.toNat then []
    else
      let n := fld (Mem.read 0 s.rspArea (p % 1024)) 11 0 + 1
      areaRead s.rspArea p n :: rspAll s (p + n) fuel

/-- Is a message, or its last fragment, a RESPONSE of a stall? -/
def isRsp (i : Fin 4) (m : AcycMsg) : Bool := m.kind.toNat == kResponse && m.stall.toNat == i.val + 2 && m.last

/-- Queue the responses of a remote stall that are not queued yet, and a due IRQ message (R432). -/
def Dev.queueRemote (d : Dev) (i : Fin 4) : Dev :=
  let st := remoteStall i
  let r := d.ring.remote[i]
  if !r.connected then d
  else
    let rs := (rspAll d.hp.stalls[st] d.hp.stalls[st].rspRdPtr.toNat 1024).drop (d.ring.sendQ.filter (isRsp i)).length
    let d1 := rs.foldl (fun d ws =>
      let tag := BitVec.ofNat 8 (fld (wd ws 0) 19 12)
      let t := d.ring.remote[i].trans.find? (fun t => t.tag == some tag && !t.replies.any (fun x => x.kind.toNat == kResponse))
      let m := msgTo r.peer r.peerHop kResponse 0 r.epoch ((t.map (·.trans)).getD 0) (i.val + 2) ws
      (d.modRemote i (fun s => { s with trans := s.trans.map (fun (x : TransRec) =>
        if t.isSome && some x.trans == t.map (·.trans) then { x with replies := x.replies ++ [m] } else x) })).sendMsg m) d
    if r.irqDue && d1.irqActive st != 0 then
      (d1.modRemote i (fun s => { s with irqDue := false })).sendMsg
        (msgTo r.peer r.peerHop kIrq 0 r.epoch 0 (i.val + 2) [(d1.irqActive st).setWidth 32])
    else d1.modRemote i (fun s => { s with irqDue := false })

/-! ## Proxies (R454) -/

/-- Change a proxy connection. -/
def Dev.modProxy (node : BitVec 10) (hop : Bool) (f : ProxyConn → ProxyConn) (d : Dev) : Dev :=
  d.modRing (fun r => { r with proxies := r.proxies.map (fun p => if p.node == node && p.hop == hop then f p else p) })
def Dev.proxy? (d : Dev) (node : BitVec 10) (hop : Bool) : Option ProxyConn :=
  d.ring.proxies.find? (fun p => p.node == node && p.hop == hop)

/-- Send a proxied COMMAND, or send it again. -/
def Dev.sendProxied (node : BitVec 10) (hop : Bool) (trans : BitVec 16) (d : Dev) : Dev :=
  match d.proxy? node hop with
  | none => d
  | some p =>
    match p.stall, p.cmds.find? (fun c => c.trans == trans) with
    | some st, some c =>
      (d.modProxy node hop (fun p => { p with lastSent := d.clk, lastUse := d.clk, cmds := p.cmds.map (fun (x : ProxyCmd) =>
        if x.trans == trans then { x with sentCycle := some d.ownCycle } else x) })).sendMsg
        (msgTo node hop kCommand 0 p.epoch trans st.toNat (c.header :: c.payload))
    | _, _ => d

/-- RING_PROXY. -/
def doRingProxy (st : Stall) (tag : BitVec 8) : Dev → Dev :=
  Dev.start st tag 0x620 fun c d =>
    let w := wd c.payload 0
    let node := BitVec.ofNat 10 (fld w 9 0)
    let hop := bitOf w 10
    let want := fld w 13 11
    let n := c.payload.length - 2
    let known := d.proxy? node hop
    Dev.checked c 1
      [(c.payload.length < 2 || n > 1022 || fld (wd c.payload 1) 11 0 != n || rsv w 0xC000 || fld w 31 16 < 10 ||
          fld w 31 16 > 60000 || want == 1 || want > 5, stParam),
       (known.isNone && d.ring.proxies.length ≥ 4, stResource), (d.ring.conf.acycBytes == 0, stState)]
      (fun d =>
        let d1 := if known.isSome then d
          else (d.modRing (fun r => { r with proxies := r.proxies ++
              [⟨node, hop, BitVec.ofNat 3 want, none, 0, 1, d.clk, d.clk, []⟩] })).sendMsg
                (msgTo node hop kConnect 0 0 0 0 [nW want])
        let trans := match d1.proxy? node hop with
          | some p => p.nextTrans
          | none => 0
        ((d1.modProxy node hop (fun p =>
          { p with nextTrans := trans + 1, lastUse := d.clk,
                   cmds := p.cmds ++ [⟨st, tag, trans, wd c.payload 1, c.payload.drop 2, 0, none, false⟩] })).await st tag
            .started).sendProxied node hop trans) d

/-- RING_ACCEPT: the connection stands, and its commands are sent. -/
def doRingAccept (m : AcycMsg) (d : Dev) : Dev :=
  match d.proxy? m.src m.srcUnset with
  | none => d
  | some p =>
    if p.stall.isSome then d
    else p.cmds.foldl (fun d c => d.sendProxied m.src m.srcUnset c.trans)
      (d.modProxy m.src m.srcUnset (fun p => { p with stall := some m.stall, epoch := m.epoch }))

/-- RING_REJECT: the connection is rejected; its commands complete with STATE and the code. -/
def doRingReject (m : AcycMsg) (d : Dev) : Dev :=
  match d.proxy? m.src m.srcUnset with
  | none => d
  | some p =>
    if p.stall.isSome && p.epoch != m.epoch then d
    else p.cmds.foldl (fun d c => d.respond c.stall c.tag stState [m.code.setWidth 32])
      (d.modRing (fun r => { r with proxies := r.proxies.filter (fun x => !(x.node == m.src && x.hop == m.srcUnset)) }))

/-- A reply of the present connection's epoch that names a command. -/
def Dev.proxyReply (m : AcycMsg) (f : ProxyCmd → Dev → Dev) (d : Dev) : Dev :=
  match d.proxy? m.src m.srcUnset with
  | none => d
  | some p =>
    if p.stall.isNone || p.epoch != m.epoch then d
    else match p.cmds.find? (fun c => c.trans == m.trans) with
      | some c => f c d
      | none => d

/-- RING_ACK. -/
def doRingAck (m : AcycMsg) : Dev → Dev :=
  Dev.proxyReply m fun c d => d.modProxy m.src m.srcUnset (fun p =>
    { p with cmds := p.cmds.map (fun (x : ProxyCmd) => if x.trans == c.trans then { x with acked := true } else x) })

/-- RING_RESPONSE: RingProxy completes with the remote response; a payload above 1,021 words is RESOURCE. -/
def doRingResponse (m : AcycMsg) : Dev → Dev :=
  Dev.proxyReply m fun c d =>
    let d1 := d.modProxy m.src m.srcUnset (fun p =>
      { p with lastUse := d.clk, cmds := p.cmds.filter (fun x => x.trans != c.trans) })
    if m.data.length > 1022 then d1.reply c.stall c.tag stResource (m.data.take 1) else d1.respond c.stall c.tag stOk m.data

/-- PROXY_ACK_TIMEOUT: sent again at most three times, then TIMEOUT. -/
def doProxyAckTimeout (st : Stall) (tag : BitVec 8) (d : Dev) : Dev :=
  match d.ring.proxies.find? (fun p => p.cmds.any (fun c => c.stall == st && c.tag == tag)) with
  | none => d
  | some p =>
    match p.cmds.find? (fun c => c.stall == st && c.tag == tag) with
    | none => d
    | some c =>
      match c.sentCycle with
      | none => d
      | some k =>
        if c.acked || d.ownCycle < k + 4 then d
        else if c.retries < 3 then
          (d.modProxy p.node p.hop (fun p => { p with cmds := p.cmds.map (fun (x : ProxyCmd) =>
            if x.trans == c.trans then { x with retries := x.retries + 1 } else x) })).sendProxied p.node p.hop c.trans
        else (d.modProxy p.node p.hop (fun p => { p with cmds := p.cmds.filter (fun x => x.trans != c.trans) })).respond st tag
            stTimeout []

/-- PROXY_KEEPALIVE: nothing has been sent to the node for 8 ms. -/
def doProxyKeepalive (node : BitVec 10) (d : Dev) : Dev :=
  match d.ring.proxies.find? (fun p => p.node == node && p.stall.isSome && d.past p.lastSent (8 * clksPerMs)) with
  | none => d
  | some p => (d.modProxy p.node p.hop (fun p => { p with lastSent := d.clk })).sendMsg
      (msgTo p.node p.hop kKeepalive 0 p.epoch 0 ((p.stall.map BitVec.toNat).getD 0) [])

/-- PROXY_IDLE_DISCONNECT: the connection has not been used for 1 s. -/
def doProxyIdleDisconnect (node : BitVec 10) (d : Dev) : Dev :=
  match d.ring.proxies.find? (fun p => p.node == node && p.cmds.isEmpty && d.past p.lastUse (1000 * clksPerMs)) with
  | none => d
  | some p => (d.modRing (fun r => { r with proxies := r.proxies.filter (fun x => !(x.node == p.node && x.hop == p.hop)) })).sendMsg
      (msgTo p.node p.hop kDisconnect 0 p.epoch 0 ((p.stall.map BitVec.toNat).getD 0) [])

/-! ## The ring function (R411 to R415) -/

/-- The ring function goes OFF: the by-pass closes and every connection ends. -/
def Dev.ringOff (d : Dev) : Dev :=
  let d1 := d.endRemotes
  { d1 with pw := { d1.pw with bypassClosed := true, holdOpen := false },
            ring := { d1.ring with fn := .off, opened := false, leave := 0, loopA := false, loopB := false, healed := false,
                                   split := false, nodes := [], seen := [], nodeMap := 0, activeN := 0, overload := false,
                                   tickMismatch := false, joinRefused := false, sendQ := [], partials := [] } }

/-- LISTEN (Table 11.1): the by-pass is closed, the receivers follow the passing frames. -/
def Dev.ringListen (d : Dev) : Dev :=
  { d with pw := { d.pw with bypassClosed := true, holdOpen := false },
           ring := { d.ring with fn := .listen, opened := false, listenCycle := d.ownCycle, heardCycle := d.ownCycle } }

/-- A device in LISTEN goes to JOINING, unless its addition would break the cycle rule. -/
def Dev.tryJoin (d : Dev) : Dev :=
  if d.breaksCycle d.ownBytes then d.modRing (fun r => { r with joinRefused := true })
  else d.modRing (fun r => { r with fn := .joining, joinRefused := false, opened := false })

/-- The by-pass opens: a nonce is drawn, and the stored address comes into use (R412, R414, R449), unless it is the one that
was found duplicated. -/
def Dev.openBypass (d : Dev) : Dev :=
  let r := d.draw
  let d1 := r.2
  let dup := d.ring.dupAddr && d.ring.stored.addr == d.ring.addr && d.ring.stored.addrSet
  { d1 with pw := { d1.pw with bypassClosed := false, holdOpen := true },
            ring := { d1.ring with opened := true, joinClk := d1.clk, nonce := nW r.1, addr := d1.ring.stored.addr,
                                   addrValid := d1.ring.stored.addrSet && !dup, dupAddr := dup,
                                   conf := { d1.ring.conf with addrSet := d1.ring.stored.addrSet, addr := d1.ring.stored.addr,
                                                               etherType := d1.ring.stored.etherType },
                                   portA := { d1.ring.portA with lock := false }, portB := { d1.ring.portB with lock := false } } }

/-- BLOCK_LOCK: the lock states of the ports. LISTEN goes to JOINING, and a device whose by-pass is open becomes ACTIVE. -/
def doBlockLock (a b : Bool) (d : Dev) : Dev :=
  let d1 := (d.modPort false (fun p => { p with lock := a, rfault := p.rfault && !a })).modPort true (fun p =>
    { p with lock := b, rfault := p.rfault && !b })
  if !(a && b) then d1
  else if d1.ring.fn == .listen && d1.hp.devReady then d1.tryJoin
  else if d1.ring.fn == .joining && d1.ring.opened then
    d1.modRing (fun r => { r with fn := .active, joinFail := false, leave := 0, seen := [] })
  else d1

/-- LISTEN_TIMEOUT: nothing has been heard for three own cycles; the device joins at its own cycle boundary. -/
def doListenTimeout (d : Dev) : Dev :=
  if d.ring.fn == .listen && d.hp.devReady && d.ownCycle ≥ max d.ring.listenCycle d.ring.heardCycle + 3 then
    let d1 := d.tryJoin
    if d1.ring.fn == .joining then d1.openBypass else d1
  else d

/-- The loop-back of a port ends (R424). -/
def Dev.endLoop (b : Bool) (d : Dev) : Dev :=
  let p := d.ring.port b
  if p.brk && (p.restore == 2 || p.peerRestore) && d.ownCycle > p.restCycle then
    (d.modPort b (fun p => { p with brk := false, rfault := false, lock := true, restore := 0, peerRestore := false })).modRing
      (Ring.setLoop b false)
  else d

/-- INSERT_WINDOW (R414, R424). -/
def doInsertWindow (d : Dev) : Dev :=
  if d.ring.fn == .joining && !d.ring.opened then d.openBypass
  else if d.ring.fn == .active && d.ring.leave == 2 && d.ownCycle > d.ring.leaveCycle then d.ringOff
  else (d.endLoop false).endLoop true

/-- JOIN_TIMEOUT: 1 ms without block lock. -/
def doJoinTimeout (d : Dev) : Dev :=
  if d.ring.fn == .joining && d.ring.opened && d.past d.ring.joinClk clksPerMs then
    d.ringListen.modRing (fun r => { r with joinFail := true })
  else d

/-! ## Cycle frames (R416 to R422, R426 to R428) -/

/-- Key of a node: its address, or one above 1,023 from the nonce where it has none. -/
def nodeKey (h : RingHdr) : Nat := if h.addrValid then h.origin.toNat else 1024 + h.nonce.toNat

/-- The header of this device's frame. -/
def Dev.ringHdr (d : Dev) (frames : Nat) : RingHdr :=
  let r := d.ring
  { hops := 0, fragIdx := 0, fragCntM1 := frames - 1, looped := r.loopB, origin := r.addr, addrValid := r.addrValid,
    gmPrio := d.nt.conf.gmPrio, timeQual := d.nt.timeQual, leaving := r.leave == 1,
    restore := r.portA.restore == 1 || r.portB.restore == 1, loopA := r.loopA, loopB := r.loopB,
    cycleNo := nW d.cycleNo, tickClks := d.tk.conf.tickClks, cycleTicks := BitVec.ofNat 11 d.cycleTicks, stepId := d.nt.stepId,
    linkDelay := r.portB.linkDelay, nonce := r.nonce }

/-- A published master record as its six words (09 R332). -/
def MasterRec.words (key : Nat) (m : MasterRec) : List W32 :=
  [m.tickLo, loW m.pos, hiW m.pos, iW m.vel, iW m.acc, mkw [(key % 32, 0, 5)]]

/-- A trigger event of a unit as its six words (R427). -/
def trigWords (u : CapUnit) (t : CapTrig) : List W32 :=
  let s := t.stamp.getD .zero
  [mkw [(fld (wd u.conf 0) 19 16, 16, 4)], loW t.tick, hiW t.tick, s.sec.setWidth 32, (s.sec >>> 32).setWidth 32, s.ns]

/-- The ring producers that send in this cycle (15 R600). -/
def Dev.ringProducers (d : Dev) : List (Fin 64) :=
  (List.finRange 64).filter (fun i =>
    let w := connWord d.safeSet i.val 0
    bitOf w 0 && bitOf w 1 && fld w 3 2 == 0 && d.sf.conns[i].state != .off && d.sf.chA.run && d.sf.chB.run)

/-- The pending time step as its section, in the two cycles before its apply cycle (R443). -/
def Dev.stepSection (d : Dev) : Option (List W32) :=
  match d.nt.step with
  | none => none
  | some s =>
    if d.nt.isGm && (s.apply == nW (d.cycleNo + 1) || s.apply == nW (d.cycleNo + 2)) then
      let ns := Int.fdiv s.delta (2 ^ 64)
      let sec := Int.fdiv ns 1000000000
      some [mkw [(s.id.toNat, 16, 16)], s.apply, mkw [(patOf 48 sec / 2 ^ 32, 0, 16)], nW (patOf 32 sec),
        nW (Int.fmod ns 1000000000).toNat, 0]
    else none

/-- Did a trigger come before another, by tick and then by stamp? -/
def CapTrig.before (a b : CapTrig) : Bool :=
  decide (a.tick < b.tick) || (a.tick == b.tick && decide ((a.stamp.getD .zero).toInt < (b.stamp.getD .zero).toInt))

/-- Trigger events in trigger order (R427); those of one instant by their unit. -/
def trigOrder : List (CapUnit × CapTrig) → List (CapUnit × CapTrig)
  | [] => []
  | x :: xs =>
    let r := trigOrder xs
    r.takeWhile (fun y => y.2.before x.2) ++ x :: r.dropWhile (fun y => y.2.before x.2)

/-- CYCLE_FRAME_SEND (R416): the contribution leaves RGB, or RGA with LOOPED where RGB is looped. -/
def doCycleFrameSend (d0 : Dev) : Dev :=
  if d0.ring.fn != .active then d0
  else
    let d := (List.finRange 4).foldl (fun d i => d.queueRemote i) d0
    let r := d.ring
    let named := r.addrValid
    let masters := if named then d.mu.published.filterMap (fun e => e.2.map (MasterRec.words e.1)) else []
    let trigs := if named then (trigOrder (d.cap.units.toList.filterMap (fun u => u.ringOut.map (fun t => (u, t))))).map
      (fun x => trigWords x.1 x.2) else []
    let prods := if named then d.ringProducers else []
    let acyc := takeFitting r.fragWords r.conf.acycBytes.toNat r.conf.acycBytes.toNat r.sendQ
    let frames := max 1 (cdiv (plannedBytes masters.length trigs.length (safetyBytes d.safeSet) r.conf.acycBytes.toNat) 1500)
    let f : RingFrame := { etherType := r.conf.etherType, hdr := d.ringHdr frames, masters := masters, triggers := trigs, safety := prods.map (fun i => d.telegram i),
                           timeStep := d.stepSection, acyclic := acyc.1, reserve := r.conf.acycBytes.toNat }
    let d1 := (d.emit (.ring (!r.loopB) f)).modRing (fun r =>
      { r with sendQ := acyc.2, leave := if r.leave == 1 then 2 else r.leave,
               leaveCycle := if r.leave == 1 then d.ownCycle else r.leaveCycle })
    let d2 := [false, true].foldl (fun d b => if (d.ring.port b).restore == 1 then
      d.modPort b (fun p => { p with restore := 2, restCycle := d.ownCycle }) else d) d1
    let d3 := if named then { d2 with cap := { d2.cap with units := d2.cap.units.map (fun u => { u with ringOut := none }) } } else d2
    let d4 := prods.foldl (fun d i => d.nextSeq i) d3
    (List.finRange 4).foldl (fun d i =>
      (acyc.1.filter (isRsp i)).foldl (fun d _ => d.rspAdvance (remoteStall i)) d) d4

/-- How many network cycles a header's CYCLE_NO lies behind this device's. -/
def Dev.cyclesBehind (d : Dev) (h : RingHdr) : Nat := (nW d.cycleNo - h.cycleNo).toNat

/-- Do a header's tick and cycle agree with this device's (R422)? A frame of a looped ring may come one cycle later. -/
def Dev.agrees (d : Dev) (h : RingHdr) : Bool :=
  h.tickClks == d.tk.conf.tickClks && h.cycleTicks.toNat == d.cycleTicks &&
    (d.cyclesBehind h == 0 || (d.ring.healed && d.cyclesBehind h == 1))

/-- The number of devices that loop at one side, as heard since the last cycle, this one included. -/
def Dev.loopPlaces (d : Dev) (side : RingHdr → Bool) (own : Bool) : Nat :=
  (d.others.filter (fun e => side e.2.hdr)).length + b2n own

/-- Two looped places: the ring is split, FS119 (R425). -/
def Dev.checkSplit (d : Dev) : Dev :=
  let many := d.loopPlaces (·.loopA) d.ring.loopA > 1 || d.loopPlaces (·.loopB) d.ring.loopB > 1
  if many && !d.ring.split then (d.modRing (fun r => { r with split := true })).fire 119 .device else d

/-- A loop-back has come into force somewhere: HEALED and the RING cause (R423). -/
def Dev.heal (d : Dev) : Dev :=
  ({ (d.modRing (fun r => { r with healed := true })) with nt := { d.nt with syncPortDue := true } }).setIrqAll irqRing

/-- Bits on the wire of a frame's contents: its planned bytes as Table 11.3 counts them (log entry 99). -/
def frameBits (f : RingFrame) : Nat :=
  wireBits (plannedBytes f.masters.length f.triggers.length (if f.safety.isEmpty then 0 else
    4 + f.safety.foldl (fun n t => n + cdiv t.length 4 * 4) 0) f.reserve)

/-- The node of a frame is recorded (R419), with what its header announces. -/
def Dev.hearNode (f : RingFrame) (d : Dev) : Dev :=
  let h := f.hdr
  let old := Mem.read none d.ring.nodes (nodeKey h)
  let same := match old with
    | some n => n.hdr.cycleNo == h.cycleNo
    | none => false
  let wire := frameBits f + (if same then (old.map (·.wire)).getD 0 else 0)
  let newLoop := match old with
    | some n => (h.loopA && !n.hdr.loopA) || (h.loopB && !n.hdr.loopB)
    | none => h.loopA || h.loopB
  let d1 := d.modRing (fun r =>
    { r with heardCycle := d.ownCycle, nodes := Mem.write none r.nodes (nodeKey h) (some ⟨d.ownCycle, h, wire,
                    h.leaving || old.any (fun n => n.leaving && n.hdr.nonce == h.nonce), false⟩) })
  let d2 := if newLoop then d1.heal.checkSplit else d1
  [false, true].foldl (fun d b =>
    if h.restore && (d.ring.port b).brk && (if b then h.loopA else h.loopB) && !(d.ring.port b).peerRestore then
      d.modPort b (fun p => { p with peerRestore := true, restCycle := d.ownCycle - min 1 (d.cyclesBehind h) }) else d) d2

/-- What the grandmaster's frame says: TICK_MISMATCH and FS112 (R422), the time quality, the pending time step (R443), and
the port of the shorter path (R437). -/
def Dev.hearGm (portB : Bool) (f : RingFrame) (d : Dev) : Dev :=
  let h := f.hdr
  if !(d.nt.gmValid && !d.nt.isGm && h.addrValid && h.origin == d.nt.gmAddr) then d
  else
    let ok := d.agrees h
    let d1 := d.modRing (fun r => { r with tickMismatch := !ok })
    let d2 := if !ok && !d.ring.tickMismatch then d1.fire 112 .device else d1
    let near := h.hops + 1
    let port := if d.ring.healed then portB
      else if portB then decide (near < d.ring.activeN.toNat - near) else decide (near > d.ring.activeN.toNat - near)
    let step := match f.timeStep with
      | some ws => some (⟨BitVec.ofNat 16 (fld (wd ws 0) 31 16), wd ws 1,
          (signedOf 48 (fld (wd ws 2) 15 0 * 2 ^ 32 + (wd ws 3).toNat) * 1000000000 + fld (wd ws 4) 29 0) * 2 ^ 64⟩ : TimeStep)
      | none => d.nt.step
    { d2 with nt := { d2.nt with timeQual := h.timeQual, step := step,
                                 syncPort := if d.nt.syncPortDue then port else d.nt.syncPort, syncPortDue := false } }

/-- The master records of a frame arrive (09 R332). -/
def Dev.hearMasters (f : RingFrame) (d : Dev) : Dev :=
  { d with mu := { d.mu with arrived := f.masters.foldl (fun m ws =>
      Mem.write none m (f.hdr.origin.toNat * 32 + fld (wd ws 5) 4 0)
        (some ⟨wd ws 0, s64 (wd ws 1) (wd ws 2), sfld (wd ws 3) 31 0, sfld (wd ws 4) 31 0⟩)) d.mu.arrived } }

/-- The trigger events of a frame arrive (10 R387). -/
def Dev.hearTriggers (m : Memory) (f : RingFrame) (d : Dev) : Dev :=
  f.triggers.foldl (fun d ws =>
    d.ringTrigger m (fld (wd ws 0) 19 16) (u64 (wd ws 1) (wd ws 2))
      ⟨BitVec.ofNat 48 (fld (wd ws 4) 15 0 * 2 ^ 32 + (wd ws 3).toNat), nW (fld (wd ws 5) 29 0), 0⟩ f.hdr.origin) d

/-- Is a message for this device? -/
def Dev.isForMe (d : Dev) (f : RingFrame) (m : AcycMsg) : Bool :=
  if m.hopAddr then m.dst.toNat == f.hdr.hops + 1 else d.ring.addrValid && m.dst == d.ring.addr

/-- Fragments for this device are kept until their message is whole, when its own command acts on it (R429). -/
def Dev.hearFragments (f : RingFrame) (d : Dev) : Dev :=
  (f.acyclic.filter (fun m => d.isForMe f m && !(m.frag == 0 && m.last))).foldl (fun d m =>
    let same (p : Partial) : Bool := p.src == m.src && p.kind == m.kind && p.trans == m.trans
    let old := d.ring.partials.find? same
    let frags := ((old.map (·.frags)).getD []) ++ [m]
    let rest := d.ring.partials.filter (fun p => !same p)
    let whole := match frags.find? (fun x => x.last) with
      | some l => (List.range (l.frag.toNat + 1)).all (fun i => frags.any (fun x => x.frag.toNat == i))
      | none => false
    d.modRing (fun r => { r with partials := if whole then rest else rest ++ [⟨m.src, m.kind, m.trans, frags, d.ownCycle⟩] })) d

/-- A frame leaves through a port, or is turned at a broken one; HOPS counts this device (R416, R423). -/
def Dev.forward (portB : Bool) (f : RingFrame) (d : Dev) : Dev :=
  if d.ring.fn != .active || f.hdr.hops + 1 ≥ 2047 then d
  else
    let out := !portB
    let turned := d.ring.looped out
    d.emit (.ring (if turned then portB else out) { f with hdr := { f.hdr with hops := f.hdr.hops + 1, looped := f.hdr.looped || turned } })

/-- A bad frame is forwarded with an inverted FCS (R410). -/
def Dev.forwardBad (portB : Bool) (d : Dev) : Dev :=
  if d.ring.fn != .active then d else d.emit (.ringBad (if d.ring.looped (!portB) then portB else !portB))

/-- An FCS error first found at a port (R410): counted; more than 16 in a second fire FS118. -/
def Dev.crcError (portB : Bool) (d : Dev) : Dev :=
  let p := d.ring.port portB
  let p1 := if d.past p.crcClk (1000 * clksPerMs) then { p with crcMark := p.crcErr, crcClk := d.clk } else p
  let n := BitVec.ofNat 8 (satU 8 (p1.crcErr.toNat + 1))
  let fires := n.toNat == p1.crcMark.toNat + 17 && p1.crcErr != n
  let d1 := d.modPort portB (fun _ => { p1 with crcErr := n })
  if fires then d1.fire 118 .device else d1

/-- Another device sends with this device's address (R412). -/
def Dev.duplicate (d : Dev) : Dev :=
  if d.ring.dupAddr then d else (d.modRing (fun r => { r with dupAddr := true })).fire 113 .device

/-- FOREIGN_FRAME (R409). -/
def doForeignFrame (portB : Bool) : Dev → Dev :=
  Dev.modPort portB (fun p => { p with foreign := BitVec.ofNat 32 (satU 32 (p.foreign.toNat + 1)) })

/-- CYCLE_FRAME. One of another EtherType is a foreign frame; no contents of a bad one are used. -/
def doCycleFrame (portB : Bool) (fcs : Fcs) (f : RingFrame) (m : Memory) (d : Dev) : Dev :=
  let h := f.hdr
  let own := d.ring.fn == .active && h.nonce == d.ring.nonce
  if d.ring.fn == .off || d.ring.fn == .joining then d
  else if fcs == .bad then (d.crcError portB).forwardBad portB
  else if fcs == .inverted then d.forwardBad portB
  else if f.etherType != d.ring.conf.etherType then doForeignFrame portB d
  else if own then d
  else
    let d1 := d.forward portB f
    let key := (nodeKey h, h.cycleNo, h.fragIdx)
    if d1.ring.seen.any (fun x => x.1 == key) then d1
    else
      let d2 := d1.modRing (fun r => { r with seen := r.seen ++ [(key, d1.ownCycle)] })
      let d3 := if d2.ring.fn == .active && d2.ring.addrValid && h.addrValid && h.origin == d2.ring.addr then d2.duplicate else d2
      let d4 := (d3.hearNode f).hearGm portB f
      if d4.ring.fn != .active then d4
      else
        let ignored := d4.ring.tickMismatch && !d4.agrees h
        let d5 := if ignored || !h.addrValid then d4 else (d4.hearMasters f).hearTriggers m f
        let late := !d5.ring.healed && h.tickClks == d5.tk.conf.tickClks && h.cycleTicks.toNat == d5.cycleTicks &&
          d5.cyclesBehind h == 1 && !d5.ring.overload
        let d6 := if late then (d5.modRing (fun r => { r with overload := true })).fire 114 .device else d5
        d6.hearFragments f

/-- NODE_MISSING (R419): two whole cycles without a frame. -/
def doNodeMissing (node : BitVec 10) (d : Dev) : Dev :=
  match Mem.read none d.ring.nodes node.toNat with
  | some n =>
    if n.leaving || n.missing || d.ownCycle < n.heard + 3 then d
    else (d.modRing (fun r => { r with nodes := Mem.write none r.nodes node.toNat (some { n with missing := true }) })).fire 111 .device
  | none => d

/-- PORT_BREAK (R423, R425): the state of the port's receiver when it declares the break. -/
def doPortBreak (portB lock rfault : Bool) (d : Dev) : Dev :=
  if d.ring.fn != .active || (d.ring.port portB).brk then d
  else
    let second := d.ring.healed
    let d1 := ((d.modPort portB (fun p => { p with brk := true, lock := lock, rfault := rfault, restore := 0, peerRestore := false })).modRing
      (Ring.setLoop portB true)).fire 110 .device
    let d2 := d1.heal
    if second && !d2.ring.split then (d2.modRing (fun r => { r with split := true })).fire 119 .device else d2

/-- PORT_RESTORE (R424): a broken port has held block lock without a fault sequence for 1 ms. -/
def doPortRestore (portB : Bool) (d : Dev) : Dev :=
  if (d.ring.port portB).brk && (d.ring.port portB).restore == 0 then
    d.modPort portB (fun p => { p with restore := 1, lock := true, rfault := false })
  else d

/-- ACYCLIC_FRAGMENT_TIMEOUT (R429): 16 cycles without a further fragment. -/
def doAcyclicFragmentTimeout (src : BitVec 10) (trans : BitVec 16) (d : Dev) : Dev :=
  d.modRing (fun r => { r with partials := r.partials.filter (fun p =>
    !(p.src == src && p.trans == trans && decide (d.ownCycle ≥ p.cycle + 16))) })

/-! ## The cycle boundary (R412, R413, R419 to R421, R424) -/

/-- MIN_CYCLE, PAYLOAD_NS and OVERLOAD. -/
def Dev.cycleRule (d : Dev) : Dev :=
  let t := d.tMin10 d.ownBytes
  let isOver := decide (t.1 > d.cycle10)
  let d1 := d.modRing (fun r => { r with minCycle := nW (cdiv t.1 10), payloadNs := nW (cdiv t.2 10), overload := isOver })
  if isOver && !d.ring.overload then d1.fire 114 .device else d1

/-- The ring's work at a network-cycle boundary. With ACYC_BYTES 0 no remote stall is present (R449). -/
def Dev.ringCycle (d00 : Dev) : Dev :=
  let d0 := if d00.ring.stored.acycBytes = 0 then d00.endRemotes else d00
  let d := d0.modRing (fun r =>
    { r with conf := { r.conf with acycBytes := r.stored.acycBytes, timeoutMs := r.stored.timeoutMs },
             addrValid := r.addrValid && !r.dupAddr, seen := r.seen.filter (fun x => x.2 + 2 > d0.ownCycle) })
  if d.ring.fn == .off then d
  else
    let heard := d.others
    let map := heard.foldl (fun (m : BitVec 1024) e => if e.1 < 1024 then m ||| BitVec.ofNat 1024 (2 ^ e.1) else m) 0
    let loops := d.ring.loopA || d.ring.loopB || heard.any (fun e => e.2.hdr.loopA || e.2.hdr.loopB)
    let d1 := d.modRing (fun r =>
      { r with nodeMap := map, activeN := BitVec.ofNat 11 (heard.length + (if r.fn == .active then 1 else 0)),
               healed := r.healed && loops, split := r.split && loops })
    let d2 := if d.ring.healed && !loops then { d1 with nt := { d1.nt with syncPortDue := true } } else d1
    let d3 := (List.finRange 4).foldl (fun d i =>
      let r := d.ring.remote[i]
      if r.connected && !r.peerHop && !map.getLsbD r.peer.toNat then (d.endRemote i).fire 117 .device else d) d2
    let d4 := d3.cycleRule
    if d4.ring.fn == .listen && d4.ring.portA.lock && d4.ring.portB.lock && d4.hp.devReady then d4.tryJoin else d4

/-! ## Commands (R449 to R451) -/

/-- RING_CONFIG. -/
def doRingConfig (st : Stall) (tag : BitVec 8) : Dev → Dev :=
  Dev.start st tag 0x600 fun c d =>
    let w := wd c.payload 0
    let w1 := wd c.payload 1
    let acyc := fld w1 31 16
    let et := fld w1 15 0
    let tmo := (wd c.payload 2).toNat
    let own := plannedBytes (masterCount d.mu.setMask d.mu.actMask) d.ringOutCount (safetyBytes d.safeSet) acyc
    Dev.checked c 1
      [(badLen c 3 || rsv w 0xFC001FFF || (bitOf w 15 && bitOf w 14) || !(acyc == 0 || (64 ≤ acyc && acyc ≤ 4096 && acyc % 4 == 0)) ||
          et < 0x600 || et == 0x88F7 || tmo < 10 || tmo > 10000, stParam),
       (acyc > d.ring.stored.acycBytes.toNat && d.breaksCycle own, stResource)]
      (fun d => (d.modRing (fun r =>
        { r with stored := { addrSet := if bitOf w 15 then true else if bitOf w 14 then false else r.stored.addrSet,
                             addr := if bitOf w 15 then BitVec.ofNat 10 (fld w 25 16) else if bitOf w 14 then 0 else r.stored.addr,
                             autoStart := bitOf w 13, acycBytes := BitVec.ofNat 16 acyc, etherType := BitVec.ofNat 16 et,
                             timeoutMs := BitVec.ofNat 14 tmo } })).ok c []) d

/-- CLEAR: the counters of R448. -/
def Dev.ringClear (d : Dev) : Dev :=
  let clr (p : RingPort) : RingPort := { p with crcErr := 0, foreign := 0, crcMark := 0 }
  { (d.modRing (fun r => { r with portA := clr r.portA, portB := clr r.portB })) with nt := { d.nt with ppsBad := 0 } }

/-- RING_CONTROL. -/
def doRingControl (st : Stall) (tag : BitVec 8) : Dev → Dev :=
  Dev.start st tag 0x601 fun c d =>
    let w := wd c.payload 0
    let op := fld w 1 0
    let s := firstBad
      [(noWord c, stParam), ((op == 0 && d.ring.fn != .off) || (op == 1 && d.ring.fn == .off), stState),
       (op == 0 && d.breaksCycle d.ownBytes, stResource), (badLen c 1 || rsv w 0xFFFFFFFC || op == 3, stParam)]
    if s ≠ 0 then d.reply st tag s [if s = stResource then nW (cdiv (d.tMin10 d.ownBytes).1 10) else 0]
    else if op = 0 then d.ringListen.ok c []
    else if op = 1 then
      (if d.ring.fn == .active then (d.ok c []).modRing (fun r => { r with leave := if r.leave = 0 then 1 else r.leave })
       else (d.ok c []).ringOff)
    else d.ringClear.ok c []

/-- REMOTE_STALL_CONFIG. -/
def applyRemoteStallConfig (c : Cmd) (d : Dev) : Dev :=
  let w := wd c.payload 0
  let s := fld w 2 0
  let i : Fin 4 := Fin.ofNat 4 (s + 2)
  Dev.checked c 1 [(badLen c 1 || rsv w 0xFC00FFC0 || s < 2 || s > 5, stParam), (s == c.stall.val, stState)]
    (fun d =>
      if bitOf w 5 then (if d.ring.remote[i].connected then d.endRemote i else d).ok c []
      else
        let d1 := d.modRemote i (fun r => { r with enabled := bitOf w 3, any := bitOf w 4, node := BitVec.ofNat 10 (fld w 25 16) })
        let r := d1.ring.remote[i]
        let out := !r.enabled || (!r.any && (r.peerHop || r.peer != r.node))
        (if r.connected && out then d1.endRemote i else d1).ok c []) d
/-- It waits for a tick boundary, and does everything there (03 R95). -/
def doRemoteStallConfig (st : Stall) (tag : BitVec 8) : Dev → Dev := Dev.startAtTick st tag 0x602

/-! ## Meanings -/

/-- RING_CONFIG. -/
def execRingConfig (st : Stall) (tag : BitVec 8) (s : State) : Host.Outcome State Fault Refusal :=
  .next (s.on (doRingConfig st tag))
/-- RING_CONTROL. -/
def execRingControl (st : Stall) (tag : BitVec 8) (s : State) : Host.Outcome State Fault Refusal :=
  .next (s.on (doRingControl st tag))
/-- REMOTE_STALL_CONFIG. -/
def execRemoteStallConfig (st : Stall) (tag : BitVec 8) (s : State) : Host.Outcome State Fault Refusal :=
  .next (s.on (doRemoteStallConfig st tag))
/-- RING_PROXY. -/
def execRingProxy (st : Stall) (tag : BitVec 8) (s : State) : Host.Outcome State Fault Refusal :=
  .next (s.on (doRingProxy st tag))
/-- BLOCK_LOCK. -/
def execBlockLock (a b : Bool) (s : State) : Host.Outcome State Fault Refusal := .next (s.on (doBlockLock a b))
/-- LISTEN_TIMEOUT. -/
def execListenTimeout (s : State) : Host.Outcome State Fault Refusal := .next (s.on doListenTimeout)
/-- INSERT_WINDOW. -/
def execInsertWindow (s : State) : Host.Outcome State Fault Refusal := .next (s.on doInsertWindow)
/-- JOIN_TIMEOUT. -/
def execJoinTimeout (s : State) : Host.Outcome State Fault Refusal := .next (s.on doJoinTimeout)
/-- CYCLE_FRAME_SEND. -/
def execCycleFrameSend (s : State) : Host.Outcome State Fault Refusal := .next (s.on doCycleFrameSend)
/-- CYCLE_FRAME. -/
def execCycleFrame (portB : Bool) (fcs : Fcs) (f : RingFrame) (s : State) : Host.Outcome State Fault Refusal :=
  .next (s.onMem (doCycleFrame portB fcs f))
/-- FOREIGN_FRAME. -/
def execForeignFrame (portB : Bool) (s : State) : Host.Outcome State Fault Refusal := .next (s.on (doForeignFrame portB))
/-- NODE_MISSING. -/
def execNodeMissing (node : BitVec 10) (s : State) : Host.Outcome State Fault Refusal := .next (s.on (doNodeMissing node))
/-- PORT_BREAK. -/
def execPortBreak (port : PortLoss) (s : State) : Host.Outcome State Fault Refusal :=
  .next (s.on (doPortBreak port.portB port.lock port.rfault))
/-- PORT_RESTORE. -/
def execPortRestore (portB : Bool) (s : State) : Host.Outcome State Fault Refusal := .next (s.on (doPortRestore portB))
/-- ACYCLIC_FRAGMENT_TIMEOUT. -/
def execAcyclicFragmentTimeout (src : BitVec 10) (trans : BitVec 16) (s : State) : Host.Outcome State Fault Refusal :=
  .next (s.on (doAcyclicFragmentTimeout src trans))
/-- RING_CONNECT. -/
def execRingConnect (m : AcycMsg) (s : State) : Host.Outcome State Fault Refusal := .next (s.on (doRingConnect m))
/-- RING_DISCONNECT. -/
def execRingDisconnect (m : AcycMsg) (s : State) : Host.Outcome State Fault Refusal := .next (s.on (doRingDisconnect m))
/-- RING_KEEPALIVE. -/
def execRingKeepalive (m : AcycMsg) (s : State) : Host.Outcome State Fault Refusal := .next (s.on (doRingKeepalive m))
/-- RING_READ. -/
def execRingRead (m : EccRead AcycMsg) (s : State) : Host.Outcome State Fault Refusal :=
  .next (s.onMem (doRingRead m.val m.eccBad))
/-- RING_WRITE. -/
def execRingWrite (m : AcycMsg) (s : State) : Host.Outcome State Fault Refusal := .next (s.onMem (doRingWrite m))
/-- RING_COMMAND. -/
def execRingCommand (m : AcycMsg) (s : State) : Host.Outcome State Fault Refusal := .next (s.on (doRingCommand m))
/-- RING_ACCEPT. -/
def execRingAccept (m : AcycMsg) (s : State) : Host.Outcome State Fault Refusal := .next (s.on (doRingAccept m))
/-- RING_REJECT. -/
def execRingReject (m : AcycMsg) (s : State) : Host.Outcome State Fault Refusal := .next (s.on (doRingReject m))
/-- RING_ACK. -/
def execRingAck (m : AcycMsg) (s : State) : Host.Outcome State Fault Refusal := .next (s.on (doRingAck m))
/-- RING_RESPONSE. -/
def execRingResponse (m : AcycMsg) (s : State) : Host.Outcome State Fault Refusal := .next (s.on (doRingResponse m))
/-- REMOTE_STALL_TIMEOUT. -/
def execRemoteStallTimeout (st : Stall) (s : State) : Host.Outcome State Fault Refusal :=
  .next (s.on (doRemoteStallTimeout st))
/-- PROXY_ACK_TIMEOUT. -/
def execProxyAckTimeout (st : Stall) (tag : BitVec 8) (s : State) : Host.Outcome State Fault Refusal :=
  .next (s.on (doProxyAckTimeout st tag))
/-- PROXY_KEEPALIVE. -/
def execProxyKeepalive (node : BitVec 10) (s : State) : Host.Outcome State Fault Refusal :=
  .next (s.on (doProxyKeepalive node))
/-- PROXY_IDLE_DISCONNECT. -/
def execProxyIdleDisconnect (node : BitVec 10) (s : State) : Host.Outcome State Fault Refusal :=
  .next (s.on (doProxyIdleDisconnect node))

end Sys2Proof.Machine
end

