-- ==== Sys2Proof/Machine/Power.lean ====
section
/-! DEFINITION. Supplies, resets, starts, standby and the keep-alive domain (spec 01; 14 R543, R548). -/
namespace Sys2Proof.Machine
open Sys2Proof

def Dev.modPw (f : Power → Power) (d : Dev) : Dev := { d with pw := f d.pw }
/-- Internal reset is released and no power-down runs. -/
def Dev.up (d : Dev) : Bool := d.pw.phase == .booting || d.pw.phase == .running

/-! ## Supply levels (R22, R46) -/

/-- The axes that hold a leg on a die. -/
def Dev.dieAxes (d : Dev) (g : Fin 2) : List AxisNo := allAxes.filter (fun a => d.onDie a g)

/-- The supply sources whose condition holds, and the axes they act on. -/
def Dev.supplyLevels (d : Dev) : List (Nat × Scope) :=
  let p := d.pw
  [(p.vmainWarn, 10, Scope.device), (!p.v24aOk, 11, .device), (!p.v24bOk, 12, .device), (!p.vddrOk, 13, .device),
   (!p.vbatOk, 14, .device), (!p.railsOk, 15, .device), (!p.vgdaOk, 16, .axes (d.dieAxes 0)), (!p.vgdbOk, 17, .axes (d.dieAxes 1)),
   (p.xtalTimeout, 18, .device), (p.vmainOver, 19, .device)].filterMap (fun x => if x.1 then some x.2 else none)

/-- A supply source fires where the device is up and the condition is new. -/
def Dev.supplyFire (new : Bool) (src : Nat) (sc : Scope) (d : Dev) : Dev := if new && d.up then d.fire src sc else d

/-- V24B is lost: VSAFE goes off, the gate supply of every leg with it, and channel B stops (R25, 15 R571). -/
def Dev.v24bGone (d : Dev) : Dev :=
  let d1 := d.modPw (fun p => { p with v24bOk := false, vsafeUp := false })
  let d2 := (d1.stoEdge 0 (d.stoActive 0)).stoEdge 1 (d.stoActive 1)
  if d.sf.chB.started then d2.stopChannelB else d2

/-! ## Going down (R29, R31) -/

/-- Both switches of every leg are commanded off, and every bridge with them. -/
def Dev.allLegsOff (d : Dev) : Dev :=
  let d1 := allAxes.foldl (fun d a => d.bridgeOff a) d
  (List.finRange 48).foldl (fun d l => d.legOff l) d1

/-- The mailboxes stop: DEV_READY is 0 and no command is in flight (DESIGN CHOICE for the 100 µs before the rails go, log entry 84). -/
def Dev.muteHost (d : Dev) : Dev :=
  { d with hp := { d.hp with devReady := false, inFlight := [], heldOrder := [], stalls := d.hp.stalls.map (fun s => { s with held := [], rspWaiting := [] }) } }

/-- Everything volatile at its reset value: what MRAM, the keep-alive domain, the safety channels and the board hold
stays. -/
def Dev.blank (d : Dev) : Dev :=
  let f := d.ft
  let s := d.sv
  { Dev.reset with
    free := d.free, out := d.out, wr := d.wr, pw := d.pw, sf := d.sf.fromZero, sfSeen := d.sfSeen,
    gates := d.gates.map (fun g => { g with stoClk := 0 }), slots := d.slots,
    ft := { FaultUnit.reset with sevSet := f.sevSet, tally := f.tally, latchN := f.latchN, latchWinS := f.latchWinS,
                                 quietMs := f.quietMs },
    sv := { Service.reset with images := s.images, bootImage := s.bootImage, running := s.running, liveOk := s.liveOk,
                               lawsChanged := s.lawsChanged, nextStart := s.nextStart, legAge := s.legAge, dies := s.dies,
                               ledger := s.ledger, ledgerHead := s.ledgerHead, ledgerWraps := s.ledgerWraps },
    cap := { Capture.reset with trims := d.cap.trims.map (fun t => { t with skewTrim := 0 }) },
    ring := { Ring.reset with stored := d.ring.stored, conf := d.ring.stored, addr := d.ring.stored.addr,
                              addrValid := d.ring.stored.addrSet },
    nt := { TimeUnit.reset with stored := d.nt.stored, conf := d.nt.stored },
    hp := { HostPort.reset with debugSel := d.hp.debugSel } }

/-- The device is reset: what R31 gives PORST_N, with the start cause that the next start will show. -/
def Dev.resetNow (cause : StartCause) (d : Dev) : Dev :=
  (d.allLegsOff.ringOff.stopChannels.blank).modPw (fun p =>
    { p with phase := .inReset, startCause := cause, pcie := .down, standbyReq := false, devResetReq := false, toStandby := false,
             heldWakePin := false, heldWakeAlarm := false, safetyBDue := false, mramDue := false, lossRecord := none,
             railsOffDue := false })

/-- A wake ends standby (R35, R633): the causes are recorded, and the next start is by WAKE. -/
def Power.wake (pin alarm : Bool) (p : Power) : Power :=
  { p with phase := .off, startCause := .wake, heldWakePin := false, heldWakeAlarm := false,
           recordedWake := p.recordedWake ||| BitVec.ofNat 3 (b2n pin + 2 * b2n alarm) }

/-- The end of the power-down sequence, once all its rows are done: the device is off, or in standby, where a wake that
was held acts. -/
def Power.downDone (p : Power) : Power :=
  if p.phase != .powerDown || p.mramDue || p.railsOffDue || p.safetyBDue then p
  else if !p.toStandby then { p with phase := .off, startCause := .powerOn }
  else
    let q := { p with phase := .standby, toStandby := false }
    if p.vmainOk && (p.heldWakePin || p.heldWakeAlarm) then q.wake p.heldWakePin p.heldWakeAlarm else q

/-- The keep-alive counter ran on while no tick boundary told the time: by how much is a free value (log entry 74). -/
def Dev.kaElapse (d : Dev) : Dev :=
  let x := d.draw
  x.2.modPw (fun p => { p with kaTime := p.kaTime + BitVec.ofNat 63 x.1 })

/-- VMAIN has fallen through 9.8 V (R29). The record of the power loss is made now, at t1 (14 R634); standby entry that
still can write MRAM writes it too. Before internal reset is released there is nothing of Table 1.7 left to do and no
firmware to write a record: the device is simply off (DESIGN CHOICE, log entry 106). -/
def doVmainUvlo (d0 : Dev) : Dev :=
  if !d0.pw.vmainOk then d0
  else
    let d := if d0.up || d0.pw.phase == .powerDown then d0 else d0.kaElapse
    let d1 := d.modPw (fun p => { p with vmainOk := false, vmainLost := true, kaDown := p.kaTime })
    match d.pw.phase with
    | .booting | .running | .inReset =>
      (d1.allLegsOff.muteHost).modPw (fun p =>
        { p with phase := .powerDown, toStandby := false, mramDue := true, lossRecord := some (d.recordOf 8 0 0 0 0 0),
                 railsOffDue := true, safetyBDue := true, standbyReq := false, devResetReq := false, heldWakePin := false, heldWakeAlarm := false })
    | .rising => d1.modPw (fun p => { p with phase := .off, startCause := .powerOn, rails := [], railsUp := false })
    | .standby => d1.modPw (fun p => { p with phase := .off, startCause := .powerOn })
    | .powerDown => d1.modPw (fun p =>
        { p with toStandby := false, heldWakePin := false, heldWakeAlarm := false,
                 lossRecord := if p.toStandby && p.mramDue then some (d.recordOf 8 0 0 0 0 0) else p.lossRecord })
    | .off => d1.modPw (fun p => { p with startCause := .powerOn })

/-- BYPASS_CLOSE: the ring stops, the hold-open drive is released and the by-pass closes (R29, R39). -/
def doBypassClose (d : Dev) : Dev := if d.pw.phase == .powerDown then d.ringOff else d

/-- POWER_LOSS_RECORD: the MRAM writes in progress are completed, the record of a power loss among them, and no other
follows. Standby entry passes this row of Table 1.7 without a record (R34, 14 R634). -/
def doPowerLossRecord (d : Dev) : Dev :=
  if !d.pw.mramDue then d
  else
    let d1 := match d.pw.lossRecord with
      | some r => d.ledgerPut r
      | none => d
    d1.modPw (fun p => { p with mramDue := false, lossRecord := none }.downDone)

/-- Are the rails due to go off: the rows before are done (R29)? -/
def Power.railsDue (p : Power) : Bool := p.phase == .powerDown && p.railsOffDue && !p.mramDue

/-- The rails go off in the reverse of the start order, the gate supplies first (R26, R29). -/
def Power.railsDown (p : Power) : Power :=
  allRails.reverse.foldl Power.railDown { p with railsUp := false, vgdaOk := false, vgdbOk := false }

/-- RAILS_OFF. -/
def doRailsOff (d : Dev) : Dev :=
  if !d.pw.railsDue then d
  else
    (d.ringOff.stoAll.blank).modPw (fun p =>
      { p with railsOffDue := false, pcie := .down }.railsDown.downDone)
    |>.modSafe (fun s => { s with chA := { s.chA with started := false, run := false } })

/-- VKA_TO_VBAT. -/
def doVkaToVbat (d : Dev) : Dev := if d.pw.vmainOk then d else d.modPw (fun p => { p with vkaFromVbat := true })

/-- SAFETY_B_SHUTDOWN: channel B, alone, switches the OSSDs off and stops. -/
def doSafetyBShutdown (d : Dev) : Dev :=
  if !d.pw.safetyBDue then d else d.stopChannels.modPw (fun p => { p with safetyBDue := false }.downDone)

/-- SUPPLY_FALLING. Loss of VHK closes the by-pass without firmware action (R39). -/
def doSupplyFalling (r : Supply) (d : Dev) : Dev :=
  let p := d.pw
  match r with
  | .vmainWarn => (d.modPw (fun p => { p with vmainWarn := true })).supplyFire (!p.vmainWarn) 10 .device
  | .vmainOver => (d.modPw (fun p => { p with vmainOver := true })).supplyFire (!p.vmainOver) 19 .device
  | .vmain => doVmainUvlo d
  | .v24a => (d.modPw (fun p => { p with v24aOk := false })).supplyFire p.v24aOk 11 .device
  | .v24b => d.v24bGone.supplyFire p.v24bOk 12 .device
  | .vddr =>
    (d.modPw (fun p =>
      let q := { p with vddrOk := false }
      if p.phase = .rising then { q with phase := .off, rails := [], railsUp := false } else q)).supplyFire p.vddrOk 13 .device
  | .vgda => ((d.modPw (fun p => { p with vgdaOk := false })).modGate 0 (fun g => { g with supplyOk := false })).supplyFire p.vgdaOk 16
      (.axes (d.dieAxes 0))
  | .vgdb => ((d.modPw (fun p => { p with vgdbOk := false })).modGate 1 (fun g => { g with supplyOk := false })).supplyFire p.vgdbOk 17
      (.axes (d.dieAxes 1))
  | .rail r =>
    ((d.modPw (fun p => p.railDown r)).modPw (fun p =>
      if r = .vhk then { p with bypassClosed := true, holdOpen := false } else p)).supplyFire p.railsOk 15 .device

/-- A gate supply is back: the die is supplied where its STO switches are closed. -/
def Dev.gateBack (g : Fin 2) (d : Dev) : Dev :=
  d.modGate g (fun x => { x with supplyOk := !d.stoActive g && !x.switchesOpen })

/-- May VGDA and VGDB count as OK: the sequencer keeps the rails on, and at power-up they come last (R26). -/
def Power.gateSupplyMay (p : Power) : Bool := p.railsUp && (p.phase != .rising || p.railsOk)

/-- SUPPLY_RECOVERED. VSAFE follows V24B by the row CHANNEL_B_START; at power-up a rail rises only after those before it. -/
def doSupplyRecovered (r : Supply) (d : Dev) : Dev :=
  match r with
  | .vmainWarn => d.modPw (fun p => { p with vmainWarn := false })
  | .vmainOver => d.modPw (fun p => { p with vmainOver := false })
  | .vmain => d.modPw (fun p => { p with vmainOk := true })
  | .v24a => d.modPw (fun p => { p with v24aOk := true })
  | .v24b => d.modPw (fun p => { p with v24bOk := true })
  | .vddr => d.modPw (fun p => { p with vddrOk := true })
  | .vgda => if d.pw.gateSupplyMay then (d.modPw (fun p => { p with vgdaOk := true })).gateBack 0 else d
  | .vgdb => if d.pw.gateSupplyMay then (d.modPw (fun p => { p with vgdbOk := true })).gateBack 1 else d
  | .rail r => if d.pw.railsUp then d.modPw (fun p => p.railUp r) else d

/-- VBAT_CHECK. -/
def doVbatCheck (ok : Bool) (d : Dev) : Dev :=
  if !d.pw.vmainOk then d else (d.modPw (fun p => { p with vbatOk := ok })).supplyFire (d.pw.vbatOk && !ok) 14 .device

/-- V24B_LOSS: what R25 does without the control die. The same fall of V24B is the condition of FS012 (R46), which fires
here where no SUPPLY_FALLING has told of it. -/
def doV24bLoss (d : Dev) : Dev := d.v24bGone.supplyFire d.pw.v24bOk 12 .device

/-! ## Reset pins and restarts (R31 to R33, R45, 14 R526) -/

/-- PORST_ASSERT: a VMAIN power-down takes precedence (R33), an entry into standby does not; standby, and the end of an
entry whose rails are off already, end at the release. While the rails rise the pin holds internal reset. -/
def doPorstAssert (d : Dev) : Dev :=
  let d1 := d.modPw (fun p => { p with porstN := false })
  match d.pw.phase with
  | .booting | .running => d1.resetNow .porst
  | .rising | .inReset => d1.modPw (fun p => { p with startCause := .porst })
  | .powerDown =>
    if !d.pw.toStandby then d1
    else if d.pw.railsOffDue then d1.resetNow .porst
    else d1.stopChannels.modPw (fun p => { p with safetyBDue := false }.downDone)
  | _ => d1

/-- PORST_RELEASE. -/
def doPorstRelease (d : Dev) : Dev :=
  if d.pw.porstN then d
  else d.modPw (fun p =>
    { p with porstN := true, phase := if p.phase = .standby then .off else p.phase,
             startCause := if p.phase = .standby ∨ p.phase = .inReset then .porst else p.startCause })

/-- DEVICE_RESET_PULSE: 1 ms after the response of DeviceReset. Without a management pair only PORST_N and a power cycle end
safe state (14 R541). -/
def doDeviceResetPulse (d : Dev) : Dev := if d.pw.devResetReq && d.up && !d.ft.safeUntilPower then d.resetNow .devReset else d

/-- Safe state and the bridges end with the reset; RAIL_FAULT_RESTART comes 10 ms after entry to safe state. -/
def doRailFaultRestart (d : Dev) : Dev :=
  match d.ft.railRestartAt with
  | some t => if d.up && !d.ft.safeUntilPower && d.clk + d.tickClks ≥ t then d.resetNow .rail else d
  | none => d

/-- THERMAL_RESTART, with the temperatures of the dies in °C: every die is below 115 °C. -/
def doThermalRestart (temps : List Int) (d : Dev) : Dev :=
  if d.up && !d.ft.safeUntilPower && d.ft.thermalRestart && decide (temps.length = 4) && temps.all (fun t => decide (t < 115)) then
    (d.modSv (fun s => { s with dies := Vector.ofFn (fun i : Fin 4 =>
      { s.dies[i] with tempC := BitVec.ofInt 8 (satS 8 (temps.getD i.val 0)), hot := false }) })).resetNow .thermal
  else d

/-- A stall of HRST_N is reset: its page, what waits in its mailbox, and what ends with its presence. -/
def Dev.hrstStall (st : Stall) (d : Dev) : Dev :=
  let d1 := (d.dropCmds st).stallGone st
  { d1 with hp := { d1.hp with stalls := vset d1.hp.stalls st StallState.reset,
                               windows := d1.hp.windows.map (fun w => { w with freeze := vset w.freeze st none }) } }

/-- HRST_ASSERT. The PCI Express endpoint stays down until the release; the SPI host port, whose state is reset here, answers
a frame that comes while the pin is still low (DESIGN CHOICE, log entry 107). -/
def doHrstAssert (d : Dev) : Dev :=
  let d1 := (d.modPw (fun p => { p with hrstN := false, pcie := .down }))
  let d2 := (d1.hrstStall 0).hrstStall 1
  let d3 := { d2 with hp := { d2.hp with pcie := Pcie.reset, spi := ⟨0, false, false, []⟩ } }
  if d3.hp.own.valid && d3.hp.own.stall.val ≤ 1 then d3.vacate else d3

/-- HRST_RELEASE: link training begins if internal reset is released (R28). -/
def doHrstRelease (d : Dev) : Dev :=
  d.modPw (fun p => { p with hrstN := true, pcie := if d.up && p.pcie == .down then .training else p.pcie })

/-- PCIE_CONFIG_REQUEST for a word of the configuration space, so many ms after the later of internal reset release and
HRST_N high (R28, 03 R74). -/
def doPcieConfigRequest (ageMs : Nat) (reg : BitVec 10) (d : Dev) : Dev :=
  if d.pw.pcie == .down then d
  else if ageMs < 100 then d.emit .retryStatus
  else d.answer [d.hp.pcie.configWord reg.toNat] false

/-! ## Starts (R27, R37, R633; 14 R543, R548) -/

/-- POWER_UP_START: instant t0; the sequencer starts. -/
def doPowerUpStart (d : Dev) : Dev :=
  if d.pw.phase == .off && d.pw.vmainOk && d.pw.vddrOk && d.pw.porstN then
    d.modPw (fun p => { p with phase := .rising, vkaFromVbat := false, railsUp := true, rails := [] })
  else d

/-- Do the keep-alive contents count as lost at this start (R37): VKA fell, or the board has no VBAT and VMAIN fell below
UVLO (R24)? -/
def Power.kaGone (p : Power) : Bool := p.kaLostPending || (p.vmainLost && !Config.vbatUsed)

/-- The rails of a start: at power-up all have risen, in their order; after a reset they are as the monitors find them, and
a supply found below its threshold is not OK before it recovers (R22, R26, R31). -/
def Power.railsRisen (p : Power) : Power :=
  if p.phase = .rising then { allRails.foldl Power.railUp p with vgdaOk := true, vgdbOk := true } else p

/-- The power side of a start: the keep-alive contents, the causes, the rails. -/
def Power.start (p : Power) : Power :=
  let q := if p.kaGone then
      { p with kaTime := 0, kaDown := 0, kaRet := Vector.replicate 16 0, wakePinEn := false, alarmEn := false, recordedWake := 0,
               kaLostPending := false, resetKaLost := true, kaValid := false }
    else { p with resetKaLost := false, kaValid := true }
  { q.railsRisen with
           phase := .booting, resetCause := q.startCause, vmainLost := false,
           wakeCause := if q.startCause = .wake then q.recordedWake else q.recordedWake &&& 4, recordedWake := 0,
           railsUp := true, standbyReq := false, devResetReq := false,
           heldWakePin := false, heldWakeAlarm := false, bypassClosed := true, holdOpen := false,
           pcie := if q.hrstN then .training else .down }

/-- What the content of an image says that the spec gives no layout for: whether its header is sound, its stepping, its
version, and whether it keeps the layout of the running image (LIVE_OK): free (log entry 5). -/
def Image.says (i : Image) (running : BitVec 24) (k : Nat) : Int :=
  Config.freeOf 25 ([(k : Int), (running.toNat : Int)] ++ i.words.flatMap (fun e => [(e.1 : Int), (e.2.toNat : Int)]))

/-- The lowest stepping an image declares, letter and digit (00 R5): free as the rest of its content, the first of all in an
image as delivered. -/
def Image.stepping (i : Image) : Nat × Nat :=
  if i.words.isEmpty then (0, 0) else ((i.says 0 1).toNat, (i.says 0 4).toNat)

/-- Does an image not declare a later stepping than the device's own (00 R5)? -/
def Image.fits (i : Image) : Bool :=
  decide (i.stepping.1 ≤ Config.stepLetter.toNat) &&
    (decide (i.stepping.1 < Config.stepLetter.toNat) || decide (i.stepping.2 ≤ Config.stepDigit.toNat))

/-- The image that a start runs: the boot image, or the one FwActivate asked for, if it passes its check and 00 R5;
otherwise the other (14 R543). 14 R543 makes no check of the other image, so that it runs whatever its own check finds
(DESIGN CHOICE, log entry 109); but no image that declares a later stepping ever starts (00 R5): then none runs. -/
def Dev.bootSelect (aOk bOk : Bool) (d : Dev) : Dev :=
  let s := d.sv
  let want : Fin 2 := if s.nextStart then s.bootImage + 1 else s.bootImage
  let ok := (if want = 0 then aOk else bOk) && s.images[want].fits
  let img := if ok then want else want + 1
  let images := vmod s.images want (fun i => { i with valid := i.valid && ok })
  let ver (i : Fin 2) : W32 := (images[i].version).setWidth 32
  let d1 := d.modSv (fun s => { s with images := images, running := img, noImage := !s.images[img].fits, bootImage := if s.nextStart && ok then want else s.bootImage,
                                       nextStart := false })
  let d2 := if ok then d1 else (d1.fire 2 .device).ledger 7 0 0 0 (ver want ||| 0x05000000) (ver img)
  if ok && s.nextStart then d2.ledger 7 0 0 0 (ver (want + 1) ||| 0x01000000) (ver want) else d2

/-- INTERNAL_RESET_RELEASE, with what the checks of images A and B find. A stored lock-out is in force from here, and its
level source FS165 fires (15 R593, R591; log entry 75). -/
def doInternalResetRelease (aOk bOk : Bool) (d : Dev) : Dev :=
  if (d.pw.phase == .rising || d.pw.phase == .inReset) && d.pw.vmainOk && d.pw.vddrOk && d.pw.porstN then
    let d1 := d.blank.kaElapse.modPw Power.start
    let d2 := { d1 with hp := { d1.hp with sphUp := true } }.bootSelect aOk bOk
    let d3 := d2.ledger 9 0 0 0 (d2.powerWord 0x404) (d2.fwVersion ||| nW (d2.sv.running.val * 2 ^ 24))
    let d4 := d3.supplyLevels.foldl (fun d x => d.fire x.1 x.2) d3
    let d5 := if d4.pw.vsafeUp then ((d4.startChannel false).startChannel true).startSet else d4.startChannel false
    if d.sf.lockout != 0 then d5.fire 165 .device else d5
  else d

/-- The start-up self-measurement (14 R548); a die found above 120 or 135 °C fires as at any time (R522). -/
def Dev.selfMeasure (m : StartUpMeasurement) (d : Dev) : Dev :=
  let low (x : Int × Int) : Bool := decide (x.2 < 500)
  let dies := Vector.ofFn (fun i : Fin 4 => match m.dies[i.val]? with
    | some x => (⟨BitVec.ofInt 8 (satS 8 x.1), low x, BitVec.ofInt 16 x.2, decide (x.1 > 135)⟩ : DieMargin)
    | none => d.sv.dies[i])
  let legs := Vector.ofFn (fun i : Fin 48 => match m.strength[i.val]? with
    | some x => { d.sv.legAge[i] with strength := BitVec.ofNat 16 (satU 16 x), refused := decide (x < 800) }
    | none => d.sv.legAge[i])
  let d1 := d.modSv (fun s => { s with dies := dies, legAge := legs })
  let d2 := if m.dies.any low || m.strength.any (fun x => decide (x < 800)) then d1.fire 150 .device else d1
  let d3 := if m.dies.any (fun x => decide (x.1 > 120)) then d2.fire 7 .device else d2
  let d4 := if m.dies.any (fun x => decide (x.1 > 135)) then d3.fire 8 .device else d3
  m.badConverters.foldl (fun d k => if k < 96 then d.convError k else d) d4

/-- START_UP_COMPLETE: DEV_READY is set, held doorbells are taken, and the ring function starts where AUTO_START says so
(11 R413). -/
def doStartUpComplete (m : StartUpMeasurement) (d : Dev) : Dev :=
  if d.pw.phase != .booting || d.sv.noImage then d
  else
    let d1 := (d.selfMeasure m).modPw (fun p => { p with phase := .running })
    let d2 := ({ d1 with hp := { d1.hp with devReady := true } }.setIrqAll irqReady).takeHeld
    if d2.ring.stored.autoStart then d2.ringListen else d2

/-! ## Standby and the keep-alive domain (R34 to R38) -/

/-- STANDBY_ENTER. -/
def doStandbyEnter (st : Stall) (tag : BitVec 8) : Dev → Dev :=
  Dev.start st tag 0x040 fun c d =>
    let w := wd c.payload 0
    d.checked c 1
      [(!d.liveAxes.isEmpty || d.pw.standbyReq || d.pw.devResetReq, stState),
       (badLen c 2 || rsv w 0xFFFFFFFC || (bitOf w 1 && wd c.payload 1 == 0), stParam)]
      fun d => (d.modPw (fun p => { p with standbyReq := true, wakePinEn := bitOf w 0, alarmEn := bitOf w 1,
                                           alarmS := wd c.payload 1 })).ok c []

/-- STANDBY_ENTRY: the rows of Table 1.7 from 1 µs on. No power-loss record is written (14 R634). -/
def doStandbyEntry (d : Dev) : Dev :=
  if d.pw.standbyReq && d.up then
    d.muteHost.modPw (fun p =>
      { p with phase := .powerDown, toStandby := true, standbyReq := false, kaDown := p.kaTime, mramDue := true,
               lossRecord := none, railsOffDue := true, safetyBDue := true })
  else d

/-- A wake by pin or alarm: it ends standby entered by command, is held while the entry runs, and joins a wake of the
same keep-alive clock. -/
def Dev.wakeBy (pin alarm : Bool) (d : Dev) : Dev :=
  let p := d.pw
  if p.phase == .standby || (p.phase == .off && p.startCause == .wake) then d.modPw (Power.wake pin alarm)
  else if p.standbyReq || (p.phase == .powerDown && p.toStandby) then
    d.modPw (fun p => { p with heldWakePin := p.heldWakePin || pin, heldWakeAlarm := p.heldWakeAlarm || alarm })
  else d

/-- KA_WAKE_PIN. -/
def doKaWakePin (d : Dev) : Dev :=
  if !d.pw.vmainOk then d.modPw (fun p => { p with recordedWake := p.recordedWake ||| 4 })
  else if d.pw.wakePinEn then d.wakeBy true false else d

/-- KA_ALARM_EXPIRY. -/
def doKaAlarmExpiry (d : Dev) : Dev := if d.pw.vmainOk && d.pw.alarmEn then d.wakeBy false true else d

/-- KA_CONTENTS_LOST: VKA can only fall while VMAIN is below UVLO. -/
def doKaContentsLost (d : Dev) : Dev := if d.pw.vmainOk then d else d.modPw (fun p => { p with kaLostPending := true })

/-- KA_CRYSTAL_TIMEOUT. The time-out is not taken back: KA_XTAL stays 0 and FS018 fires at every later start (DEDUCED, log
entry 108). -/
def doKaCrystalTimeout (d : Dev) : Dev := d.modPw (fun p => { p with kaXtal := false, xtalTimeout := true })

/-- KEEP_ALIVE_WRITE. -/
def applyKeepAliveWrite (c : Cmd) (d : Dev) : Dev :=
  let w := wd c.payload 0
  d.checked c 1 [(badLen c 2 || rsv w 0xFFFFFFF0, stParam)] fun d =>
    (d.modPw (fun p => { p with kaRet := vset p.kaRet (Fin.ofNat 16 (fld w 3 0)) (wd c.payload 1) })).ok c []
/-- It waits for a tick boundary, and does everything there (03 R95). -/
def doKeepAliveWrite (st : Stall) (tag : BitVec 8) : Dev → Dev := Dev.startAtTick st tag 0x041

/-- DEVICE_RESET. -/
def doDeviceReset (st : Stall) (tag : BitVec 8) : Dev → Dev :=
  Dev.start st tag 0x042 fun c d =>
    d.checked c 1 [(badLen c 1 || wd c.payload 0 != 0x5EED, stParam), (d.pw.standbyReq || d.pw.devResetReq, stState)] fun d =>
      (d.modPw (fun p => { p with devResetReq := true })).ok c []

/-- The keep-alive counter over one tick: 15,625 lane clocks are one unit of 2^-15 s (R36). The RC oscillator's deviation of
up to 3 % (R38) is taken as 0 (DESIGN CHOICE, log entry 108). -/
def Dev.kaTick (clks : Nat) (d : Dev) : Dev :=
  d.modPw (fun p => { p with kaTime := p.kaTime + BitVec.ofNat 63 ((d.clk + clks) / 15625 - d.clk / 15625) })

/-! ## Meanings -/

/-- POWER_UP_START. -/
def execPowerUpStart (s : State) : Host.Outcome State Fault Refusal := .next (s.on doPowerUpStart)
/-- INTERNAL_RESET_RELEASE. -/
def execInternalResetRelease (aOk bOk : Bool) (s : State) : Host.Outcome State Fault Refusal :=
  .next (s.on (doInternalResetRelease aOk bOk))
/-- START_UP_COMPLETE. -/
def execStartUpComplete (m : StartUpMeasurement) (s : State) : Host.Outcome State Fault Refusal :=
  .next (s.on (doStartUpComplete m))
/-- PCIE_CONFIG_REQUEST. -/
def execPcieConfigRequest (req : ConfigRead) (s : State) : Host.Outcome State Fault Refusal :=
  .next (s.on (doPcieConfigRequest req.ageMs req.reg))
/-- SUPPLY_FALLING. -/
def execSupplyFalling (r : Supply) (s : State) : Host.Outcome State Fault Refusal := .next (s.on (doSupplyFalling r))
/-- SUPPLY_RECOVERED. -/
def execSupplyRecovered (r : Supply) (s : State) : Host.Outcome State Fault Refusal := .next (s.on (doSupplyRecovered r))
/-- VBAT_CHECK. -/
def execVbatCheck (ok : Bool) (s : State) : Host.Outcome State Fault Refusal := .next (s.on (doVbatCheck ok))
/-- V24B_LOSS. -/
def execV24bLoss (s : State) : Host.Outcome State Fault Refusal := .next (s.on doV24bLoss)
/-- VMAIN_UVLO. -/
def execVmainUvlo (s : State) : Host.Outcome State Fault Refusal := .next (s.on doVmainUvlo)
/-- BYPASS_CLOSE. -/
def execBypassClose (s : State) : Host.Outcome State Fault Refusal := .next (s.on doBypassClose)
/-- POWER_LOSS_RECORD. -/
def execPowerLossRecord (s : State) : Host.Outcome State Fault Refusal := .next (s.on doPowerLossRecord)
/-- VKA_TO_VBAT. -/
def execVkaToVbat (s : State) : Host.Outcome State Fault Refusal := .next (s.on doVkaToVbat)
/-- SAFETY_B_SHUTDOWN. -/
def execSafetyBShutdown (s : State) : Host.Outcome State Fault Refusal := .next (s.on doSafetyBShutdown)
/-- PORST_ASSERT. -/
def execPorstAssert (s : State) : Host.Outcome State Fault Refusal := .next (s.on doPorstAssert)
/-- PORST_RELEASE. -/
def execPorstRelease (s : State) : Host.Outcome State Fault Refusal := .next (s.on doPorstRelease)
/-- HRST_ASSERT. -/
def execHrstAssert (s : State) : Host.Outcome State Fault Refusal := .next (s.on doHrstAssert)
/-- HRST_RELEASE. -/
def execHrstRelease (s : State) : Host.Outcome State Fault Refusal := .next (s.on doHrstRelease)
/-- STANDBY_ENTRY. -/
def execStandbyEntry (s : State) : Host.Outcome State Fault Refusal := .next (s.on doStandbyEntry)
/-- KA_WAKE_PIN. -/
def execKaWakePin (s : State) : Host.Outcome State Fault Refusal := .next (s.on doKaWakePin)
/-- KA_ALARM_EXPIRY. -/
def execKaAlarmExpiry (s : State) : Host.Outcome State Fault Refusal := .next (s.on doKaAlarmExpiry)
/-- KA_CONTENTS_LOST. -/
def execKaContentsLost (s : State) : Host.Outcome State Fault Refusal := .next (s.on doKaContentsLost)
/-- KA_CRYSTAL_TIMEOUT. -/
def execKaCrystalTimeout (s : State) : Host.Outcome State Fault Refusal := .next (s.on doKaCrystalTimeout)
/-- DEVICE_RESET_PULSE. -/
def execDeviceResetPulse (s : State) : Host.Outcome State Fault Refusal := .next (s.on doDeviceResetPulse)
/-- STANDBY_ENTER. -/
def execStandbyEnter (st : Stall) (tag : BitVec 8) (s : State) : Host.Outcome State Fault Refusal :=
  .next (s.on (doStandbyEnter st tag))
/-- KEEP_ALIVE_WRITE. -/
def execKeepAliveWrite (st : Stall) (tag : BitVec 8) (s : State) : Host.Outcome State Fault Refusal :=
  .next (s.on (doKeepAliveWrite st tag))
/-- DEVICE_RESET. -/
def execDeviceReset (st : Stall) (tag : BitVec 8) (s : State) : Host.Outcome State Fault Refusal :=
  .next (s.on (doDeviceReset st tag))


/-- RAILS_OFF. DRAM loses its contents with its supply: it reads as after power-on (log entry 3). -/
def execRailsOff (s : State) : Host.Outcome State Fault Refusal :=
  let t := s.on doRailsOff
  .next (if s.dev.pw.railsDue then { t with dram := [] } else t)

end Sys2Proof.Machine
end

