-- ==== Sys2Proof/Machine/Fault.lean ====
section
/-! DEFINITION. The fault commands, recovery and episodes, sown errors, memory and die errors, and the management pairs (spec
14 R522, R526 to R532, R541, R542, R554 to R557). -/
namespace Sys2Proof.Machine
open Sys2Proof

/-! ## FaultConfig and FaultClear (R554, R555) -/

/-- Is a FaultConfig out of range? -/
def badFaultConfig (p : List W32) : Bool :=
  let w := wd p 0
  let w1 := wd p 1
  if bitOf w 31 then
    rsv w 0x7000FF00 || notIn (fld w 27 16) 1 3600 || rsv w1 0xFFFF0000 || notIn (fld w1 15 0) 1 60000
  else
    rsv w 0x7FFF0E00 || w1 != 0 ||
      (match catalogue (fld w 8 0) with
       | none => true
       | some (_, floor) => !bitOf w 15 && decide (fld w 14 12 < floor))

/-- FAULT_CONFIG: it holds for firings from the next tick boundary on. -/
def doFaultConfig (st : Stall) (tag : BitVec 8) : Dev → Dev :=
  Dev.start st tag 0xB00 fun c d => Dev.checked c 1 [(badLen c 2 || badFaultConfig c.payload, stParam)]
    (fun d => d.await st tag .atTick) d

/-- FaultConfig at its boundary. -/
def applyFaultConfig (c : Cmd) (d : Dev) : Dev :=
  let w := wd c.payload 0
  let ft : FaultUnit :=
    if bitOf w 31 then
      { d.ft with latchN := BitVec.ofNat 8 (fld w 7 0), latchWinS := BitVec.ofNat 12 (fld w 27 16),
                  quietMs := BitVec.ofNat 16 (fld (wd c.payload 1) 15 0) }
    else { d.ft with sevSet := Mem.write none d.ft.sevSet (fld w 8 0) (if bitOf w 15 then none else some (fld w 14 12)) }
  ({ d with ft := ft }).ok c []

/-- FAULT_CLEAR. -/
def doFaultClear (st : Stall) (tag : BitVec 8) : Dev → Dev :=
  Dev.start st tag 0xB01 fun c d =>
    Dev.checked c 1 [(badLen c 1 || rsv (wd c.payload 0) 0xFFFFFFF8 || fld (wd c.payload 0) 2 0 == 0, stParam)]
      (fun d => d.await st tag .atTick) d

/-- FaultClear at its boundary (R528). -/
def applyFaultClear (c : Cmd) (d : Dev) : Dev :=
  let w := wd c.payload 0
  let f1 : FaultUnit := if bitOf w 0 then { d.ft with fired := 0, count := [] } else d.ft
  let f2 : FaultUnit := if bitOf w 1 then { f1 with firstSrc := 0, firstValid := false, firstOvf := false } else f1
  ({ d with ft := { f2 with tally := if bitOf w 2 then 0 else f2.tally } }).ok c []

/-! ## Recovery (R529 to R531, R556) -/

/-- Condition 1 of R529: QUIET_MS has passed since the last firing that acts on the axis, and so has the tick in which it ended
(02 R64). -/
def Dev.quiet (d : Dev) (a : AxisNo) : Bool := decide (d.clk > d.axf[a].lastFire + d.ft.quietMs.toNat * clksPerMs)
/-- Condition 2 of R529: at rest after its stop, or its bridge off; an axis without a bridge is at rest (DEDUCED, log entry 90). -/
def Dev.rested (d : Dev) (a : AxisNo) : Bool :=
  let m := d.mot[a]
  d.offAxis a || (!m.moving && m.v == 0 && m.stopAsked == 0)

/-- Conditions 1, 2 and 5 of R529; an axis without a lane stays in fault state (R536). -/
def Dev.mayRecover (d : Dev) (a : AxisNo) : Bool := d.quiet a && d.rested a && !d.axf[a].measureDue && (d.laneOf a).isSome

/-- An axis recovers: the tally, the window and the ledger; it keeps its set-point (R530, R531). -/
def Dev.recoverAxis (a : AxisNo) (d : Dev) : Dev :=
  let win := d.axf[a].recoveries.filter (fun t => decide (d.clk < t + d.ft.latchWinS.toNat * 1000 * clksPerMs))
  let d1 := d.modAxf a (fun f => { f with fault := false, sev := 0, latched := false, recoveries := d.clk :: win })
  let d2 : Dev := { d1 with ft := { d1.ft with tally := if d.pw.mramShut then d1.ft.tally else BitVec.ofNat 16 (satU 16 (d1.ft.tally.toNat + 1)) } }
  d2.ledger 2 0 0 (2 ^ a.val) (nW d2.ft.tally.toNat) (nW (satU 8 (d2.recovWin a)))

/-- AXIS_RECOVERY: the axis recovers where all conditions of R529 hold, or is latched instead (R530). -/
def doAxisRecovery (a : AxisNo) (d : Dev) : Dev :=
  let f := d.axf[a]
  if !f.fault || f.latched || d.ft.safeState || !d.mayRecover a then d
  else
    let n := d.recovWin a
    if d.ft.latchN != 0 && decide (n + 1 ≥ d.ft.latchN.toNat) then
      ((d.modAxf a (fun f => { f with latched := true })).ledger 3 0 0 (2 ^ a.val) (nW (satU 8 n)) 0).fire 153 (.axes [a])
    else d.recoverAxis a

/-- Does a FaultRecover name an axis that is not latched or may not recover, or SAFE outside safe state? With SAFE, safe
state is no obstacle, but only PORST_N ends the one of R541. -/
def Dev.recoverBlocked (d : Dev) (c : Cmd) : Bool :=
  let w := wd c.payload 0
  let safe := bitOf w 16
  (safe && (!d.ft.safeState || d.ft.safeUntilPower)) ||
    (bitsOf 16 (fld w 15 0)).any (fun k =>
      !d.axf[ax k].fault || !d.axf[ax k].latched || !d.mayRecover (ax k) || (d.ft.safeState && !safe))

/-- The checks of FaultRecover. -/
def Dev.recoverChecks (d : Dev) (c : Cmd) : List (Bool × Nat) :=
  [(noWord c, stParam), (d.recoverBlocked c, stState), (badLen c 1 || rsv (wd c.payload 0) 0xFFFE0000, stParam)]

/-- FAULT_RECOVER. -/
def doFaultRecover (st : Stall) (tag : BitVec 8) : Dev → Dev :=
  Dev.start st tag 0xB02 fun c d => Dev.checked c 1 (d.recoverChecks c) (fun d => d.await st tag .atTick) d

/-- FaultRecover at its boundary. -/
def applyFaultRecover (c : Cmd) (d : Dev) : Dev :=
  Dev.checked c 1 (d.recoverChecks c) (fun d =>
    let d1 : Dev := if bitOf (wd c.payload 0) 16 then { d with ft := { d.ft with safeState := false } } else d
    ((bitsOf 16 (fld (wd c.payload 0) 15 0)).foldl (fun d k => d.recoverAxis (ax k)) d1).ok c []) d

/-- EPISODE_CLOSE (R527). -/
def doEpisodeClose (d : Dev) : Dev :=
  if d.ft.episode && !d.ft.safeState && !allAxes.any (fun a => d.axf[a].fault) &&
      decide (d.clk > d.ft.lastSev2 + d.ft.quietMs.toNat * clksPerMs) then
    { d with ft := { d.ft with episode := false } }
  else d

/-! ## Sowing (R542, R557) -/

/-- May FaultSow not sow now: STATE of R557? -/
def Dev.sowBlocked (d : Dev) (target k : Nat) : Bool :=
  let axis := ax k
  match target with
  | 0 => decide (k ≥ 18) || d.lanes[(Fin.ofNat 18 k : LaneNo)].role != .inService || d.sv.rot.spare.isNone
  | 1 => decide (k < 16) && !d.assigned axis
  | 2 => decide (k < 16) && (!d.assigned axis || d.bridgeBusy axis)
  | 3 => decide (k < 96) && (d.spareFor k).isNone
  | 4 | 5 => d.sv.standby != .ready
  | _ => false

/-- Is INDEX or ADDRESS out of range for a target: lanes, axes, converters; the 49,152 words of an axis region, the 2^24
blocks of the host-writable region, and the words of MRAM, whose user area the spec does not size? -/
def sowRange (target k addr : Nat) : Bool :=
  match target with
  | 0 => decide (k ≥ 18)
  | 1 | 2 => decide (k ≥ 16) || decide (addr ≥ 49152)
  | 3 => decide (k ≥ 96)
  | 6 => decide (addr ≥ 2 ^ 24)
  | 7 => decide (addr ≥ 2 ^ 22)
  | _ => false

/-- FAULT_SOW. -/
def doFaultSow (st : Stall) (tag : BitVec 8) : Dev → Dev :=
  Dev.start st tag 0xB03 fun c d =>
    let w := wd c.payload 0
    let t := fld w 3 0
    let k := fld w 14 8
    Dev.checked c 3
      [(badLen c 2 || rsv w 0xFFFF80F0 || decide (t > 7), stParam), (d.sowBlocked t k, stState),
       (sowRange t k (wd c.payload 1).toNat, stParam)]
      (fun d =>
        let x : Sown := ⟨BitVec.ofNat 4 t, BitVec.ofNat 7 (if t ≥ 4 then 0 else k), wd c.payload 1, d.clk, st, tag⟩
        { d.await st tag .started with sv := { (d.await st tag .started).sv with sown := d.sv.sown ++ [x] } }) d

/-- SOW_TIMEOUT: errors not detected within 100 ms fire FS154, and their commands answer OK with DETECTED 0. -/
def doSowTimeout (d : Dev) : Dev :=
  (d.sv.sown.filter (fun x => d.passedMs x.since 100)).foldl (fun d x =>
    let d1 : Dev := { d with sv := { d.sv with sown := d.sv.sown.filter (fun y => y != x) } }
    (d1.asSown true (Dev.fire 154 .device)).respond x.stall x.tag stOk [0, 0]) d

/-! ## Dies and memories (R522) -/

/-- DIE_OVERTEMP: FS007 above 120 °C and FS008 above 135 °C, when a die comes to be above. -/
def doDieOvertemp (die : Fin 4) (tempC : Int) (d : Dev) : Dev :=
  let x := d.sv.dies[die]
  let d1 := d.modSv (fun s =>
    { s with dies := vset s.dies die { x with tempC := BitVec.ofInt 8 (satS 8 tempC), hot := decide (tempC > 135) } })
  let d2 := if decide (tempC > 120) && decide (x.tempC.toInt ≤ 120) then d1.fire 7 .device else d1
  if decide (tempC > 135) && !x.hot then d2.fire 8 .device else d2

/-- PLOT_MEMORY_ECC_ERROR of a word of an axis region. -/
def doPlotMemoryEccError (a : AxisNo) (_word : BitVec 16) (uncorrectable : Bool) (d : Dev) : Dev :=
  if uncorrectable then d.withSown 2 a.val 147 (fun d => d.fire 147 (.axes [a]))
  else d.withSown 1 a.val 146 (fun d => d.fire 146 .device)

/-- MRAM_ECC_ERROR. -/
def doMramEccError (d : Dev) : Dev := d.withSown 7 0 148 (fun d => d.fire 148 .device)
/-- DRAM_CORRECTABLE_RATE: errors counted in one second. -/
def doDramCorrectableRate (count : Nat) (d : Dev) : Dev := if count > 16 then d.fire 149 .device else d

/-! ## Management pairs (R541, R545, R546) -/

/-- A source fires at severity 7, whatever is configured. -/
def Dev.fireSeven (src : Nat) (d : Dev) : Dev :=
  let d1 := ({ d with ft := { d.ft with sevSet := Mem.write none d.ft.sevSet src (some 7) } }).fire src .device
  { d1 with ft := { d1.ft with sevSet := d.ft.sevSet } }

/-- A roll-back begins: by command, or by the device with none (R546). -/
def Dev.rollBack (cmd : Option (Stall × BitVec 8)) (d : Dev) : Dev :=
  (d.modSv (fun s => { s with fwPhase := 5, fwBefore := 4, fwCmd := cmd, fwSince := d.clk, standbyNew := false, switchClk := none,
                              standby := if s.standby == .ready then .inUpdate else s.standby })).fire 3 .device

/-- The active pair has failed and no standby can take over: FS000 acts at severity 7 (R541). -/
def Dev.noPair (d : Dev) : Dev :=
  let d1 := (d.modSv (fun s => { s with mpChange := .none })).fireSeven 0
  { d1 with ft := { d1.ft with safeUntilPower := true } }

/-- A sequence of Table 14.4 that has not switched is aborted (R545): the standby restarts with the running image, doorbells
are held, and the command that asked answers. A roll-back stays due. -/
def Dev.abortUpdate (d : Dev) : Dev :=
  let d1 := (d.modSv (fun s => { s with fwPhase := (if s.fwPhase = 5 then 5 else s.fwBefore), fwCmd := none, standbyNew := false, standby := .starting,
                                        mpWasActive := false, mpChange := .restart d.age })).fire 3 .device
  match d.sv.fwCmd with
  | some (st, tag) => d1.respond st tag stState []
  | none => d1

/-- The active pair fails with a source (R541): before the switch of a live update it aborts the update, in a trial it rolls
back; without a ready standby FS000 acts at severity 7. -/
def Dev.activeFails (src : Nat) (d : Dev) : Dev :=
  let s := d.sv
  if !d.pairActs then d
  else if (s.fwPhase == 3 || s.fwPhase == 5) && s.switchClk.isNone && s.standby == .inUpdate then (d.fire src .device).abortUpdate
  else if s.standby == .ready then
    let d1 := (d.fire src .device).modSv (fun s => { s with mpChange := .due d.age })
    if s.fwPhase == 4 then d1.rollBack none else d1
  else (if src = 0 then d else d.fire src .device).noPair

/-- The standby is active from this boundary on, and the failed pair is tested (R541). No command has been timed out by the
change: each limit is longer by it and the frame that R541 allows. Held doorbells are taken. -/
def Dev.pairTakesOver (since : Nat) (d : Dev) : Dev :=
  let more := d.age - since + d.tk.conf.frameTicks.toNat
  let d1 := d.modSv (fun s => { s with mpChange := .none, mpWasActive := true, active := !s.active, standby := .starting,
                                       takeovers := BitVec.ofNat 8 (satU 8 (s.takeovers.toNat + 1)) })
  let later (c : Cmd) : Cmd := { c with deadline := c.deadline.map (fun t => t + more) }
  let d2 : Dev := { d1 with hp := { d1.hp with inFlight := d1.hp.inFlight.map later } }
  if d2.hp.devReady then d2.takeHeld else d2

/-- The tick boundary of a change of pairs. A standby that has failed in the tick of the failure cannot take over; one taken
for a roll-back can, since it has not started the other image yet. -/
def Dev.mpTick (d : Dev) : Dev :=
  match d.sv.mpChange with
  | .none | .restart _ => d
  | .due t => if d.sv.standby == .starting || d.sv.standby == .failed then d.noPair else d.pairTakesOver t
  | .restarted t => d.pairTakesOver t

/-- MP_LOCKSTEP_ERROR of the active pair. -/
def doMpLockstepError (d : Dev) : Dev := d.withSown 5 0 0 (fun d => d.activeFails 0)
/-- MP_WATCHDOG_EXPIRY of the active pair. -/
def doMpWatchdogExpiry (d : Dev) : Dev := d.activeFails 9

/-- FS001 is suppressed during a live switch or a roll-back (Table 14.4). -/
def Dev.fireStandby (d : Dev) : Dev := if d.sv.fwPhase == 3 || d.sv.fwPhase == 5 then d else d.fire 1 .device

/-- STANDBY_PAIR_FAILURE: the pair is tested; one that is failed or under test acts on nothing. -/
def doStandbyPairFailure (d : Dev) : Dev :=
  if d.sv.standby == .failed || d.sv.standby == .starting then d
  else d.withSown 4 0 1 (fun d => d.fireStandby.modSv (fun s => { s with standby := .starting, mpWasActive := false, standbyNew := false }))

/-- MP_TEST_DONE: the pair under test is ready, or has failed; FS001 fires for one that was active. -/
def doMpTestDone (pass : Bool) (d : Dev) : Dev :=
  if d.sv.standby != .starting || !d.pairActs then d
  else
    -- a roll-back that waited for a standby begins its sequence now (R546)
    let waits := d.sv.fwPhase == 5 && d.sv.switchClk.isNone && d.sv.fwCmd.isNone
    let d1 := d.modSv (fun s => { s with standby := if !pass then .failed else if waits then .inUpdate else .ready, mpWasActive := false,
                                         fwSince := if waits then d.clk else s.fwSince })
    if !pass && d.sv.mpWasActive then d1.fireStandby else d1

/-- The commands of this chapter that wait for a tick boundary. -/
def applyFaults (c : Cmd) (d : Dev) : Dev :=
  match c.code.toNat with
  | 0xB00 => applyFaultConfig c d
  | 0xB01 => applyFaultClear c d
  | 0xB02 => applyFaultRecover c d
  | _ => d

/-! ## Meanings -/

/-- FAULT_CONFIG. -/
def execFaultConfig (st : Stall) (tag : BitVec 8) (s : State) : Host.Outcome State Fault Refusal :=
  .next (s.on (doFaultConfig st tag))
/-- FAULT_CLEAR. -/
def execFaultClear (st : Stall) (tag : BitVec 8) (s : State) : Host.Outcome State Fault Refusal :=
  .next (s.on (doFaultClear st tag))
/-- FAULT_RECOVER. -/
def execFaultRecover (st : Stall) (tag : BitVec 8) (s : State) : Host.Outcome State Fault Refusal :=
  .next (s.on (doFaultRecover st tag))
/-- FAULT_SOW. -/
def execFaultSow (st : Stall) (tag : BitVec 8) (s : State) : Host.Outcome State Fault Refusal :=
  .next (s.on (doFaultSow st tag))
/-- SOW_TIMEOUT. -/
def execSowTimeout (s : State) : Host.Outcome State Fault Refusal := .next (s.on doSowTimeout)
/-- EPISODE_CLOSE. -/
def execEpisodeClose (s : State) : Host.Outcome State Fault Refusal := .next (s.on doEpisodeClose)
/-- AXIS_RECOVERY. -/
def execAxisRecovery (axis : AxisNo) (s : State) : Host.Outcome State Fault Refusal := .next (s.on (doAxisRecovery axis))
/-- RAIL_FAULT_RESTART. -/
def execRailFaultRestart (s : State) : Host.Outcome State Fault Refusal := .next (s.on doRailFaultRestart)
/-- DIE_OVERTEMP. -/
def execDieOvertemp (die : Fin 4) (tempC : Int) (s : State) : Host.Outcome State Fault Refusal :=
  .next (s.on (doDieOvertemp die tempC))
/-- THERMAL_RESTART. -/
def execThermalRestart (temps : List Int) (s : State) : Host.Outcome State Fault Refusal :=
  .next (s.on (doThermalRestart temps))
/-- PLOT_MEMORY_ECC_ERROR. -/
def execPlotMemoryEccError (axis : AxisNo) (word : BitVec 16) (uncorrectable : Bool) (s : State) : Host.Outcome State Fault Refusal :=
  .next (s.on (doPlotMemoryEccError axis word uncorrectable))
/-- MRAM_ECC_ERROR. -/
def execMramEccError (s : State) : Host.Outcome State Fault Refusal := .next (s.on doMramEccError)
/-- DRAM_CORRECTABLE_RATE. -/
def execDramCorrectableRate (count : Nat) (s : State) : Host.Outcome State Fault Refusal :=
  .next (s.on (doDramCorrectableRate count))
/-- MP_LOCKSTEP_ERROR. -/
def execMpLockstepError (s : State) : Host.Outcome State Fault Refusal := .next (s.on doMpLockstepError)
/-- MP_WATCHDOG_EXPIRY. -/
def execMpWatchdogExpiry (s : State) : Host.Outcome State Fault Refusal := .next (s.on doMpWatchdogExpiry)
/-- STANDBY_PAIR_FAILURE. -/
def execStandbyPairFailure (s : State) : Host.Outcome State Fault Refusal := .next (s.on doStandbyPairFailure)
/-- MP_TEST_DONE. -/
def execMpTestDone (pass : Bool) (s : State) : Host.Outcome State Fault Refusal := .next (s.on (doMpTestDone pass))

end Sys2Proof.Machine
end

