-- ==== Sys2Proof/Machine/Firmware.lean ====
section
/-! DEFINITION. Firmware images, live update and trial, and reading the ledger (spec 14 R543 to R546, R552, R562 to R566). -/
namespace Sys2Proof.Machine
open Sys2Proof

/-- The image that does not run. -/
def Service.other (s : Service) : Fin 2 := s.running + 1

/-- FW_LOAD: with FIRST the image starts anew and OTHER_VALID is cleared. -/
def doFwLoad (st : Stall) (tag : BitVec 8) : Dev → Dev :=
  Dev.start st tag 0xB30 fun c d =>
    let p := c.payload
    let w := wd p 0
    let n := p.length - 1
    let ofs := fld w 21 0
    Dev.checked c 1
      [(d.sv.fwPhase.toNat ≥ 3, stState), (p.length < 2 || rsv w 0x7FC00003 || decide (ofs + 4 * n > 2 ^ 22), stParam)]
      (fun d =>
        let first := bitOf w 31
        (d.modSv (fun s =>
          { s with images := vmod s.images s.other (fun i =>
                     { i with words := Mem.writes 0 (if first then [] else i.words) (ofs / 4) (p.drop 1), valid := i.valid && !first })
                   fwPhase := if first then 1 else s.fwPhase })).ok c []) d

/-- Bytes of an image. -/
def Image.bytes (i : Image) (len : Nat) : List Byte := (bytesOf (Mem.reads 0 i.words 0 (cdiv len 4))).take len

/-- The first check that an image fails: 1 CRC, 2 signature, 3 stepping, 4 header; 0 none. -/
def Image.reason (i : Image) (running : BitVec 24) (len : Nat) (crc : W32) (signatureOk : Bool) : Nat :=
  firstBad [(crc32c (i.bytes len) != crc, 1), (!signatureOk, 2), (!i.fits, 3), (i.says running 0 % 2 == 0, 4)]

/-- FW_COMMIT, with what the check of the signature and the comparison of the standard law programs find. -/
def doFwCommit (st : Stall) (tag : BitVec 8) (signatureOk lawsDiffer : Bool) : Dev → Dev :=
  Dev.start st tag 0xB31 fun c d =>
    let w := wd c.payload 0
    Dev.checked c 2 [(badLen c 2 || rsv w 0xFFC00000, stParam)] (fun d =>
      let s := d.sv
      let i := s.images[s.other]
      let run := s.images[s.running].version
      let r := i.reason run (fld w 21 0) (wd c.payload 1) signatureOk
      if r ≠ 0 then d.respond st tag stParam [mkw [(r, 28, 4)]]
      else
        let version := BitVec.ofInt 24 (i.says run 2)
        let live := i.says run 3 % 2 != 0
        (d.modSv (fun s =>
          { s with images := vset s.images s.other { i with version := version, valid := true }, liveOk := live, lawsChanged := lawsDiffer,
                   fwPhase := if s.fwPhase.toNat < 3 then 2 else s.fwPhase })).ok c
          [mkw [(version.toNat, 0, 24), (b2n live, 24, 1), (b2n lawsDiffer, 25, 1)]]) d

/-- The checks of FwActivate. -/
def Dev.activateChecks (d : Dev) (c : Cmd) : List (Bool × Nat) :=
  let w := wd c.payload 0
  let s := d.sv
  let mode := fld w 1 0
  let trial := s.fwPhase == 4
  [(noWord c, stParam),
   (!s.images[s.other].valid || (mode == 1 && (s.standby != .ready || !s.liveOk)) || (decide (mode ≤ 1) && trial) ||
      (mode == 2 && !trial), stState),
   (badLen c 1 || rsv w 0x0000FFFC || mode == 3 || (mode == 1 && notIn (fld w 31 16) 10 3600), stParam)]

/-- FW_ACTIVATE: at the next start, live, or back. -/
def doFwActivate (st : Stall) (tag : BitVec 8) : Dev → Dev :=
  Dev.start st tag 0xB32 fun c d => Dev.checked c 1 (d.activateChecks c) (fun d =>
    let w := wd c.payload 0
    match fld w 1 0 with
    | 0 => (d.modSv (fun s => { s with nextStart := true })).ok c []
    | 1 =>
      (d.modSv (fun s => { s with fwPhase := 3, fwBefore := s.fwPhase, fwCmd := some (st, tag), fwSince := d.clkTaken c, trialS := fld w 31 16,
                                  standbyNew := false, switchClk := none, standby := .inUpdate })).await st tag .started
    | _ => ((d.rollBack (some (st, tag))).modSv (fun s => { s with fwSince := d.clkTaken c })).await st tag .started) d

/-- FW_CONFIRM. -/
def doFwConfirm (st : Stall) (tag : BitVec 8) : Dev → Dev :=
  Dev.start st tag 0xB33 fun c d => Dev.checked c 1 [(d.sv.fwPhase != 4, stState), (badLen c 0, stParam)] (fun d =>
    let s := d.sv
    let d1 := d.modSv (fun s => { s with bootImage := s.running, fwPhase := 0, nextStart := false })
    (d1.ledger 7 0 0 0 ((s.images[s.other].version).setWidth 32 ||| 0x03000000) ((s.images[s.running].version).setWidth 32)).ok c []) d

/-- A sequence of Table 14.4 runs and has not switched. -/
def Dev.updating (d : Dev) : Bool := (d.sv.fwPhase == 3 || d.sv.fwPhase == 5) && d.sv.switchClk.isNone

/-- STANDBY_IMAGE_STARTED: the standby has started the image of a sequence, or after an aborted one the running image
(R545). -/
def doStandbyImageStarted (d : Dev) : Dev :=
  match d.sv.mpChange with
  | .restart t => d.modSv (fun s => { s with mpChange := .restarted t })
  | _ =>
  if d.updating && (d.sv.standby == .inUpdate || d.sv.standby == .ready) then
    d.modSv (fun s => { s with standby := .inUpdate, standbyNew := true })
  else d

/-- Has a best-effort command other than the FwActivate started and not completed? -/
def Dev.bestEffortRuns (d : Dev) : Bool :=
  d.hp.inFlight.any (fun c => !c.express && c.phase != .waiting && c.phase != .answered && d.sv.fwCmd != some (c.stall, c.tag))

/-- LIVE_SWITCH at a frame boundary, at most 1 s after instant w: the standby becomes active with the other image, and the
lanes switch to the standard programs that were written beside those running. -/
def doLiveSwitch (d : Dev) : Dev :=
  if !d.updating || !d.sv.standbyNew || !d.isFrame || d.bestEffortRuns || !d.pairActs || decide (d.clk > d.sv.fwSince + 1000 * clksPerMs) then d
  else
    let s := d.sv
    let back := s.fwPhase == 5
    let ver (i : Fin 2) : W32 := (s.images[i].version).setWidth 32
    let d1 := (d.modSv (fun s =>
      { s with running := s.other, active := !s.active, standbyNew := false, stdArea := s.stdArea != s.lawsChanged, switchClk := some d.clk, fwCmd := none })).ledger 7 0 0 0
        (ver s.running ||| (if back then 0x04000000 else 0x02000000)) (ver s.other)
    match s.fwCmd with
    | some (st, tag) => d1.respond st tag stOk []
    | none => d1

/-- LIVE_SWITCH_TIMEOUT: 1 s without a switching boundary. -/
def doLiveSwitchTimeout (d : Dev) : Dev :=
  if !d.updating || !d.passedMs d.sv.fwSince 1000 || (d.sv.fwCmd.isNone && d.sv.standby == .starting) || !d.pairActs then d
  else
    let d1 := d.modSv (fun s => { s with fwPhase := s.fwBefore, fwCmd := none, standbyNew := false,
                                         standby := if s.standby == .inUpdate then .ready else s.standby })
    match d.sv.fwCmd with
    | some (st, tag) => d1.respond st tag stTimeout []
    | none => d1

/-- TRIAL_START: 400 ms after the switch the former active pair is standby, and the trial starts; after a roll-back the
sequence ends. -/
def doTrialStart (d : Dev) : Dev :=
  match d.sv.switchClk with
  | none => d
  | some t =>
    if !(d.sv.fwPhase == 3 || d.sv.fwPhase == 5) || !d.passedMs t 400 then d
    else
      d.modSv (fun s => { s with switchClk := none, standby := .ready, fwPhase := if s.fwPhase == 3 then 4 else 0,
                                 trialEnd := d.clk + 1000 * clksPerMs * s.trialS })

/-- TRIAL_EXPIRY: TRIAL_S have passed without FwConfirm. -/
def doTrialExpiry (d : Dev) : Dev :=
  if d.sv.fwPhase == 4 && decide (d.clk + d.tickClks ≥ d.sv.trialEnd) then d.rollBack none else d

/-- LEDGER_READ: records never written read as zeros. -/
def doLedgerRead (st : Stall) (tag : BitVec 8) : Dev → Dev :=
  Dev.start st tag 0xB40 fun c d =>
    let w := wd c.payload 0
    let w1 := wd c.payload 1
    Dev.checked c 1 [(badLen c 2 || rsv w 0xFFFF0000 || rsv w1 0xFFFFFF80 || fld w1 6 0 == 0, stParam)] (fun d =>
      let rec_ (i : Nat) : List W32 :=
        let r := Mem.read [] d.sv.ledger ((fld w 15 0 + i) % 65536)
        if r.isEmpty then List.replicate 8 0 else r
      d.ok c (mkw [(d.sv.ledgerWraps.toNat, 16, 16), (d.sv.ledgerHead.toNat, 0, 16)] :: (List.range (fld w1 6 0)).flatMap rec_)) d

/-! ## Meanings -/

/-- FW_LOAD. -/
def execFwLoad (st : Stall) (tag : BitVec 8) (s : State) : Host.Outcome State Fault Refusal := .next (s.on (doFwLoad st tag))
/-- FW_COMMIT. -/
def execFwCommit (st : Stall) (tag : BitVec 8) (signatureOk lawsDiffer : Bool) (s : State) : Host.Outcome State Fault Refusal :=
  .next (s.on (doFwCommit st tag signatureOk lawsDiffer))
/-- FW_ACTIVATE. -/
def execFwActivate (st : Stall) (tag : BitVec 8) (s : State) : Host.Outcome State Fault Refusal :=
  .next (s.on (doFwActivate st tag))
/-- FW_CONFIRM. -/
def execFwConfirm (st : Stall) (tag : BitVec 8) (s : State) : Host.Outcome State Fault Refusal :=
  .next (s.on (doFwConfirm st tag))
/-- LEDGER_READ. -/
def execLedgerRead (st : Stall) (tag : BitVec 8) (s : State) : Host.Outcome State Fault Refusal :=
  .next (s.on (doLedgerRead st tag))
/-- STANDBY_IMAGE_STARTED. -/
def execStandbyImageStarted (s : State) : Host.Outcome State Fault Refusal := .next (s.on doStandbyImageStarted)
/-- LIVE_SWITCH. -/
def execLiveSwitch (s : State) : Host.Outcome State Fault Refusal := .next (s.on doLiveSwitch)
/-- LIVE_SWITCH_TIMEOUT. -/
def execLiveSwitchTimeout (s : State) : Host.Outcome State Fault Refusal := .next (s.on doLiveSwitchTimeout)
/-- TRIAL_START. -/
def execTrialStart (s : State) : Host.Outcome State Fault Refusal := .next (s.on doTrialStart)
/-- TRIAL_EXPIRY. -/
def execTrialExpiry (s : State) : Host.Outcome State Fault Refusal := .next (s.on doTrialExpiry)

end Sys2Proof.Machine
end

