-- ==== Sys2Proof/Machine/Verify.lean ====
section
/-! DEFINITION. Verification of user law programs: the encodings of the instructions, the checks of 05 Table 5.10 and the
pass of R165 (spec 05 R150 to R157, R164, R165). -/
namespace Sys2Proof.Machine
open Sys2Proof

/-- What the checks of an instruction depend on beside its fields. -/
inductive OpKind where
  | plain | load | sta | fst | sel | shift | sac | mac | macPair | sincos | br | bcc | rpt | rptr | end_
  deriving DecidableEq, Repr

/-- A row of Table 5.9: clocks, whether S is allowed, the bits below bit 33 that the instruction uses (below 34 in formats
J and R), and its kind. -/
structure OpRow where
  clocks : Nat
  sat : Bool
  used : Nat
  kind : OpKind
  deriving DecidableEq, Repr

/-- The mask of bits [hi:lo]. -/
def bitsAt (hi lo : Nat) : Nat := (2 ^ (hi - lo + 1) - 1) * 2 ^ lo
/-- A field of an instruction. -/
def ifld (w : BitVec 40) (hi lo : Nat) : Nat := (w.toNat >>> lo) % 2 ^ (hi - lo + 1)

/-- Fields of format A: DD, DA, DB. -/
def mDd : Nat := bitsAt 32 29
def mDa : Nat := bitsAt 28 25
def mDb : Nat := bitsAt 24 21
/-- Fields of format L behind REG: AK, and P or OFS. -/
def mAk : Nat := bitsAt 28 26
def mP : Nat := bitsAt 25 24
def mOfs : Nat := bitsAt 15 0
/-- ACC, DX, DY, LXE and LYE of format M; the fields of each parallel load. -/
def mMac : Nat := bitsAt 32 22 + bitsAt 12 12
def mLx : Nat := bitsAt 21 13
def mLy : Nat := bitsAt 11 3

/-- Table 5.9 with the formats of Table 5.7. -/
def opRow (op : Nat) : Option OpRow :=
  match op with
  | 0x00 => some ⟨1, false, 0, .plain⟩
  | 0x01 => some ⟨1, false, mDd + mDa, .plain⟩
  | 0x02 => some ⟨1, false, mDd + bitsAt 19 0, .plain⟩
  | 0x03 => some ⟨1, false, mDd + mAk + mP, .plain⟩
  | 0x04 => some ⟨1, false, mDd + mAk + mOfs, .plain⟩
  | 0x05 => some ⟨1, false, mDd + bitsAt 11 0, .plain⟩
  | 0x06 => some ⟨1, false, mDd + mAk + mP, .plain⟩
  | 0x07 => some ⟨1, false, mDd + mAk + mOfs, .plain⟩
  | 0x08 => some ⟨1, false, mDd + bitsAt 11 0, .sta⟩
  | 0x09 => some ⟨10, false, mDd + mAk + mOfs, .plain⟩
  | 0x0A => some ⟨1, false, mDd + mAk + mOfs, .fst⟩
  | 0x0B => some ⟨1, false, bitsAt 31 29 + mOfs, .plain⟩
  | 0x0C => some ⟨1, false, bitsAt 31 29 + bitsAt 23 0, .plain⟩
  | 0x0D => some ⟨1, false, bitsAt 31 29 + mDa, .plain⟩
  | 0x10 => some ⟨1, true, mDd + mDa + mDb, .plain⟩
  | 0x11 => some ⟨1, true, mDd + mDa + mDb, .plain⟩
  | 0x12 => some ⟨1, true, mDd + mDa + bitsAt 19 0, .plain⟩
  | 0x13 => some ⟨1, true, mDd + mDa, .plain⟩
  | 0x14 => some ⟨1, true, mDd + mDa, .plain⟩
  | 0x15 => some ⟨1, false, mDd + mDa + mDb, .plain⟩
  | 0x16 => some ⟨1, false, mDd + mDa + mDb, .plain⟩
  | 0x17 => some ⟨1, false, mDd + mDa + mDb, .plain⟩
  | 0x18 => some ⟨1, false, mDd + mDa + mDb, .plain⟩
  | 0x19 => some ⟨1, false, mDd + mDa + mDb, .plain⟩
  | 0x1A => some ⟨1, false, mDd + mDa + mDb, .plain⟩
  | 0x1B => some ⟨1, true, mDd + mDa + bitsAt 4 0, .shift⟩
  | 0x1C => some ⟨1, false, mDd + mDa + bitsAt 4 0, .shift⟩
  | 0x1D => some ⟨1, true, mDd + mDa + mDb, .plain⟩
  | 0x1E => some ⟨1, false, mDd + mDa + mDb + bitsAt 20 17, .sel⟩
  | 0x20 => some ⟨1, true, mMac, .mac⟩
  | 0x21 => some ⟨1, true, mMac, .mac⟩
  | 0x22 => some ⟨1, true, mMac, .mac⟩
  | 0x23 => some ⟨1, true, mMac, .macPair⟩
  | 0x24 => some ⟨1, true, mMac, .macPair⟩
  | 0x25 => some ⟨2, true, mMac, .macPair⟩
  | 0x28 => some ⟨1, false, bitsAt 32 31 + bitsAt 28 25, .plain⟩
  | 0x29 => some ⟨1, true, bitsAt 30 19, .sac⟩
  | 0x2A => some ⟨1, true, bitsAt 32 29, .plain⟩
  | 0x2B => some ⟨1, true, bitsAt 32 31 + bitsAt 24 19, .plain⟩
  | 0x2C => some ⟨1, false, bitsAt 32 31, .plain⟩
  | 0x2D => some ⟨1, false, mDd + mDa, .sincos⟩
  | 0x2E => some ⟨12, true, mDd + mDa + mDb, .plain⟩
  | 0x2F => some ⟨8, false, mDd + mDa, .plain⟩
  | 0x30 => some ⟨1, false, bitsAt 10 0, .br⟩
  | 0x31 => some ⟨1, false, bitsAt 33 30 + bitsAt 10 0, .bcc⟩
  | 0x32 => some ⟨1, false, bitsAt 10 0, .rpt⟩
  | 0x33 => some ⟨1, false, bitsAt 32 29 + bitsAt 10 0, .rptr⟩
  | 0x3F => some ⟨3, false, 0, .end_⟩
  | _ => none

/-- The row of an instruction word. -/
def rowOf (w : BitVec 40) : Option OpRow := opRow (ifld w 39 34)
def OpKind.isBranch (k : OpKind) : Bool := k == .br || k == .bcc
def OpKind.isRepeat (k : OpKind) : Bool := k == .rpt || k == .rptr
def OpKind.isControl (k : OpKind) : Bool := k.isBranch || k.isRepeat || k == .end_
/-- Is a word an instruction of a kind? -/
def kindIs (f : OpKind → Bool) (w : BitVec 40) : Bool := ((rowOf w).map (fun r => f r.kind)).getD false
/-- Clocks of a word. -/
def clocksOf (w : BitVec 40) : Nat := ((rowOf w).map (·.clocks)).getD 1

/-- Are bits set that the instruction does not use? Bit 33 is S outside formats J and R. -/
def OpRow.spare (r : OpRow) (w : BitVec 40) : Bool :=
  let jr := r.kind.isBranch || r.kind.isRepeat
  let mac := r.kind == .mac || r.kind == .macPair
  let used := if mac then r.used + (if ifld w 22 22 = 1 then mLx else 0) + (if ifld w 12 12 = 1 then mLy else 0) else r.used
  let w1 := if jr then ifld w 33 0 else ifld w 32 0
  w1 &&& used != w1

/-- Is an operand out of range (reason 6)? -/
def OpRow.badOperand (r : OpRow) (w : BitVec 40) : Bool :=
  let loads := ifld w 22 22 == 1 && ifld w 12 12 == 1 && (ifld w 21 18 == ifld w 11 8 || ifld w 17 15 == ifld w 7 5)
  match r.kind with
  | .mac => loads
  | .macPair => loads || ifld w 27 27 == 1 || ifld w 23 23 == 1
  | .sincos => ifld w 29 29 == 1
  | .shift => decide (ifld w 4 0 > 19)
  | .sac => decide (signedOf 6 (ifld w 24 19) < -24) || decide (signedOf 6 (ifld w 24 19) > 19)
  | .rpt | .rptr => ifld w 10 0 == 0 || decide (ifld w 10 0 > 1024)
  | _ => false

/-- The lowest reason among 3 to 9 and 11 at an index, 0 where none applies. prev1 and prev2 are the words before it. -/
def staticReason (len : Nat) (hook : Fin 3) (i : Nat) (prev2 prev1 : Option (BitVec 40)) (w : BitVec 40) : Nat :=
  match rowOf w with
  | none => 3
  | some r =>
    let after (f : OpKind → Bool) (p : Option (BitVec 40)) : Bool := (p.map (kindIs f)).getD false
    let target := ifld w 10 0
    firstBad
      [((r.kind == .sel && decide (ifld w 20 17 > 9)) || (r.kind == .bcc && decide (ifld w 33 30 > 9)), 3),
       (r.spare w, 4),
       (!(r.kind.isBranch || r.kind.isRepeat) && ifld w 33 33 == 1 && !r.sat, 5),
       (r.badOperand w, 6),
       (r.kind.isBranch && (decide (target ≤ i + 2) || decide (target ≥ len)), 7),
       (r.kind.isControl && (after OpKind.isBranch prev1 || after OpKind.isBranch prev2), 8),
       ((r.kind.isRepeat && i + 1 == len) || (after OpKind.isRepeat prev1 && (r.clocks != 1 || r.kind.isControl)), 9),
       (r.kind == .sta && !mayWrite hook (ifld w 11 0), 11)]

/-- The first index with a reason among 3 to 9 and 11. -/
def staticScan (len : Nat) (hook : Fin 3) : Nat → Option (BitVec 40) → Option (BitVec 40) → List (BitVec 40) → Option (Nat × Nat)
  | _, _, _, [] => none
  | i, p2, p1, w :: ws =>
    match staticReason len hook i p2 p1 w with
    | 0 => staticScan len hook (i + 1) p1 (some w) ws
    | r => some (r, i)

/-- What the pass of R165 holds: latest start and largest FST count by index, both plus one, 0 where unreached; the bound,
the longest held-off span, the largest FST count, and the first failure. -/
structure PathPass where
  start : Mem Nat
  fst : Mem Nat
  bound : Nat
  holdoff : Nat
  fstMax : Nat
  bad : Option (Nat × Nat)
  deriving DecidableEq, Repr

/-- A path goes on at an index. -/
def PathPass.goto (p : PathPass) (t f j : Nat) : PathPass :=
  { p with start := Mem.write 0 p.start j (max (Mem.read 0 p.start j) (t + 1)), fst := Mem.write 0 p.fst j (max (Mem.read 0 p.fst j) (f + 1)) }

/-- The pass at one index: prev2 is the word two before, next1 and next2 those behind. A held-off span is that of a branch
with its delay slots, of a repeat, or of a multi-clock instruction, END among them (R158). -/
def PathPass.at_ (p : PathPass) (len i : Nat) (prev2 : Option (BitVec 40)) (w : BitVec 40) (rest : List (BitVec 40)) : PathPass :=
  let t0 := Mem.read 0 p.start i
  if p.bad.isSome || t0 == 0 then p
  else
    let clks (k : Nat) : Nat := ((rest[k]?).map clocksOf).getD 0
    let rpt := kindIs OpKind.isRepeat w
    let n := ifld w 10 0
    let clocks := if rpt then 1 + n * clks 0 else clocksOf w
    let fsts := if rpt then (if ((rest[0]?).map (kindIs (· == .fst))).getD false then n else 0) else if kindIs (· == .fst) w then 1 else 0
    let span := if kindIs OpKind.isBranch w then clocks + clks 0 + clks 1 else if clocks > 1 then clocks else 0
    let last := if rpt then i + 1 else i
    let t := t0 - 1 + clocks
    let f := Mem.read 0 p.fst i - 1 + fsts
    let p1 := { p with holdoff := max p.holdoff span, fstMax := max p.fstMax f }
    if kindIs (· == .end_) w then { p1 with bound := max p1.bound t }
    else
      let targets : List Nat := match prev2 with
        | some b => if kindIs OpKind.isBranch b then ifld b 10 0 :: (if kindIs (· == .bcc) b then [i + 1] else []) else [last + 1]
        | none => [last + 1]
      if targets.any (fun j => decide (j ≥ len)) then { p1 with bad := some (10, last) }
      else if f > 64 then { p1 with bad := some (12, last) }
      else targets.foldl (fun p j => p.goto t f j) p1

/-- The pass in address order. -/
def pathScan (len : Nat) : Nat → Option (BitVec 40) → Option (BitVec 40) → List (BitVec 40) → PathPass → PathPass
  | _, _, _, [], p => p
  | i, p2, p1, w :: ws, p => pathScan len (i + 1) p1 (some w) ws (p.at_ len i p2 w ws)

/-- What verification finds: a reason and an index, or the program's bound, longest held-off span and largest FST count. -/
inductive Verdict where
  | fails (reason index : Nat)
  | passes (bound holdoff fstMax : Nat)
  deriving DecidableEq, Repr

/-- The words of an image below a length, up to the first that was not loaded. -/
def imageUpTo (m : Mem (Option (BitVec 40))) : Nat → Nat → List (BitVec 40)
  | _, 0 => []
  | i, n + 1 => match Mem.read none m i with
    | some w => w :: imageUpTo m (i + 1) n
    | none => []

/-- The five bytes of an instruction, the least significant first. -/
def insBytes (w : BitVec 40) : List Byte := (List.range 5).map (fun i => (w >>> (8 * i)).setWidth 8)

/-- Verification in the order of R164. -/
def verifyImage (m : Mem (Option (BitVec 40))) (len : Nat) (crc : W32) (hook : Fin 3) : Verdict :=
  if len = 0 ∨ len > 2048 then .fails 13 0
  else
    let ws := imageUpTo m 0 len
    if ws.length < len then .fails 1 ws.length
    else if crc32c (ws.flatMap insBytes) ≠ crc then .fails 2 0
    else match staticScan len hook 0 none none ws with
      | some (r, i) => .fails r i
      | none =>
        let p := pathScan len 0 none none ws ⟨[(0, 1)], [(0, 1)], 0, 0, 0, none⟩
        match p.bad with
        | some (r, i) => .fails r i
        | none => .passes p.bound p.holdoff p.fstMax

end Sys2Proof.Machine
end

