-- ==== Sys2Proof/Machine/Law.lean ====
section
/-! DEFINITION. User law programs and coefficient banks: their commands, and the swap of the banks (spec 05 R159 to R178,
06 R185). -/
namespace Sys2Proof.Machine
open Sys2Proof

/-- Commands in flight taken before a command, of a code and an axis: a command whose response waits for room is still in
flight (03 R92, R94). -/
def Dev.before (d : Dev) (c : Cmd) (code : Nat) (a : AxisNo) : List Cmd :=
  (d.hp.inFlight.takeWhile (fun x => !(x.stall == c.stall && x.tag == c.tag))).filter (fun x =>
    x.code.toNat == code && axisOf x == a)
/-- Those of them that have not completed. -/
def Dev.earlier (d : Dev) (c : Cmd) (code : Nat) (a : AxisNo) : List Cmd := (d.before c code a).filter (fun x => x.phase != .answered)

/-! ## LawLoad, LawCommit, LawDelete, LawQuery (R170 to R173) -/

/-- PROG of word 0. -/
def progOf (c : Cmd) : Nat := fld (wd c.payload 0) 7 0
def badProg (n : Nat) : Bool := n == 0 || decide (n > 64)
/-- Is a program loaded? -/
def Dev.loaded (d : Dev) (n : Nat) : Bool := (d.prog? n).isSome
/-- Does the staging image hold something for a program? -/
def Dev.stagedFor (d : Dev) (n : Nat) : Bool := (d.progs.staging.map (fun s => s.prog == n)).getD false

/-- The data words of LawLoad as one number. -/
def wideOf (ws : List W32) : Nat := ws.foldr (fun w acc => acc * 2 ^ 32 + w.toNat) 0

/-- The checks of LawLoad. -/
def Dev.loadChecks (d : Dev) (c : Cmd) : List (Bool × Nat) :=
  let p := c.payload
  let w := wd p 0
  let w1 := wd p 1
  let n := fld w1 25 16
  [(noWord c, stParam), (d.loaded (progOf c) || (!bitOf w 8 && !d.stagedFor (progOf c)), stState),
   (rsv w 0xFFFFFE00 || rsv w1 0xFC00F800 || badProg (progOf c) || notIn n 1 816 || decide (fld w1 10 0 + n > 2048) ||
      p.length != 2 + cdiv (5 * n) 4 || decide (wideOf (p.drop 2) ≥ 2 ^ (40 * n)), stParam)]

/-- Instructions staged from an index on. -/
def stageWords (m : Mem (Option (BitVec 40))) (k : Nat) : List Nat → Mem (Option (BitVec 40))
  | [] => m
  | i :: is => stageWords (Mem.write none m k (some (BitVec.ofNat 40 i))) (k + 1) is

/-- LAW_LOAD. -/
def applyLawLoad (c : Cmd) (d : Dev) : Dev :=
  Dev.checked c 1 (d.loadChecks c) (fun d =>
    let w1 := wd c.payload 1
    let big := wideOf (c.payload.drop 2)
    let ws := (List.range (fld w1 25 16)).map (fun i => big / 2 ^ (40 * i) % 2 ^ 40)
    let old : Mem (Option (BitVec 40)) := if bitOf (wd c.payload 0) 8 then [] else (d.progs.staging.map (·.words)).getD []
    ({ d with progs := { d.progs with staging := some ⟨progOf c, stageWords old (fld w1 10 0) ws⟩ } }).ok c []) d
/-- It waits for a tick boundary, and does everything there (03 R95). -/
def doLawLoad (st : Stall) (tag : BitVec 8) : Dev → Dev := Dev.startAtTick st tag 0x220

/-- The first free block that takes a program: the lowest start (DESIGN CHOICE, log entry 71). -/
def ProgStore.place (p : ProgStore) (len : Nat) : Option Nat :=
  (List.range 8193).find? (fun s => freeBlocks p.used |>.any (fun b => b.1 == s && decide (b.2 ≥ len)))

/-- LAW_COMMIT: the staging image is emptied whatever the answer. -/
def applyLawCommit (c : Cmd) (d0 : Dev) : Dev :=
  let d := { d0 with progs := { d0.progs with staging := none } }
  let w := wd c.payload 0
  let n := progOf c
  Dev.checked c 3
    [(noWord c, stParam), (!d0.stagedFor n || d0.loaded n, stState),
     (badLen c 3 || rsv w 0xFFFFFC00 || rsv (wd c.payload 1) 0xFFFFF000 || fld w 9 8 == 3, stParam)] (fun d =>
    let len := fld (wd c.payload 1) 11 0
    let hook : Fin 3 := Fin.ofNat 3 (fld w 9 8)
    let image := (d0.progs.staging.map (·.words)).getD []
    match verifyImage image len (wd c.payload 2) hook with
    | .fails r i => d.respond c.stall c.tag stParam [0, mkw [(r, 16, 8), (i, 0, 11)]]
    | .passes bound holdoff fstMax =>
      match d.progs.place len with
      | none => d.reply c.stall c.tag stResource [0, 0]
      | some start =>
        let prog : Program := ⟨hook, start, len, bound, holdoff, fstMax, wd c.payload 2, imageUpTo image 0 len⟩
        ({ d with progs := { d.progs with progs := Mem.write none d.progs.progs n (some prog) } }).ok c
          [mkw [(satU 16 holdoff, 16, 16), (satU 16 bound, 0, 16)], mkw [(fstMax, 24, 7)]]) d
/-- It waits for a tick boundary, and does everything there (03 R95). -/
def doLawCommit (st : Stall) (tag : BitVec 8) : Dev → Dev := Dev.startAtTick st tag 0x221

/-- The axes whose plots name a program. -/
def Dev.axesOfProg (d : Dev) (n : Nat) : List AxisNo := allAxes.filter (fun a => d.assigned a && d.userProg a == n)

/-- Does a LawAttach taken before a command and still in flight name a program? -/
def Dev.attaching (d : Dev) (c : Cmd) (n : Nat) : Bool :=
  allAxes.any (fun a => (d.earlier c 0x224 a).any (fun x => fld (wd x.payload 0) 15 8 == n))

/-- LAW_DELETE. -/
def applyLawDelete (c : Cmd) (d : Dev) : Dev :=
  let n := progOf c
  Dev.checked c 1
    [(badLen c 1 || rsv (wd c.payload 0) 0xFFFFFF00 || badProg n || !d.loaded n, stParam),
     (!(d.axesOfProg n).isEmpty || d.attaching c n, stState)] (fun d =>
    let freed := match d.prog? n with
      | some x => [(x.start, x.length)]
      | none => []
    ({ d with progs := { d.progs with progs := Mem.write none d.progs.progs n none, freed := d.progs.freed ++ freed } }).ok c []) d
/-- It waits for a tick boundary, and does everything there (03 R95). -/
def doLawDelete (st : Stall) (tag : BitVec 8) : Dev → Dev := Dev.startAtTick st tag 0x222

/-- LAW_QUERY. -/
def doLawQuery (st : Stall) (tag : BitVec 8) : Dev → Dev :=
  Dev.start st tag 0x223 fun c d =>
    let n := progOf c
    Dev.checked c 4 [(badLen c 1 || rsv (wd c.payload 0) 0xFFFFFF00 || badProg n, stParam)] (fun d =>
      d.ok c (match d.prog? n with
        | some x => [mkw [(1, 31, 1), (x.hook.val, 16, 2), (satU 16 x.bound, 0, 16)],
                     mkw [(maskOf ((d.axesOfProg n).map Fin.val), 16, 16), (x.length, 0, 12)], x.crc]
        | none => [0, 0, 0])) d

/-- Blocks of deleted programs are free from the next frame boundary on (R172). -/
def Dev.freeBlocksNow (d : Dev) : Dev := { d with progs := { d.progs with freed := [] } }

/-! ## The banks (R159 to R161, R176 to R178) -/

/-- The standard words that Table 6.4 lists. -/
def coefListed (k : Nat) : Bool :=
  [(0x000, 0x00D), (0x010, 0x01D), (0x020, 0x023), (0x028, 0x032), (0x038, 0x06D), (0x070, 0x074)].any
    (fun r => decide (r.1 ≤ k ∧ k ≤ r.2))

/-- Is a data word not allowed in a bank word (R176), PL_N outside its range of 1 to 255 included (Table 6.4)? -/
def badCoef (k : Nat) (w : W32) : Bool :=
  badWord20 w || (decide (k < 0x300) && !coefListed k && w != 0) || (k == 8 && fld w 19 5 != 0) ||
    (k == 0x6C && notIn w.toNat 1 255)

/-- A bank at PlotAssign (Table 6.4). -/
def bankDefaults : Mem W20 :=
  [(0x004, 0x20000), (0x005, 0x20000), (0x006, 0x20000), (0x007, 0x20000), (0x008, 0x3), (0x009, 0x06666), (0x00A, 0x7C28F),
   (0x00B, 0x30000), (0x010, 0x40000), (0x011, 0xFFFFF), (0x012, 0x40000), (0x013, 0xFFFF7), (0x014, 0x40000), (0x015, 0xFFFFF),
   (0x016, 0x40000), (0x017, 0xFFFF7), (0x020, 0x40000), (0x021, 0x20000), (0x022, 0x1999A), (0x023, 0x20000), (0x028, 0x40000),
   (0x02A, 0x40000), (0x02B, 0xFFFF9), (0x02E, 0x7FFFF), (0x02F, 0x7FFFF), (0x030, 0x40000), (0x031, 0x00004), (0x032, 0x20000)] ++
  [(0x038, 0x20000), (0x03D, 0x20000), (0x042, 0x20000), (0x047, 0x20000), (0x04C, 0x20000), (0x051, 0x20000), (0x056, 0x20000),
   (0x05B, 0x20000), (0x068, 0x02000), (0x069, 0x08000), (0x06A, 0x10000), (0x06B, 0x06666), (0x06C, 0x00010), (0x06D, 0x20000),
   (0x070, 0x08000), (0x071, 0x00080), (0x072, 0x20000), (0x073, 0x00200), (0x074, 0x00200)]

/-- The bank not in use, replaced. -/
def AxisLoop.setOther (l : AxisLoop) (m : Mem W20) : AxisLoop := if l.bank then { l with bankA := m } else { l with bankB := m }

/-- The words of a CoefWrite go into the bank not in use, and it completes. -/
def Dev.coefDo (c : Cmd) (d : Dev) : Dev :=
  let k := fld (wd c.payload 0) 25 16
  let ws := (c.payload.drop 2).map (fun w => w.setWidth 20)
  (d.modLoop (axisOf c) (fun l => l.setOther (Mem.writes 0 (l.bankOf true) k ws))).ok c []

/-- The checks of CoefWrite. -/
def Dev.coefChecks (d : Dev) (c : Cmd) : List (Bool × Nat) :=
  let p := c.payload
  let w := wd p 0
  let w1 := wd p 1
  let k := fld w 25 16
  [(noWord c, stParam), (d.axisUnfit (axisOf c), stState),
   (p.length != 2 + fld w1 10 0 || rsv w 0xFC00FFF0 || rsv w1 0xFFFFF800 || notIn (fld w1 10 0) 1 1022 || decide (k + fld w1 10 0 > 1024) ||
      ((p.drop 2).zipIdx).any (fun x => badCoef (k + x.2) x.1), stParam)]

/-- The other bank comes into use (R160), and with PRESET_ON_SWAP its gains preset the integrators (06 R212). -/
def Dev.swapBank (a : AxisNo) (copy : Bool) (d : Dev) : Dev :=
  let d1 := d.modLoop a (fun l => { l with bank := !l.bank, copying := copy })
  if (Mem.read 0 (d1.loops[a].bankOf false) 8).getLsbD 1 then d1.modCtl a (fun c =>
    { c with presetV := some (d1.loops[a].bankOf false), presetI := some (d1.loops[a].bankOf false) }) else d1

/-- Is the tick of a CoefSwap too near or past (R177)? -/
def Dev.swapTooNear (d : Dev) (c : Cmd) : Bool :=
  bitOf (wd c.payload 0) 5 && decide (u64 (wd c.payload 1) (wd c.payload 2) < d.tick + 2)

/-- A CoefSwap is scheduled (R161, R177). -/
def Dev.scheduleSwap (c : Cmd) (d : Dev) : Dev :=
  let at_ := bitOf (wd c.payload 0) 5
  let t := if at_ then u64 (wd c.payload 1) (wd c.payload 2) else 0
  d.modLoop (axisOf c) (fun l => { l with swap := some ⟨false, t, bitOf (wd c.payload 0) 4, c.stall, c.tag⟩ })

/-- What waits for the end of a copy goes on: the CoefWrites in the order taken, then a held swap (R161). -/
def Dev.bankRun (a : AxisNo) (d : Dev) : Dev :=
  if d.loops[a].copying then d
  else
    let ws := d.hp.inFlight.filter (fun c => c.code == 0x230 && c.phase == .started && axisOf c == a)
    let d1 := ws.foldl (fun d c => d.coefDo c) d
    match d1.loops[a].swap with
    | some x =>
      if !x.held then d1
      else match d1.cmd? x.stall x.tag with
        | some c =>
          if !(d1.earlier c 0x230 a).isEmpty then d1
          else if d1.swapTooNear c then
            (d1.modLoop a (fun l => { l with swap := none })).respond c.stall c.tag stParam []
          else d1.scheduleSwap c
        | none => d1.modLoop a (fun l => { l with swap := none })
    | none => d1

/-- A swap held behind a CoefWrite that was refused or has run out of time goes on at the boundary. -/
def Dev.bankRuns (d : Dev) : Dev :=
  allAxes.foldl (fun d a => if d.loops[a].swap.any (fun x => x.held) then d.bankRun a else d) d

/-- COEF_WRITE: during a copy it waits (R161). -/
def applyCoefWrite (c : Cmd) (d : Dev) : Dev :=
  Dev.checked c 1 (d.coefChecks c) (fun d =>
    (d.await c.stall c.tag .started).bankRun (axisOf c)) d
/-- It waits for a tick boundary, and does everything there (03 R95). -/
def doCoefWrite (st : Stall) (tag : BitVec 8) : Dev → Dev := Dev.startAtTick st tag 0x230

/-- Is a LawAttach with SWAP_BANK, taken before a command, in flight for an axis? -/
def Dev.attachSwaps (d : Dev) (c : Cmd) (a : AxisNo) : Bool := (d.before c 0x224 a).any (fun x => bitOf (wd x.payload 0) 16)

/-- COEF_SWAP: held behind a copy and behind earlier CoefWrites of the axis, otherwise scheduled (R161). -/
def doCoefSwap (st : Stall) (tag : BitVec 8) : Dev → Dev :=
  Dev.start st tag 0x231 fun c d =>
    let a := axisOf c
    let hold := d.loops[a].copying || !(d.earlier c 0x230 a).isEmpty
    Dev.checked c 1
      [(noWord c, stParam), (d.axisUnfit a || d.loops[a].swap.isSome || d.attachSwaps c a, stState),
       (badLen c 3 || rsv (wd c.payload 0) 0xFFFFFFC0 || (!hold && d.swapTooNear c), stParam)] (fun d =>
      let d1 := d.await c.stall c.tag .started
      if hold then d1.modLoop a (fun l => { l with swap := some ⟨true, 0, bitOf (wd c.payload 0) 4, c.stall, c.tag⟩ })
      else d1.scheduleSwap c) d

/-- A word of the other bank while a copy goes on: the old one or the one copied, free (log entry 5). -/
def AxisLoop.midCopy (l : AxisLoop) (a : AxisNo) (k tick : Nat) : W20 :=
  if Config.freeOf 24 [a.val, k, tick] % 2 = 0 then Mem.read 0 (l.bankOf true) k else Mem.read 0 (l.bankOf false) k

/-- COEF_READ: the bank is that chosen when the command was taken (R178). -/
def doCoefRead (st : Stall) (tag : BitVec 8) : Dev → Dev :=
  Dev.start st tag 0x232 fun c d =>
    let w := wd c.payload 0
    let w1 := wd c.payload 1
    let a := axisOf c
    let k := fld w 25 16
    let n := fld w1 10 0
    Dev.checked c 1
      [(noWord c, stParam), (!d.assigned a, stState),
       (badLen c 2 || rsv w 0xFC00FFE0 || rsv w1 0xFFFFF800 || notIn n 1 1022 || decide (k + n > 1024), stParam)] (fun d =>
      let l := d.loops[a]
      let other := b2n l.bank != (if bitOf w 4 then 1 - c.aux else c.aux)
      d.ok c ((List.range n).map (fun i =>
        iW (if other && l.copying then l.midCopy a (k + i) d.age else Mem.read 0 (l.bankOf other) (k + i)).toInt))) d

/-- BANK_COPY_DONE: the other bank holds what the bank in use holds, and what waited goes on. -/
def doBankCopyDone (a : AxisNo) (d : Dev) : Dev :=
  if !d.loops[a].copying then d
  else (d.modLoop a (fun l => { (l.setOther (l.bankOf false)) with copying := false })).bankRun a

/-- Has the boundary of an axis's swap come (R160)? -/
def Dev.swapDue (d : Dev) (a : AxisNo) : Bool :=
  match d.loops[a].swap with
  | some x => !x.held && decide (x.tick ≤ d.tick)
  | none => false

/-- A swap at its boundary: CoefWrites taken meanwhile complete before it (R160, R161). -/
def Dev.swapNow (a : AxisNo) (d : Dev) : Dev :=
  match d.loops[a].swap with
  | some x =>
    let late := d.hp.inFlight.filter (fun c => c.code == 0x230 && (c.phase == .waiting || c.phase == .atTick) && axisOf c == a)
    let d1 := late.foldl (fun d c => Dev.checked c 1 (d.coefChecks c) (Dev.coefDo c) d) d
    ((d1.modLoop a (fun l => { l with swap := none })).swapBank a x.copy).respond x.stall x.tag stOk []
  | none => d

/-! ## LawAttach and LawFlagsClear (R166, R174, R175) -/

/-- A word of a plot record replaced, and GEN incremented. -/
def nextGen (w0 : W32) : W32 := mkw [(1, 31, 1), (fld w0 23 16 + 1, 16, 8), (fld w0 3 0, 0, 4)]

/-- Word 5 of the plot with another USER_PROG. -/
def Dev.attachWord (d : Dev) (a : AxisNo) (prog : Nat) : W32 := mkw [(fld (d.plotW a 5) 15 0, 0, 16), (prog, 16, 8)]

/-- The checks of LawAttach at its boundary. -/
def Dev.attachChecks (d : Dev) (c : Cmd) : List (Bool × Nat) :=
  let w := wd c.payload 0
  let a := axisOf c
  let n := fld w 15 8
  let swap := bitOf w 16
  [(d.axisUnfit a || (swap && (d.loops[a].swap.isSome || d.loops[a].copying)), stState),
   (badLen c 1 || rsv w 0xFFFC00F0 || (n != 0 && !d.loaded n) || (bitOf w 17 && !swap) ||
      (d.noBridge a && ((d.prog? n).map (fun x => x.hook == 2)).getD false), stParam)]

/-- LAW_ATTACH: it waits for the boundary of R128. -/
def doLawAttach (st : Stall) (tag : BitVec 8) : Dev → Dev :=
  Dev.start st tag 0x224 fun c d =>
    let a := axisOf c
    Dev.checked c 1
      [(noWord c, stParam), (!(d.before c 0x224 a).isEmpty || (bitOf (wd c.payload 0) 16 && d.loops[a].swap.isSome), stState)]
      (fun d => d.await c.stall c.tag .atFrame) d

/-- LawAttach at its frame boundary (R166). -/
def applyLawAttach (c : Cmd) (d : Dev) : Dev :=
  let a := axisOf c
  let w := wd c.payload 0
  Dev.checked c 1 (d.attachChecks c) (fun d =>
    let w5 := d.attachWord a (fld w 15 8)
    match d.failsBudget [(a.val, d.costOfPlot (fun k => if k = 5 then w5 else d.plotW a k))] with
    | some x => d.respondBudget c x
    | none =>
      let p := d.plots[a]
      let d1 : Dev := { d with plots := vset d.plots a ((p.set 0 (nextGen p[0])).set 5 w5) }
      let d2 := d1.modLoop a (fun l =>
        let i : Fin 2 := if l.slot then 1 else 0
        { l with slots := vset l.slots i [], userFar := [], bypassed := false })
      let d3 := if bitOf w 16 then d2.swapBank a (bitOf w 17) else d2
      d3.readmit.ok c []) d

/-- LAW_FLAGS_CLEAR. -/
def doLawFlagsClear (st : Stall) (tag : BitVec 8) : Dev → Dev :=
  Dev.start st tag 0x225 fun c d => Dev.checked c 1
    [(badLen c 1 || rsv (wd c.payload 0) 0xFFFF0000 || fld (wd c.payload 0) 15 0 == 0, stParam)]
    (fun d => d.await c.stall c.tag .atFrame) d

/-- LawFlagsClear at its frame boundary. -/
def applyLawFlagsClear (c : Cmd) (d : Dev) : Dev :=
  ((bitsOf 16 (fld (wd c.payload 0) 15 0)).foldl (fun d k =>
    d.modLoop (ax k) (fun l => { l with svStd := false, svUser := false, aerr := false })) d).ok c []

/-- The commands of this chapter that wait for their boundary. -/
def applyLaw (c : Cmd) (d : Dev) : Dev :=
  match c.code.toNat with
  | 0x224 => applyLawAttach c d
  | 0x225 => applyLawFlagsClear c d
  | _ => d

/-! ## Meanings -/

/-- LAW_LOAD. -/
def execLawLoad (st : Stall) (tag : BitVec 8) (s : State) : Host.Outcome State Fault Refusal :=
  .next (s.on (doLawLoad st tag))
/-- LAW_COMMIT. -/
def execLawCommit (st : Stall) (tag : BitVec 8) (s : State) : Host.Outcome State Fault Refusal :=
  .next (s.on (doLawCommit st tag))
/-- LAW_DELETE. -/
def execLawDelete (st : Stall) (tag : BitVec 8) (s : State) : Host.Outcome State Fault Refusal :=
  .next (s.on (doLawDelete st tag))
/-- LAW_QUERY. -/
def execLawQuery (st : Stall) (tag : BitVec 8) (s : State) : Host.Outcome State Fault Refusal :=
  .next (s.on (doLawQuery st tag))
/-- LAW_ATTACH. -/
def execLawAttach (st : Stall) (tag : BitVec 8) (s : State) : Host.Outcome State Fault Refusal :=
  .next (s.on (doLawAttach st tag))
/-- LAW_FLAGS_CLEAR. -/
def execLawFlagsClear (st : Stall) (tag : BitVec 8) (s : State) : Host.Outcome State Fault Refusal :=
  .next (s.on (doLawFlagsClear st tag))
/-- COEF_WRITE. -/
def execCoefWrite (st : Stall) (tag : BitVec 8) (s : State) : Host.Outcome State Fault Refusal :=
  .next (s.on (doCoefWrite st tag))
/-- COEF_SWAP. -/
def execCoefSwap (st : Stall) (tag : BitVec 8) (s : State) : Host.Outcome State Fault Refusal :=
  .next (s.on (doCoefSwap st tag))
/-- COEF_READ. -/
def execCoefRead (st : Stall) (tag : BitVec 8) (s : State) : Host.Outcome State Fault Refusal :=
  .next (s.on (doCoefRead st tag))
/-- BANK_COPY_DONE. -/
def execBankCopyDone (axis : AxisNo) (s : State) : Host.Outcome State Fault Refusal := .next (s.on (doBankCopyDone axis))

end Sys2Proof.Machine
end

