-- ==== Sys2Proof/Machine/Margin.lean ====
section
/-! DEFINITION. Power-stage measurement and the plan made from it (spec 14 R549 to R551, R560, R561). -/
namespace Sys2Proof.Machine
open Sys2Proof

/-- A word with bits [hi:lo] replaced. -/
def setFld (w : W32) (hi lo v : Nat) : W32 :=
  nW (w.toNat - fld w hi lo * 2 ^ lo + v % 2 ^ (hi - lo + 1) * 2 ^ lo)

/-- Is the bus of an axis below 12 V on its VBUS input? -/
def Dev.busLow (d : Dev) (a : AxisNo) : Bool :=
  let die : Nat := ((d.axisLegs a).head?.map (fun l => (dieOf l).val)).getD 0
  decide (Mem.read 0 d.aux (96 + 4 * die + fld (d.plotW a 2) 5 4) * 100 < 12 * 2 ^ 19)

/-! ## The plan (R550) -/

/-- A value clamped to a range, and whether it was clamped down and up. -/
def clamped (lo hi v : Nat) : Nat × Bool × Bool := (max lo (min v hi), decide (v > hi), decide (v < lo))

/-- The plan of an axis over what was measured on its legs. -/
def Dev.planOf (d : Dev) (a : AxisNo) (r : List LegMeasure) : Plan × Bool :=
  let worst (f : LegMeasure → Nat) : Nat := r.foldl (fun m x => max m (f x)) 0
  let least (f : LegMeasure → Nat) : Nat := (r.map f).foldl min ((r.map f).headD 0)
  let w2 := d.plotW a 2
  let C := d.cOf a
  let dt := clamped 0 (min 4095 (C / 4)) (cdiv ((worst (fun x => max x.tdoffHi x.tdoffLo) + 20) * 4096) 1000)
  let blank := clamped 10 200 (cdiv (3 * worst (fun x => max x.tdonHi x.tdonLo) + 100) 20)
  let ron := worst (fun x => max x.ronHi x.ronLo)
  let dv := clamped 2 63 (cdiv (20 * ron * fld (d.plotW a 6) 19 0 * (25000 * 2 ^ fld w2 9 8)) (1000000 * 2 ^ 19 * max 1 (fld w2 31 16)) + 3)
  let left := least (·.vbstMv) - bstWarnMv d.pwm[a].pwm[2]
  let leak := worst (·.ileakUa)
  let n := if leak * C = 0 then 255 else least (·.cbstNf) * left * 2048 / (leak * C)
  let rn := clamped 1 255 n
  let any (x : Nat × Bool × Bool) : Bool := x.2.1 || x.2.2
  (⟨dt.1, blank.1, dv.1, rn.1, BitVec.ofNat 4 (b2n (any dt) + 2 * b2n (any blank) + 4 * b2n (any dv) + 8 * b2n (any rn))⟩,
   dt.2.1 || blank.2.2 || dv.2.1 || rn.2.2)

/-- A plan written as PwmConfig and ProtectConfig would write it. -/
def Dev.writePlan (a : AxisNo) (p : Plan) (d : Dev) : Dev :=
  d.modPwm a (fun x =>
    { x with pwm := (x.pwm.set 0 (setFld x.pwm[0] 19 12 p.refreshN)).set 1 (setFld x.pwm[1] 11 0 p.dtFloor)
             prot := x.prot.set 0 (setFld (setFld x.prot[0] 20 13 p.desatBlank) 9 4 p.desatDv) })

/-- Plans due at a frame boundary are written where the bridge is off; a measurement due under R551 is then complete. -/
def Dev.planTick (d : Dev) : Dev :=
  d.sv.planDue.foldl (fun d a =>
    let d1 := d.modSv (fun s => { s with planDue := s.planDue.filter (· != a) })
    let d2 := d1.modAxf a (fun f => { f with measureDue := false })
    match d.sv.plans[a] with
    | some p => if d.bridgeBusy a then d2 else d2.writePlan a p
    | none => d2) d

/-! ## MarginMeasure (R549, R551, R560) -/

/-- The checks of MarginMeasure. -/
def Dev.measureChecks (d : Dev) (c : Cmd) : List (Bool × Nat) :=
  let a := axisOf c
  let w1 := wd c.payload 1
  [(badLen c 2 || rsv (wd c.payload 0) 0xFFFFFF00 || d.noPwm a || (d.assigned a && d.extDriver a) || badWord20 w1 ||
      decide (w1.toInt ≤ 0) || (d.assigned a && decide (w1.toNat > fld (d.plotW a 6) 19 0)), stParam),
   (!d.assigned a || d.bridgeBusy a || d.busLow a, stState)]

/-- MARGIN_MEASURE: REMEASURE is set as given; with POLICY_ONLY nothing is measured. -/
def doMarginMeasure (st : Stall) (tag : BitVec 8) : Dev → Dev :=
  Dev.start st tag 0xB20 fun c d => Dev.checked c 1 (d.measureChecks c) (fun d =>
    let w := wd c.payload 0
    let a := axisOf c
    let d1 := d.modAxf a (fun f => { f with remeasure := bitOf w 6 })
    if bitOf w 7 then d1.ok c []
    else (d1.modSv (fun s => { s with measuring := s.measuring ++ [⟨a, bitOf w 4, bitOf w 5, some (st, tag)⟩] })).await st tag .started) d

/-- Words +0x00, +0x04 and +0x08 of LEG_AGE. -/
def measureWords (x : LegMeasure) : W32 × W32 × W32 :=
  (mkw [(satU 8 x.tdonHi, 24, 8), (satU 8 x.tdoffHi, 16, 8), (satU 8 x.tdonLo, 8, 8), (satU 8 x.tdoffLo, 0, 8)],
   mkw [(satU 16 x.ronHi, 16, 16), (satU 16 x.ronLo, 0, 16)], mkw [(satU 16 x.cbstNf, 16, 16), (satU 16 x.ileakUa, 0, 16)])

/-- Does a measurement differ from the leg's baseline by more than 50 %? -/
def LegAge.off (l : LegAge) (x : LegMeasure) : Bool :=
  let far (m b : Nat) : Bool := decide (2 * ((m : Int) - b).natAbs > b)
  l.baselineSet && (far x.tdonHi (fld l.b0 31 24) || far x.tdoffHi (fld l.b0 23 16) || far x.tdonLo (fld l.b0 15 8) ||
    far x.tdoffLo (fld l.b0 7 0) || far x.ronHi (fld l.b1 31 16) || far x.ronLo (fld l.b1 15 0) || far x.cbstNf (fld l.b2 31 16) ||
    far x.ileakUa (fld l.b2 15 0))

/-- The results of one leg: kept, with BASELINE also as its baseline, and recorded. -/
def Dev.legMeasured (a : AxisNo) (baseline : Bool) (l : LegNo) (x : LegMeasure) (d : Dev) : Dev :=
  let w := measureWords x
  (d.modSv (fun s => { s with legAge := vmod s.legAge l (fun g =>
    let g1 := { g with w0 := w.1, w1 := w.2.1, w2 := w.2.2 }
    if baseline then { g1 with b0 := w.1, b1 := w.2.1, b2 := w.2.2, baselineSet := true } else g1) })).ledger 6 0 l.val (2 ^ a.val) w.1 w.2.1

/-- MARGIN_MEASURE_DONE, with what was found on each leg in plot order: the results, the plan, FS151 and FS152. It ends a
MarginMeasure of the axis, or the measurement due under R551, which waits for a bus of 12 V and a bridge that is off. -/
def doMarginMeasureDone (a : AxisNo) (r : List LegMeasure) (d : Dev) : Dev :=
  let run := d.sv.measuring.find? (fun m => m.axis == a)
  let due := d.axf[a].measureDue && !d.bridgeBusy a && !d.busLow a
  if !d.assigned a || (run.isNone && !due) || r.length != (d.axisLegs a).length then d
  else
    let baseline := (run.map (·.baseline)).getD false
    let apply := run.isNone || (run.map (·.apply)).getD false || due
    let pairs := (d.axisLegs a).zip r
    let off := !baseline && pairs.any (fun x => d.sv.legAge[x.1].off x.2)
    let plan := d.planOf a r
    let d1 := pairs.foldl (fun d x => d.legMeasured a baseline x.1 x.2) d
    let d2 := d1.modSv (fun s =>
      { s with measuring := s.measuring.eraseIdx (s.measuring.findIdx (fun m => m.axis == a)), plans := vset s.plans a (some plan.1),
               planDue := if apply && !s.planDue.contains a then s.planDue ++ [a] else s.planDue })
    let d3 := if off then d2.fire 151 (.axes [a]) else d2
    let d4 := if plan.2 then d3.fire 152 .device else d3
    match run.bind (·.cmd) with
    | some (st, tag) => d4.respond st tag stOk []
    | none => d4

/-! ## MarginApply (R561) -/

/-- The response words of a plan. -/
def Plan.words (p : Plan) : List W32 :=
  [nW p.dtFloor, mkw [(p.desatDv, 8, 8), (p.desatBlank, 0, 8)], nW p.refreshN, nW p.clamped.toNat]

/-- The checks of MarginApply. -/
def Dev.applyChecks (d : Dev) (c : Cmd) : List (Bool × Nat) :=
  let a := axisOf c
  [(noWord c, stParam), (d.sv.plans[a].isNone || !d.assigned a || (bitOf (wd c.payload 0) 4 && d.bridgeBusy a), stState),
   (badLen c 1 || rsv (wd c.payload 0) 0xFFFFFFE0, stParam)]

/-- The plan, answered. -/
def Dev.answerPlan (c : Cmd) (d : Dev) : Dev :=
  d.ok c ((d.sv.plans[axisOf c].map Plan.words).getD [])

/-- MARGIN_APPLY: with APPLY the plan is written at the next frame boundary. -/
def doMarginApply (st : Stall) (tag : BitVec 8) : Dev → Dev :=
  Dev.start st tag 0xB21 fun c d => Dev.checked c 5 (d.applyChecks c) (fun d =>
    if bitOf (wd c.payload 0) 4 then d.await st tag .atFrame else d.answerPlan c) d

/-- MarginApply with APPLY at its frame boundary. -/
def applyMargin (c : Cmd) (d : Dev) : Dev :=
  Dev.checked c 5 (d.applyChecks c) (fun d =>
    match d.sv.plans[axisOf c] with
    | some p => (d.writePlan (axisOf c) p).answerPlan c
    | none => d) d

/-! ## Meanings -/

/-- MARGIN_MEASURE. -/
def execMarginMeasure (st : Stall) (tag : BitVec 8) (s : State) : Host.Outcome State Fault Refusal :=
  .next (s.on (doMarginMeasure st tag))
/-- MARGIN_MEASURE_DONE. -/
def execMarginMeasureDone (axis : AxisNo) (r : List LegMeasure) (s : State) : Host.Outcome State Fault Refusal :=
  .next (s.on (doMarginMeasureDone axis r))
/-- MARGIN_APPLY. -/
def execMarginApply (st : Stall) (tag : BitVec 8) (s : State) : Host.Outcome State Fault Refusal :=
  .next (s.on (doMarginApply st tag))

end Sys2Proof.Machine
end

