-- ==== Sys2Proof/Machine/Analog.lean ====
section
/-! DEFINITION. Sin/cos and resolver signals (spec 07 R243, R244, R246): the trims, the angle within a period, and the
tracking of periods. A pair is (sine, cosine), in 2^-16 of a sample's last bit after 16-bit samples. -/
namespace Sys2Proof.Machine
open Sys2Proof

/-- A pair of 16-bit samples as numbers in 2^-16. -/
def pair16 (p : BitVec 16 × BitVec 16) : Int × Int := (p.1.toInt * 2 ^ 16, p.2.toInt * 2 ^ 16)

/-- The pair interpolated to an instant, lag clocks of 64 after the first (R243). -/
def pairBetween (p q : BitVec 16 × BitVec 16) (lag : Fin 64) : Int × Int :=
  let at_ (a b : BitVec 16) : Int := (a.toInt * (64 - lag.val) + b.toInt * lag.val) * 2 ^ 10
  (at_ p.1 q.1, at_ p.2 q.2)

/-- A pair with offsets and gains trimmed, before the quadrature phase. -/
def ScTrim.level (t : ScTrim) (p : Int × Int) : Int × Int :=
  ((p.1 - t.offS) * t.gainS / 2 ^ 16, (p.2 - t.offC) * t.gainC / 2 ^ 16)
/-- A pair after the trims. -/
def ScTrim.trimmed (t : ScTrim) (p : Int × Int) : Int × Int :=
  let v := t.level p
  (v.1, v.2 - v.1 * t.skew / 2 ^ 16)

/-- The quadrant of a pair, 0 to 3 in the direction of rising angle. -/
def quadrant (p : Int × Int) : Nat :=
  if p.2 > 0 ∧ p.1 ≥ 0 then 0 else if p.1 > 0 then 1 else if p.2 < 0 then 2 else if p.1 < 0 then 3 else 0

/-- The angle of a pair in 2^-16 of a period, rounded: in each quadrant the greatest whose boundary, half a unit below it,
the pair has passed. The angle of the pair (0, 0) is a free value (log entry 118). -/
def angle16 (key : List Int) (p : Int × Int) : Nat :=
  if p = (0, 0) then (Config.freeOf 32 key % 2 ^ 16).toNat
  else
    let q := quadrant p
    let (y, x) := match q with
      | 0 => p
      | 1 => (-p.2, p.1)
      | 2 => (-p.1, -p.2)
      | _ => (p.2, -p.1)
    let k : Nat := [14, 13, 12, 11, 10, 9, 8, 7, 6, 5, 4, 3, 2, 1, 0].foldl (fun (k b : Nat) =>
      let t : Nat := k + 2 ^ b
      if t ≤ 2 ^ 14 ∧ y * cos40 (16 * t - 8) ≥ x * sin40 (16 * t - 8) then t else k) 0
    (q * 2 ^ 14 + k) % 2 ^ 16

/-- The amplitude of a pair in 2^-16 of full scale (R244). -/
def amp16 (p : Int × Int) : BitVec 16 :=
  BitVec.ofNat 16 (satU 16 (rsqrt (p.1 * p.1 + p.2 * p.2).toNat / 2 ^ 15))

/-- Widest values seen so far. -/
def widen (e : Int × Int) (v : Int) : Int × Int := (min e.1 v, max e.2 v)

/-- The extremes of a period take in a pair (R243). -/
def ScTrim.see (p : Int × Int) (t : ScTrim) : ScTrim :=
  let v := t.level p
  match t.ext with
  | none => { t with ext := some ⟨(p.1, p.1), (p.2, p.2), (v.1 + v.2, v.1 + v.2), (v.1 - v.2, v.1 - v.2)⟩ }
  | some e => { t with ext := some ⟨widen e.s p.1, widen e.c p.2, widen e.sum (v.1 + v.2), widen e.diff (v.1 - v.2)⟩ }

/-- A complete period has been seen: each trim moves by 1/64 of what its extremes ask for (R243): the offsets to the middle
of the extremes, the gains to one amplitude of both signals, their mean, and the phase to what the extremes of the sum and
the difference of the two differ by (DEDUCED, log entry 118). -/
def ScTrim.adapt (t : ScTrim) : ScTrim :=
  match t.ext with
  | none => t
  | some e =>
    let toward (old new : Int) : Int := old + rdivUp (new - old) 64
    let half (x : Int × Int) : Int := (x.2 - x.1) / 2
    let mean := (half e.s + half e.c) / 2
    let gain (old : Int) (x : Int × Int) : Int := if half x ≤ 0 then old else toward old (mean * 2 ^ 16 / half x)
    let p2 := half e.sum * half e.sum
    let m2 := half e.diff * half e.diff
    { t with offS := toward t.offS ((e.s.1 + e.s.2) / 2), offC := toward t.offC ((e.c.1 + e.c.2) / 2),
             gainS := gain t.gainS e.s, gainC := gain t.gainC e.c,
             skew := if p2 + m2 = 0 then t.skew else toward t.skew ((p2 - m2) * 2 ^ 16 / (p2 + m2)), ext := none, turned := 0 }

/-- Quadrants moved between two samples: −1, 0, 1, or 2 where the direction cannot be told. -/
def quadStep (old new : Nat) : Int := match (new + 4 - old) % 4 with
  | 0 => 0
  | 1 => 1
  | 2 => 2
  | _ => -1
/-- Periods moved by a step between two quadrants. -/
def periodStep (old new : Nat) : Int := if old = 3 ∧ new = 0 then 1 else if old = 0 ∧ new = 3 then -1 else 0

/-- The source follows one pair of samples: the quadrant, the periods and, with SC_AUTO, the trims; and whether this pair
or one before it moved by two quadrants (R243). -/
def FbSource.follow (st : FbSource × Bool) (p : Int × Int) : FbSource × Bool :=
  let x := st.1
  let new := quadrant (x.trim.trimmed p)
  let step := (x.quad.map (quadStep · new)).getD 0
  let turned := if step = 2 then 0 else x.trim.turned + step
  let trim := if x.mode != 4 || !bitOf x.conf[1] 20 then x.trim
    else
      let t := { x.trim with turned := turned }.see p
      if turned.natAbs ≥ 4 then t.adapt else t
  ({ x with quad := some new, periods := x.periods + (x.quad.map (periodStep · new)).getD 0, trim := trim }, st.2 || step == 2)

/-- What an instant finds: the source after the samples before it, the pair at the instant, whether the tracking jumped. -/
structure ScReading where
  src : FbSource
  pair : Option (Int × Int)
  jump : Bool

/-- The samples up to an instant, read by a source of their kind (R243, R246): the resolver's windings are the signed
magnitudes of their components. -/
def FbSource.read (v : Option AnalogData) (x : FbSource) : ScReading :=
  match v with
  | some (.pairs ps next lag) =>
    if x.mode != 4 then ⟨x, none, false⟩
    else
      let r := (ps.map pair16).foldl FbSource.follow (x, false)
      ⟨r.1, ps.getLast?.map (fun p => r.1.trim.trimmed (pairBetween p next lag)), r.2⟩
  | some (.demod s c) =>
    if x.mode != 5 then ⟨x, none, false⟩
    else
      let mag (w : BitVec 16 × BitVec 16) : Int := sgn1 w.1.toInt * rsqrt ((w.1.toInt * w.1.toInt + w.2.toInt * w.2.toInt).toNat * 2 ^ 32)
      let p := (mag s, mag c)
      let r := FbSource.follow (x, false) p
      ⟨r.1, some p, r.2⟩
  | none => ⟨x, none, false⟩

/-- Periods and angle, in 2^-16 of a period, at an instant whose pair lies at most one quadrant from the last sample. -/
def FbSource.phaseAt (key : List Int) (x : FbSource) (p : Int × Int) : Int :=
  let a := angle16 key p
  (x.periods + (x.quad.map (periodStep · (a / 2 ^ 14))).getD 0) * 2 ^ 16 + a

end Sys2Proof.Machine
end

