-- ==== Sys2Proof/Machine/Feedback.lean ====
section
/-! DEFINITION. Feedback sources: configuration, edges, Halls, tooth wheels, sin/cos, resolvers, serial encoders and
excitation outputs (spec 07 R225 to R252, R260 to R263). Speeds are in 2^-30 turn/s, clocks are lane clocks. -/
namespace Sys2Proof.Machine
open Sys2Proof

/-! ## Configuration fields -/

def FbSource.inv (x : FbSource) : Bool := bitOf x.conf[0] 13
/-- Counts of a turn in the edge modes. -/
def FbSource.unit (x : FbSource) : Nat :=
  match x.mode with
  | 1 => max 1 (fld x.conf[1] 23 0)
  | 2 => max 1 (6 * fld x.conf[1] 6 0)
  | 3 => max 1 (fld x.conf[1] 11 0)
  | _ => 1
/-- Periods of a turn in the analog modes. -/
def FbSource.perTurn (x : FbSource) : Nat := if x.mode = 4 then max 1 (fld x.conf[1] 19 0) else max 1 (fld x.conf[1] 4 0)
def FbSource.skewNs (x : FbSource) : Nat := fld x.conf[3] 15 0
/-- SPEED_WIN or SPEED_TC. -/
def FbSource.span (x : FbSource) : Nat := max 1 (fld x.conf[3] 23 16)
def FbSource.stillTicks (x : FbSource) : Nat := fld x.conf[4] 15 0
def FbSource.isEdge (x : FbSource) : Bool := x.mode == 1 || x.mode == 2 || x.mode == 3
def FbSource.isSerial (x : FbSource) : Bool := x.mode == 8 || x.mode == 9
def FbSource.bridgeMax (x : FbSource) : Nat := fld x.conf[2] 18 16
def FbSource.stBits (x : FbSource) : Nat := fld x.conf[1] 5 0
def FbSource.mtBits (x : FbSource) : Nat := fld x.conf[1] 13 8
/-- Sector of a Hall code: 0 to 5, 7 invalid. -/
def FbSource.sectorOf (x : FbSource) (code : Nat) : Nat := fld x.conf[2] (3 * code + 2) (3 * code)

/-- Does a bridge stand on or charging under a plot that names a source (R227; 08 R631)? -/
def Dev.srcLive (d : Dev) (i : Nat) : Bool := (d.axesOfSrc i).any d.bridgeBusy
/-- A feedback fault acts on every axis whose plot names the source (R257). -/
def Dev.fbFire (src : Nat) (i : Fin 32) (d : Dev) : Dev := d.fire src (.axes (d.axesOfSrc i.val))
/-- A counter of eight bits that saturates. -/
def inc8 (x : BitVec 8) : BitVec 8 := BitVec.ofNat 8 (satU 8 (x.toNat + 1))

/-! ## Edges (R232 to R237) -/

/-- Speed exactly 0, SPEED_VALID 0, until two edges in the same direction (R237). -/
def FbSource.standstill (x : FbSource) : FbSource :=
  { x with edges := [], speedValid := false, speed := 0, vNum := 0, vDen := 1, still := true, interval := 0 }

/-- An edge by n counts at a clock (R235, R237): a reversal edge is the first of its direction, two edges in one
direction give the speed. -/
def FbSource.edge (n : Int) (t : Nat) (x : FbSource) : FbSource :=
  let neg := decide (n < 0)
  let c := x.count + n
  let y := { x with count := c, lastEdge := t, still := false, dirNeg := neg, hallMid := false }
  match x.edges with
  | [] => { y with edges := [(c, t)], speedValid := false, speed := 0, vNum := 0, vDen := 1 }
  | (c0, t0) :: _ =>
    if neg != x.dirNeg then { y with edges := [(c, t)], speedValid := false, speed := 0, vNum := 0, vDen := 1, interval := 0 }
    else
      let z := { y with edges := (c, t) :: x.edges, speedValid := x.fbValid }
      if x.speedValid then z else { z with vNum := c - c0, vDen := max 1 (t - t0) }

/-- The estimate places the second of two counts within a half sample of the present sample (R233). -/
def FbSource.doubleOk (t : Nat) (x : FbSource) : Bool :=
  let n := x.vNum.natAbs
  let t2 : Int := x.lastEdge * n + 2 * x.vDen
  x.speedValid && n != 0 && decide (((t : Int) - 3) * n ≤ t2) && decide (t2 ≤ ((t : Int) + 1) * n)

/-- A double change that is inferred. -/
def FbSource.infer (t : Nat) (x : FbSource) : FbSource :=
  { x.edge (2 * sgn1 x.vNum) t with inferred := true, qinfCnt := inc8 x.qinfCnt }
/-- A double change that is not: QERR, QERR_CNT, SPEED_VALID cleared as at standstill. -/
def FbSource.qfail (x : FbSource) : FbSource := { x.standstill with qerr := true, qerrCnt := inc8 x.qerrCnt }

/-- The place of levels A and B in the sequence 00, 10, 11, 01. -/
def quadIndex (a b : Bool) : Nat := if a then (if b then 2 else 1) else (if b then 3 else 0)

/-- An encoder-interface group as a source. -/
def egSrc (g : Fin 16) : Fin 32 := Fin.ofNat 32 g.val
/-- A serial port as a source. -/
def espSrc (p : Fin 16) : Fin 32 := Fin.ofNat 32 (16 + p.val)

/-- The position of a count of an edge mode, in 2^-20 turn (R232, R241). -/
def FbSource.ofCount (x : FbSource) (c : Int) : Int := Int.fdiv (c * 2 ^ 20) x.unit

/-- What happens at a clock to an edge-mode source happens to the position of its probe entries whose stamp plus SKEW_NS
reaches so far (R253). -/
def Dev.probeMap (i : Fin 32) (t : Nat) (f : Int → Int) (d : Dev) : Dev :=
  let x := d.fb.src[i]
  let skew := x.skewNs * 512 / 1000
  { d with fb := { d.fb with probes := d.fb.probes.map (fun p =>
    { p with entries := p.entries.map (fun e =>
      if e.src.toNat = i.val ∧ (x.mode = 1 ∨ x.mode = 3) ∧ !e.known ∧ t ≤ e.clk + skew then { e with pos := f e.pos } else e) }) } }
/-- Probe entries follow the count of their source. -/
def Dev.probeFollow (i : Fin 32) (t : Nat) (d : Dev) : Dev :=
  d.probeMap i t (fun _ => d.fb.src[i].ofCount d.fb.src[i].count + d.fb.src[i].offset)

/-- A filter of FILT accepts a new level that holds for FILT + 1 samples and removes a shorter pulse whole (R226). -/
def filtered (filt held : Nat) : Bool := decide (filt < held)
/-- The filter of a source's digital inputs. -/
def FbSource.accepts (x : FbSource) (held : Nat) : Bool := filtered (fld x.conf[0] 23 16) held
/-- A digital input of an encoder-interface group changes level for some samples: what its change does once the filter has
accepted it. -/
def Dev.egEdge (g : Fin 16) (held : Nat) (f : Dev → Dev) (d : Dev) : Dev := if d.fb.src[egSrc g].accepts held then f d else d

/-- QUADRATURE_EDGE. -/
def doQuadratureEdge (g : Fin 16) (a b : Bool) (held at_ : Nat) : Dev → Dev := Dev.egEdge g held fun d =>
  let i := egSrc g
  let x := d.fb.src[i]
  let t := d.clk + 2 * at_
  let step := (quadIndex a b + 4 - quadIndex x.lineA x.lineB) % 4
  let d1 := d.modSrc i (fun x => { x with lineA := a, lineB := b })
  if x.mode != 1 || step = 0 then d1
  else
    let one : Int := if (step == 1) != x.inv then 1 else -1
    let d2 : Dev := if step = 2 then
        (if x.doubleOk t then d1.modSrc i (FbSource.infer t) else (d1.modSrc i FbSource.qfail).fbFire 50 i)
      else d1.modSrc i (FbSource.edge one t)
    d2.probeFollow i t

/-- An index, a reference mark or a reference tooth: FB_IDX and INDEX_SEEN, and homing runs that wait for it. -/
def Dev.markIndex (i : Fin 32) (pos : Int) (d : Dev) : Dev :=
  (d.modSrc i (fun x => { x with idxPos := pos, indexSeen := true })).homeIndex i.val pos

/-- INDEX_EDGE (R234). -/
def doIndexEdge (g : Fin 16) (held _at : Nat) : Dev → Dev := Dev.egEdge g held fun d =>
  let i := egSrc g
  let x := d.fb.src[i]
  if x.mode != 1 || (bitOf x.conf[1] 24 && !(x.lineA && x.lineB)) then d
  else
    let d1 := d.markIndex i (x.ofCount x.count + x.offset)
    match x.firstIdx with
    | none => d1.modSrc i (fun x => { x with firstIdx := some x.count })
    | some c0 =>
      let m := Int.fmod (x.count - c0) x.unit
      let dev := if 2 * m ≥ x.unit then m - x.unit else m
      if bitOf x.conf[1] 25 && decide (dev.natAbs > fld x.conf[2] 15 0) then
        (d1.modSrc i (fun x => { x with indexDev := true, indexDevCnt := inc8 x.indexDevCnt })).fbFire 51 i
      else d1

/-! ## Halls (R239, R240) -/

/-- The sector in the direction of counting. -/
def FbSource.hallPlace (x : FbSource) (sector : Nat) : Nat := if x.inv then 5 - sector else sector

/-- HALL_TRANSITION. -/
def doHallTransition (g : Fin 16) (code : Fin 8) (held at_ : Nat) : Dev → Dev := Dev.egEdge g held fun d =>
  let i := egSrc g
  let x := d.fb.src[i]
  let t := d.clk + 2 * at_
  let d1 := d.modSrc i (fun x =>
    { x with lineA := code.val.testBit 0, lineB := code.val.testBit 1, lineC := code.val.testBit 2 })
  if x.mode != 2 then d1
  else
    let s := x.sectorOf code.val
    let bad (d : Dev) : Dev :=
      (d.modSrc i (fun x => { x with hallErr := true, qerrCnt := inc8 x.qerrCnt })).fbFire 52 i
    if s > 5 then bad d1
    else if x.hallSector > 5 then
      d1.modSrc i (fun x => { x with hallSector := s, count := x.hallPlace s, hallMid := true, fbValid := true })
    else
      let place (d : Dev) : Dev := d.modSrc i (fun x => { x with hallSector := s })
      match (x.hallPlace s + 6 - x.hallPlace x.hallSector) % 6 with
      | 0 => d1
      | 1 => place (d1.modSrc i (FbSource.edge 1 t))
      | 5 => place (d1.modSrc i (FbSource.edge (-1) t))
      | 3 => place (bad d1)
      | _ =>
        if x.doubleOk t then place (d1.modSrc i (FbSource.infer t))
        else place (bad (d1.modSrc i (fun x => { x.standstill with qerr := true })))

/-! ## Tooth wheels (R241, R242) -/

/-- Does a plot with its bridge on name a source as primary or commutation source? -/
def Dev.toothHeld (d : Dev) (i : Nat) : Bool :=
  allAxes.any (fun a => (d.priSrc a == i || d.commSrc a == i) && d.bridgeBusy a)

/-- A correction by some teeth: the count and what hangs on it shift. -/
def FbSource.shiftTeeth (n : Int) (x : FbSource) : FbSource :=
  { x with count := x.count + n, edges := x.edges.map (fun e => (e.1 + n, e.2)), refCount := x.refCount.map (· + n),
           heldCorr := none, offset := 0 }

/-- A reference has been recognised at a count (R242). TEETH teeth after the one before are TEETH in the direction that they
were counted in. At a move into SYNCED the position is corrected to the nearest whole turn. -/
def Dev.toothRef (i : Fin 32) (c : Int) (d : Dev) : Dev :=
  let x := d.fb.src[i]
  let n : Int := x.unit
  let d1 := d.markIndex i (x.ofCount c + x.offset)
  match x.sync, x.refCount with
  | .synced, some r =>
    if (c - r).natAbs = x.unit then d1.modSrc i (fun x => { x with refCount := some c })
    else (d1.modSrc i (fun x => { x with sync := .lost, syncLost := true, refCount := some c })).fbFire 53 i
  | _, _ =>
    let p := x.ofCount c + x.offset
    let turn := rdivUp (p - 1) (2 ^ 20)
    let d2 := d1.modSrc i (fun x =>
      { x with sync := .synced, refCount := some c, syncCorr := rdivUp ((turn * 2 ^ 20 - p) * n) (2 ^ 20) })
    if d.toothHeld i.val then d2.modSrc i (fun x => { x with heldCorr := some (turn * n - c) })
    else d2.modSrc i (fun x => { x.shiftTeeth (turn * n - c) with idxPos := turn * 2 ^ 20 })

/-- The correction held is applied when the last bridge has gone off (R242). -/
def Dev.toothRelease (i : Fin 32) (d : Dev) : Dev :=
  let x := d.fb.src[i]
  match x.heldCorr with
  | none => d
  | some k =>
    if x.mode != 3 || d.toothHeld i.val then d
    else
      let y := x.shiftTeeth k
      let d1 := d.modSrc i (fun _ => { y with idxPos := (y.refCount.map y.ofCount).getD y.idxPos })
      d1.probeMap i (d.clk + 1) (· + (y.ofCount y.count - x.ofCount x.count - x.offset))

/-- TOOTH_EDGE. -/
def doToothEdge (g : Fin 16) (dirHigh : Bool) (held at_ : Nat) : Dev → Dev := Dev.egEdge g held fun d =>
  let i := egSrc g
  let x := d.fb.src[i]
  let t := d.clk + 2 * at_
  if x.mode != 3 then d
  else
    let gap := fld x.conf[1] 13 12
    let up := (!bitOf x.conf[1] 14 || dirHigh) != x.inv
    let iv := t - x.lastEdge
    let known := !x.edges.isEmpty && x.dirNeg == !up
    if gap = 3 ∧ known ∧ x.interval ≠ 0 ∧ 10 * iv < 7 * x.interval ∧ !x.refNext then
      d.modSrc i (fun x => { x with refNext := true })
    else
      let isGap := decide (gap = 1 ∨ gap = 2) && known && x.interval != 0 && decide (2 * iv ≥ (2 * gap + 1) * x.interval)
      let n : Int := (if up then 1 else -1) * (if isGap then gap + 1 else 1)
      let d1 := (d.modSrc i (FbSource.edge n t)).modSrc i (fun x => { x with interval := if known then iv else 0, refNext := false })
      let c := if isGap && !up then x.count else x.count + n
      let d2 := if isGap || x.refNext then d1.toothRef i c
        else
          match x.sync, x.refCount with
          | .synced, some r =>
            if (x.count + n - r).natAbs > x.unit then
              (d1.modSrc i (fun x => { x with sync := .lost, syncLost := true })).fbFire 53 i
            else d1
          | _, _ => d1
      d2.probeFollow i t

/-! ## Other events -/

/-- The position of an analog source at a phase, without its offset, in 2^-20 turn (R243, R246). -/
def FbSource.ofPhase (x : FbSource) (phase : Int) : Int :=
  let own := rdivUp (phase * 16) x.perTurn
  if x.inv then -own else own

/-- REF_MARK_EDGE (R243): what the converters have brought up to the edge gives the position at it. -/
def doRefMarkEdge (g : Fin 16) (data : AnalogData) (held : Nat) : Dev → Dev := Dev.egEdge g held fun d =>
  let i := egSrc g
  let x := d.fb.src[i]
  if x.mode != 4 || !bitOf x.conf[1] 21 then d
  else
    let r := x.read (some data)
    match r.pair with
    | none => d
    | some p => d.markIndex i (x.ofPhase (r.src.phaseAt [i.val, d.clk, 1] p) + x.offset)

/-- STANDSTILL (R237): no edge for STILL_TICKS ticks, at the latest at the end of the present tick. -/
def doStandstill (i : Fin 32) (d : Dev) : Dev :=
  let x := d.fb.src[i]
  if x.isEdge && !x.still && decide (x.lastEdge + x.stillTicks * d.tickClks ≤ d.clk + d.tickClks) then d.modSrc i FbSource.standstill
  else d

/-- ALARM follows the input; FS058 fires at a change to active (R228). -/
def Dev.setAlarm (i : Fin 32) (d : Dev) : Dev :=
  let x := d.fb.src[i]
  let act := bitOf x.conf[0] 15 && (x.lineAlarm != bitOf x.conf[0] 14)
  let d1 := d.modSrc i (fun x => { x with alarm := act })
  if act && !x.alarm then d1.fbFire 58 i else d1

/-- ENCODER_ALARM: a new level of pair 3. -/
def doEncoderAlarm (g : Fin 16) (level : Bool) (held : Nat) : Dev → Dev := Dev.egEdge g held fun d =>
  (d.modSrc (egSrc g) (fun x => { x with lineAlarm := level })).setAlarm (egSrc g)

/-! ## Excitation (R245, R261) -/

/-- The resolver sources that use an output. -/
def Dev.excUsers (d : Dev) (e : Fin 4) : List (Fin 32) :=
  (List.finRange 32).filter (fun i => d.fb.src[i].mode == 5 && fld d.fb.src[i].conf[1] 9 8 == e.val)
/-- Change an excitation output. -/
def Dev.modExc (e : Fin 4) (f : ExcOut → ExcOut) (d : Dev) : Dev := { d with fb := { d.fb with exc := vmod d.fb.exc e f } }

/-- EXC_ZERO_CROSSING: a change that waits takes effect. -/
def doExcZeroCrossing (e : Fin 4) (d : Dev) : Dev :=
  d.modExc e (fun x => match x.pending with
    | some (f, a) => { x with freq := f, ampl := a, pending := none }
    | none => x)

/-- EXC_OVERLOAD: the output is switched off; EXC_ERR and FS055 in every source that uses it. -/
def doExcOverload (e : Fin 4) (d : Dev) : Dev :=
  if !d.fb.exc[e].en then d
  else
    (d.excUsers e).foldl (fun d i =>
      (d.modSrc i (fun x => { x with excErr := true, fbValid := false, speedValid := false, goodRun := 0 })).fbFire 55 i)
      (d.modExc e (fun x => { x with en := false, overloaded := true, pending := none }))

/-! ## Serial encoders (R247 to R252) -/

/-- The multi-turn and single-turn values that position bits hold, the multi-turn value above. -/
def FbSource.split (x : FbSource) (v : Nat) : SerialSample := .good (v % 2 ^ x.stBits) (v / 2 ^ x.stBits % 2 ^ x.mtBits)

/-- Gray code of n bits to binary. -/
def grayTo : Nat → Nat → Nat
  | 0, _ => 0
  | n + 1, g =>
    let rest := grayTo n (g / 2)
    2 * rest + (g + rest) % 2
/-- The number of ones. -/
def ones (n v : Nat) : Nat := (bitsOf n v).length

/-- An SSI frame judged (R247). -/
def FbSource.ssi (x : FbSource) (before ack after : Bool) (bits : Nat) : SerialSample :=
  let par := bitOf x.conf[1] 17
  let extra := fld x.conf[1] 22 20
  let pos := x.mtBits + x.stBits
  let n := pos + extra + b2n par
  let body := if par then bits / 2 else bits
  if !(before && ack && after) || (par && ones n bits % 2 != 0) then .bad
  else if body % 2 ^ extra != 0 then .encErr
  else
    let v := body / 2 ^ extra % 2 ^ pos
    x.split (if bitOf x.conf[1] 16 then grayTo pos v else v)

/-- CRC-8 of the response (R248): polynomial 0x1D, start 0xFF, the most significant bit first. -/
def serialCrc (cs : List (BitVec 8)) : BitVec 8 :=
  cs.foldl (fun c b => (List.range 8).foldl (fun c _ => if c.getLsbD 7 then (c <<< 1) ^^^ 0x1D else c <<< 1) (c ^^^ b)) 0xFF

/-- A request/response reply judged (R248). -/
def FbSource.charsReply (x : FbSource) (stopsOk : Bool) (cs : List (BitVec 8)) : SerialSample :=
  let n := cdiv (x.stBits + x.mtBits) 8
  let body := cs.take (n + 1)
  if !stopsOk || cs.length != n + 2 || serialCrc body != cs.getD (n + 1) 0 then .bad
  else if (cs.getD 0 0).getLsbD 0 then .encErr
  else x.split (leNat (body.drop 1))

/-- Enter a sample that is bad: bridged up to BRIDGE_MAX, then the source is invalid (R251). -/
def Dev.serialBad (i : Fin 32) (d : Dev) : Dev :=
  let x := d.fb.src[i]
  let run := x.badRun + 1
  let d1 := d.modSrc i (fun x => { x with badRun := run, serBadCnt := inc8 x.serBadCnt })
  if run ≤ x.bridgeMax then
    d1.modSrc i (fun x =>
      let good := min 2 (x.goodRun + b2n x.fbValid)
      { x with bridgeRun := BitVec.ofNat 3 run, bridged := x.fbValid, goodRun := good, speedValid := x.fbValid && decide (good ≥ 2) })
  else
    let d2 := d1.modSrc i (fun x => { x with fbValid := false, speedValid := false, bridged := false, goodRun := 0, validRun := 0,
                                             serErr := x.serErr || decide (run = x.bridgeMax + 1) })
    if run = x.bridgeMax + 1 then d2.fbFire 56 i else d2

/-- The position that single-turn and multi-turn values make, with the new turn count (R252). -/
def FbSource.serialPos (x : FbSource) (st mt : Nat) : Int × Int :=
  let n := x.stBits
  let first := x.still
  let turns : Int :=
    if x.mtBits > 0 then
      (if first then signedOf x.mtBits mt else x.turns + signedOf x.mtBits (mt + 2 ^ x.mtBits - x.lastMt))
    else if first then 0
    else
      let df := signedOf n (st + 2 ^ n - x.lastSt)
      x.turns + Int.fdiv (x.lastSt + df) (2 ^ n)
  let full := turns * 2 ^ 32 + st * 2 ^ (32 - n)
  (if x.inv then -full else full, turns)

/-- The speed of a sampled source (R238): a first-order filter of SPEED_TC ticks takes in a difference quotient formed over some
clocks. -/
def FbSource.filtered (quotient : Int) (clks tickClks : Nat) (x : FbSource) : Int :=
  let tc := max 1 (x.span * tickClks)
  x.speed + rdivUp ((quotient - x.speed) * min clks tc) tc

/-- Enter a sample that is valid, unless it jumps (R250 to R252): the position in 2^-32 turn gives the speed, its upper
bits the sample. -/
def Dev.serialGood (i : Fin 32) (st mt : Nat) (d : Dev) : Dev :=
  let x := d.fb.src[i]
  let (full, turns) := x.serialPos st mt
  let own := Int.fdiv full (2 ^ 12)
  let dt : Nat := x.exchClk - x.sampleClk
  let expect := x.sample + x.speed * dt / (2 ^ 10 * 512000000)
  if x.validRun ≥ 2 ∧ (own - expect).natAbs > 2 ^ 17 then d.serialBad i
  else
    let prev := (if x.inv then -1 else 1) * (x.turns * 2 ^ 32 + x.lastSt * 2 ^ (32 - x.stBits))
    let run := min 2 (x.goodRun + 1)
    let diff := rdivUp ((full - prev) * 512000000) (4 * max 1 dt)
    let speed := if x.still then 0 else x.filtered diff dt d.tickClks
    let d1 := d.modSrc i (fun x =>
      { x with sample := own, sampleClk := x.exchClk, turns := turns, lastSt := st, lastMt := mt, still := false, speed := speed,
               fbValid := true, bridged := false, bridgeRun := 0, badRun := 0, goodRun := run, validRun := min 2 (x.validRun + 1), speedValid := decide (run ≥ 2) })
    allAxes.foldl (fun d a =>
      if d.priSrc a == i.val && d.mot[a].autoHome then d.modMot a (fun m => { m with homed := true, homeOfs := 0, autoHome := false })
      else d) d1

/-- The outcome of an exchange is taken at a tick boundary after its sample instant. -/
def Dev.serialTake (i : Fin 32) (r : SerialSample) (d : Dev) : Dev :=
  let d1 := d.modSrc i (fun x => { x with reply := none })
  match r with
  | .good st mt => d1.serialGood i st mt
  | .bad => d1.serialBad i
  | .encErr =>
    (d1.modSrc i (fun x => { x with encErr := true, fbValid := false, speedValid := false, bridged := false, goodRun := 0, validRun := 0 })).fbFire 57 i

/-- The tick boundary at which an exchange that starts now is sampled, LATENCY_NS later: its clock, and its tick number. -/
def Dev.sampleAt (x : FbSource) (d : Dev) : Nat × Nat :=
  let n := max 1 (cdiv (cdiv (fld x.conf[2] 15 0 * 512) 1000) (max 1 d.tickClks))
  (d.clk + d.tickEnd.1 + (n - 1) * d.tickClks, d.tickEnd.2 + (n - 1))

/-- SERIAL_EXCHANGE_START (R250): before a tick boundary, with PER_FRAME before a frame boundary only. An exchange still open
counts as a bad sample (R249). -/
def doSerialExchangeStart (p : Fin 16) (d : Dev) : Dev :=
  let i := espSrc p
  let x := d.fb.src[i]
  let at_ := d.sampleAt x
  if !x.isSerial || (bitOf x.conf[2] 19 && at_.2 % max 1 d.tk.conf.frameTicks.toNat != 0) then d
  else
    let d1 := match x.reply with
      | some r => d.serialTake i r
      | none => if x.exchange then d.serialBad i else d
    (d1.modSrc i (fun y => { y with exchange := true, reply := none, exchClk := at_.1 })).emit (.serial p.val)

/-- SERIAL_RESPONSE. -/
def doSerialResponse (p : Fin 16) (r : SerialReply) (d : Dev) : Dev :=
  let i := espSrc p
  let x := d.fb.src[i]
  if !x.isSerial || !x.exchange then d
  else
    let out := match r with
      | .ssi b k e bits => if x.mode = 8 then x.ssi b k e bits else .bad
      | .chars ok cs => if x.mode = 9 then x.charsReply ok cs else .bad
    let warn := match r with
      | .chars _ cs => x.mode = 9 && out != .bad && (cs.getD 0 0).getLsbD 1
      | _ => false
    d.modSrc i (fun x => { x with exchange := false, reply := some out, encWarn := x.encWarn || warn })

/-- SERIAL_WAIT_EXPIRY: no answer within WAIT. -/
def doSerialWaitExpiry (p : Fin 16) (d : Dev) : Dev :=
  let i := espSrc p
  let x := d.fb.src[i]
  if x.isSerial && x.exchange then d.modSrc i (fun x => { x with exchange := false, reply := some .bad }) else d

/-! ## The tick boundary (R229 to R231, R236 to R246, R250) -/

/-- A speed times a number of lane clocks, in 2^-20 turn. -/
def speedBy (speed : Int) (clks : Int) : Int := rdivUp (speed * clks) (2 ^ 10 * 512000000)
/-- The skew correction (R230). -/
def FbSource.skew (x : FbSource) : Int := rdivUp (x.speed * x.skewNs) (2 ^ 10 * 1000000000)

/-- The reference edge of the speed (R236): the last one at or before a clock, else the oldest; edges past it go. -/
def refEdge (before : Int) : List (Int × Nat) → List (Int × Nat)
  | [] => []
  | e :: es => if (e.2 : Int) ≤ before then [e] else e :: refEdge before es

/-- The speed of an edge source at a boundary. -/
def FbSource.edgeSpeed (clk ticks : Nat) (x : FbSource) : FbSource :=
  if !x.still && decide (x.lastEdge + x.stillTicks * ticks ≤ clk) then x.standstill
  else
    match x.edges with
    | last :: e :: es =>
      let keep := refEdge ((clk : Int) - (x.span * ticks : Nat)) (e :: es)
      let ref := keep.getLastD e
      let n := last.1 - ref.1
      let dt := max 1 (last.2 - ref.2)
      let gone := clk - last.2
      let (n, dt) := if gone * n.natAbs > dt then (sgn1 n, max 1 gone) else (n, dt)
      { x with edges := last :: keep, vNum := n, vDen := dt, speedValid := x.fbValid,
               speed := rdivUp (n * 512000000 * 2 ^ 30) (dt * x.unit) }
    | _ => x

/-- The position of an edge source between its edges, in 2^-20 turn: Halls and teeth are interpolated and stay short of the
next one (R240, R241). -/
def FbSource.edgePos (clk : Nat) (x : FbSource) : Int :=
  let own := x.ofCount x.count
  if x.mode = 1 then own
  else if x.hallMid then Int.fdiv ((2 * x.count + 1) * 2 ^ 19) x.unit
  else
    let base := if x.mode = 2 ∧ x.dirNeg then x.count + 1 else x.count
    let moved := if x.speedValid then speedBy x.speed (clk - x.lastEdge : Nat) else 0
    let p := x.ofCount base
    if x.dirNeg then min p (max (p + moved) (x.ofCount (base - 1) + 1)) else max p (min (p + moved) (x.ofCount (base + 1) - 1))

/-- What R246 adds to a resolver's position: half a period of the excitation at the source's speed. -/
def Dev.windowDelay (d : Dev) (x : FbSource) : Int :=
  if x.mode != 5 then 0
  else rdivUp x.speed (2 ^ 11 * max 1 d.fb.exc[Fin.ofNat 4 (fld x.conf[1] 9 8)].freq.toNat)

/-- A sin/cos or resolver source at a boundary (R243 to R246): the periods are tracked up to it, the amplitude is checked, and a
valid sample gives position and speed; len is the length of the tick that ends. -/
def Dev.analogTick (inp : TickInputs) (len : Nat) (i : Fin 32) (d : Dev) : Dev :=
  let r := d.fb.src[i].read ((inp.analog.find? (fun s => s.src.val == i.val)).map (·.data))
  let x := r.src
  match r.pair with
  | none => d.modSrc i (fun _ => { x with fbValid := false, speedValid := false, goodRun := 0 })
  | some p =>
    let amp := amp16 p
    let own := x.ofPhase (x.phaseAt [i.val, d.clk, 0] p)
    let off := x.mode = 5 && !d.fb.exc[Fin.ofNat 4 (fld x.conf[1] 9 8)].en
    let outside := decide (amp.toNat < fld x.conf[2] 7 0 * 256) || decide (amp.toNat > fld x.conf[2] 15 8 * 256)
    let d1 := d.modSrc i (fun _ => { x with amp := amp, still := false })
    let d2 := if r.jump then (d1.modSrc i (fun x => { x with trackLost := true, untracked := true })).fbFire 61 i else d1
    let d3 := if outside then (d2.modSrc i (fun x => { x with ampErr := true })).fbFire 54 i else d2
    if off || outside || d3.fb.src[i].untracked then
      d3.modSrc i (fun x => { x with fbValid := false, speedValid := false, goodRun := 0, sample := own })
    else
      d3.modSrc i (fun y =>
        let speed := if y.goodRun = 0 then y.speed else y.filtered (rdivUp ((own - y.sample) * 2 ^ 10 * 512000000) (max 1 len)) len d.tickClks
        let z := { y with speed := speed, sample := own, goodRun := min 2 (y.goodRun + 1), speedValid := decide (y.goodRun ≥ 1), fbValid := true }
        { z with pos := own + z.offset + z.skew + d.windowDelay z })

/-- A source delivers its position, speed and flags for a tick boundary (R229). -/
def Dev.srcTick (inp : TickInputs) (len : Nat) (d : Dev) (i : Fin 32) : Dev :=
  let x0 := d.fb.src[i]
  if x0.mode = 0 then d
  else
    let d1 := (d.modSrc i (fun x => { x with prevPos := x.pos, prevValid := x.fbValid })).toothRelease i
    let x := d1.fb.src[i]
    if x.isEdge then
      d1.modSrc i (fun x =>
        let v := { x with fbValid := x.mode != 2 || decide (x.hallSector ≤ 5) }
        let y := v.edgeSpeed d.clk (max 1 d.tickClks)
        if y.fbValid then { y with pos := y.edgePos d.clk + y.offset + y.skew } else { y with speedValid := false })
    else if x.isSerial then
      let d2 := match x.reply with
        | some r => if d.clk > x.exchClk then d1.serialTake i r else d1
        | none => d1
      d2.modSrc i (fun x =>
        if x.fbValid then { x with pos := x.sample + x.offset + speedBy x.speed ((d.clk : Int) - x.sampleClk) } else x)
    else d1.analogTick inp len i

/-- Every source at a tick boundary. -/
def Dev.fbTick (inp : TickInputs) (len : Nat) (d : Dev) : Dev := (List.finRange 32).foldl (Dev.srcTick inp len) d

/-! ## Commands -/

/-- Total bits of an SSI frame, and position bytes. -/
def ssiBits (w1 : W32) : Nat := fld w1 5 0 + fld w1 13 8 + fld w1 22 20 + b2n (bitOf w1 17)
/-- The exchange time in 1/64 ns (R249). -/
def exchangeTime (mode : Nat) (w1 w2 : W32) : Nat :=
  let wait := fld w2 27 20 * 50
  let rate := fld w1 15 14
  if mode = 8 then ((ssiBits w1 + 1) * (2000 / 2 ^ rate) + 2000 + wait) * 64
  else
    let b := if rate = 3 then 4000 else 64 * (400 / 2 ^ rate)
    10 * b + wait * 64 + 10 * (cdiv (fld w1 5 0 + fld w1 13 8) 8 + 2) * b

/-- Does a HALL_MAP give each sector to exactly one code, and 7 to the others (R239)? -/
def hallMapOk (w2 : W32) : Bool :=
  let s := (List.range 8).map (fun c => fld w2 (3 * c + 2) (3 * c))
  (List.range 6).all (fun k => s.count k == 1) && s.all (fun v => v != 6)

/-- Does FbConfig break a range (R260)? -/
def Dev.badFb (d : Dev) (c : Cmd) : Bool :=
  let p := c.payload
  let w := wd p 0
  let w1 := wd p 1
  let w2 := wd p 2
  let w3 := wd p 3
  let w4 := wd p 4
  let m := fld w 11 8
  let src := fld w 4 0
  let eg := decide (1 ≤ m) && decide (m ≤ 5)
  let analogAmp := rsv w2 0xFFFF0000 || decide (fld w2 7 0 ≥ fld w2 15 8)
  badLen c 5 || rsv w 0xFF0000E0 || (bitOf w 15 && !eg) || (bitOf w 12 && !(decide (1 ≤ m) && decide (m ≤ 3))) ||
    (if m = 0 then w1 != 0 || w2 != 0 || w3 != 0 || w4 != 0
     else
      (if eg then decide (src > 15) else src < 16) || rsv w3 0xFF000000 || fld w3 23 16 == 0 ||
        (match m with
         | 1 => rsv w1 0xFC000000 || decide (fld w1 23 0 < 4) || rsv w2 0xFFFF0000
         | 2 => rsv w1 0xFFFFFF80 || decide (fld w1 6 0 < 1) || decide (fld w1 6 0 > 64) || rsv w2 0xFF000000 || !hallMapOk w2
         | 3 => rsv w1 0xFFFF8000 || decide (fld w1 11 0 < 8) || w2 != 0
         | 4 => rsv w1 0xFFC00000 || fld w1 19 0 == 0 || analogAmp
         | 5 => rsv w1 0xFFFFFCE0 || decide (fld w1 4 0 < 1) || decide (fld w1 4 0 > 16) || analogAmp
         | 8 | 9 =>
           rsv w1 (if m = 8 then 0xFF8C00C0 else 0xFFFF00C0) || decide (fld w1 5 0 < 8) || decide (fld w1 5 0 > 32) ||
             decide (fld w1 13 8 > 24) || decide (fld w1 5 0 + fld w1 13 8 > 48) || rsv w2 0xF0000000 ||
             decide (fld w2 15 0 > 50000) || decide (fld w2 18 16 > 4) ||
             decide (exchangeTime m w1 w2 + 250 * 64 > d.tickClks * 125 * (if bitOf w2 19 then max 1 d.tk.conf.frameTicks.toNat else 1))
         | _ => true) ||
        (if decide (m ≤ 3) then decide (fld w3 23 16 > 64) || rsv w4 0xFFFF0000 || w4 == 0 else w4 != 0) ||
        (if decide (m ≥ 8) then fld w3 15 0 != 0 else decide (fld w3 15 0 > 10000)))

/-- Does a source, given its FbConfig words 0 and 1, give an absolute electrical angle (04 R121)? -/
def absoluteAngle (w0 w1 : W32) : Bool :=
  match fld w0 11 8 with
  | 8 | 9 => true
  | 5 => fld w1 4 0 == 1
  | 4 => fld w1 19 0 == 1
  | _ => false
/-- Has a type 2 plot the source it needs, given the words of each source (04 R121)? -/
def type2Ok (pri comm : Nat) (w0 w1 : Nat → W32) : Bool :=
  (decide (comm < 32) && fld (w0 comm) 11 8 == 2) || (decide (pri < 32) && absoluteAngle (w0 pri) (w1 pri))
/-- FbConfig words 0 and 1 of a source. -/
def Dev.fbWords (d : Dev) (k : Nat) (i : Nat) : W32 := if i < 32 then (d.fb.src[Fin.ofNat 32 i].conf).toList.getD k 0 else 0

/-- Would a type 2 plot that names a source lose what it needs? -/
def Dev.breaksType2 (d : Dev) (c : Cmd) : Bool :=
  let s := fld (wd c.payload 0) 4 0
  let w (k i : Nat) : W32 := if i = s then wd c.payload k else d.fbWords k i
  (d.axesOfSrc s).any (fun a => d.mtype a == 2 && !type2Ok (d.priSrc a) (d.commSrc a) (w 0) (w 1))

/-- The source of a command's word 0 [4:0]. -/
def srcNo (c : Cmd) : Fin 32 := Fin.ofNat 32 (fld (wd c.payload 0) 4 0)

/-- FbConfig (0x300, R260). What it would do to a type 2 plot is asked at its boundary only, where the plots are those that
the commands taken before it leave (R227, 04 R128). -/
def doFbConfig (st : Stall) (tag : BitVec 8) : Dev → Dev :=
  Dev.start st tag 0x300 fun c d =>
    Dev.checked c 1 [(noWord c, stParam), (d.srcLive (srcNo c).val || d.namesFault c, stState), (d.badFb c, stParam)]
      (fun d => d.await st tag .atFrame) d

/-- A source restarted with its FbConfig words; the levels of its lines stay (R227, R240). -/
def FbSource.restart (conf : Vector W32 5) (x : FbSource) : FbSource :=
  let y := { FbSource.reset with conf := conf, lineA := x.lineA, lineB := x.lineB, lineC := x.lineC, lineAlarm := x.lineAlarm }
  if y.mode = 2 then
    let s := y.sectorOf (b2n x.lineA + 2 * b2n x.lineB + 4 * b2n x.lineC)
    let z := { y with hallSector := if s ≤ 5 then s else 7, count := if s ≤ 5 then y.hallPlace s else 0, hallMid := true }
    if s ≤ 5 then { z with pos := z.edgePos 0 } else z
  else y

/-- FbConfig at its frame boundary (R227). A Hall source whose code is invalid then is invalid and fires (R231, R240). -/
def applyFbConfig (c : Cmd) (d : Dev) : Dev :=
  let i := srcNo c
  if d.srcLive i.val then d.respond c.stall c.tag stState []
  else if d.badFb c || d.breaksType2 c then d.respond c.stall c.tag stParam []
  else
    let mode (s : Nat) : Nat := if s = i.val then fld (wd c.payload 0) 11 8 else d.modeOf s
    match d.failsBudget (d.costsWith mode d.boundOf (d.axesOfSrc i.val)) with
    | some x => d.respondBudget c x
    | none =>
      let d0 := ((d.modSrc i (FbSource.restart (Vector.ofFn (fun k : Fin 5 => wd c.payload k.val)))).setAlarm i).unhomeSrc i.val
      let d1 := if mode i.val = 2 ∧ d0.fb.src[i].hallSector > 5 then d0.fbFire 52 i else d0
      let d2 := allAxes.foldl (fun d a =>
        if d.priSrc a == i.val then d.modMot a (fun m => { m with autoHome := decide (mode i.val ≥ 8) }) else d) d1
      d2.readmit.ok c []

/-- ExcConfig (0x301, R261). -/
def doExcConfig (st : Stall) (tag : BitVec 8) : Dev → Dev :=
  Dev.start st tag 0x301 fun c d =>
    let w := wd c.payload 0
    let f := wd c.payload 1
    let e : Fin 4 := Fin.ofNat 4 (fld w 1 0)
    Dev.checked c 1
      [(noWord c, stParam), ((d.excUsers e).any (fun i => d.srcLive i.val), stState),
       (badLen c 2 || rsv w 0xFFFFFC00 || rsv f 0xFFFF8000 || decide (fld w 9 3 < 10) || decide (fld w 9 3 > 70) ||
         decide (fld f 14 0 < 2000) || decide (fld f 14 0 > 20000), stParam)]
      (fun d => d.await st tag .atFrame) d

/-- ExcConfig at its frame boundary: a change on an enabled output waits for its zero crossing. -/
def applyExcConfig (c : Cmd) (d : Dev) : Dev :=
  let w := wd c.payload 0
  let e : Fin 4 := Fin.ofNat 4 (fld w 1 0)
  let f := BitVec.ofNat 15 (fld (wd c.payload 1) 14 0)
  let a := BitVec.ofNat 7 (fld w 9 3)
  if (d.excUsers e).any (fun i => d.srcLive i.val) then d.respond c.stall c.tag stState []
  else
    let d1 := d.modExc e (fun x =>
      if !bitOf w 2 then { x with en := false, freq := f, ampl := a, pending := none }
      else if x.en then { x with pending := if x.freq = f ∧ x.ampl = a then none else some (f, a) }
      else { x with en := true, freq := f, ampl := a, pending := none, overloaded := false })
    let d2 := if bitOf w 2 then (d.excUsers e).foldl (fun d i => d.modSrc i (fun x => { x with excErr := false })) d1 else d1
    d2.ok c []

/-- FbPosSet (0x302, R262). -/
def doFbPosSet (st : Stall) (tag : BitVec 8) : Dev → Dev :=
  Dev.start st tag 0x302 fun c d =>
    Dev.checked c 1
      [(noWord c, stParam), (d.fb.src[srcNo c].mode == 0 || d.srcLive (srcNo c).val || d.namesFault c, stState),
       (badLen c 3 || rsv (wd c.payload 0) 0xFFFFFFE0 || !inR11 (s64 (wd c.payload 1) (wd c.payload 2)), stParam)]
      (fun d => d.await st tag .atFrame) d

/-- The position that a source has at a boundary without its offset (R262): of an analog source also while it is invalid. -/
def Dev.ownPos (d : Dev) (x : FbSource) : Int :=
  if x.mode = 4 ∨ x.mode = 5 then x.sample + x.skew + d.windowDelay x else x.pos - x.offset

/-- FbPosSet at its frame boundary. -/
def applyFbPosSet (c : Cmd) (d : Dev) : Dev :=
  let i := srcNo c
  let v := s64 (wd c.payload 1) (wd c.payload 2)
  if d.fb.src[i].mode == 0 || d.srcLive i.val then d.respond c.stall c.tag stState []
  else
    let shift := v - d.ownPos d.fb.src[i] - d.fb.src[i].offset
    let d1 := d.modSrc i (fun x => { x with offset := x.offset + shift, pos := v, trackLost := false, untracked := false,
                                            goodRun := if x.untracked then 0 else x.goodRun })
    ((d1.probeMap i (d.clk + 1) (· + shift)).unhomeSrc i.val).ok c []

/-- FbClear (0x303, R263): an axis in fault state does not refuse it. -/
def doFbClear (st : Stall) (tag : BitVec 8) : Dev → Dev :=
  Dev.start st tag 0x303 fun c d =>
    Dev.checked c 1 [(badLen c 1 || wd c.payload 0 == 0, stParam)] (fun d => d.await st tag .atTick) d

/-- Sticky bits and counters cleared. -/
def FbSource.clear (x : FbSource) : FbSource :=
  { x with syncLost := false, trackLost := false, ampErr := false, inferred := false, qerr := false, indexDev := false,
           hallErr := false, serErr := false, encErr := false, encWarn := false, excErr := false, qerrCnt := 0, qinfCnt := 0,
           serBadCnt := 0, indexDevCnt := 0 }

/-- FbClear at its tick boundary. -/
def applyFbClear (c : Cmd) (d : Dev) : Dev :=
  ((bitsOf 32 (wd c.payload 0).toNat).foldl (fun d i => d.modSrc (Fin.ofNat 32 i) FbSource.clear) d).ok c []

end Sys2Proof.Machine
end

