-- ==== Sys2Proof/Machine/Plot.lean ====
section
/-! DEFINITION. The plot commands: what a plot may take, its checks at the frame boundary, and how it applies (spec 04 R112
to R133). -/
namespace Sys2Proof.Machine
open Sys2Proof

/-! ## Checks (R113, R121, R123, R125, R131) -/

/-- The record of a PlotAssign or PlotModify. -/
def recWord (c : Cmd) (k : Nat) : W32 := wd c.payload (k + 1)
/-- The four leg fields of a plot word 1. -/
def legNums (w : W32) : List Nat := (List.range 4).map (fun i => fld w (8 * i + 5) (8 * i))
/-- Assigned axes other than one. -/
def Dev.otherAxes (d : Dev) (a : AxisNo) : List AxisNo := allAxes.filter (fun b => b != a && d.assigned b)

/-- Does a record name a leg, SD pair, EMU output or primary source that another plot holds? -/
def Dev.plotHeld (d : Dev) (a : AxisNo) (p : Nat → W32) : Bool :=
  (d.otherAxes a).any (fun b =>
    (legNums (p 1)).any (fun k => decide (k < 48) && (d.axisLegs b).contains (lg k)) ||
    (decide (fld (p 4) 3 0 < 8) && fld (d.plotW b 4) 3 0 == fld (p 4) 3 0) ||
    ((fld (p 4) 11 8 &&& fld (d.plotW b 4) 11 8) != 0) ||
    (decide (fld (p 3) 5 0 < 32) && d.priSrc b == fld (p 3) 5 0))

/-- Is a source number neither a source nor 63? -/
def badSrc (s : Nat) : Bool := decide (s ≥ 32) && s != 63

/-- Do the legs of a record break their count, Table 4.1, R113, or name a leg that start-up found weak (14 R548)? -/
def Dev.badLegs (d : Dev) (p : Nat → W32) : Bool :=
  let n := legCount (fld (p 0) 3 0)
  let used := (legNums (p 1)).take n
  used.any (fun k => decide (k ≥ 48)) || ((legNums (p 1)).drop n).any (fun k => k != 63) || used.eraseDups.length != n ||
    used.any (fun k => dieOf (lg k) != dieOf (lg (used.headD 0))) || used.any (fun k => d.sv.legAge[lg k].refused)

/-- Does word 5 break its ranges or R125? -/
def Dev.badLaws (d : Dev) (p : Nat → W32) : Bool :=
  let w := p 5
  let t := fld (p 0) 3 0
  let n := fld w 23 16
  rsv w 0xFF000000 || decide (n > 64) || fld w 15 14 == 3 || (t != 3 && fld w 15 14 != 0) || decide (fld w 13 11 > 4) ||
    decide (fld w 10 8 > 4) || (bitOf w 1 && !bitOf w 0) || (bitOf w 2 && !bitOf w 1 && t != 5) || (n != 0 && !d.loaded n) ||
    ((t == 0 || t == 5) && ((d.prog? n).map (fun x => x.hook == 2)).getD false)

/-- Do the limits of words 6 to 11 break their ranges? -/
def badLimits (p : Nat → W32) : Bool :=
  let lo := s64 (p 8) (p 9)
  let hi := s64 (p 10) (p 11)
  p 6 == 0 || decide ((p 6).toNat > 0x7FFFF) || !inR11 lo || !inR11 hi || !((lo == 0 && hi == 0) || decide (lo < hi))

/-- Is a record not admissible as a plot: PARAM of R131? -/
def Dev.badPlot (d : Dev) (p : Nat → W32) : Bool :=
  let t := fld (p 0) 3 0
  let off := t == 0 || t == 5
  let pri := fld (p 3) 5 0
  let comm := fld (p 3) 13 8
  rsv (p 0) 0xFFFFFFF0 || decide (t > 5) || rsv (p 1) 0xC0C0C0C0 || d.badLegs p ||
    rsv (p 2) 0x0000FC8E || decide (fld (p 2) 6 4 > 3) || ((fld (p 2) 31 16 == 0) != off) ||
    rsv (p 3) 0xFFC0C0C0 || badSrc pri || badSrc comm || badSrc (fld (p 3) 21 16) ||
    rsv (p 4) 0xFFFFF0F0 || (decide (fld (p 4) 3 0 ≥ 8) && fld (p 4) 3 0 != 15) ||
    d.badLaws p || badLimits p ||
    ((t == 1 || t == 3) && pri == 63) || (t == 2 && !type2Ok pri comm (d.fbWords 0) (d.fbWords 1)) ||
    (t == 5 && fld (p 4) 3 0 == 15)

/-- Does a record change a field that may change only with the bridge off (Table 4.4)? -/
def Dev.changesFixed (d : Dev) (a : AxisNo) (p : Nat → W32) : Bool :=
  fld (p 0) 3 0 != d.mtype a || p 1 != d.plotW a 1 || p 2 != d.plotW a 2 || fld (p 3) 13 0 != fld (d.plotW a 3) 13 0

/-- May a PlotModify not change what it changes now (R127)? -/
def Dev.modifyBlocked (d : Dev) (a : AxisNo) (p : Nat → W32) : Bool :=
  let sd := fld (p 4) 3 0 != fld (d.plotW a 4) 3 0
  (d.bridgeBusy a && (d.changesFixed a p || sd)) || (d.mtype a == 5 && sd && (d.mot[a].moving || d.mot[a].v != 0))

/-- The checks of PlotAssign and PlotModify, at their boundary. -/
def Dev.plotChecks (d : Dev) (modify : Bool) (c : Cmd) : List (Bool × Nat) :=
  let a := axisOf c
  let p := recWord c
  [(d.plotHeld a p, stResource),
   (d.axf[a].fault || d.assigned a != modify || (modify && d.modifyBlocked a p), stState),
   (badLen c 15 || rsv (wd c.payload 0) 0xFFFFFFF0 || d.badPlot p, stParam)]

/-! ## Applying (R127 to R129) -/

/-- The record in force from a command's words. -/
def Dev.newRecord (d : Dev) (a : AxisNo) (p : Nat → W32) : Vector W32 14 :=
  (Vector.ofFn (fun k : Fin 14 => p k.val)).set 0 (mkw [(1, 31, 1), (fld (d.plotW a 0) 23 16 + 1, 16, 8), (fld (p 0) 3 0, 0, 4)])

/-- The highest mode that the laws of an axis allow (06 R196): 3 position, 2 velocity, 1 current; types 0 and 5 have no
current mode, and no mode without VEL. -/
def Dev.topMode (d : Dev) (a : AxisNo) : Nat :=
  if d.lawOn a 1 then 3 else if d.lawOn a 0 then 2 else if d.noBridge a then 0 else 1

/-- Control laws of a new axis (06 R183, R196, R201, R222). A save of a learned table that still runs goes on. -/
def Dev.newCtl (d : Dev) (a : AxisNo) : Ctl :=
  let r := d.ctl[a].rep
  { Ctl.reset with
      scale0 := mkw [(14, 21, 5), (7, 16, 4), (4, 8, 7), (a.val, 0, 4)]
      mode := BitVec.ofNat 2 (d.topMode a)
      obsStart := true
      rep := { Rep.reset with storing := r.storing, draft := r.draft, copyEnd := r.copyEnd } }

/-- Motion state of a new axis (09 R307, R314, R342, R343, R359). -/
def Dev.newMotion (d : Dev) (a : AxisNo) : Motion :=
  { Motion.reset with
      src := if d.noBridge a then 0 else 8
      limits := ⟨#[2560, 1600, 10000, 1600, 10000, 16000, 1000000], rfl⟩
      ovr := 0x1000
      stillFrac := 0x40000
      stillDelay := 500
      stillRamp := 200
      stillF := 2 ^ 19
      homeConf := (Vector.replicate 10 (0 : W32)).set 1 0x3F3F3F
      autoHome := decide (d.modeOf (d.priSrc a) ≥ 8) && decide (d.priSrc a < 32) }

/-- Lane state of a new axis (05 R159). -/
def Dev.newLoop (d : Dev) (a : AxisNo) : AxisLoop :=
  { AxisLoop.reset with bankA := bankDefaults, bankB := bankDefaults, prevLane := d.loops[a].prevLane }

/-- PlotAssign: the axis begins in the state of a new axis (R129). -/
def Dev.assign (a : AxisNo) (p : Nat → W32) (d0 : Dev) : Dev :=
  let d : Dev := { d0 with plots := vset d0.plots a (d0.newRecord a p) }
  let legs := d.axisLegs a
  let d1 := legs.foldl (fun e l => e.modLeg l (fun x => { (x.allOff (d.legExt l)).clearSticky with tripped := false })) d
  let trims := legs.foldl (fun t l => vmod t (convOfLeg l) (fun x => { x with skewTrim := 0 })) d1.cap.trims
  { d1 with
      loops := vset d1.loops a (d.newLoop a)
      ctl := vset d1.ctl a (d.newCtl a)
      mot := vset d1.mot a (d.newMotion a)
      pwm := vset d1.pwm a AxisPwm.defaults
      saved := vset d1.saved a none
      axf := vmod d1.axf a (fun f => { f with measureDue := false, remeasure := false })
      sv := { d1.sv with plans := vset d1.sv.plans a none }
      cap := { d1.cap with avgMode := vset d1.cap.avgMode a false, lsSettle := vset d1.cap.lsSettle a 0, trims := trims } }

/-- A tightened speed limit or headland acts on what runs (R127). -/
def Dev.relimit (a : AxisNo) (d : Dev) : Dev :=
  let m := d.mot[a]
  if m.stopKind != 0 then d
  else match m.cur with
    | some e =>
      if m.src != 1 then d
      else if e.move.kind == .velocity then d.replan a
      else
        let (t, d1) := d.clampTarget a e.target
        (d1.modMot a (fun m => { m with cur := some { e with target := t } })).replan a
    | none => if m.src == 2 then d.replan a else d

/-- What a change of the laws in word 5 does (06 R196, R201, R203, R205, R212; log entry 72). -/
def Dev.changeLaws (a : AxisNo) (w0 : W32) (d : Dev) : Dev :=
  let w := d.plotW a 5
  let on (k : Nat) : Bool := bitOf w k && !bitOf w0 k
  let off (k : Nat) : Bool := !bitOf w k && bitOf w0 k
  let iMax : Int := fld (d.plotW a 6) 19 0
  let fresh (base n0 n : Nat) (v : Vector Biquad 8) : Vector Biquad 8 :=
    (List.range n).foldl (fun v j => if j < n0 then v else vset v (Fin.ofNat 8 (base + j)) Biquad.zero) v
  let d1 := d.modCtl a (fun c0 =>
    let c1 := if off 5 then c0.dropRepOut iMax d.pwm[a].bridgeOn else c0
    let c := if off 5 || on 5 then { c1 with rep := { c1.rep with enabledFrames := 0, primed := false } } else c1
    { c with
        obsStart := c.obsStart || on 6
        plaus := if on 7 || off 7 then Vector.replicate 4 ⟨0, false⟩ else c.plaus
        plausLatched := c.plausLatched && !on 7
        biquads := fresh 4 (fld w0 13 11) (fld w 13 11) (fresh 0 (fld w0 10 8) (fld w 10 8) c.biquads) })
  let d2 := if (off 3 || off 4) && !bitOf w 3 && !bitOf w 4 && d.mot[a].follow != .disengaged then
      (d1.modMot a Motion.disengage).stopAxis a false 1
    else d1
  if fld w 23 16 != fld w0 23 16 then
    d2.modLoop a (fun l =>
      let i : Fin 2 := if l.slot then 1 else 0
      { l with slots := vset l.slots i [], userFar := [], bypassed := false })
  else d2

/-- The mode of an axis whose plot has changed: the highest that is left where its law is gone. -/
def Dev.changeMode (a : AxisNo) (d : Dev) : Dev :=
  let m := d.ctl[a].mode.toNat
  let lost := (m == 3 && !d.lawOn a 1) || (m == 2 && !d.lawOn a 0) || (d.noBridge a && m != d.topMode a) || (!d.noBridge a && m == 0)
  if lost then d.setMode a (d.topMode a) false 0 else d

/-- PlotModify (R127). Legs that leave the plot go back to the state of a free leg (R114). -/
def Dev.modify (a : AxisNo) (p : Nat → W32) (d : Dev) : Dev :=
  let old := d.axisLegs a
  let d1 : Dev := { d with plots := vset d.plots a (d.newRecord a p) }
  let d2 := (old.filter (fun l => !(d1.axisLegs a).contains l)).foldl (fun e l => e.modLeg l (Leg.allOff (d.legExt l))) d1
  let d3 := (d2.changeLaws a (d.plotW a 5)).changeMode a
  let d4 := if fld (p 3) 21 16 != d.secSrc a then d3.modCtl a (fun c => { c with plausLatched := false }) else d3
  let d5 := if d4.noBridge a != d.noBridge a then
      (d4.endMoves a .stopped .flushed).modMot a (fun m => { m.disengage with src := if d4.noBridge a then 0 else 8, v := 0, a := 0, jogVel := 0, profile := none })
    else d4
  if [7, 8, 9, 10, 11].any (fun k => p k != d.plotW a k) then d5.relimit a else d5

/-- PlotAssign or PlotModify at its boundary. -/
def applyPlot (modify : Bool) (c : Cmd) (d : Dev) : Dev :=
  let a := axisOf c
  let p := recWord c
  Dev.checked c 1 (d.plotChecks modify c) (fun d =>
    match d.failsBudget [(a.val, d.costOfPlot p)] with
    | some x => d.respondBudget c x
    | none => ((if modify then d.modify a p else d.assign a p).readmit).ok c []) d

/-- What still runs for an axis whose plot goes: bank commands complete with STATE (05 R161), a measurement too; its moves
and its homing end (log entry 72). -/
def Dev.endAxis (a : AxisNo) (d : Dev) : Dev :=
  let mine := d.hp.inFlight.filter (fun c => c.phase != .answered && axisOf c == a &&
    (c.code == 0x230 || c.code == 0x231 || (c.phase == .started && (c.code == 0x533 || c.code == 0xB20))))
  let d1 := mine.foldl (fun d c => (d.abandon c).respond c.stall c.tag stState []) d
  let d2 : Dev := { d1 with sv := { d1.sv with measuring := d1.sv.measuring.filter (fun m => m.axis != a) } }
  (((d2.endMoves a .stopped .flushed).failHome a 3).modMot a (fun m => { m.disengage with profile := none, v := 0, a := 0, jogVel := 0 })).modLoop a
    (fun l => { l with swap := none, copying := false, events := [] })

/-- The checks of PlotRelease, at its boundary. -/
def Dev.releaseChecks (d : Dev) (c : Cmd) : List (Bool × Nat) :=
  let a := axisOf c
  [(!d.assigned a || d.bridgeBusy a, stState), (badLen c 1 || rsv (wd c.payload 0) 0xFFFFFFF0, stParam)]

/-- PlotRelease at its boundary (R114, R132). -/
def applyRelease (c : Cmd) (d : Dev) : Dev :=
  let a := axisOf c
  Dev.checked c 1 (d.releaseChecks c) (fun d =>
    let d1 := (d.axisLegs a).foldl (fun d l => d.legOff l) (d.endAxis a)
    ({ d1 with plots := vset d1.plots a (Vector.replicate 14 0) }).readmit.ok c []) d

/-! ## Commands -/

/-- PLOT_ASSIGN. -/
def doPlotAssign (st : Stall) (tag : BitVec 8) : Dev → Dev :=
  Dev.start st tag 0x101 fun c d => Dev.checked c 1 [(noWord c, stParam)] (fun d => d.await st tag .atFrame) d
/-- PLOT_RELEASE. -/
def doPlotRelease (st : Stall) (tag : BitVec 8) : Dev → Dev :=
  Dev.start st tag 0x102 fun c d => Dev.checked c 1 [(noWord c, stParam)] (fun d => d.await st tag .atFrame) d
/-- PLOT_MODIFY. -/
def doPlotModify (st : Stall) (tag : BitVec 8) : Dev → Dev :=
  Dev.start st tag 0x103 fun c d => Dev.checked c 1 [(noWord c, stParam)] (fun d => d.await st tag .atFrame) d

/-- PLOT_QUERY: plots change only at frame boundaries, so the record in force is that of the last one (R133). -/
def doPlotQuery (st : Stall) (tag : BitVec 8) : Dev → Dev :=
  Dev.start st tag 0x104 fun c d => Dev.checked c 15
    [(badLen c 1 || rsv (wd c.payload 0) 0xFFFFFFF0, stParam)] (fun d => d.ok c d.plots[axisOf c].toList) d

/-- FIELD_QUERY (R133). -/
def doFieldQuery (st : Stall) (tag : BitVec 8) : Dev → Dev :=
  Dev.start st tag 0x100 fun c d => Dev.checked c 5 [(badLen c 0, stParam)] (fun d =>
    let legs := maskOf (((List.finRange 48).filter (fun l => (d.legAxis l).isNone)).map Fin.val)
    let sd := maskOf ((List.range 8).filter (fun n => (d.sdAxis n).isNone))
    let emu := maskOf ((List.range 4).filter (fun n => (d.emuAxis n).isNone))
    d.ok c [nW legs, nW (legs / 2 ^ 32), mkw [(emu, 8, 4), (sd, 0, 8)],
            nW (maskOf ((List.range 32).filter (fun s => allAxes.any (fun a => d.priSrc a == s))))]) d

/-- The plot commands at their boundary. -/
def applyPlots (c : Cmd) (d : Dev) : Dev :=
  match c.code.toNat with
  | 0x101 => applyPlot false c d
  | 0x102 => applyRelease c d
  | 0x103 => applyPlot true c d
  | _ => d

/-! ## Meanings -/

/-- FIELD_QUERY. -/
def execFieldQuery (st : Stall) (tag : BitVec 8) (s : State) : Host.Outcome State Fault Refusal :=
  .next (s.on (doFieldQuery st tag))
/-- PLOT_ASSIGN. -/
def execPlotAssign (st : Stall) (tag : BitVec 8) (s : State) : Host.Outcome State Fault Refusal :=
  .next (s.on (doPlotAssign st tag))
/-- PLOT_RELEASE. -/
def execPlotRelease (st : Stall) (tag : BitVec 8) (s : State) : Host.Outcome State Fault Refusal :=
  .next (s.on (doPlotRelease st tag))
/-- PLOT_MODIFY. -/
def execPlotModify (st : Stall) (tag : BitVec 8) (s : State) : Host.Outcome State Fault Refusal :=
  .next (s.on (doPlotModify st tag))
/-- PLOT_QUERY. -/
def execPlotQuery (st : Stall) (tag : BitVec 8) (s : State) : Host.Outcome State Fault Refusal :=
  .next (s.on (doPlotQuery st tag))

end Sys2Proof.Machine
end

