-- ==== Sys2Proof/Machine/Probe.lean ====
section
/-! DEFINITION. Probes and emulation outputs (spec 07 R253 to R256, R264 to R266), and the meanings of the feedback rows. -/
namespace Sys2Proof.Machine
open Sys2Proof

/-- Change a probe. -/
def Dev.modProbe (p : Fin 16) (f : Probe → Probe) (d : Dev) : Dev := { d with fb := { d.fb with probes := vmod d.fb.probes p f } }

/-- A filtered edge of a probe input (R253, R254): the chosen edges are stamped and kept, at most four unread; homing,
limits and capture take edges directly. -/
def doProbeEdge (p : Fin 16) (rising : Bool) (held at_ : Nat) (d : Dev) : Dev :=
  let x := d.fb.probes[p]
  if !filtered x.filt.toNat held then d
  else
  let t := d.clk + 2 * at_
  let stamp := d.ntAt (2 * at_)
  let d0 := (d.modProbe p (fun x => { x with level := rising })).homeEdge (32 + p.val) rising t
  if !x.edge.getLsbD (if rising then 0 else 1) then d0
  else
    let d1 : Dev := { d0 with cap := { d0.cap with units := d0.cap.units.map (fun u =>
      if u.state == .waiting || u.state == .pre then { u with events := u.events ++ [.probe p rising stamp] } else u) } }
    if x.entries.length ≥ 4 then
      (d1.modProbe p (fun x => { x with ovf := true })).fire 59 (.axes (if x.src.toNat < 32 then d.axesOfSrc x.src.toNat else []))
    else
      let y := d.fb.src[Fin.ofNat 32 x.src.toNat]
      let pos := if x.src.toNat < 32 then y.ofCount y.count + y.offset else 0
      d1.modProbe p (fun x => { x with entries := x.entries ++ [⟨stamp, t, rising, x.src, pos, false, false, false⟩] })

/-- The position of an entry at a tick boundary, once it is known (R253); len is the length of the tick that ended. -/
def Dev.entryAt (d : Dev) (len : Nat) (e : ProbeEntry) : ProbeEntry :=
  let src := e.src.toNat
  if e.known then e
  else if src ≥ 32 then { e with pos := 0, posValid := false, known := true }
  else
    let x := d.fb.src[Fin.ofNat 32 src]
    let valid := x.prevValid && x.fbValid
    if x.mode = 1 ∨ x.mode = 3 then
      if e.clk + x.skewNs * 512 / 1000 ≤ d.clk then { e with posValid := valid, known := true }
      else e
    else if e.clk < d.clk then
      { e with pos := x.prevPos + rdivUp ((x.pos - x.prevPos) * ((e.clk : Int) - (d.clk - len : Nat))) (max 1 len),
               posValid := valid && x.mode != 0, known := true }
    else e

/-- The oldest entry that is not readable becomes readable if its position is known: entries do so in edge order (R253). -/
def Probe.openOne (p : Probe) : Probe :=
  let done := p.entries.takeWhile (·.readable)
  match p.entries.drop done.length with
  | e :: es =>
    if e.known then
      let r := { e with readable := true }
      { p with entries := done ++ r :: es, newest := some r, fresh := if r.posValid then p.fresh ++ [(r.clk, r.pos)] else p.fresh }
    else p
  | [] => p

/-- Is the latch source of an entry a serial one? -/
def Dev.serialEntry (d : Dev) (e : ProbeEntry) : Bool := decide (e.src.toNat < 32) && d.fb.src[Fin.ofNat 32 e.src.toNat].isSerial

/-- Open the entries that are known, in edge order, up to the first of which a condition does not hold. -/
def Probe.openWhile (may : ProbeEntry → Bool) (p : Probe) : Probe :=
  (List.range 4).foldl (fun p _ =>
    match p.entries.dropWhile (·.readable) with
    | e :: _ => if may e then p.openOne else p
    | [] => p) p

/-- Entries at a tick boundary: those known since the boundary before become readable at the latest, then the positions that
this boundary makes known; of these, those of serial sources become readable within the tick that begins, the others at once
(R253). -/
def Dev.probeTick (len : Nat) (d : Dev) : Dev :=
  { d with fb := { d.fb with probes := d.fb.probes.map (fun p =>
    let q := p.openWhile (fun _ => true)
    { q with entries := q.entries.map (d.entryAt len) }.openWhile (fun e => !d.serialEntry e)) } }

/-- PROBE_ENTRY_READABLE: the oldest entry whose position is known becomes readable. -/
def doProbeEntryReadable (p : Fin 16) (d : Dev) : Dev := d.modProbe p Probe.openOne

/-- ProbeConfig (0x310). -/
def doProbeConfig (st : Stall) (tag : BitVec 8) : Dev → Dev :=
  Dev.start st tag 0x310 fun c d =>
    let w := wd c.payload 0
    Dev.checked c 1 [(badLen c 1 || rsv w 0xFE00C0C0 || (decide (fld w 13 8 > 31) && fld w 13 8 != 63), stParam)]
      (fun d => d.await st tag .atTick) d

/-- ProbeConfig at its tick boundary (R264). -/
def applyProbeConfig (c : Cmd) (d : Dev) : Dev :=
  let w := wd c.payload 0
  (d.modProbe (Fin.ofNat 16 (fld w 3 0)) (fun x =>
    { x with filt := BitVec.ofNat 8 (fld w 23 16), src := BitVec.ofNat 6 (fld w 13 8), edge := BitVec.ofNat 2 (fld w 5 4),
             entries := if bitOf w 24 then [] else x.entries, ovf := x.ovf && !bitOf w 24 })).ok c []

/-- The five words of an entry in a ProbeRead response (R265). -/
def ProbeEntry.words (e : ProbeEntry) : List W32 :=
  [mkw [(b2n e.rising, 31, 1), (b2n e.posValid, 30, 1), ((e.stamp.sec >>> 32).toNat, 0, 16)], e.stamp.sec.setWidth 32,
   e.stamp.ns, loW e.pos, hiW e.pos]

/-- ProbeRead (0x311), answered at once. -/
def doProbeRead (st : Stall) (tag : BitVec 8) : Dev → Dev :=
  Dev.start st tag 0x311 fun c d =>
    let w := wd c.payload 0
    let p : Fin 16 := Fin.ofNat 16 (fld w 3 0)
    let x := d.fb.probes[p]
    let ready := x.entries.filter (·.readable)
    let n := min ready.length (fld w 6 4)
    Dev.checked c 1 [(badLen c 1 || rsv w 0xFFFFFF80 || fld w 6 4 == 0 || decide (fld w 6 4 > 4), stParam)]
      (fun d => (d.modProbe p (fun x => { x with entries := x.entries.drop n })).ok c
        (mkw [(n, 0, 3), (ready.length - n, 8, 3), (b2n x.ovf, 11, 1)] :: (ready.take n).flatMap ProbeEntry.words)) d

/-! ## Emulation outputs (R255, R256, R266) -/

/-- EmuConfig (0x320). -/
def doEmuConfig (st : Stall) (tag : BitVec 8) : Dev → Dev :=
  Dev.start st tag 0x320 fun c d =>
    let p := c.payload
    Dev.checked c 1
      [(badLen c 3 || rsv (wd p 0) 0xFFFFFFE0 || rsv (wd p 1) 0xFF000000 || decide ((wd p 1).toNat < 4) || rsv (wd p 2) 0xF0000000 ||
        fld (wd p 2) 27 20 == 0 || decide (fld (wd p 2) 27 20 > 64), stParam)]
      (fun d => d.await st tag .atFrame) d

/-- EmuConfig at its frame boundary: a change of CPR, DIR_INV or REF resets the count as at enabling. -/
def applyEmuConfig (c : Cmd) (d : Dev) : Dev :=
  let p := c.payload
  let w := wd p 0
  Dev.ok c [] { d with fb := { d.fb with emu := vmod d.fb.emu (Fin.ofNat 4 (fld w 1 0)) (fun x =>
    let same := x.cpr.toNat = (wd p 1).toNat ∧ x.dirInv = bitOf w 4 ∧ x.ref = bitOf w 3
    { x with en := bitOf w 2, ref := bitOf w 3, dirInv := bitOf w 4, cpr := BitVec.ofNat 24 (wd p 1).toNat,
             zpos := BitVec.ofNat 20 (fld (wd p 2) 19 0), maxRate := BitVec.ofNat 8 (fld (wd p 2) 27 20),
             active := x.active && decide same && bitOf w 2 }) } }

/-- The target count of the tick committed last: floor (position × CPR), reversed by DIR_INV (R255). -/
def Dev.emuTarget (d : Dev) (a : AxisNo) (x : EmuOut) : Int :=
  let s := d.ctl[a].sig
  let c := Int.fdiv ((if x.ref then s.posRef else s.posPri) * x.cpr.toNat) (2 ^ 20)
  if x.dirInv then -c else c

/-- The steps of the tick just ended are done (R255). -/
def EmuOut.stepped (x : EmuOut) : EmuOut :=
  { x with count := x.count + x.plan, plan := 0, carry := 0, slack := x.slackEnd, slackEnd := 0, limited := false }

/-- The steps of a tick of a given length toward a goal: as many as MAX_RATE lets through, the spacing running on from the
tick before while it does (R255). -/
def EmuOut.toward (goal : Int) (len : Nat) (x : EmuOut) : EmuOut :=
  let todo := (goal - x.count).natAbs
  let room := len * x.maxRate.toNat + x.slack
  let limited := decide (todo * 512 > len * x.maxRate.toNat)
  let go := min todo (room / 512)
  { x with plan := sgn1 (goal - x.count) * go, carry := todo - go, limited := limited,
           slackEnd := if limited && decide (go = room / 512) then room % 512 else 0 }

/-- An emulation output at a tick boundary: the steps of the tick before are done and LAG shows what they left (R255). Then
the steps toward the target committed last are planned. An output that a plot has just come to hold waits for that plot's
first commit; a moved one keeps its count and goes on from there (R256, 04 Table 4.4). len is the length of the tick that
begins. -/
def Dev.emuOne (len : Nat) (d : Dev) (n : Fin 4) : Dev :=
  let x := d.fb.emu[n]
  let y := x.stepped
  let put (y : EmuOut) : Dev := { d with fb := { d.fb with emu := vset d.fb.emu n y } }
  match d.emuAxis n.val with
  | none => put { y with active := false, settling := false, lag := 0, axis := none }
  | some a =>
    let c := d.emuTarget a x
    if !x.en then put { y with active := false, settling := false, lag := 0, axis := some a }
    else if x.axis != some a || !(x.active || x.settling) then
      put { y with settling := true, lag := 0, slack := 0, axis := some a }
    else if x.settling then
      put { y with settling := false, active := true, lag := 0, count := if x.active then y.count else c,
                   base := if x.active then y.count - c else 0 }
    else
      let d1 := put ({ y with lag := BitVec.ofNat 16 (satU 16 x.carry) }.toward (c + x.base) len)
      if x.carry > 1024 ∧ x.lag.toNat ≤ 1024 then d1.fire 60 (.axes [a]) else d1

/-- One tick of the emulation outputs. -/
def Dev.emuTick (len : Nat) (d : Dev) : Dev := (List.finRange 4).foldl (Dev.emuOne len) d

/-- Is an output driven: enabled and held by a plot? Otherwise it is high-impedance with its pull-down (R256). -/
def EmuOut.driven (x : EmuOut) : Bool := x.en && x.axis.isSome

/-- The count of an output, t controller clocks into a tick of a given length: the steps lie evenly over the tick, and no
closer than 1 ÷ MAX_RATE (R255). -/
def EmuOut.countAt (len t : Nat) (x : EmuOut) : Int :=
  let n := x.plan.natAbs
  let done := if x.limited then (t * x.maxRate.toNat + x.slack) / 512 else t * n / max 1 len
  x.count + sgn1 x.plan * (min n done : Nat)

/-- The levels of A, B and Z at a count: a quadrature pair that steps through 00, 10, 11, 01 as the count rises, with both
low at a count divisible by 4 (DESIGN CHOICE, log entry 115), and Z high in one count per turn (R256). -/
def EmuOut.levels (x : EmuOut) (count : Int) : Bool × Bool × Bool :=
  let q := Int.fmod count 4
  (decide (q = 1 ∨ q = 2), decide (q = 2 ∨ q = 3),
   decide (Int.fmod count (max 1 x.cpr.toNat) = ((x.zpos.toNat * x.cpr.toNat / 2 ^ 20 : Nat) : Int)))

/-! ## Meanings -/

/-- FB_CONFIG. -/
def execFbConfig (st : Stall) (tag : BitVec 8) (s : State) : Host.Outcome State Fault Refusal :=
  .next (s.on (doFbConfig st tag))
/-- EXC_CONFIG. -/
def execExcConfig (st : Stall) (tag : BitVec 8) (s : State) : Host.Outcome State Fault Refusal :=
  .next (s.on (doExcConfig st tag))
/-- EXC_ZERO_CROSSING. -/
def execExcZeroCrossing (exc : Fin 4) (s : State) : Host.Outcome State Fault Refusal := .next (s.on (doExcZeroCrossing exc))
/-- FB_POS_SET. -/
def execFbPosSet (st : Stall) (tag : BitVec 8) (s : State) : Host.Outcome State Fault Refusal :=
  .next (s.on (doFbPosSet st tag))
/-- FB_CLEAR. -/
def execFbClear (st : Stall) (tag : BitVec 8) (s : State) : Host.Outcome State Fault Refusal :=
  .next (s.on (doFbClear st tag))
/-- PROBE_CONFIG. -/
def execProbeConfig (st : Stall) (tag : BitVec 8) (s : State) : Host.Outcome State Fault Refusal :=
  .next (s.on (doProbeConfig st tag))
/-- PROBE_READ. -/
def execProbeRead (st : Stall) (tag : BitVec 8) (s : State) : Host.Outcome State Fault Refusal :=
  .next (s.on (doProbeRead st tag))
/-- EMU_CONFIG. -/
def execEmuConfig (st : Stall) (tag : BitVec 8) (s : State) : Host.Outcome State Fault Refusal :=
  .next (s.on (doEmuConfig st tag))
/-- QUADRATURE_EDGE. -/
def execQuadratureEdge (src : Fin 16) (a : Bool) (b : Bool) (e : EdgeAt) (s : State) : Host.Outcome State Fault Refusal :=
  .next (s.on (doQuadratureEdge src a b e.held e.at_))
/-- INDEX_EDGE. -/
def execIndexEdge (src : Fin 16) (e : EdgeAt) (s : State) : Host.Outcome State Fault Refusal :=
  .next (s.on (doIndexEdge src e.held e.at_))
/-- HALL_TRANSITION. -/
def execHallTransition (src : Fin 16) (code : Fin 8) (e : EdgeAt) (s : State) : Host.Outcome State Fault Refusal :=
  .next (s.on (doHallTransition src code e.held e.at_))
/-- TOOTH_EDGE. -/
def execToothEdge (src : Fin 16) (dirHigh : Bool) (e : EdgeAt) (s : State) : Host.Outcome State Fault Refusal :=
  .next (s.on (doToothEdge src dirHigh e.held e.at_))
/-- REF_MARK_EDGE. -/
def execRefMarkEdge (src : Fin 16) (data : AnalogData) (held : Nat) (s : State) : Host.Outcome State Fault Refusal :=
  .next (s.on (doRefMarkEdge src data held))
/-- STANDSTILL. -/
def execStandstill (src : Fin 32) (s : State) : Host.Outcome State Fault Refusal := .next (s.on (doStandstill src))
/-- ENCODER_ALARM. -/
def execEncoderAlarm (src : Fin 16) (l : HeldLevel) (s : State) : Host.Outcome State Fault Refusal :=
  .next (s.on (doEncoderAlarm src l.level l.held))
/-- EXC_OVERLOAD. -/
def execExcOverload (exc : Fin 4) (s : State) : Host.Outcome State Fault Refusal := .next (s.on (doExcOverload exc))
/-- SERIAL_EXCHANGE_START. -/
def execSerialExchangeStart (port : Fin 16) (s : State) : Host.Outcome State Fault Refusal :=
  .next (s.on (doSerialExchangeStart port))
/-- SERIAL_RESPONSE. -/
def execSerialResponse (port : Fin 16) (r : SerialReply) (s : State) : Host.Outcome State Fault Refusal :=
  .next (s.on (doSerialResponse port r))
/-- SERIAL_WAIT_EXPIRY. -/
def execSerialWaitExpiry (port : Fin 16) (s : State) : Host.Outcome State Fault Refusal :=
  .next (s.on (doSerialWaitExpiry port))
/-- PROBE_EDGE. -/
def execProbeEdge (probe : Fin 16) (rising : Bool) (e : EdgeAt) (s : State) : Host.Outcome State Fault Refusal :=
  .next (s.on (doProbeEdge probe rising e.held e.at_))
/-- PROBE_ENTRY_READABLE. -/
def execProbeEntryReadable (probe : Fin 16) (s : State) : Host.Outcome State Fault Refusal :=
  .next (s.on (doProbeEntryReadable probe))

end Sys2Proof.Machine
end

