-- ==== Sys2Proof/Machine/Time.lean ====
section
/-! DEFINITION. Network time: the grandmaster, the servo, time steps, link delays, PPS and the commands of the time unit
(spec 11 R434 to R446, R452, R453). -/
namespace Sys2Proof.Machine
open Sys2Proof

/-- Change the time unit. -/
def Dev.modNt (f : TimeUnit → TimeUnit) (d : Dev) : Dev := { d with nt := f d.nt }

/-- Nanoseconds in 2^-64 ns, the unit of network time. -/
def nsUnit : Int := 2 ^ 64
def secUnit : Int := 1000000000 * 2 ^ 64

/-- SYNC_STATE changes; FS032 fires on entry to HOLDOVER (02 R54, R63). -/
def Dev.setSync (s : SyncState) (d : Dev) : Dev :=
  let d1 := { d with tk := { d.tk with sync := s, goodCycles := 0, holdoverClks := 0 } }
  if s == .holdover then d1.fire 32 .device else d1

/-- The tick generator follows the validity of network time (02 Table 2.2). -/
def Dev.syncValid (d : Dev) : Dev :=
  match d.tk.sync with
  | .free | .holdover => if d.ntValid then d.setSync .acquire else d
  | .acquire => if d.ntValid then d else d.setSync .free
  | .locked => if d.ntValid then d else d.setSync .holdover

/-- NT_STATE changes: the RING cause, and FS115 on entry to HOLDOVER (R444); the tick generator follows. -/
def Dev.setNtState (s : NtState) (d : Dev) : Dev :=
  if d.nt.state == s then d
  else
    let d1 := (d.modNt (fun t => { t with state := s, lockRun := 0 })).setIrqAll irqRing
    (if s == .holdover then d1.fire 115 .device else d1).syncValid

/-- One step of the servo with an offset found a number of lane clocks after the last tick boundary (R439). T_c is the
network cycle; y and I are in 2^-48, rounded to nearest. A new y acts from that instant on. -/
def Dev.servo (o : Int) (clks : Nat) (d : Dev) : Dev :=
  let t := d.nt
  let tc := d.cycleTicks * d.tickClks * 125
  let part (shift : Nat) : Int := rdivUp o (2 ^ 10 * 2 ^ shift * max 1 tc)
  let ns := rdivUp o (2 ^ 64)
  if o > 1000 * nsUnit ∨ o < -(1000 * nsUnit) then d.modNt (fun t => { t with nt := t.nt - o, offset := ns })
  else
    let y := clampI (-(2 ^ 36)) (2 ^ 36) (part t.conf.kp.toNat + t.integ)
    d.modNt (fun _ => { t with offset := ns, y := y, integ := t.integ + part t.conf.ki.toNat,
                               nt := t.nt + (clks * 128000 : Nat) * (y - t.y) })

/-- SYNC_SEND: one Sync out of each port at the cycle boundary plus 0.5 µs, 256 lane clocks, from the cycle after the one in
which the device became grandmaster (R437, R440). -/
def doSyncSend (d : Dev) : Dev :=
  if !(d.nt.isGm && d.ring.fn == .active && decide (d.ownCycle > d.nt.gmCycle)) then d
  else
    let origin := d.nt.nt + d.ntStep 256
    let one (b : Bool) (d : Dev) : Dev := if (d.ring.port b).brk then d else d.emit (.sync b d.nt.conf.domain origin)
    one true (one false d)

/-- Has the grandmaster made a time step that this device did not hold (R443)? -/
def Dev.missedStep (d : Dev) : Option (BitVec 16) :=
  match Mem.read none d.ring.nodes d.nt.gmAddr.toNat with
  | some n =>
    if d.nt.gmValid && n.hdr.stepId != d.nt.stepId && !(match d.nt.step with
        | some s => s.id == n.hdr.stepId
        | none => false) then some n.hdr.stepId else none
  | none => none

/-- The mean link delay of a port in 2^-64 ns; its measurements are in 2^-16 ns (R436). -/
def RingPort.delay (p : RingPort) : Int := ((p.meas.foldl (· + ·) 0 * 2 ^ 48 / max 1 p.meas.length : Nat) : Int)

/-- A Sync of SYNC_PORT acts on the time unit, with an offset found at an instant (R439, R443, R444). -/
def Dev.syncAct (o : Int) (clks : Nat) (d : Dev) : Dev :=
  let d1 := d.modNt (fun t => { t with syncCycle := d.ownCycle, timeIsSet := true })
  let d2 := match d.missedStep with
    | some id => { (d1.modNt (fun t => { t with nt := t.nt - o, stepId := id, step := none, offset := rdivUp o (2 ^ 64) })) with
                   tk := { d1.tk with epoch := ntOf (d.tk.epoch.toInt - o) } }
    | none => d1.servo o clks
  let run := if decide (-(20 * nsUnit) ≤ o ∧ o ≤ 20 * nsUnit) then min 16 (d.nt.lockRun + 1) else 0
  let d3 := if d.nt.state == .none || d.nt.state == .holdover then d2.setNtState .acquire else d2
  if run ≥ 16 && d3.nt.state == .acquire then d3.setNtState .locked else d3.modNt (fun t => { t with lockRun := run })

/-- A Sync passes: out of the other port unless that one is broken, with the residence time and the link delay of the
receiving port added (R436, R437). -/
def Dev.passSync (portB : Bool) (base : Int) (residence : Nat) (d : Dev) : Dev :=
  if (d.ring.port (!portB)).brk then d else d.emit (.sync (!portB) d.nt.conf.domain (base + residence))

/-- SYNC_RECEIVED: one of another domain is dropped, and one that returns to the grandmaster is removed (R435, R437); every
other passes, and the one from SYNC_PORT acts on the time unit. -/
def doSyncReceived (portB : Bool) (domain : BitVec 7) (origin : Int) (at_ residence : Nat) (d : Dev) : Dev :=
  if d.ring.fn != .active || d.nt.isGm || domain != d.nt.conf.domain then d
  else
    let base := origin + (d.ring.port portB).delay
    let d1 := d.passSync portB base residence
    if portB != d.nt.syncPort then d1 else d1.syncAct (d.nt.nt + d.ntStep at_ - base) at_

/-- NT_HOLDOVER: no Sync for four consecutive cycles while LOCKED. -/
def doNtHoldover (d : Dev) : Dev :=
  if d.nt.state == .locked && d.ownCycle ≥ d.nt.syncCycle + 5 then d.setNtState .holdover else d

/-- PDELAY_REQ_SEND: every 125 ms, on each port that is not broken (R436). -/
def doPdelayReqSend (d : Dev) : Dev :=
  if d.ring.fn != .active then d
  else
    let one (b : Bool) (d : Dev) : Dev := if (d.ring.port b).brk then d else d.emit (.pdelayReq b d.nt.conf.domain)
    one true (one false d)

/-- PDELAY_REQ_RECEIVED. -/
def doPdelayReqReceived (portB : Bool) (domain : BitVec 7) (seq : BitVec 16) (d : Dev) : Dev :=
  if d.ring.fn != .active || (d.ring.port portB).brk || domain != d.nt.conf.domain then d
  else d.emit (.pdelayResp portB domain seq)

/-- Is a measurement more than 20 ns from the mean of others, all in 2^-16 ns? -/
def farDelay (meas : List Nat) (delay : Nat) : Bool :=
  let n := meas.length
  let s := meas.foldl (· + ·) 0
  decide (n * delay > s + n * 20 * 65536) || decide (s > n * delay + n * 20 * 65536)

/-- LINK_DELAY of measurements in 2^-16 ns: their mean, rounded to 0.1 ns. -/
def delayWord (meas : List Nat) : BitVec 16 :=
  let n := max 1 meas.length * 65536
  BitVec.ofNat 16 (satU 16 ((meas.foldl (· + ·) 0 * 20 + n) / (2 * n)))

/-- PDELAY_RESP_RECEIVED: a measurement in 2^-16 ns; one more than 20 ns from the present mean is discarded (R436). -/
def doPdelayRespReceived (portB : Bool) (domain : BitVec 7) (delay : Nat) (d : Dev) : Dev :=
  let p := d.ring.port portB
  if d.ring.fn != .active || p.brk || farDelay p.meas delay || domain != d.nt.conf.domain then d
  else
    let meas := (delay :: p.meas).take 8
    d.modPort portB (fun p => { p with meas := meas, linkDelay := delayWord meas })

/-- The time step that a difference asks for, three cycles from now (R443). -/
def Dev.planStep (delta : Int) (d : Dev) : Dev :=
  d.modNt (fun t => { t with step := some ⟨t.stepId + 1, nW (d.cycleNo + 3), delta⟩,
                             timeSet := t.timeSet.map (fun x => { x with done := true }) })

/-- PPS_EDGE: a rising edge of PPS_IN, at an instant in feedback samples after the last tick boundary (R442, R453). -/
def doPpsEdge (at_ : Nat) (d : Dev) : Dev :=
  let t := d.nt.nt + d.ntStep (2 * at_)
  let d1 := d.modNt (fun n => { n with ppsStamp := t })
  if !(d.nt.isGm && d.nt.conf.ppsSrc) then d1
  else
    let r := Int.fdiv (t + secUnit / 2) secUnit * secUnit
    let o := t - r
    if o > secUnit / 10 ∨ o < -(secUnit / 10) then
      d1.modNt (fun n => { n with ppsBad := BitVec.ofNat 8 (satU 8 (n.ppsBad.toNat + 1)) })
    else
      let d2 := match d.nt.timeSet with
        | some x => if x.done then d1 else d1.planStep (x.given - r)
        | none => d1
      (d2.servo o (2 * at_)).modNt (fun n => { n with timeQual := if n.timeQual.toNat ≤ 1 then 0 else n.timeQual })

/-- PPS_OUT_SECOND: a whole second of network time falls into the present tick (R445). -/
def doPpsOutSecond (d : Dev) : Dev :=
  let due := Int.fdiv (d.nt.nt + d.ntStep d.tickClks - 1) secUnit != Int.fdiv (d.nt.nt - 1) secUnit
  if due && d.nt.conf.ppsOutEn && d.ntValid then d.modNt (fun n => { n with ppsOut := true, ppsClk := d.clk }) else d

/-- REF25_DETECT and REF25_LOSS (R442). -/
def doRef25Detect : Dev → Dev := Dev.modNt fun n => { n with ref25Ok := true }
def doRef25Loss : Dev → Dev := Dev.modNt fun n => { n with ref25Ok := false }

/-- KA_TIME_SET: in NT_STATE 2 or 4 the KA time counter is set from network time (R446). -/
def doKaTimeSet (d : Dev) : Dev :=
  if d.ntValid then
    let t := ntOf d.nt.nt
    { d with pw := { d.pw with kaTime := BitVec.ofNat 63 (t.sec.toNat * 2 ^ 15 + t.ns.toNat * 2 ^ 15 / 1000000000) } }
  else d

/-! ## The cycle boundary (R440, R441, R443, R444) -/

/-- The grandmaster's rank: GM_PRIO, TIME_QUAL, address. -/
def gmRank (h : RingHdr) : Nat := h.gmPrio.toNat * 4096 + h.timeQual.toNat * 1024 + h.origin.toNat

/-- The candidates heard in the last cycle, this device included. -/
def Dev.gmCandidates (d : Dev) : List RingHdr :=
  ((if d.ring.fn == .active then [d.ringHdr 1] else []) ++ d.others.map (fun e => e.2.hdr)).filter
    (fun h => h.addrValid && h.gmPrio != 255)

/-- This device becomes grandmaster: with no time set since start, from the KA time counter or from 0 s (R441). -/
def Dev.becomeGm (d : Dev) : Dev :=
  let ka := d.pw.kaTime.toNat
  let d1 := if d.nt.timeIsSet then d
    else if d.pw.kaValid then
      d.modNt (fun t => { t with nt := ((ka * 1000000000 * 2 ^ 49 : Nat) : Int),
                                 timeQual := 2, timeIsSet := true })
    else d.modNt (fun t => { t with nt := 0, timeQual := 3, timeIsSet := true })
  (d1.modNt (fun t => { t with isGm := true, gmCycle := d.ownCycle })).setNtState .grandmaster

/-- A grandmaster is taken: GM_ADDR, the RING cause and FS116 (R440). -/
def Dev.takeGm (h : RingHdr) (d : Dev) : Dev :=
  let own := d.ring.addrValid && h.origin == d.ring.addr
  let d1 := ((d.modNt (fun t => { t with gmAddr := h.origin, gmValid := true, betterRun := 0, syncPortDue := true,
                                         timeQual := if own then t.timeQual else h.timeQual })).setIrqAll irqRing).fire 116 .device
  if own then d1.becomeGm
  else
    let d2 := d1.modNt (fun t => { t with isGm := false })
    if d2.nt.state == .grandmaster then d2.setNtState .none else d2

/-- The choice of grandmaster at a cycle boundary. -/
def Dev.chooseGm (d : Dev) : Dev :=
  let cs := d.gmCandidates
  match cs with
  | [] =>
    let d1 := d.modNt (fun t => { t with gmValid := false, isGm := false, betterRun := 0 })
    if d1.nt.state == .grandmaster then d1.setNtState .none else d1
  | c :: rest =>
    let best := rest.foldl (fun b h => if gmRank h < gmRank b then h else b) c
    let present := d.nt.gmValid && cs.any (fun h => h.origin == d.nt.gmAddr)
    if !present then d.takeGm best
    else if best.origin == d.nt.gmAddr then d.modNt (fun t => { t with betterRun := 0 })
    else
      let run := if d.nt.betterRun > 0 && d.nt.better == best.origin then d.nt.betterRun + 1 else 1
      if run ≥ 16 then d.takeGm best else d.modNt (fun t => { t with better := best.origin, betterRun := run })

/-- A time step applies at the start of its apply cycle: network time and EPOCH move together, and TimeSet is answered. One
whose apply cycle is not to come any more, since the cycles are numbered anew, is dropped. -/
def Dev.applyStep (d : Dev) : Dev :=
  match d.nt.step with
  | none => d
  | some s =>
    if (s.apply - nW d.cycleNo).toNat > 3 then d.modNt (fun t => { t with step := none, timeSet := none })
    else if s.apply != nW d.cycleNo then d
    else
      let d1 := { d with tk := { d.tk with epoch := ntOf (d.tk.epoch.toInt + s.delta) },
                         nt := { d.nt with nt := d.nt.nt + s.delta, stepId := s.id, step := none, timeSet := none, timeIsSet := true,
                                           timeQual := if d.nt.isGm then (if d.nt.conf.ppsSrc then 0 else 1) else d.nt.timeQual } }
      match d.nt.timeSet with
      | some x => d1.respond x.stall x.tag stOk []
      | none => d1

/-- The time unit's work at a network-cycle boundary, after the ring's. -/
def Dev.timeCycle (d0 : Dev) : Dev :=
  let d := d0.modNt (fun t => { t with conf := t.stored })
  if d.ring.fn == .off then
    (d.modNt (fun t => { t with gmValid := false, isGm := false, betterRun := 0, step := none, timeSet := none })).setNtState .none
  else
    let d1 := d.applyStep.chooseGm
    if d1.nt.state == .acquire && d1.ownCycle ≥ d1.nt.syncCycle + 5 then d1.setNtState .none else d1

/-- PPS_OUT falls after 10 ms, and in any state but 2 and 4 (R445). -/
def Dev.ppsTick (d : Dev) : Dev :=
  if d.nt.ppsOut && (d.clk ≥ d.nt.ppsClk + 10 * clksPerMs || !d.ntValid) then d.modNt (fun t => { t with ppsOut := false }) else d

/-! ## Commands (R452, R453) -/

/-- TIME_CONFIG. -/
def doTimeConfig (st : Stall) (tag : BitVec 8) : Dev → Dev :=
  Dev.start st tag 0x610 fun c =>
    let w := wd c.payload 0
    let w1 := wd c.payload 1
    Dev.checked c 1 [(badLen c 2 || rsv w 0xFF80FC00 || rsv w1 0xFFFFE0F0, stParam)]
      (fun d => (d.modNt (fun t =>
        { t with stored := ⟨BitVec.ofNat 7 (fld w 22 16), bitOf w 9, bitOf w 8, BitVec.ofNat 8 (fld w 7 0),
                            BitVec.ofNat 5 (fld w1 12 8), BitVec.ofNat 4 (fld w1 3 0)⟩ })).ok c [])

/-- TIME_SET: Δ is computed at once, or at the next PPS_IN edge with PPS_SRC. -/
def doTimeSet (st : Stall) (tag : BitVec 8) : Dev → Dev :=
  Dev.start st tag 0x611 fun c d =>
    let ns := fld (wd c.payload 2) 29 0
    let pps := d.nt.conf.ppsSrc
    let given : Int := ((fld (wd c.payload 1) 15 0 * 2 ^ 32 + (wd c.payload 0).toNat : Nat) : Int) * secUnit + (ns : Int) * nsUnit
    let left := (d.cycleTicks - d.tick % d.cycleTicks) * d.tickClks
    Dev.checked c 1
      [(!d.nt.isGm, stState),
       (badLen c 3 || rsv (wd c.payload 1) 0xFFFF0000 || rsv (wd c.payload 2) 0xC0000000 || ns ≥ 1000000000 || (pps && ns != 0), stParam),
       (d.nt.timeSet.isSome || d.nt.step.isSome, stState)]
      (fun d =>
        let d1 := (d.await st tag .started).modNt (fun t => { t with timeSet := some ⟨st, tag, given, false⟩ })
        if pps then d1 else d1.planStep (given - (d.nt.nt + d.ntStep left))) d

/-! ## Meanings -/

/-- TIME_CONFIG. -/
def execTimeConfig (st : Stall) (tag : BitVec 8) (s : State) : Host.Outcome State Fault Refusal :=
  .next (s.on (doTimeConfig st tag))
/-- TIME_SET. -/
def execTimeSet (st : Stall) (tag : BitVec 8) (s : State) : Host.Outcome State Fault Refusal :=
  .next (s.on (doTimeSet st tag))
/-- SYNC_SEND. -/
def execSyncSend (s : State) : Host.Outcome State Fault Refusal := .next (s.on doSyncSend)
/-- SYNC_RECEIVED. -/
def execSyncReceived (portB : Bool) (m : SyncMsg) (s : State) : Host.Outcome State Fault Refusal :=
  .next (s.on (doSyncReceived portB m.domain m.origin m.at_ m.residence))
/-- NT_HOLDOVER. -/
def execNtHoldover (s : State) : Host.Outcome State Fault Refusal := .next (s.on doNtHoldover)
/-- PDELAY_REQ_SEND. -/
def execPdelayReqSend (s : State) : Host.Outcome State Fault Refusal := .next (s.on doPdelayReqSend)
/-- PDELAY_REQ_RECEIVED. -/
def execPdelayReqReceived (portB : Bool) (seq : InDomain (BitVec 16)) (s : State) : Host.Outcome State Fault Refusal :=
  .next (s.on (doPdelayReqReceived portB seq.domain seq.val))
/-- PDELAY_RESP_RECEIVED. -/
def execPdelayRespReceived (portB : Bool) (delay : InDomain Nat) (s : State) : Host.Outcome State Fault Refusal :=
  .next (s.on (doPdelayRespReceived portB delay.domain delay.val))
/-- PPS_EDGE. -/
def execPpsEdge (at_ : Nat) (s : State) : Host.Outcome State Fault Refusal := .next (s.on (doPpsEdge at_))
/-- PPS_OUT_SECOND. -/
def execPpsOutSecond (s : State) : Host.Outcome State Fault Refusal := .next (s.on doPpsOutSecond)
/-- REF25_DETECT. -/
def execRef25Detect (s : State) : Host.Outcome State Fault Refusal := .next (s.on doRef25Detect)
/-- REF25_LOSS. -/
def execRef25Loss (s : State) : Host.Outcome State Fault Refusal := .next (s.on doRef25Loss)
/-- KA_TIME_SET. -/
def execKaTimeSet (s : State) : Host.Outcome State Fault Refusal := .next (s.on doKaTimeSet)

end Sys2Proof.Machine
end

