-- ==== Sys2Proof/Machine/Tick.lean ====
section
/-! DEFINITION. The tick boundary and all that happens at it, the phase of the tick, TickSet and BudgetQuery (spec 02 R47 to
R55, R59 to R68). -/
namespace Sys2Proof.Machine
open Sys2Proof

def Dev.modTk (f : TickUnit → TickUnit) (d : Dev) : Dev := { d with tk := f d.tk }

/-! ## Configurations (R51) -/

/-- A tick length of R51. -/
def validTick (clks : Nat) : Bool := decide (2000 ≤ clks ∧ clks ≤ 32000) && clks % 250 == 0
/-- A configuration of R51: 31.25 µs are 16,000 lane clocks, 1 ms is 512,000. -/
def validConf (clks ft cf : Nat) : Bool :=
  validTick clks && decide (1 ≤ ft ∧ ft ≤ 16) && decide (1 ≤ cf ∧ cf ≤ 64) && decide (16000 ≤ clks * ft * cf ∧ clks * ft * cf ≤ 512000)

/-! ## The end of a tick -/

/-- Lanes in service that have not committed have overrun (R61). -/
def Dev.overruns (d : Dev) : Dev := allLanes.foldl (fun d l => doLaneOverrun l d) d

/-- A pending TickSet takes effect: tick number 0 begins at the epoch (R66). -/
def Dev.takeEpoch (d : Dev) : Dev :=
  match d.tk.pendingSet with
  | some p => if d.lastTick then
      d.modTk (fun t => { t with conf := p.conf, epoch := p.epoch, pendingSet := none, tickSkip := false, late := false,
                                 peaks := Vector.replicate 16 ⟨0, false, 0⟩ })
    else d
  | none => d

/-- The present tick ends: its outputs are handed over and recorded, time advances by its length, and the next number is
that of R53. A number passed over is a skip (R55). -/
def Dev.endTick (m : Memory) (d0 : Dev) : Dev :=
  let d := (doStagingHandover d0.overruns).captureTick m
  let e := d0.tickEnd
  let last := d0.lastTick
  let slewing := !last && !d0.tk.late && !d0.steps && d0.slewClks != 0
  let skip := !last && decide (e.2 ≠ d0.tick + 1)
  let nt := if last then (d0.tk.pendingSet.map (fun p => max (d.nt.nt + d.ntStep d.tickClks) p.epoch.toInt)).getD d.nt.nt
    else d.nt.nt + d.ntStep e.1
  let hold := if d.tk.sync == .holdover then d.tk.holdoverClks + e.1 else 0
  let d1 := { (d.kaTick e.1).takeEpoch with clk := d.clk + e.1 }
  let d2 := { d1 with nt := { d1.nt with nt := nt } }
  let d3 := d2.modTk (fun t => { t with num := BitVec.ofNat 64 e.2, age := t.age + 1, len := e.1, slewing := slewing, late := false,
                                        holdoverClks := hold, tickSkip := t.tickSkip || skip })
  if skip then d3.fire 33 .device else d3

/-! ## The beginning of a tick -/

/-- The converters' results of the tick that has ended, the bootstrap voltages and the raw inputs (R47). A converter that
was in error repeats its result (14 R539). -/
def Dev.takeInputs (inp : TickInputs) (d : Dev) : Dev :=
  let legs := inp.legs.filter (fun e => decide (e.1 < 48) && !d.convHeld (convOfLeg (lg e.1)).val)
  let d1 := d.closeIntervals legs
  let aux := inp.aux.filter (fun e => !d1.convIdle e.1 && !d.auxHeld e.1)
  let d2 := { d1 with aux := aux.foldl (fun m e => Mem.write 0 m e.1 e.2) d1.aux, fio := { d1.fio with inRaw := inp.inRaw } }
  inp.bst.foldl (fun d e => if e.1 < 48 ∧ !d.convHeld (40 + 48 * (e.1 / 24) + e.1 % 24 / 6) then d.bstSample (lg e.1) (BitVec.ofNat 16 (satU 16 e.2)) (d.fine 0) else d) d2

/-- What a command that waits for a boundary does at it; the codes of each chapter. -/
def applyCmd (m : Memory) (c : Cmd) (d : Dev) : Dev :=
  match c.code.toNat with
  | 0x006 => applyIrqRoute c d
  | 0x041 => applyKeepAliveWrite c d
  | 0x101 | 0x102 | 0x103 => applyPlots c d
  | 0x220 => applyLawLoad c d
  | 0x221 => applyLawCommit c d
  | 0x222 => applyLawDelete c d
  | 0x230 => applyCoefWrite c d
  | 0x602 => applyRemoteStallConfig c d
  | 0x700 => applyCanConfig c d
  | 0x720 => applyCanGateway c d
  | 0x800 => applyCaptureClaim c d
  | 0x801 => applyCaptureConfig c d
  | 0x802 => applyCaptureTrigger c d
  | 0x910 => applySpmSelect c d
  | 0x912 => applySpmControl c d
  | 0x920 => applySpmMap c d
  | 0x224 | 0x225 => applyLaw c d
  | 0x240 | 0x241 | 0x250 | 0x251 | 0x252 | 0x260 | 0x261 => applyControl c d
  | 0x300 => applyFbConfig c d
  | 0x301 => applyExcConfig c d
  | 0x302 => applyFbPosSet c d
  | 0x303 => applyFbClear c d
  | 0x310 => applyProbeConfig c d
  | 0x320 => applyEmuConfig c d
  | 0x400 | 0x401 | 0x402 | 0x410 | 0x411 | 0x412 => applyPwm c d
  | 0x803 => applyCaptureControl m c d
  | 0x811 => applyAdcConfig c d
  | 0x900 => applyFioInConfig c d
  | 0x901 => applyFioOutConfig c d
  | 0x902 => applyOutSet c d
  | 0x903 => applyFioClear c d
  | 0xB00 | 0xB01 | 0xB02 => applyFaults c d
  | 0xB21 => applyMargin c d
  | _ => applyMotion c d

/-- Is a command due at this boundary: one that waits for it, or a CoefSwap whose tick has come? At the boundary at which
the standby becomes active commands only start (14 R541; log entry 124). -/
def Dev.dueNow (d : Dev) (c : Cmd) : Bool :=
  (d.pairActs && (c.phase == .atTick || (c.phase == .atFrame && d.isFrame))) ||
    (c.code == 0x231 && c.phase == .started && d.swapDue (axisOf c) &&
      (d.loops[axisOf c].swap.map (fun x => x.stall == c.stall && x.tag == c.tag)).getD false)

/-- The commands that are due at the boundary apply, in the order they were taken (03 R95, 04 R128, 06 R213); one whose limit
has passed is not applied (03 R98). -/
def Dev.applyWaiting (m : Memory) (d : Dev) : Dev :=
  (d.hp.inFlight.filter d.dueNow).foldl
    (fun d c => match d.cmd? c.stall c.tag with
      | some x =>
        if !d.dueNow x then d
        else if d.expired x then d.timeOut x
        else if x.code = 0x231 then d.swapNow (axisOf x)
        else applyCmd m x d
      | none => d) d

/-- PHASE_ERR and the counts of R54 at a boundary; a phase error beyond 100 ns ends LOCKED. HOLDOVER returns to ACQUIRE at
the next boundary with network time valid, which after a phase error it is all along (DEDUCED, log entry 32). -/
def Dev.phaseCheck (d : Dev) : Dev :=
  let ns := rdivUp d.phase (2 ^ 64)
  let d1 := d.modTk (fun t => { t with phaseErr := BitVec.ofInt 16 (clampI (-32767) 32767 ns) })
  let near := decide (-(8 * 2 ^ 64) ≤ d.phase ∧ d.phase ≤ 8 * 2 ^ 64)
  let d2 := if d.isCycle && d.tk.sync == .acquire then
      d1.modTk (fun t => { t with goodCycles := if near then min 16 (t.goodCycles + 1) else 0 })
    else d1
  if d.tk.sync == .holdover && d.ntValid then d2.setSync .acquire
  else if d.tk.sync == .locked && (decide (d.phase > 100 * 2 ^ 64) || decide (d.phase < -(100 * 2 ^ 64))) then d2.setSync .holdover
  else d2

/-- TICK_SYNC_LOCKED: 16 network cycles in a row within ±8 ns (R54). -/
def doTickSyncLocked (d : Dev) : Dev :=
  if d.tk.sync == .acquire && decide (d.tk.goodCycles ≥ 16) then d.setSync .locked else d

/-- TICK_HOLDOVER_TIMEOUT: holdover has lasted longer than 10 s; FS032 fires on the return to FREE (R54, R63). -/
def doTickHoldoverTimeout (d : Dev) : Dev :=
  if d.tk.sync == .holdover && decide (d.tk.holdoverClks > 10000 * clksPerMs) then (d.setSync .free).fire 32 .device else d

/-- The level sources whose condition persists, with the axes they act on (14 R529, 15 R607). -/
def Dev.levels (d : Dev) : List (Nat × Scope) :=
  let alarm := (List.range 32).filter (fun i => d.fb.src[Fin.ofNat 32 i].alarm)
  let sto (g : Fin 2) : List AxisNo := if d.stoActive g then d.liveAxes.filter (fun a => d.onDie a g) else []
  let limits := allAxes.filter (fun a => d.mot[a].limFired)
  d.supplyLevels ++ alarm.map (fun i => (58, Scope.axes (d.axesOfSrc i))) ++
    [(d.sv.dies.toList.any (fun x => decide (x.tempC.toInt > 120)), 7, Scope.device), (!(sto 0 ++ sto 1).isEmpty, 78, .axes (sto 0 ++ sto 1)),
     (!limits.isEmpty, 95, .axes limits), (d.ring.tickMismatch, 112, .device), (d.ring.overload, 114, .device), (d.ring.split, 119, .device),
     (d.fio.bankHot, 131, .device), (d.sf.ss1A, 161, .axes (d.dieAxes 0)), (d.sf.ss1B, 162, .axes (d.dieAxes 1)),
     (d.sf.degraded != 0, 164, .device), (d.sf.lockout != 0, 165, .device), (d.sf.sresetStuck, 176, .device)].filterMap
      (fun x => if x.1 then some x.2 else none)

/-- A level source whose condition persists counts as firing in every tick, for the quiet time of the axes it acts on and
for the closing of an episode (14 R529, R527; log entry 73). -/
def Dev.holdLevels (d0 : Dev) : Dev :=
  let ls := d0.levels
  let d := if ls.any (fun x => decide (d0.ft.severity x.1 ≥ 2)) then { d0 with ft := { d0.ft with lastSev2 := d0.clk } } else d0
  ls.foldl (fun d x =>
    let sev := d.ft.severity x.1
    if sev ≥ 3 then (x.2.at sev).foldl (fun d a => d.modAxf a (fun f => { f with lastFire := d.clk })) d else d) d

/-- A frame has ended on every axis (06 R217). -/
def Dev.closeFrames (d : Dev) : Dev := { d with ctl := d.ctl.map Ctl.closeFrame }

/-- What belongs to the boundary itself, before the commands that wait for it. -/
def Dev.atBoundary (inp : TickInputs) (d0 : Dev) : Dev :=
  let d1 := (doTickHoldoverTimeout (doTickSyncLocked ((d0.takeInputs inp).skewTick))).takeovers.convTick
  let d2 := (d1.stoFlag 0).stoFlag 1 |>.canFilters.decideClaims.lawDues.exciteTick
  let d3 := (d2.fbTick inp d2.tk.len).probeTick d2.tk.len
  if d3.isFrame then d3.closeFrames.bridgeFrame.freeBlocksNow.planTick else d3

/-- The beginning of a network cycle: the ring, the time unit and the count of cycles (R50). -/
def Dev.atCycle (d : Dev) : Dev :=
  if d.isCycle then (d.modTk (fun t => { t with cycles := t.cycles + 1 })).ringCycle.timeCycle else d

/-- The motion engines' frame and what follows it in every tick. -/
def Dev.atMotion (old : Vector Motion 16) (d0 : Dev) : Dev :=
  let d := { d0 with saved := Vector.ofFn (fun a : Fin 16 => some (d0.ctl[a], d0.mot[a])) }
  let d1 := d.homeTick
  let d2 := if d.isFrame then (List.finRange 8).foldl (fun d n => d.stepFrame n) (d1.takeRecords.motionFrame old) else d1
  d2.emuTick d2.tk.len

/-- The present tick begins (Table 2.1). -/
def Dev.beginTick (m : Memory) (inp : TickInputs) (d : Dev) : Dev :=
  let old := d.mot
  let d1 := ((d.atBoundary inp).applyWaiting m).mpTick.bankRuns
  let d2 := (if d1.isFrame then d1.changeOwner else d1).atCycle.phaseCheck.ppsTick
  let d3 := (d2.atMotion old).holdLevels
  let d4 := if d3.isFrame then d3.gwFrameBoundary.windowFrame else d3.gwPump
  let d5 := allLanes.foldl (fun d l => d.enterLane l) d4
  let d6 := if d5.isFrame then d5.windowRefs else d5
  if d6.isCycle then d6.sampleMasters else d6

/-- Does the tick generator run: from the release of internal reset until the rails go? -/
def Dev.ticks (d : Dev) : Bool := d.up || d.pw.phase == .powerDown

/-- An evaluation whose sources fire in one lane clock (14 R527; log entry 104). -/
def Dev.oneClock (f : Dev → Dev) (d : Dev) : Dev :=
  let e := f { d with ft := { d.ft with tie := some false }, loops := d.loops.map (fun l => { l with fresh := 0 }) }
  { e with ft := { e.ft with tie := none } }

/-- What a tick boundary does: the present tick ends, unless its epoch has ended it, and the next begins. -/
def Dev.crossTick (inp : TickInputs) (m : Memory) (d : Dev) : Dev :=
  ((if d.tk.ended then d else d.endTick m).modTk (fun t => { t with ended := false })).beginTick m inp

/-- TICK_BOUNDARY. -/
def doTickBoundary (inp : TickInputs) (m : Memory) (d : Dev) : Dev :=
  if !d.ticks then d else d.oneClock (Dev.crossTick inp m)

/-- TICKSET_EPOCH: the epoch of a pending TickSet ends the last tick of the present configuration (R66). -/
def doTicksetEpoch (m : Memory) (d : Dev) : Dev :=
  if d.ticks && d.lastTick && !d.tk.ended then (d.oneClock (Dev.endTick m)).modTk (fun t => { t with ended := true }) else d

/-! ## Commands -/

/-- The epoch that a TickSet asks for, in 2^-64 ns: the given one, or the first whole second at least 10 ms from now. -/
def Dev.epochOf (d : Dev) (p : List W32) : Int :=
  let near := d.nt.nt + 10000000 * nsUnit
  if bitOf (wd p 0) 31 then
    ((wd p 1).toNat + fld (wd p 2) 15 0 * 2 ^ 32 : Nat) * secUnit + (wd p 3).toNat * nsUnit
  else -(Int.fdiv (-near) secUnit) * secUnit

/-- The configuration in word 0 of a TickSet. -/
def confOfSet (w : W32) : TickConf := ⟨BitVec.ofNat 15 (fld w 14 0), BitVec.ofNat 5 (fld w 20 16), BitVec.ofNat 7 (fld w 30 24)⟩

/-- PARAM of a TickSet. -/
def Dev.tickSetBad (d : Dev) (c : Cmd) : Bool :=
  let p := c.payload
  let w := wd p 0
  badLen c 4 || rsv w 0x00E08000 || !validConf (fld w 14 0) (fld w 20 16) (fld w 30 24) ||
    (bitOf w 31 && (rsv (wd p 2) 0xFFFF0000 || decide ((wd p 3).toNat > 999999999) ||
      decide (d.epochOf p < d.nt.nt + 10000000 * nsUnit)))

/-- Admitted costs of the assigned axes. -/
def Dev.costs (d : Dev) : List (Nat × Nat) := d.costsWith d.modeOf d.boundOf allAxes

/-- A TickSet is accepted. In a lengthened last tick whose normal end has passed, the one that it replaces leaves the tick
to end at the next boundary of the present grid, and a further one in that tick leaves it so; where in the tick the command
comes is a free value (log entry 5). -/
def Dev.acceptTickSet (c : Cmd) (d : Dev) : Dev :=
  let drawn := if d.lastTick && d.tickEnd.1 > d.tickClks then d.draw else (0, d)
  let d1 := drawn.2.modTk (fun t =>
    { t with pendingSet := some ⟨confOfSet (wd c.payload 0), ntOf (d.epochOf c.payload)⟩, late := t.late || drawn.1 % 2 == 1 })
  d1.ok c []

/-- TICK_SET (R66): checked against its own tick only (R67). -/
def doTickSet (st : Stall) (tag : BitVec 8) : Dev → Dev :=
  Dev.start st tag 0x210 fun c d =>
    Dev.checked c 1 [(!d.liveAxes.isEmpty, stState), (d.tickSetBad c, stParam)]
      (fun d =>
        let l := limitOf (fld (wd c.payload 0) 14 0)
        match overBudget l l d.costs with
        | some x => d.respondBudget c x
        | none => d.acceptTickSet c) d

/-- BUDGET_QUERY (R68). -/
def doBudgetQuery (st : Stall) (tag : BitVec 8) : Dev → Dev :=
  Dev.start st tag 0x211 fun c d =>
    let w := wd c.payload 0
    let t := fld w 14 0
    let l := limitOf (if t = 0 then d.tickClks else t)
    Dev.checked c 18
      [(noWord c, stParam), (bitOf w 15 && !d.isOwner st, stNotOwner), (badLen c 1 || rsv w 0xFFFF0000 || (t != 0 && !validTick t), stParam)]
      (fun d =>
        let ws := allAxes.map (fun a =>
          let cost := d.tk.admitted[a].toNat
          mkw [(b2n (d.assigned a), 31, 1), (b2n (decide (cost ≤ l)), 30, 1), (cost, 0, 16)])
        (if bitOf w 15 then d.modTk (fun t => { t with peaks := Vector.replicate 16 ⟨0, false, 0⟩ }) else d).ok c (nW l :: ws)) d

/-! ## Meanings -/

/-- TICK_BOUNDARY. -/
def execTickBoundary (inp : TickInputs) (s : State) : Host.Outcome State Fault Refusal :=
  .next (s.onMem (doTickBoundary inp))
/-- TICK_SYNC_LOCKED. -/
def execTickSyncLocked (s : State) : Host.Outcome State Fault Refusal := .next (s.on doTickSyncLocked)
/-- TICK_HOLDOVER_TIMEOUT. -/
def execTickHoldoverTimeout (s : State) : Host.Outcome State Fault Refusal := .next (s.on doTickHoldoverTimeout)
/-- TICKSET_EPOCH. -/
def execTicksetEpoch (s : State) : Host.Outcome State Fault Refusal := .next (s.onMem doTicksetEpoch)
/-- LANE_OVERRUN. -/
def execLaneOverrun (ln : LaneNo) (s : State) : Host.Outcome State Fault Refusal := .next (s.on (doLaneOverrun ln))
/-- LANE_COMMIT. -/
def execLaneCommit (ln : LaneNo) (cycles : Nat) (s : State) : Host.Outcome State Fault Refusal :=
  .next (s.on (doLaneCommit ln cycles))
/-- STAGING_HANDOVER. -/
def execStagingHandover (s : State) : Host.Outcome State Fault Refusal := .next (s.on doStagingHandover)
/-- EVENT_ENTRY. -/
def execEventEntry (ln : LaneNo) (s : State) : Host.Outcome State Fault Refusal := .next (s.on (doEventEntry ln))
/-- TICK_SET. -/
def execTickSet (st : Stall) (tag : BitVec 8) (s : State) : Host.Outcome State Fault Refusal :=
  .next (s.on (doTickSet st tag))
/-- BUDGET_QUERY. -/
def execBudgetQuery (st : Stall) (tag : BitVec 8) (s : State) : Host.Outcome State Fault Refusal :=
  .next (s.on (doBudgetQuery st tag))

end Sys2Proof.Machine
end

