-- ==== Sys2Proof/Machine/Dispatch.lean ====
section
/-! DEFINITION. One arm per constructor of Instr. -/
namespace Sys2Proof.Machine
open Sys2Proof

/-- The effect of a command on everything but the queue. -/
def exec (i : Instr) (s : State) : Host.Outcome State Fault Refusal :=
  match i with
  | .powerUpStart => Sys2Proof.Machine.execPowerUpStart s
  | .internalResetRelease aOk bOk => Sys2Proof.Machine.execInternalResetRelease aOk bOk s
  | .startUpComplete m => Sys2Proof.Machine.execStartUpComplete m s
  | .pcieConfigRequest req => Sys2Proof.Machine.execPcieConfigRequest req s
  | .supplyFalling r => Sys2Proof.Machine.execSupplyFalling r s
  | .supplyRecovered r => Sys2Proof.Machine.execSupplyRecovered r s
  | .vbatCheck ok => Sys2Proof.Machine.execVbatCheck ok s
  | .v24bLoss => Sys2Proof.Machine.execV24bLoss s
  | .vmainUvlo => Sys2Proof.Machine.execVmainUvlo s
  | .bypassClose => Sys2Proof.Machine.execBypassClose s
  | .powerLossRecord => Sys2Proof.Machine.execPowerLossRecord s
  | .railsOff => Sys2Proof.Machine.execRailsOff s
  | .vkaToVbat => Sys2Proof.Machine.execVkaToVbat s
  | .safetyBShutdown => Sys2Proof.Machine.execSafetyBShutdown s
  | .porstAssert => Sys2Proof.Machine.execPorstAssert s
  | .porstRelease => Sys2Proof.Machine.execPorstRelease s
  | .hrstAssert => Sys2Proof.Machine.execHrstAssert s
  | .standbyEntry => Sys2Proof.Machine.execStandbyEntry s
  | .kaWakePin => Sys2Proof.Machine.execKaWakePin s
  | .kaAlarmExpiry => Sys2Proof.Machine.execKaAlarmExpiry s
  | .kaContentsLost => Sys2Proof.Machine.execKaContentsLost s
  | .kaCrystalTimeout => Sys2Proof.Machine.execKaCrystalTimeout s
  | .deviceResetPulse => Sys2Proof.Machine.execDeviceResetPulse s
  | .standbyEnter st tag => Sys2Proof.Machine.execStandbyEnter st tag s
  | .keepAliveWrite st tag => Sys2Proof.Machine.execKeepAliveWrite st tag s
  | .deviceReset st tag => Sys2Proof.Machine.execDeviceReset st tag s
  | .reservedCommandCode st header => Sys2Proof.Machine.execReservedCommandCode st header s
  | .tickBoundary inp => Sys2Proof.Machine.execTickBoundary inp s
  | .tickSyncLocked => Sys2Proof.Machine.execTickSyncLocked s
  | .tickHoldoverTimeout => Sys2Proof.Machine.execTickHoldoverTimeout s
  | .ticksetEpoch => Sys2Proof.Machine.execTicksetEpoch s
  | .laneOverrun ln => Sys2Proof.Machine.execLaneOverrun ln s
  | .laneCommit ln cycles => Sys2Proof.Machine.execLaneCommit ln cycles s
  | .stagingHandover => Sys2Proof.Machine.execStagingHandover s
  | .eventEntry ln => Sys2Proof.Machine.execEventEntry ln s
  | .nop ln => Sys2Proof.Machine.execNop ln s
  | .mov ln rd ra => Sys2Proof.Machine.execMov ln rd ra s
  | .ldi ln rd imm => Sys2Proof.Machine.execLdi ln rd imm s
  | .ld ln rd k p => Sys2Proof.Machine.execLd ln rd k p s
  | .ldo ln rd k ofs => Sys2Proof.Machine.execLdo ln rd k ofs s
  | .lda ln rd addr => Sys2Proof.Machine.execLda ln rd addr s
  | .st ln ra k p => Sys2Proof.Machine.execSt ln ra k p s
  | .sto ln ra k ofs => Sys2Proof.Machine.execSto ln ra k ofs s
  | .sta ln ra addr => Sys2Proof.Machine.execSta ln ra addr s
  | .fld ln rd k ofs => Sys2Proof.Machine.execFld ln rd k ofs s
  | .fst ln ra k ofs => Sys2Proof.Machine.execFst ln ra k ofs s
  | .lai ln k imm => Sys2Proof.Machine.execLai ln k imm s
  | .lmi ln k len stride => Sys2Proof.Machine.execLmi ln k len stride s
  | .mad ln k ra => Sys2Proof.Machine.execMad ln k ra s
  | .add ln sat rd ra rb => Sys2Proof.Machine.execAdd ln sat rd ra rb s
  | .sub ln sat rd ra rb => Sys2Proof.Machine.execSub ln sat rd ra rb s
  | .addi ln sat rd ra imm => Sys2Proof.Machine.execAddi ln sat rd ra imm s
  | .neg ln sat rd ra => Sys2Proof.Machine.execNeg ln sat rd ra s
  | .abs ln sat rd ra => Sys2Proof.Machine.execAbs ln sat rd ra s
  | .min ln rd ra rb => Sys2Proof.Machine.execMin ln rd ra rb s
  | .max ln rd ra rb => Sys2Proof.Machine.execMax ln rd ra rb s
  | .lim ln rd ra rb => Sys2Proof.Machine.execLim ln rd ra rb s
  | .and ln rd ra rb => Sys2Proof.Machine.execAnd ln rd ra rb s
  | .or ln rd ra rb => Sys2Proof.Machine.execOr ln rd ra rb s
  | .xor ln rd ra rb => Sys2Proof.Machine.execXor ln rd ra rb s
  | .shl ln sat rd ra n => Sys2Proof.Machine.execShl ln sat rd ra n s
  | .shr ln rd ra n => Sys2Proof.Machine.execShr ln rd ra n s
  | .mul ln sat rd ra rb => Sys2Proof.Machine.execMul ln sat rd ra rb s
  | .selcc ln cc rd ra rb => Sys2Proof.Machine.execSelcc ln cc rd ra rb s
  | .mpy ln sat ac dx dy lx ly => Sys2Proof.Machine.execMpy ln sat ac dx dy lx ly s
  | .mac ln sat ac dx dy lx ly => Sys2Proof.Machine.execMac ln sat ac dx dy lx ly s
  | .msu ln sat ac dx dy lx ly => Sys2Proof.Machine.execMsu ln sat ac dx dy lx ly s
  | .dmpy ln sat ac dx dy lx ly => Sys2Proof.Machine.execDmpy ln sat ac dx dy lx ly s
  | .dmac ln sat ac dx dy lx ly => Sys2Proof.Machine.execDmac ln sat ac dx dy lx ly s
  | .rot ln sat ac dx dy lx ly => Sys2Proof.Machine.execRot ln sat ac dx dy lx ly s
  | .lac ln ac ra => Sys2Proof.Machine.execLac ln ac ra s
  | .sac ln sat rd ac sh => Sys2Proof.Machine.execSac ln sat rd ac sh s
  | .adda ln sat ac acs => Sys2Proof.Machine.execAdda ln sat ac acs s
  | .sha ln sat ac sh => Sys2Proof.Machine.execSha ln sat ac sh s
  | .clra ln ac => Sys2Proof.Machine.execClra ln ac s
  | .sincos ln rd ra => Sys2Proof.Machine.execSincos ln rd ra s
  | .div ln sat rd ra rb => Sys2Proof.Machine.execDiv ln sat rd ra rb s
  | .sqrt ln rd ra => Sys2Proof.Machine.execSqrt ln rd ra s
  | .br ln target => Sys2Proof.Machine.execBr ln target s
  | .bcc ln cc target => Sys2Proof.Machine.execBcc ln cc target s
  | .rpt ln count => Sys2Proof.Machine.execRpt ln count s
  | .rptr ln rd maxCount => Sys2Proof.Machine.execRptr ln rd maxCount s
  | .endProg ln => Sys2Proof.Machine.execEndProg ln s
  | .tickSet st tag => Sys2Proof.Machine.execTickSet st tag s
  | .budgetQuery st tag => Sys2Proof.Machine.execBudgetQuery st tag s
  | .registerWrite st offset data be => Sys2Proof.Machine.execRegisterWrite st offset data be s
  | .dramWrite st viaWindow addr bytes => Sys2Proof.Machine.execDramWrite st viaWindow addr bytes s
  | .poisonedWriteTlp => Sys2Proof.Machine.execPoisonedWriteTlp s
  | .unsupportedRequest => Sys2Proof.Machine.execUnsupportedRequest s
  | .pcieLinkChange linkUp busMaster memSpace msix => Sys2Proof.Machine.execPcieLinkChange linkUp busMaster memSpace msix s
  | .busMasterEnable => Sys2Proof.Machine.execBusMasterEnable s
  | .debugAccessSelect sel => Sys2Proof.Machine.execDebugAccessSelect sel s
  | .spiFrame header headerBits mosi tailBits ready => Sys2Proof.Machine.execSpiFrame header headerBits mosi tailBits ready s
  | .lowWordRead st offset => Sys2Proof.Machine.execLowWordRead st offset s
  | .highWordRead st offset => Sys2Proof.Machine.execHighWordRead st offset s
  | .ntNsRead st pps => Sys2Proof.Machine.execNtNsRead st pps s
  | .winSeqRead st axis => Sys2Proof.Machine.execWinSeqRead st axis s
  | .windowFreezeLapse st axis => Sys2Proof.Machine.execWindowFreezeLapse st axis s
  | .doorbell st header => Sys2Proof.Machine.execDoorbell st header s
  | .rspRdPtrWrite st value => Sys2Proof.Machine.execRspRdPtrWrite st value s
  | .mbxReset st => Sys2Proof.Machine.execMbxReset st s
  | .mbxResetDone st => Sys2Proof.Machine.execMbxResetDone st s
  | .mailboxTimeout st tag => Sys2Proof.Machine.execMailboxTimeout st tag s
  | .echo st tag => Sys2Proof.Machine.execEcho st tag s
  | .ownerClaim st tag => Sys2Proof.Machine.execOwnerClaim st tag s
  | .ownerRelease st tag => Sys2Proof.Machine.execOwnerRelease st tag s
  | .ownerHandOver st tag => Sys2Proof.Machine.execOwnerHandOver st tag s
  | .handoverTimeout => Sys2Proof.Machine.execHandoverTimeout s
  | .heartbeat st tag => Sys2Proof.Machine.execHeartbeat st tag s
  | .heartbeatWarn => Sys2Proof.Machine.execHeartbeatWarn s
  | .heartbeatLapse => Sys2Proof.Machine.execHeartbeatLapse s
  | .irqRoute st tag => Sys2Proof.Machine.execIrqRoute st tag s
  | .fieldQuery st tag => Sys2Proof.Machine.execFieldQuery st tag s
  | .plotAssign st tag => Sys2Proof.Machine.execPlotAssign st tag s
  | .plotRelease st tag => Sys2Proof.Machine.execPlotRelease st tag s
  | .plotModify st tag => Sys2Proof.Machine.execPlotModify st tag s
  | .plotQuery st tag => Sys2Proof.Machine.execPlotQuery st tag s
  | .lawLoad st tag => Sys2Proof.Machine.execLawLoad st tag s
  | .lawCommit st tag => Sys2Proof.Machine.execLawCommit st tag s
  | .lawDelete st tag => Sys2Proof.Machine.execLawDelete st tag s
  | .lawQuery st tag => Sys2Proof.Machine.execLawQuery st tag s
  | .lawAttach st tag => Sys2Proof.Machine.execLawAttach st tag s
  | .lawFlagsClear st tag => Sys2Proof.Machine.execLawFlagsClear st tag s
  | .coefWrite st tag => Sys2Proof.Machine.execCoefWrite st tag s
  | .coefSwap st tag => Sys2Proof.Machine.execCoefSwap st tag s
  | .coefRead st tag => Sys2Proof.Machine.execCoefRead st tag s
  | .bankCopyDone axis => Sys2Proof.Machine.execBankCopyDone axis s
  | .lawScale st tag => Sys2Proof.Machine.execLawScale st tag s
  | .lawMode st tag => Sys2Proof.Machine.execLawMode st tag s
  | .repConfig st tag => Sys2Proof.Machine.execRepConfig st tag s
  | .repControl st tag => Sys2Proof.Machine.execRepControl st tag s
  | .repStore st tag => Sys2Proof.Machine.execRepStore st tag s
  | .repAutoSave axis => Sys2Proof.Machine.execRepAutoSave axis s
  | .repSaveDone axis => Sys2Proof.Machine.execRepSaveDone axis s
  | .tuneExcite st tag => Sys2Proof.Machine.execTuneExcite st tag s
  | .excitationEnd axis => Sys2Proof.Machine.execExcitationEnd axis s
  | .tuneIdentify st tag => Sys2Proof.Machine.execTuneIdentify st tag s
  | .identifyDone axis lqNh => Sys2Proof.Machine.execIdentifyDone axis lqNh s
  | .voltageLimitPersist axis => Sys2Proof.Machine.execVoltageLimitPersist axis s
  | .overspeed axis => Sys2Proof.Machine.execOverspeed axis s
  | .plausCountLimit axis check => Sys2Proof.Machine.execPlausCountLimit axis check s
  | .fbConfig st tag => Sys2Proof.Machine.execFbConfig st tag s
  | .excConfig st tag => Sys2Proof.Machine.execExcConfig st tag s
  | .excZeroCrossing exc => Sys2Proof.Machine.execExcZeroCrossing exc s
  | .fbPosSet st tag => Sys2Proof.Machine.execFbPosSet st tag s
  | .fbClear st tag => Sys2Proof.Machine.execFbClear st tag s
  | .probeConfig st tag => Sys2Proof.Machine.execProbeConfig st tag s
  | .probeRead st tag => Sys2Proof.Machine.execProbeRead st tag s
  | .emuConfig st tag => Sys2Proof.Machine.execEmuConfig st tag s
  | .quadratureEdge src a b e => Sys2Proof.Machine.execQuadratureEdge src a b e s
  | .indexEdge src e => Sys2Proof.Machine.execIndexEdge src e s
  | .hallTransition src code e => Sys2Proof.Machine.execHallTransition src code e s
  | .toothEdge src dirHigh e => Sys2Proof.Machine.execToothEdge src dirHigh e s
  | .refMarkEdge src data held => Sys2Proof.Machine.execRefMarkEdge src data held s
  | .standstill src => Sys2Proof.Machine.execStandstill src s
  | .encoderAlarm src l => Sys2Proof.Machine.execEncoderAlarm src l s
  | .excOverload exc => Sys2Proof.Machine.execExcOverload exc s
  | .serialExchangeStart port => Sys2Proof.Machine.execSerialExchangeStart port s
  | .serialResponse port r => Sys2Proof.Machine.execSerialResponse port r s
  | .serialWaitExpiry port => Sys2Proof.Machine.execSerialWaitExpiry port s
  | .probeEdge probe rising e => Sys2Proof.Machine.execProbeEdge probe rising e s
  | .probeEntryReadable probe => Sys2Proof.Machine.execProbeEntryReadable probe s
  | .pwmConfig st tag => Sys2Proof.Machine.execPwmConfig st tag s
  | .gateProfile st tag => Sys2Proof.Machine.execGateProfile st tag s
  | .protectConfig st tag => Sys2Proof.Machine.execProtectConfig st tag s
  | .bridgeControl st tag => Sys2Proof.Machine.execBridgeControl st tag s
  | .chargeSample axis mv => Sys2Proof.Machine.execChargeSample axis mv s
  | .pwmDirect st tag => Sys2Proof.Machine.execPwmDirect st tag s
  | .pwmClear st tag => Sys2Proof.Machine.execPwmClear st tag s
  | .pwmQuery st tag => Sys2Proof.Machine.execPwmQuery st tag s
  | .applicationInstant axis at_ slew => Sys2Proof.Machine.execApplicationInstant axis at_ slew s
  | .interlockTurnOn leg high at_ => Sys2Proof.Machine.execInterlockTurnOn leg high at_ s
  | .interlockTimeout leg high => Sys2Proof.Machine.execInterlockTimeout leg high s
  | .gateCheckFail leg high => Sys2Proof.Machine.execGateCheckFail leg high s
  | .extOutputCheck leg high ok => Sys2Proof.Machine.execExtOutputCheck leg high ok s
  | .bootstrapWarning leg mv => Sys2Proof.Machine.execBootstrapWarning leg mv s
  | .bootstrapUvlo leg => Sys2Proof.Machine.execBootstrapUvlo leg s
  | .chopTrip axis phaseB => Sys2Proof.Machine.execChopTrip axis phaseB s
  | .overcurrentTrip leg => Sys2Proof.Machine.execOvercurrentTrip leg s
  | .desaturation leg high at_ => Sys2Proof.Machine.execDesaturation leg high at_ s
  | .hardShort leg high at_ => Sys2Proof.Machine.execHardShort leg high at_ s
  | .externalTrip axis => Sys2Proof.Machine.execExternalTrip axis s
  | .stoSwitchesOpen die => Sys2Proof.Machine.execStoSwitchesOpen die s
  | .stoFeedback die => Sys2Proof.Machine.execStoFeedback die s
  | .stoSupplyRestored die => Sys2Proof.Machine.execStoSupplyRestored die s
  | .setTarget st tag => Sys2Proof.Machine.execSetTarget st tag s
  | .setOverride st tag => Sys2Proof.Machine.execSetOverride st tag s
  | .setGearRatio st tag => Sys2Proof.Machine.execSetGearRatio st tag s
  | .jog st tag => Sys2Proof.Machine.execJog st tag s
  | .stop st tag => Sys2Proof.Machine.execStop st tag s
  | .readStatus st tag => Sys2Proof.Machine.execReadStatus st tag s
  | .profileLimits st tag => Sys2Proof.Machine.execProfileLimits st tag s
  | .moveQueue st tag => Sys2Proof.Machine.execMoveQueue st tag s
  | .moveWait st tag => Sys2Proof.Machine.execMoveWait st tag s
  | .dwellEnd axis => Sys2Proof.Machine.execDwellEnd axis s
  | .homeConfig st tag => Sys2Proof.Machine.execHomeConfig st tag s
  | .homeStart st tag => Sys2Proof.Machine.execHomeStart st tag s
  | .homingHardStop axis => Sys2Proof.Machine.execHomingHardStop axis s
  | .gearConfig st tag => Sys2Proof.Machine.execGearConfig st tag s
  | .gearEngage st tag => Sys2Proof.Machine.execGearEngage st tag s
  | .camLoad st tag => Sys2Proof.Machine.execCamLoad st tag s
  | .camSelect st tag => Sys2Proof.Machine.execCamSelect st tag s
  | .masterPublish st tag => Sys2Proof.Machine.execMasterPublish st tag s
  | .pathGroup st tag => Sys2Proof.Machine.execPathGroup st tag s
  | .pathAppend st tag => Sys2Proof.Machine.execPathAppend st tag s
  | .pathControl st tag => Sys2Proof.Machine.execPathControl st tag s
  | .stepConfig st tag => Sys2Proof.Machine.execStepConfig st tag s
  | .standstillConfig st tag => Sys2Proof.Machine.execStandstillConfig st tag s
  | .standstillDelay axis => Sys2Proof.Machine.execStandstillDelay axis s
  | .captureClaim st tag => Sys2Proof.Machine.execCaptureClaim st tag s
  | .captureConfig st tag => Sys2Proof.Machine.execCaptureConfig st tag s
  | .captureTrigger st tag => Sys2Proof.Machine.execCaptureTrigger st tag s
  | .captureControl st tag => Sys2Proof.Machine.execCaptureControl st tag s
  | .capCtrlForce st unit => Sys2Proof.Machine.execCapCtrlForce st unit s
  | .capDoneRelease st unit mask => Sys2Proof.Machine.execCapDoneRelease st unit mask s
  | .stageTimeout unit => Sys2Proof.Machine.execStageTimeout unit s
  | .autoTrigger unit => Sys2Proof.Machine.execAutoTrigger unit s
  | .skewCal st tag => Sys2Proof.Machine.execSkewCal st tag s
  | .skewCalDone die residualOk values => Sys2Proof.Machine.execSkewCalDone die residualOk values s
  | .adcConfig st tag => Sys2Proof.Machine.execAdcConfig st tag s
  | .dmaClaim st ch => Sys2Proof.Machine.execDmaClaim st ch s
  | .dmaRelease st ch => Sys2Proof.Machine.execDmaRelease st ch s
  | .dmaStart st ch fetched => Sys2Proof.Machine.execDmaStart st ch fetched s
  | .dmaAbort st ch => Sys2Proof.Machine.execDmaAbort st ch s
  | .dmaAbortEffect ch moved fromHost => Sys2Proof.Machine.execDmaAbortEffect ch moved fromHost s
  | .dmaDescriptorEnd ch outcome fetched => Sys2Proof.Machine.execDmaDescriptorEnd ch outcome fetched s
  | .ringConfig st tag => Sys2Proof.Machine.execRingConfig st tag s
  | .ringControl st tag => Sys2Proof.Machine.execRingControl st tag s
  | .remoteStallConfig st tag => Sys2Proof.Machine.execRemoteStallConfig st tag s
  | .timeConfig st tag => Sys2Proof.Machine.execTimeConfig st tag s
  | .timeSet st tag => Sys2Proof.Machine.execTimeSet st tag s
  | .ringProxy st tag => Sys2Proof.Machine.execRingProxy st tag s
  | .blockLock a b => Sys2Proof.Machine.execBlockLock a b s
  | .listenTimeout => Sys2Proof.Machine.execListenTimeout s
  | .insertWindow => Sys2Proof.Machine.execInsertWindow s
  | .joinTimeout => Sys2Proof.Machine.execJoinTimeout s
  | .cycleFrameSend => Sys2Proof.Machine.execCycleFrameSend s
  | .cycleFrame portB fcs f => Sys2Proof.Machine.execCycleFrame portB fcs f s
  | .foreignFrame portB => Sys2Proof.Machine.execForeignFrame portB s
  | .nodeMissing node => Sys2Proof.Machine.execNodeMissing node s
  | .portBreak port => Sys2Proof.Machine.execPortBreak port s
  | .portRestore portB => Sys2Proof.Machine.execPortRestore portB s
  | .acyclicFragmentTimeout src tr => Sys2Proof.Machine.execAcyclicFragmentTimeout src tr s
  | .ringConnect m => Sys2Proof.Machine.execRingConnect m s
  | .ringDisconnect m => Sys2Proof.Machine.execRingDisconnect m s
  | .ringKeepalive m => Sys2Proof.Machine.execRingKeepalive m s
  | .ringRead m => Sys2Proof.Machine.execRingRead m s
  | .ringWrite m => Sys2Proof.Machine.execRingWrite m s
  | .ringCommand m => Sys2Proof.Machine.execRingCommand m s
  | .ringAccept m => Sys2Proof.Machine.execRingAccept m s
  | .ringReject m => Sys2Proof.Machine.execRingReject m s
  | .ringAck m => Sys2Proof.Machine.execRingAck m s
  | .ringResponse m => Sys2Proof.Machine.execRingResponse m s
  | .remoteStallTimeout st => Sys2Proof.Machine.execRemoteStallTimeout st s
  | .proxyAckTimeout st tag => Sys2Proof.Machine.execProxyAckTimeout st tag s
  | .proxyKeepalive node => Sys2Proof.Machine.execProxyKeepalive node s
  | .proxyIdleDisconnect node => Sys2Proof.Machine.execProxyIdleDisconnect node s
  | .syncSend => Sys2Proof.Machine.execSyncSend s
  | .syncReceived portB m => Sys2Proof.Machine.execSyncReceived portB m s
  | .ntHoldover => Sys2Proof.Machine.execNtHoldover s
  | .pdelayReqSend => Sys2Proof.Machine.execPdelayReqSend s
  | .pdelayReqReceived portB seq => Sys2Proof.Machine.execPdelayReqReceived portB seq s
  | .pdelayRespReceived portB delay => Sys2Proof.Machine.execPdelayRespReceived portB delay s
  | .ppsEdge at_ => Sys2Proof.Machine.execPpsEdge at_ s
  | .ppsOutSecond => Sys2Proof.Machine.execPpsOutSecond s
  | .ref25Detect => Sys2Proof.Machine.execRef25Detect s
  | .kaTimeSet => Sys2Proof.Machine.execKaTimeSet s
  | .canConfig st tag => Sys2Proof.Machine.execCanConfig st tag s
  | .canFilter st tag => Sys2Proof.Machine.execCanFilter st tag s
  | .canSend st tag => Sys2Proof.Machine.execCanSend st tag s
  | .canReceive st tag => Sys2Proof.Machine.execCanReceive st tag s
  | .canControl st tag => Sys2Proof.Machine.execCanControl st tag s
  | .canTimeMaster st tag => Sys2Proof.Machine.execCanTimeMaster st tag s
  | .canGateway st tag => Sys2Proof.Machine.execCanGateway st tag s
  | .canIntegrated c => Sys2Proof.Machine.execCanIntegrated c s
  | .canFrameReceived c ok f at_ => Sys2Proof.Machine.execCanFrameReceived c ok f at_ s
  | .canTxEnd c r => Sys2Proof.Machine.execCanTxEnd c r s
  | .canLifetimeExpiry c buf => Sys2Proof.Machine.execCanLifetimeExpiry c buf s
  | .canRecoveryDone c => Sys2Proof.Machine.execCanRecoveryDone c s
  | .canBasicCycle c => Sys2Proof.Machine.execCanBasicCycle c s
  | .canGuardStart c => Sys2Proof.Machine.execCanGuardStart c s
  | .refWindowExpiry c => Sys2Proof.Machine.execRefWindowExpiry c s
  | .canWindowOpen c buf => Sys2Proof.Machine.execCanWindowOpen c buf s
  | .gwCommand words => Sys2Proof.Machine.execGwCommand words s
  | .gwRead words => Sys2Proof.Machine.execGwRead words s
  | .gwIrqClear words => Sys2Proof.Machine.execGwIrqClear words s
  | .fioInConfig st tag => Sys2Proof.Machine.execFioInConfig st tag s
  | .fioOutConfig st tag => Sys2Proof.Machine.execFioOutConfig st tag s
  | .outSet st tag => Sys2Proof.Machine.execOutSet st tag s
  | .fioClear st tag => Sys2Proof.Machine.execFioClear st tag s
  | .fioStamp st tag => Sys2Proof.Machine.execFioStamp st tag s
  | .fioQuery st tag => Sys2Proof.Machine.execFioQuery st tag s
  | .inEdge n level at_ => Sys2Proof.Machine.execInEdge n level at_ s
  | .readbackEdge n level => Sys2Proof.Machine.execReadbackEdge n level s
  | .outputMismatch n => Sys2Proof.Machine.execOutputMismatch n s
  | .bankOvertemp => Sys2Proof.Machine.execBankOvertemp s
  | .bankCooled => Sys2Proof.Machine.execBankCooled s
  | .spmSelect st tag => Sys2Proof.Machine.execSpmSelect st tag s
  | .spmTransfer st tag => Sys2Proof.Machine.execSpmTransfer st tag s
  | .spmControl st tag => Sys2Proof.Machine.execSpmControl st tag s
  | .spmMap st tag => Sys2Proof.Machine.execSpmMap st tag s
  | .spmMemRead st tag data => Sys2Proof.Machine.execSpmMemRead st tag data s
  | .spmMemWrite st tag => Sys2Proof.Machine.execSpmMemWrite st tag s
  | .spmMemErase st tag => Sys2Proof.Machine.execSpmMemErase st tag s
  | .spmTransferDone port rx => Sys2Proof.Machine.execSpmTransferDone port rx s
  | .spmHoldLapse port => Sys2Proof.Machine.execSpmHoldLapse port s
  | .spmStatusPoll status readBack => Sys2Proof.Machine.execSpmStatusPoll status readBack s
  | .mappedRead addr line => Sys2Proof.Machine.execMappedRead addr line s
  | .faultConfig st tag => Sys2Proof.Machine.execFaultConfig st tag s
  | .faultClear st tag => Sys2Proof.Machine.execFaultClear st tag s
  | .faultRecover st tag => Sys2Proof.Machine.execFaultRecover st tag s
  | .faultSow st tag => Sys2Proof.Machine.execFaultSow st tag s
  | .sowTimeout => Sys2Proof.Machine.execSowTimeout s
  | .rotationControl st tag => Sys2Proof.Machine.execRotationControl st tag s
  | .rotationHoldExpiry => Sys2Proof.Machine.execRotationHoldExpiry s
  | .bistRun st tag => Sys2Proof.Machine.execBistRun st tag s
  | .bistDone got expected durUs => Sys2Proof.Machine.execBistDone got expected durUs s
  | .marginMeasure st tag => Sys2Proof.Machine.execMarginMeasure st tag s
  | .marginMeasureDone axis r => Sys2Proof.Machine.execMarginMeasureDone axis r s
  | .marginApply st tag => Sys2Proof.Machine.execMarginApply st tag s
  | .fwLoad st tag => Sys2Proof.Machine.execFwLoad st tag s
  | .fwCommit st tag signatureOk lawsDiffer => Sys2Proof.Machine.execFwCommit st tag signatureOk lawsDiffer s
  | .fwActivate st tag => Sys2Proof.Machine.execFwActivate st tag s
  | .fwConfirm st tag => Sys2Proof.Machine.execFwConfirm st tag s
  | .ledgerRead st tag => Sys2Proof.Machine.execLedgerRead st tag s
  | .standbyImageStarted => Sys2Proof.Machine.execStandbyImageStarted s
  | .liveSwitch => Sys2Proof.Machine.execLiveSwitch s
  | .liveSwitchTimeout => Sys2Proof.Machine.execLiveSwitchTimeout s
  | .trialStart => Sys2Proof.Machine.execTrialStart s
  | .trialExpiry => Sys2Proof.Machine.execTrialExpiry s
  | .episodeClose => Sys2Proof.Machine.execEpisodeClose s
  | .axisRecovery axis => Sys2Proof.Machine.execAxisRecovery axis s
  | .railFaultRestart => Sys2Proof.Machine.execRailFaultRestart s
  | .dieOvertemp die tempC => Sys2Proof.Machine.execDieOvertemp die tempC s
  | .thermalRestart temps => Sys2Proof.Machine.execThermalRestart temps s
  | .rotationStep => Sys2Proof.Machine.execRotationStep s
  | .laneTestDone ln test => Sys2Proof.Machine.execLaneTestDone ln test s
  | .laneError ln => Sys2Proof.Machine.execLaneError ln s
  | .converterStandinStep spare calOk => Sys2Proof.Machine.execConverterStandinStep spare calOk s
  | .converterError conv kind => Sys2Proof.Machine.execConverterError conv kind s
  | .plotMemoryEccError axis word uncorrectable => Sys2Proof.Machine.execPlotMemoryEccError axis word uncorrectable s
  | .mramEccError => Sys2Proof.Machine.execMramEccError s
  | .dramCorrectableRate count => Sys2Proof.Machine.execDramCorrectableRate count s
  | .mpLockstepError => Sys2Proof.Machine.execMpLockstepError s
  | .mpWatchdogExpiry => Sys2Proof.Machine.execMpWatchdogExpiry s
  | .standbyPairFailure => Sys2Proof.Machine.execStandbyPairFailure s
  | .mpTestDone pass => Sys2Proof.Machine.execMpTestDone pass s
  | .safetyAck st tag => Sys2Proof.Machine.execSafetyAck st tag s
  | .safetyCommission st tag => Sys2Proof.Machine.execSafetyCommission st tag s
  | .safetyParamWrite st tag => Sys2Proof.Machine.execSafetyParamWrite st tag s
  | .safetyParamRead st tag => Sys2Proof.Machine.execSafetyParamRead st tag s
  | .channelBStart => Sys2Proof.Machine.execChannelBStart s
  | .safetyCheckCycle chB inp => Sys2Proof.Machine.execSafetyCheckCycle chB inp s
  | .safetyInputAccept chB n level => Sys2Proof.Machine.execSafetyInputAccept chB n level s
  | .testPulseStart n => Sys2Proof.Machine.execTestPulseStart n s
  | .testPulseEnd n seenOff => Sys2Proof.Machine.execTestPulseEnd n seenOff s
  | .inputDiscrepancy pair => Sys2Proof.Machine.execInputDiscrepancy pair s
  | .sresetAccept ms => Sys2Proof.Machine.execSresetAccept ms s
  | .sresetStuck => Sys2Proof.Machine.execSresetStuck s
  | .sresetArmExpiry => Sys2Proof.Machine.execSresetArmExpiry s
  | .twoHandLapse pair => Sys2Proof.Machine.execTwoHandLapse pair s
  | .ss1Expiry chB zone => Sys2Proof.Machine.execSs1Expiry chB zone s
  | .ossdTestPulse out => Sys2Proof.Machine.execOssdTestPulse out s
  | .ossdOffCheck out readOff => Sys2Proof.Machine.execOssdOffCheck out readOff s
  | .slsActDelayEnd m => Sys2Proof.Machine.execSlsActDelayEnd m s
  | .slsDiscrepancy m => Sys2Proof.Machine.execSlsDiscrepancy m s
  | .degradedEnd unit => Sys2Proof.Machine.execDegradedEnd unit s
  | .stoFbTimeout die => Sys2Proof.Machine.execStoFbTimeout die s
  | .safetyTelegram conn bytes => Sys2Proof.Machine.execSafetyTelegram conn bytes s
  | .safetyTelegramSend conn agree => Sys2Proof.Machine.execSafetyTelegramSend conn agree s
  | .connTimeout conn => Sys2Proof.Machine.execConnTimeout conn s
  | .paramCrcCheck => Sys2Proof.Machine.execParamCrcCheck s
  | .commissionIdleTimeout => Sys2Proof.Machine.execCommissionIdleTimeout s
  | .commissionConfirmTimeout => Sys2Proof.Machine.execCommissionConfirmTimeout s
  | .codeBlockExpiry => Sys2Proof.Machine.execCodeBlockExpiry s
  | .hrstRelease => Sys2Proof.Machine.execHrstRelease s
  | .hostRead st dram addr count eccBad => Sys2Proof.Machine.execHostRead st dram addr count eccBad s
  | .interruptRegisterWrite st target value => Sys2Proof.Machine.execInterruptRegisterWrite st target value s
  | .commandedEdge leg high => Sys2Proof.Machine.execCommandedEdge leg high s
  | .gatePhaseEnd leg high => Sys2Proof.Machine.execGatePhaseEnd leg high s
  | .ref25Loss => Sys2Proof.Machine.execRef25Loss s
  | .canWindowClose c buf => Sys2Proof.Machine.execCanWindowClose c buf s
  | .ossdPulseEnd out readOff => Sys2Proof.Machine.execOssdPulseEnd out readOff s
  | .safetyChannelFault chB => Sys2Proof.Machine.execSafetyChannelFault chB s

end Sys2Proof.Machine
end

