-- ==== Sys2Proof/Machine/LaneWord.lean ====
section
/-! DEFINITION. The words of the lane instructions (spec 05 R150, Tables 5.7 and 5.9): the instruction that a 40-bit word of
program memory holds, the word of an instruction, and the instruction a lane's user program has come to. -/
namespace Sys2Proof.Machine
open Sys2Proof

/-- A one-bit field of an instruction word. -/
def iBit (w : BitVec 40) (i : Nat) : Bool := ifld w i i == 1

/-- The parallel load whose enable, D register, address register and post-modification stand at the given bits (format M). -/
def loadOf (w : BitVec 40) (en d a p : Nat) : ParLoad :=
  ⟨iBit w en, Fin.ofNat 16 (ifld w (d + 3) d), Fin.ofNat 8 (ifld w (a + 2) a), Fin.ofNat 4 (ifld w (p + 1) p)⟩
/-- The bits of a parallel load. -/
def loadBits (en d a p : Nat) (x : ParLoad) : Nat :=
  b2n x.en * 2 ^ en + x.d.val * 2 ^ d + x.a.val * 2 ^ a + x.p.val * 2 ^ p

/-- A word from its opcode, S and the rest of its fields. -/
def laneBits (op : Nat) (sat : Bool) (fields : Nat) : BitVec 40 := BitVec.ofNat 40 (op * 2 ^ 34 + b2n sat * 2 ^ 33 + fields)

/-- The instruction that a word holds for a lane (R150); none where the opcode is not listed (R152). Words with bits that
their instruction does not use, or operands out of range, pass no verification (R164) and so never run. -/
def laneInstr (ln : LaneNo) (w : BitVec 40) : Option Instr :=
  match ifld w 39 34 with
  | 0x00 => some (.nop ln)
  | 0x01 => some (.mov ln (Fin.ofNat 16 (ifld w 32 29)) (Fin.ofNat 16 (ifld w 28 25)))
  | 0x02 => some (.ldi ln (Fin.ofNat 16 (ifld w 32 29)) (BitVec.ofNat 20 (ifld w 19 0)))
  | 0x03 => some (.ld ln (Fin.ofNat 16 (ifld w 32 29)) (Fin.ofNat 8 (ifld w 28 26)) (Fin.ofNat 4 (ifld w 25 24)))
  | 0x04 => some (.ldo ln (Fin.ofNat 16 (ifld w 32 29)) (Fin.ofNat 8 (ifld w 28 26)) (BitVec.ofNat 16 (ifld w 15 0)))
  | 0x05 => some (.lda ln (Fin.ofNat 16 (ifld w 32 29)) (BitVec.ofNat 12 (ifld w 11 0)))
  | 0x06 => some (.st ln (Fin.ofNat 16 (ifld w 32 29)) (Fin.ofNat 8 (ifld w 28 26)) (Fin.ofNat 4 (ifld w 25 24)))
  | 0x07 => some (.sto ln (Fin.ofNat 16 (ifld w 32 29)) (Fin.ofNat 8 (ifld w 28 26)) (BitVec.ofNat 16 (ifld w 15 0)))
  | 0x08 => some (.sta ln (Fin.ofNat 16 (ifld w 32 29)) (BitVec.ofNat 12 (ifld w 11 0)))
  | 0x09 => some (.fld ln (Fin.ofNat 16 (ifld w 32 29)) (Fin.ofNat 8 (ifld w 28 26)) (BitVec.ofNat 16 (ifld w 15 0)))
  | 0x0A => some (.fst ln (Fin.ofNat 16 (ifld w 32 29)) (Fin.ofNat 8 (ifld w 28 26)) (BitVec.ofNat 16 (ifld w 15 0)))
  | 0x0B => some (.lai ln (Fin.ofNat 8 (ifld w 31 29)) (BitVec.ofNat 16 (ifld w 15 0)))
  | 0x0C => some (.lmi ln (Fin.ofNat 8 (ifld w 31 29)) (BitVec.ofNat 12 (ifld w 23 12)) (BitVec.ofNat 12 (ifld w 11 0)))
  | 0x0D => some (.mad ln (Fin.ofNat 8 (ifld w 31 29)) (Fin.ofNat 16 (ifld w 28 25)))
  | 0x10 => some (.add ln (iBit w 33) (Fin.ofNat 16 (ifld w 32 29)) (Fin.ofNat 16 (ifld w 28 25)) (Fin.ofNat 16 (ifld w 24 21)))
  | 0x11 => some (.sub ln (iBit w 33) (Fin.ofNat 16 (ifld w 32 29)) (Fin.ofNat 16 (ifld w 28 25)) (Fin.ofNat 16 (ifld w 24 21)))
  | 0x12 => some (.addi ln (iBit w 33) (Fin.ofNat 16 (ifld w 32 29)) (Fin.ofNat 16 (ifld w 28 25)) (BitVec.ofNat 20 (ifld w 19 0)))
  | 0x13 => some (.neg ln (iBit w 33) (Fin.ofNat 16 (ifld w 32 29)) (Fin.ofNat 16 (ifld w 28 25)))
  | 0x14 => some (.abs ln (iBit w 33) (Fin.ofNat 16 (ifld w 32 29)) (Fin.ofNat 16 (ifld w 28 25)))
  | 0x15 => some (.min ln (Fin.ofNat 16 (ifld w 32 29)) (Fin.ofNat 16 (ifld w 28 25)) (Fin.ofNat 16 (ifld w 24 21)))
  | 0x16 => some (.max ln (Fin.ofNat 16 (ifld w 32 29)) (Fin.ofNat 16 (ifld w 28 25)) (Fin.ofNat 16 (ifld w 24 21)))
  | 0x17 => some (.lim ln (Fin.ofNat 16 (ifld w 32 29)) (Fin.ofNat 16 (ifld w 28 25)) (Fin.ofNat 16 (ifld w 24 21)))
  | 0x18 => some (.and ln (Fin.ofNat 16 (ifld w 32 29)) (Fin.ofNat 16 (ifld w 28 25)) (Fin.ofNat 16 (ifld w 24 21)))
  | 0x19 => some (.or ln (Fin.ofNat 16 (ifld w 32 29)) (Fin.ofNat 16 (ifld w 28 25)) (Fin.ofNat 16 (ifld w 24 21)))
  | 0x1A => some (.xor ln (Fin.ofNat 16 (ifld w 32 29)) (Fin.ofNat 16 (ifld w 28 25)) (Fin.ofNat 16 (ifld w 24 21)))
  | 0x1B => some (.shl ln (iBit w 33) (Fin.ofNat 16 (ifld w 32 29)) (Fin.ofNat 16 (ifld w 28 25)) (Fin.ofNat 32 (ifld w 4 0)))
  | 0x1C => some (.shr ln (Fin.ofNat 16 (ifld w 32 29)) (Fin.ofNat 16 (ifld w 28 25)) (Fin.ofNat 32 (ifld w 4 0)))
  | 0x1D => some (.mul ln (iBit w 33) (Fin.ofNat 16 (ifld w 32 29)) (Fin.ofNat 16 (ifld w 28 25)) (Fin.ofNat 16 (ifld w 24 21)))
  | 0x1E => some (.selcc ln (Fin.ofNat 16 (ifld w 20 17)) (Fin.ofNat 16 (ifld w 32 29)) (Fin.ofNat 16 (ifld w 28 25)) (Fin.ofNat 16 (ifld w 24 21)))
  | 0x20 => some (.mpy ln (iBit w 33) (Fin.ofNat 4 (ifld w 32 31)) (Fin.ofNat 16 (ifld w 30 27)) (Fin.ofNat 16 (ifld w 26 23)) (loadOf w 22 18 15 13) (loadOf w 12 8 5 3))
  | 0x21 => some (.mac ln (iBit w 33) (Fin.ofNat 4 (ifld w 32 31)) (Fin.ofNat 16 (ifld w 30 27)) (Fin.ofNat 16 (ifld w 26 23)) (loadOf w 22 18 15 13) (loadOf w 12 8 5 3))
  | 0x22 => some (.msu ln (iBit w 33) (Fin.ofNat 4 (ifld w 32 31)) (Fin.ofNat 16 (ifld w 30 27)) (Fin.ofNat 16 (ifld w 26 23)) (loadOf w 22 18 15 13) (loadOf w 12 8 5 3))
  | 0x23 => some (.dmpy ln (iBit w 33) (Fin.ofNat 4 (ifld w 32 31)) (Fin.ofNat 16 (ifld w 30 27)) (Fin.ofNat 16 (ifld w 26 23)) (loadOf w 22 18 15 13) (loadOf w 12 8 5 3))
  | 0x24 => some (.dmac ln (iBit w 33) (Fin.ofNat 4 (ifld w 32 31)) (Fin.ofNat 16 (ifld w 30 27)) (Fin.ofNat 16 (ifld w 26 23)) (loadOf w 22 18 15 13) (loadOf w 12 8 5 3))
  | 0x25 => some (.rot ln (iBit w 33) (Fin.ofNat 4 (ifld w 32 31)) (Fin.ofNat 16 (ifld w 30 27)) (Fin.ofNat 16 (ifld w 26 23)) (loadOf w 22 18 15 13) (loadOf w 12 8 5 3))
  | 0x28 => some (.lac ln (Fin.ofNat 4 (ifld w 32 31)) (Fin.ofNat 16 (ifld w 28 25)))
  | 0x29 => some (.sac ln (iBit w 33) (Fin.ofNat 16 (ifld w 28 25)) (Fin.ofNat 4 (ifld w 30 29)) (BitVec.ofNat 6 (ifld w 24 19)))
  | 0x2A => some (.adda ln (iBit w 33) (Fin.ofNat 4 (ifld w 32 31)) (Fin.ofNat 4 (ifld w 30 29)))
  | 0x2B => some (.sha ln (iBit w 33) (Fin.ofNat 4 (ifld w 32 31)) (BitVec.ofNat 6 (ifld w 24 19)))
  | 0x2C => some (.clra ln (Fin.ofNat 4 (ifld w 32 31)))
  | 0x2D => some (.sincos ln (Fin.ofNat 16 (ifld w 32 29)) (Fin.ofNat 16 (ifld w 28 25)))
  | 0x2E => some (.div ln (iBit w 33) (Fin.ofNat 16 (ifld w 32 29)) (Fin.ofNat 16 (ifld w 28 25)) (Fin.ofNat 16 (ifld w 24 21)))
  | 0x2F => some (.sqrt ln (Fin.ofNat 16 (ifld w 32 29)) (Fin.ofNat 16 (ifld w 28 25)))
  | 0x30 => some (.br ln (BitVec.ofNat 11 (ifld w 10 0)))
  | 0x31 => some (.bcc ln (Fin.ofNat 16 (ifld w 33 30)) (BitVec.ofNat 11 (ifld w 10 0)))
  | 0x32 => some (.rpt ln (BitVec.ofNat 11 (ifld w 10 0)))
  | 0x33 => some (.rptr ln (Fin.ofNat 16 (ifld w 32 29)) (BitVec.ofNat 11 (ifld w 10 0)))
  | 0x3F => some (.endProg ln)
  | _ => none

/-- The lane and the word of an instruction; none for a command that is no lane instruction. -/
def laneCode (i : Instr) : Option (LaneNo × BitVec 40) :=
  match i with
  | .nop ln => some (ln, laneBits 0x00 false (0))
  | .mov ln rd ra => some (ln, laneBits 0x01 false (rd.val * 2 ^ 29 + ra.val * 2 ^ 25))
  | .ldi ln rd imm => some (ln, laneBits 0x02 false (rd.val * 2 ^ 29 + imm.toNat))
  | .ld ln rd k p => some (ln, laneBits 0x03 false (rd.val * 2 ^ 29 + k.val * 2 ^ 26 + p.val * 2 ^ 24))
  | .ldo ln rd k ofs => some (ln, laneBits 0x04 false (rd.val * 2 ^ 29 + k.val * 2 ^ 26 + ofs.toNat))
  | .lda ln rd addr => some (ln, laneBits 0x05 false (rd.val * 2 ^ 29 + addr.toNat))
  | .st ln ra k p => some (ln, laneBits 0x06 false (ra.val * 2 ^ 29 + k.val * 2 ^ 26 + p.val * 2 ^ 24))
  | .sto ln ra k ofs => some (ln, laneBits 0x07 false (ra.val * 2 ^ 29 + k.val * 2 ^ 26 + ofs.toNat))
  | .sta ln ra addr => some (ln, laneBits 0x08 false (ra.val * 2 ^ 29 + addr.toNat))
  | .fld ln rd k ofs => some (ln, laneBits 0x09 false (rd.val * 2 ^ 29 + k.val * 2 ^ 26 + ofs.toNat))
  | .fst ln ra k ofs => some (ln, laneBits 0x0A false (ra.val * 2 ^ 29 + k.val * 2 ^ 26 + ofs.toNat))
  | .lai ln k imm => some (ln, laneBits 0x0B false (k.val * 2 ^ 29 + imm.toNat))
  | .lmi ln k len stride => some (ln, laneBits 0x0C false (k.val * 2 ^ 29 + len.toNat * 2 ^ 12 + stride.toNat))
  | .mad ln k ra => some (ln, laneBits 0x0D false (k.val * 2 ^ 29 + ra.val * 2 ^ 25))
  | .add ln sat rd ra rb => some (ln, laneBits 0x10 sat (rd.val * 2 ^ 29 + ra.val * 2 ^ 25 + rb.val * 2 ^ 21))
  | .sub ln sat rd ra rb => some (ln, laneBits 0x11 sat (rd.val * 2 ^ 29 + ra.val * 2 ^ 25 + rb.val * 2 ^ 21))
  | .addi ln sat rd ra imm => some (ln, laneBits 0x12 sat (rd.val * 2 ^ 29 + ra.val * 2 ^ 25 + imm.toNat))
  | .neg ln sat rd ra => some (ln, laneBits 0x13 sat (rd.val * 2 ^ 29 + ra.val * 2 ^ 25))
  | .abs ln sat rd ra => some (ln, laneBits 0x14 sat (rd.val * 2 ^ 29 + ra.val * 2 ^ 25))
  | .min ln rd ra rb => some (ln, laneBits 0x15 false (rd.val * 2 ^ 29 + ra.val * 2 ^ 25 + rb.val * 2 ^ 21))
  | .max ln rd ra rb => some (ln, laneBits 0x16 false (rd.val * 2 ^ 29 + ra.val * 2 ^ 25 + rb.val * 2 ^ 21))
  | .lim ln rd ra rb => some (ln, laneBits 0x17 false (rd.val * 2 ^ 29 + ra.val * 2 ^ 25 + rb.val * 2 ^ 21))
  | .and ln rd ra rb => some (ln, laneBits 0x18 false (rd.val * 2 ^ 29 + ra.val * 2 ^ 25 + rb.val * 2 ^ 21))
  | .or ln rd ra rb => some (ln, laneBits 0x19 false (rd.val * 2 ^ 29 + ra.val * 2 ^ 25 + rb.val * 2 ^ 21))
  | .xor ln rd ra rb => some (ln, laneBits 0x1A false (rd.val * 2 ^ 29 + ra.val * 2 ^ 25 + rb.val * 2 ^ 21))
  | .shl ln sat rd ra n => some (ln, laneBits 0x1B sat (rd.val * 2 ^ 29 + ra.val * 2 ^ 25 + n.val))
  | .shr ln rd ra n => some (ln, laneBits 0x1C false (rd.val * 2 ^ 29 + ra.val * 2 ^ 25 + n.val))
  | .mul ln sat rd ra rb => some (ln, laneBits 0x1D sat (rd.val * 2 ^ 29 + ra.val * 2 ^ 25 + rb.val * 2 ^ 21))
  | .selcc ln cc rd ra rb => some (ln, laneBits 0x1E false (cc.val * 2 ^ 17 + rd.val * 2 ^ 29 + ra.val * 2 ^ 25 + rb.val * 2 ^ 21))
  | .mpy ln sat ac dx dy lx ly => some (ln, laneBits 0x20 sat (ac.val * 2 ^ 31 + dx.val * 2 ^ 27 + dy.val * 2 ^ 23 + loadBits 22 18 15 13 lx + loadBits 12 8 5 3 ly))
  | .mac ln sat ac dx dy lx ly => some (ln, laneBits 0x21 sat (ac.val * 2 ^ 31 + dx.val * 2 ^ 27 + dy.val * 2 ^ 23 + loadBits 22 18 15 13 lx + loadBits 12 8 5 3 ly))
  | .msu ln sat ac dx dy lx ly => some (ln, laneBits 0x22 sat (ac.val * 2 ^ 31 + dx.val * 2 ^ 27 + dy.val * 2 ^ 23 + loadBits 22 18 15 13 lx + loadBits 12 8 5 3 ly))
  | .dmpy ln sat ac dx dy lx ly => some (ln, laneBits 0x23 sat (ac.val * 2 ^ 31 + dx.val * 2 ^ 27 + dy.val * 2 ^ 23 + loadBits 22 18 15 13 lx + loadBits 12 8 5 3 ly))
  | .dmac ln sat ac dx dy lx ly => some (ln, laneBits 0x24 sat (ac.val * 2 ^ 31 + dx.val * 2 ^ 27 + dy.val * 2 ^ 23 + loadBits 22 18 15 13 lx + loadBits 12 8 5 3 ly))
  | .rot ln sat ac dx dy lx ly => some (ln, laneBits 0x25 sat (ac.val * 2 ^ 31 + dx.val * 2 ^ 27 + dy.val * 2 ^ 23 + loadBits 22 18 15 13 lx + loadBits 12 8 5 3 ly))
  | .lac ln ac ra => some (ln, laneBits 0x28 false (ac.val * 2 ^ 31 + ra.val * 2 ^ 25))
  | .sac ln sat rd ac sh => some (ln, laneBits 0x29 sat (rd.val * 2 ^ 25 + ac.val * 2 ^ 29 + sh.toNat * 2 ^ 19))
  | .adda ln sat ac acs => some (ln, laneBits 0x2A sat (ac.val * 2 ^ 31 + acs.val * 2 ^ 29))
  | .sha ln sat ac sh => some (ln, laneBits 0x2B sat (ac.val * 2 ^ 31 + sh.toNat * 2 ^ 19))
  | .clra ln ac => some (ln, laneBits 0x2C false (ac.val * 2 ^ 31))
  | .sincos ln rd ra => some (ln, laneBits 0x2D false (rd.val * 2 ^ 29 + ra.val * 2 ^ 25))
  | .div ln sat rd ra rb => some (ln, laneBits 0x2E sat (rd.val * 2 ^ 29 + ra.val * 2 ^ 25 + rb.val * 2 ^ 21))
  | .sqrt ln rd ra => some (ln, laneBits 0x2F false (rd.val * 2 ^ 29 + ra.val * 2 ^ 25))
  | .br ln target => some (ln, laneBits 0x30 false (target.toNat))
  | .bcc ln cc target => some (ln, laneBits 0x31 false (cc.val * 2 ^ 30 + target.toNat))
  | .rpt ln count => some (ln, laneBits 0x32 false (count.toNat))
  | .rptr ln rd maxCount => some (ln, laneBits 0x33 false (rd.val * 2 ^ 29 + maxCount.toNat))
  | .endProg ln => some (ln, laneBits 0x3F false (0))
  | _ => none

/-- The user law program attached to the axis that a lane serves, if it is loaded. -/
def Dev.laneProg (d : Dev) (ln : LaneNo) : Option Program := Mem.read none d.progs.progs (d.userProg d.lanes[ln].axis)

/-- The instruction that the program of a lane has come to: the word at its index, decoded (R150, R162). A row of the command
table that names an instruction is that instruction of the program running (log entry 116). -/
def Dev.laneNext (d : Dev) (ln : LaneNo) : Option Instr :=
  ((d.laneProg ln).bind (fun p => p.words[d.lanes[ln].pc]?)).bind (laneInstr ln)

end Sys2Proof.Machine
end

