-- ==== Sys2Proof/Safety.lean ====
section
/-! DEFINITION. What counts as a safe step, and the terms in which the statements speak of commands. -/
namespace Sys2Proof

/-- The step at s answers a next state. -/
def Completes (s : Machine.State) : Prop := ∃ t, Machine.step s = .next t

namespace Machine

/-- The command c is the one in flight of a stall and tag, it has the given code, it has not started, and nothing of its
stall waits before it (03 R96). -/
def Dev.runs (d : Dev) (st : Stall) (tag : BitVec 8) (code : Nat) (c : Cmd) : Bool :=
  d.cmd? st tag == some c && c.code.toNat == code && c.phase == .waiting && d.mayStart c

/-- The command c is the one in flight of its stall and tag, whatever its phase (03 R91). -/
def Dev.holds (d : Dev) (c : Cmd) : Bool := d.cmd? c.stall c.tag == some c

/-- Every status check of a command passes. -/
def Passes (checks : List (Bool × Nat)) : Prop := firstBad checks = 0

/-- The device e differs from d in the mailbox and host side at most: the stalls, the commands in flight, what leaves the
device, and the interrupts that wait at the remote stalls and the gateway (03 R94, R104). -/
def MailboxOnly (d e : Dev) : Prop :=
  { e with hp := d.hp, out := d.out, ring := { e.ring with remote := d.ring.remote }, can := { e.can with gw := d.can.gw } } = d

/-- The device e has posted the words to stall st: they stand in its response area from the old RSP_WR_PTR on, the pointer
is past them, and the RSP cause is set (03 R94, R105). -/
def Posted (d e : Dev) (st : Stall) (words : List W32) : Prop :=
  e.hp.stalls[st].rspArea = areaWrite d.hp.stalls[st].rspArea d.hp.stalls[st].rspWrPtr.toNat words ∧
    e.hp.stalls[st].rspWrPtr = d.hp.stalls[st].rspWrPtr + BitVec.ofNat 11 words.length ∧
    e.hp.stalls[st].irqStatus.getLsbD irqRsp = true

/-- A stall posts a response of n words at once: nothing of it waits, and the area has room (03 R94). -/
def Dev.hasRoom (d : Dev) (st : Stall) (n : Nat) : Prop :=
  d.hp.stalls[st].rspWaiting = [] ∧ rspUsed d.hp.stalls[st] + n ≤ 1024

/-! ## Lanes (spec 05) -/

/-- Lane ln is l; its user law program is at a hook h, no result is hidden, no repeat or branch under way. -/
def State.atHook (s : State) (ln : LaneNo) (h : Fin 3) (l : Lane) : Prop :=
  s.dev.lanes[ln] = l ∧ l.hook? = some h ∧ l.pend = [] ∧ l.rep = none ∧ l.branch = none

/-- A lane past an instruction of so many clocks, its results apart. -/
def Lane.past (clocks : Nat) (l : Lane) : Lane := { l with pc := l.pc + 1, slots := l.slots - 1, cycles := l.cycles + clocks }

/-- The state with a lane in place of lane ln, and everything else as it was. -/
def State.withLane (s : State) (ln : LaneNo) (l : Lane) : State := s.on (fun d => { d with lanes := vset d.lanes ln l })

/-- The lane of an instruction of a user law program, END apart, which also ends the hook (05 Table 5.9). -/
def laneOf : Instr → Option LaneNo
  | .nop ln | .mov ln _ _ | .ldi ln _ _ | .ld ln _ _ _ | .ldo ln _ _ _ | .lda ln _ _ | .st ln _ _ _ | .sto ln _ _ _
  | .sta ln _ _ | .fld ln _ _ _ | .fst ln _ _ _ | .lai ln _ _ | .lmi ln _ _ _ | .mad ln _ _ | .addi ln _ _ _ _
  | .neg ln _ _ _ | .abs ln _ _ _ | .min ln _ _ _ | .max ln _ _ _ | .lim ln _ _ _ | .and ln _ _ _ | .or ln _ _ _
  | .xor ln _ _ _ | .shl ln _ _ _ _ | .shr ln _ _ _ | .selcc ln _ _ _ _ | .add ln _ _ _ _ | .sub ln _ _ _ _ | .mul ln _ _ _ _
  | .div ln _ _ _ _ | .lac ln _ _ | .sac ln _ _ _ _
  | .adda ln _ _ _ | .sha ln _ _ _ | .clra ln _ | .sincos ln _ _ | .sqrt ln _ _ | .br ln _ | .bcc ln _ _ | .rpt ln _
  | .rptr ln _ _ | .mpy ln _ _ _ _ _ _ | .mac ln _ _ _ _ _ _ | .msu ln _ _ _ _ _ _ | .dmpy ln _ _ _ _ _ _
  | .dmac ln _ _ _ _ _ _ | .rot ln _ _ _ _ _ _ => some ln
  | _ => none

/-- The state t differs from s in lane ln at most. -/
def OnlyLane (ln : LaneNo) (s t : State) : Prop :=
  ∃ l : Lane, t = s.withLane ln l ∨ t = s

/-- What a load from an LM address gives: 0 where the address does not exist (R149). -/
def Lane.word (l : Lane) (k : Nat) : Int := if k < 0x1000 then (l.lmWord k).toInt else 0
/-- The address registers after a post-modification of Ak (R146, R147). -/
def Lane.postA (l : Lane) (k : Fin 8) (p : Fin 4) (a : Vector (BitVec 16) 8) : Vector (BitVec 16) 8 :=
  if p = 0 then a else vset a k (BitVec.ofInt 16 (postModify l.a[k].toNat (l.postStep k p) (l.m[k].toNat / 2 ^ 12)))
/-- The result of a parallel load, hidden for one more instruction (R153). -/
def Lane.loads (l : Lane) (x : ParLoad) : List PendWrite := if x.en then [⟨0, .d x.d, l.word l.a[x.a].toNat, false⟩] else []
/-- The address registers after a parallel load. -/
def Lane.loadA (l : Lane) (x : ParLoad) (a : Vector (BitVec 16) 8) : Vector (BitVec 16) 8 := if x.en then l.postA x.a x.p a else a
/-- Does a parallel load fault? -/
def Lane.loadFaults (l : Lane) (x : ParLoad) : Bool := x.en && decide (0x1000 ≤ l.a[x.a].toNat)

/-- A lane after an instruction with a D result w, its exact result v, and the flags Z, N and V of it (Table 5.6). -/
def Lane.resultD (l : Lane) (clocks : Nat) (sat : Bool) (rd : Fin 16) (v : Int) : Lane :=
  { ((l.past clocks).setZN (fitTo 20 sat v)).setV (!fits 20 v) with d := vset l.d rd (BitVec.ofInt 20 (fitTo 20 sat v)) }
/-- A lane after an instruction with a D result and the flags Z and N of it. -/
def Lane.plainD (l : Lane) (rd : Fin 16) (w : Int) : Lane := { (l.past 1).setZN w with d := vset l.d rd (BitVec.ofInt 20 w) }
/-- A lane after a MAC-class instruction with exact accumulator results and two parallel loads (Table 5.10). -/
def Lane.resultMac (l : Lane) (clocks : Nat) (sat : Bool) (rs : List (Fin 4 × Int)) (lx ly : ParLoad) : Lane :=
  { (l.past clocks).setV (rs.any (fun r => !fits 52 r.2)) with
      pend := rs.map (fun r => ⟨0, .ac r.1, fitTo 52 sat r.2, true⟩) ++ l.loads lx ++ l.loads ly,
      a := l.loadA ly (l.loadA lx l.a), aerr := l.aerr || l.loadFaults lx || l.loadFaults ly }

end Machine
end Sys2Proof
end

