-- ==== Sys2Proof/Certificates/Slice0/Obligations.lean ====
section
/-! DEFINITION. The statements about the model, in the terms of Safety.lean. A completion statement says of each command
that exec answers a next state, and which: its hypotheses are about the state and the operands alone. Dev.runs says that a
command of the mailbox is taken, waits, and is the next of its stall; Passes that none of its status checks fails. -/

open Sys2Proof Sys2Proof.Machine

/-- A step takes the command at the front of the queue and runs it on the state with the queue's rest, whatever the
command and the state; with an empty queue the block idles. The queue and its idling are the model's own (log entry 1):
the spec gives the block's events and commands one after another. -/
def Obligations.StepRunsTheFrontCommand : Prop :=
  (∀ (s : State) (i : Instr) (rest : List Instr), s.pending = i :: rest → step s = exec i { s with pending := rest }) ∧
  (∀ s : State, s.pending = [] → step s = .next s)

/-- Supplies and starts (01 R22 to R27, R37, R46): each event of the supplies, the rails and the starts completes, and
what it leaves in the power state. The clauses follow the model's choices of log entries 2, 74, 84, 85 and 106 where
the spec leaves one. -/
def Obligations.SupplyEventsComplete : Prop :=
  (∀ s : State, ∀ d : Dev, s.dev = d →
    d.pw.phase = .off → d.pw.vmainOk = true → d.pw.vddrOk = true → d.pw.porstN = true →
    exec .powerUpStart s = .next (s.on (fun _ => { d with pw := { d.pw with
      phase := .rising, vkaFromVbat := false, railsUp := true, rails := [] } }))) ∧
  (∀ s : State, ∀ d : Dev, s.dev = d →
    d.up = true → d.pw.vmainWarn = false → exec (.supplyFalling .vmainWarn) s =
      .next (s.on (fun _ => Dev.fire 10 .device { d with pw := { d.pw with vmainWarn := true } }))) ∧
  (∀ s : State, ∀ d : Dev, s.dev = d →
    d.up = true → d.pw.vmainOver = false → exec (.supplyFalling .vmainOver) s =
      .next (s.on (fun _ => Dev.fire 19 .device { d with pw := { d.pw with vmainOver := true } }))) ∧
  (∀ s : State, ∀ d : Dev, s.dev = d →
    d.up = true → d.pw.v24aOk = true → exec (.supplyFalling .v24a) s =
      .next (s.on (fun _ => Dev.fire 11 .device { d with pw := { d.pw with v24aOk := false } }))) ∧
  (∀ s : State, ∀ d : Dev, s.dev = d →
    d.pw.phase = .running → d.pw.vddrOk = true → exec (.supplyFalling .vddr) s =
      .next (s.on (fun _ => Dev.fire 13 .device { d with pw := { d.pw with vddrOk := false } }))) ∧
  (∀ s : State, ∀ d : Dev, s.dev = d →
    d.up = true → d.pw.railsOk = true → exec (.supplyFalling (.rail .vcore)) s =
      .next (s.on (fun _ => Dev.fire 15 .device { d with pw := { d.pw with rails := d.pw.rails.filter (· != .vcore) } })) ∧
    exec (.supplyFalling (.rail .vhk)) s = .next (s.on (fun _ => Dev.fire 15 .device
      { d with pw := { d.pw with rails := d.pw.rails.filter (· != .vhk), bypassClosed := true, holdOpen := false } }))) ∧
  (∀ (s : State) (r : Rail), ∀ d : Dev, s.dev = d →
    d.pw.railsUp = true → (∀ q ∈ allRails, railOrder q < railOrder r → q ∈ d.pw.rails) → r ∉ d.pw.rails →
    exec (.supplyRecovered (.rail r)) s = .next (s.on (fun _ => { d with pw := { d.pw with rails := d.pw.rails ++ [r] } }))) ∧
  (∀ s : State, ∀ d : Dev, s.dev = d →
    exec (.supplyRecovered .vmainWarn) s = .next (s.on (fun _ => { d with pw := { d.pw with vmainWarn := false } })) ∧
    exec (.supplyRecovered .vmainOver) s = .next (s.on (fun _ => { d with pw := { d.pw with vmainOver := false } })) ∧
    exec (.supplyRecovered .vmain) s = .next (s.on (fun _ => { d with pw := { d.pw with vmainOk := true } })) ∧
    exec (.supplyRecovered .v24a) s = .next (s.on (fun _ => { d with pw := { d.pw with v24aOk := true } })) ∧
    exec (.supplyRecovered .v24b) s = .next (s.on (fun _ => { d with pw := { d.pw with v24bOk := true } })) ∧
    exec (.supplyRecovered .vddr) s = .next (s.on (fun _ => { d with pw := { d.pw with vddrOk := true } }))) ∧
  (∀ s : State, ∀ d : Dev, s.dev = d →
    d.up = true → d.pw.vmainOk = true → d.pw.vbatOk = true → exec (.vbatCheck false) s =
      .next (s.on (fun _ => Dev.fire 14 .device { d with pw := { d.pw with vbatOk := false } }))) ∧
  (∀ s : State, ∀ d : Dev, s.dev = d →
    d.pw.vmainOk = true → exec (.vbatCheck true) s = .next (s.on (fun _ => { d with pw := { d.pw with vbatOk := true } }))) ∧
  (∀ s : State, ∀ d : Dev, s.dev = d →
    exec .v24bLoss s = .next (s.on (fun _ =>
      let d1 := { d with pw := { d.pw with v24bOk := false, vsafeUp := false } }
      let d2 := (d1.stoEdge 0 (d.stoActive 0)).stoEdge 1 (d.stoActive 1)
      let d3 := if d.sf.chB.started then d2.stopChannelB else d2
      if d.pw.v24bOk && d3.up then d3.fire 12 .device else d3))) ∧
  (∀ s : State, ∀ d : Dev, s.dev = d →
    d.pw.vmainOk = true → d.pw.phase = .running → exec .vmainUvlo s = .next (s.on (fun _ =>
      let d1 := { d with pw := { d.pw with vmainOk := false, vmainLost := true, kaDown := d.pw.kaTime } }
      d1.allLegsOff.muteHost.modPw (fun p =>
        { p with phase := .powerDown, toStandby := false, mramDue := true, lossRecord := some (d.recordOf 8 0 0 0 0 0),
                 railsOffDue := true, safetyBDue := true, standbyReq := false, devResetReq := false, heldWakePin := false, heldWakeAlarm := false })))) ∧
  (∀ s : State, ∀ d : Dev, s.dev = d →
    d.pw.phase = .powerDown → exec .bypassClose s = .next (s.on (fun _ => d.ringOff))) ∧
  (∀ (s : State) (r : List W32), ∀ d : Dev, s.dev = d →
    d.pw.mramDue = true → d.pw.lossRecord = some r → exec .powerLossRecord s =
      .next (s.on (fun _ => (d.ledgerPut r).modPw (fun p => { p with mramDue := false, lossRecord := none }.downDone)))) ∧
  (∀ s : State, ∀ d : Dev, s.dev = d →
    d.pw.railsDue = true → ∃ t, exec .railsOff s = .next t ∧ t.dram = [] ∧ t.dev.pw.railsUp = false ∧ t.dev.pw.rails = [] ∧
      t.dev.pw.vgdaOk = false ∧ t.dev.pw.vgdbOk = false ∧ t.dev.sf.chA.started = false ∧ t.dev.lanes = Dev.reset.lanes) ∧
  (∀ s : State, ∀ d : Dev, s.dev = d →
    d.pw.vmainOk = false → exec .vkaToVbat s = .next (s.on (fun _ => { d with pw := { d.pw with vkaFromVbat := true } }))) ∧
  (∀ s : State, ∀ d : Dev, s.dev = d →
    d.pw.safetyBDue = true → exec .safetyBShutdown s =
      .next (s.on (fun _ => d.stopChannels.modPw (fun p => { p with safetyBDue := false }.downDone))))

/-- Resets, starts and standby (01 R27 to R37): the reset rows, the start rows and the keep-alive rows complete, and what
they leave. The clauses follow the model's choices of log entries 7, 74, 84, 85, 107, 108 and 109 where the spec
leaves one. -/
def Obligations.ResetAndStandbyRowsComplete : Prop :=
  (∀ (s : State) (aOk bOk : Bool), ∀ d : Dev, s.dev = d →
    d.pw.phase = .rising → d.pw.vmainOk = true → d.pw.vddrOk = true → d.pw.porstN = true →
    exec (.internalResetRelease aOk bOk) s = .next (s.on (fun _ =>
      let d1 := d.blank.kaElapse.modPw Power.start
      let d2 := Dev.bootSelect aOk bOk { d1 with hp := { d1.hp with sphUp := true } }
      let d3 := d2.ledger 9 0 0 0 (d2.powerWord 0x404) (d2.fwVersion ||| nW (d2.sv.running.val * 2 ^ 24))
      let d4 := d3.supplyLevels.foldl (fun d x => d.fire x.1 x.2) d3
      let d5 := if d4.pw.vsafeUp then ((d4.startChannel false).startChannel true).startSet else d4.startChannel false
      if d.sf.lockout != 0 then d5.fire 165 .device else d5))) ∧
  (∀ (s : State) (m : StartUpMeasurement), ∀ d : Dev, s.dev = d →
    d.pw.phase = .booting → d.sv.noImage = false → exec (.startUpComplete m) s = .next (s.on (fun _ =>
      let d1 := (d.selfMeasure m).modPw (fun p => { p with phase := .running })
      let d2 := (Dev.setIrqAll irqReady { d1 with hp := { d1.hp with devReady := true } }).takeHeld
      if d2.ring.stored.autoStart then d2.ringListen else d2))) ∧
  (∀ (s : State) (ms : Nat) (reg : BitVec 10), ∀ d : Dev, s.dev = d → d.pw.pcie ≠ .down →
    (ms < 100 → exec (.pcieConfigRequest ⟨ms, reg⟩) s = .next (s.on (fun _ => { d with out := d.out ++ [.retryStatus] }))) ∧
    (100 ≤ ms → exec (.pcieConfigRequest ⟨ms, reg⟩) s =
      .next (s.on (fun _ => { d with hp := { d.hp with readData := [d.hp.pcie.configWord reg.toNat], readPoisoned := false } })))) ∧
  (∀ s : State, ∀ d : Dev, s.dev = d →
    d.pw.phase = .running → exec .porstAssert s = .next (s.on (fun _ =>
      Dev.resetNow .porst { d with pw := { d.pw with porstN := false } }))) ∧
  (∀ s : State, ∀ d : Dev, s.dev = d →
    d.pw.porstN = false → d.pw.phase = .inReset → exec .porstRelease s =
      .next (s.on (fun _ => { d with pw := { d.pw with porstN := true, startCause := .porst } }))) ∧
  (∀ s : State, ∀ d : Dev, s.dev = d →
    exec .hrstAssert s = .next (s.on (fun _ =>
      let d2 := Dev.hrstStall 1 (Dev.hrstStall 0 { d with pw := { d.pw with hrstN := false, pcie := .down } })
      let d3 := { d2 with hp := { d2.hp with pcie := Pcie.reset, spi := ⟨0, false, false, []⟩ } }
      if d3.hp.own.valid && d3.hp.own.stall.val ≤ 1 then d3.vacate else d3))) ∧
  (∀ s : State, ∀ d : Dev, s.dev = d →
    d.up = true → d.pw.pcie = .down → exec .hrstRelease s =
      .next (s.on (fun _ => { d with pw := { d.pw with hrstN := true, pcie := .training } }))) ∧
  (∀ s : State, ∀ d : Dev, s.dev = d →
    d.pw.standbyReq = true → d.up = true → ∃ t, exec .standbyEntry s = .next t ∧ t.dev.pw.phase = .powerDown ∧
      t.dev.pw.toStandby = true ∧ t.dev.pw.standbyReq = false ∧ t.dev.pw.kaDown = d.pw.kaTime) ∧
  (∀ s : State, ∀ d : Dev, s.dev = d →
    d.pw.vmainOk = false → exec .kaWakePin s =
      .next (s.on (fun _ => { d with pw := { d.pw with recordedWake := d.pw.recordedWake ||| 4 } }))) ∧
  (∀ s : State, ∀ d : Dev, s.dev = d →
    d.pw.vmainOk = true → d.pw.wakePinEn = true → exec .kaWakePin s = .next (s.on (fun _ => d.wakeBy true false))) ∧
  (∀ s : State, ∀ d : Dev, s.dev = d →
    d.pw.vmainOk = true → d.pw.alarmEn = true → exec .kaAlarmExpiry s = .next (s.on (fun _ => d.wakeBy false true))) ∧
  (∀ s : State, ∀ d : Dev, s.dev = d →
    d.pw.vmainOk = false → exec .kaContentsLost s =
      .next (s.on (fun _ => { d with pw := { d.pw with kaLostPending := true } }))) ∧
  (∀ s : State, ∀ d : Dev, s.dev = d →
    exec .kaCrystalTimeout s = .next (s.on (fun _ => { d with pw := { d.pw with kaXtal := false, xtalTimeout := true } }))) ∧
  (∀ s : State, ∀ d : Dev, s.dev = d →
    d.pw.devResetReq = true → d.up = true → exec .deviceResetPulse s = .next (s.on (fun _ => d.resetNow .devReset))) ∧
  (∀ (s : State) (st : Stall) (tag : BitVec 8) (c : Cmd), ∀ d : Dev, s.dev = d →
    let w := wd c.payload 0
    d.runs st tag 0x040 c = true → Passes [(!d.liveAxes.isEmpty || d.pw.standbyReq || d.pw.devResetReq, stState), (badLen c 2 || rsv w 0xFFFFFFFC || (bitOf w 1 && wd c.payload 1 == 0), stParam)] →
    exec (.standbyEnter st tag) s = .next (s.on (fun _ => (d.modPw (fun p => { p with standbyReq := true, wakePinEn := bitOf w 0, alarmEn := bitOf w 1, alarmS := wd c.payload 1 })).ok c []))) ∧
  (∀ (s : State) (st : Stall) (tag : BitVec 8) (c : Cmd), ∀ d : Dev, s.dev = d → d.runs st tag 0x041 c = true →
    exec (.keepAliveWrite st tag) s = .next (s.on (fun _ => d.await st tag .atTick))) ∧
  (∀ (m : Memory) (d : Dev) (c : Cmd), c.code.toNat = 0x041 →
    let w := wd c.payload 0
    Passes [(badLen c 2 || rsv w 0xFFFFFFF0, stParam)] →
    applyCmd m c d = (d.modPw (fun p => { p with kaRet := vset p.kaRet (Fin.ofNat 16 (fld w 3 0)) (wd c.payload 1) })).ok c []) ∧
  (∀ (s : State) (st : Stall) (tag : BitVec 8) (c : Cmd), ∀ d : Dev, s.dev = d →
    d.runs st tag 0x042 c = true → Passes [(badLen c 1 || wd c.payload 0 != 0x5EED, stParam), (d.pw.standbyReq || d.pw.devResetReq, stState)] →
    exec (.deviceReset st tag) s = .next (s.on (fun _ => (d.modPw (fun p => { p with devResetReq := true })).ok c [])))

/-- The mailbox (03 R91 to R100): a doorbell is taken, an unassigned code is taken like any other and answers UNKNOWN, a
read pointer moves, a reset begins and ends, and a command past its limit is answered with TIMEOUT. The clauses follow
the model's choices of log entries 6, 11, 18, 93 and 111 where the spec leaves one. -/
def Obligations.MailboxRowsComplete : Prop :=
  (∀ (s : State) (st : Stall) (h : W32), ∀ d : Dev, s.dev = d →
    d.present st = true → d.hp.stalls[st].mbxReset = false → d.holdsDoorbells = false → d.hp.stalls[st].held = [] →
    (∃ t, exec (.doorbell st h) s = .next t ∧ t = s.on (Dev.takeHeader st h)) ∧
    (commandCodes.contains (fld h 31 20) = false →
      exec (.reservedCommandCode st h) s = .next (s.on (Dev.takeHeader st h)))) ∧
  (∀ (s : State) (st : Stall) (h : W32), ∀ d : Dev, s.dev = d →
    d.present st = true → d.hp.stalls[st].mbxReset = false → d.hp.devReady = false → d.hp.stalls[st].held.length < 32 →
    exec (.doorbell st h) s = .next (s.on (fun _ =>
      let e := d.modStall st (fun x => { x with held := x.held ++ [h] })
      { e with hp := { e.hp with heldOrder := e.hp.heldOrder ++ [st] } }))) ∧
  (∀ (s : State) (st : Stall) (v : W32), ∀ d : Dev, s.dev = d →
    d.present st = true → rsv v 0xFFFFF800 = false →
    (BitVec.ofNat 11 v.toNat - d.hp.stalls[st].rspRdPtr).toNat ≤ rspUsed d.hp.stalls[st] →
    exec (.rspRdPtrWrite st v) s = .next (s.on (fun _ =>
      (d.modStall st (fun x => { x with rspRdPtr := BitVec.ofNat 11 v.toNat })).flushRsp st))) ∧
  (∀ (s : State) (st : Stall), ∀ d : Dev, s.dev = d →
    d.present st = true → exec (.mbxReset st) s = .next (s.on (fun _ =>
      (d.dropCmds st).modStall st (fun x => { x with mbxReset := true })))) ∧
  (∀ (s : State) (st : Stall), ∀ d : Dev, s.dev = d →
    d.hp.stalls[st].mbxReset = true → d.hp.inFlight.any (fun c => c.stall == st) = false →
    exec (.mbxResetDone st) s = .next (s.on (Dev.modStall st (fun x =>
      { x with cmdRdPtr := 0, rspWrPtr := 0, rspRdPtr := 0, mbxReset := false })))) ∧
  (∀ (s : State) (st : Stall) (tag : BitVec 8) (c : Cmd) (limit : Nat), ∀ d : Dev, s.dev = d →
    d.cmd? st tag = some c → c.stall = st → c.tag = tag → d.hp.own.handover = none → c.deadline = some limit → limit < d.age → d.sv.mpChange = .none →
    exec (.mailboxTimeout st tag) s = .next (s.on (fun _ =>
      ((d.abandon c).abandonSpm c).respond st tag stTimeout (d.fixedWords c.code))))

/-- Ownership (03 R85 to R90, R107 to R111): what the taking of a claim, a release and a hand-over does, the stall
commands, and the events of a claim, a hand-over and a heartbeat. The clauses follow the model's choices of log
entries 92 and 110 where the spec leaves one. -/
def Obligations.OwnershipRowsComplete : Prop :=
  (∀ (s : State) (st : Stall) (tag : BitVec 8) (c : Cmd), ∀ d : Dev, s.dev = d →
    d.runs st tag 0x000 c = true → Passes [(c.payload.length > 64, stParam)] →
    exec (.echo st tag) s = .next (s.on (fun _ => d.ok c c.payload))) ∧
  (∀ (s : State) (st : Stall) (tag : BitVec 8) (c : Cmd), ∀ d : Dev, s.dev = d →
    d.runs st tag 0x004 c = true → Passes [(badLen c 0, stParam)] →
    exec (.heartbeat st tag) s = .next (s.on (fun _ => d.ok c []))) ∧
  (∀ (s : State) (st : Stall) (tag : BitVec 8) (c : Cmd), ∀ d : Dev, s.dev = d → d.runs st tag 0x006 c = true →
    exec (.irqRoute st tag) s = .next (s.on (fun _ => d.await st tag .atTick))) ∧
  (∀ (m : Memory) (d : Dev) (c : Cmd), c.code.toNat = 0x006 →
    let w := wd c.payload 0
    Passes [(badLen c 1 || rsv w 0xFFFFFFF0, stParam)] →
    applyCmd m c d = (d.modOwn (fun o => { o with irqbEn := bitOf w 3, irqbStall := Fin.ofNat 8 (fld w 2 0) })).ok c []) ∧
  (∀ (d : Dev) (c : Cmd), c.code.toNat = 0x001 → badLen c 1 = false → rsv (wd c.payload 0) 0xFFFFC000 = false →
    badInterval (fld (wd c.payload 0) 13 0) = false → d.hp.own.handover = none →
    (d.isOwner c.stall = true → d.ownTaken c = d.modOwn (fun o =>
      { o with intervalMs := BitVec.ofNat 14 (fld (wd c.payload 0) 13 0), since := d.age, warned := false })) ∧
    (d.hp.own.valid = false → d.ownTaken c = d.modOwn (fun o =>
      { o with claims := o.claims ++ [⟨c.stall, c.tag, BitVec.ofNat 14 (fld (wd c.payload 0) 13 0)⟩] }))) ∧
  (∀ (d : Dev) (c : Cmd), d.hp.own.handover = none →
    (c.code = 0x002 → badLen c 0 = false → d.ownTaken c = d.modOwn (fun o =>
      { o with handover := some ⟨true, 0, 0, c.tag, c.stall, d.age + d.msTicks 100⟩ })) ∧
    (c.code = 0x003 → badLen c 1 = false → rsv (wd c.payload 0) 0xC000FFF8 = false →
      badInterval (fld (wd c.payload 0) 29 16) = false → (Fin.ofNat 8 (fld (wd c.payload 0) 2 0) == c.stall) = false →
      d.present (Fin.ofNat 8 (fld (wd c.payload 0) 2 0)) = true → d.ownTaken c = d.modOwn (fun o =>
      { o with handover := some ⟨false, Fin.ofNat 8 (fld (wd c.payload 0) 2 0), BitVec.ofNat 14 (fld (wd c.payload 0) 29 16),
                                 c.tag, c.stall, d.age + d.msTicks 100⟩ }))) ∧
  (∀ (s : State) (st : Stall) (tag : BitVec 8) (c : Cmd), ∀ d : Dev, s.dev = d → c.aux = 0 →
    (d.runs st tag 0x001 c = true → d.hp.own.claims.any (fun x => x.stall == st && x.tag == tag) = false →
      exec (.ownerClaim st tag) s = .next (s.on (fun _ => d.ok c [d.ownerRsp]))) ∧
    (d.runs st tag 0x001 c = true → d.hp.own.claims.any (fun x => x.stall == st && x.tag == tag) = true →
      exec (.ownerClaim st tag) s = .next (s.on (fun _ => d.await st tag .started))) ∧
    (d.runs st tag 0x002 c = true → exec (.ownerRelease st tag) s = .next (s.on (fun _ => d.await st tag .started))) ∧
    (d.runs st tag 0x003 c = true → exec (.ownerHandOver st tag) s = .next (s.on (fun _ => d.await st tag .started)))) ∧
  (∀ (s : State) (h : HandOver), ∀ d : Dev, s.dev = d →
    d.hp.own.handover = some h → h.deadline < d.age →
    exec .handoverTimeout s = .next (s.on (fun _ => d.endHandOver stTimeout))) ∧
  (∀ (d : Dev) (h : HandOver),
    d.hp.own.handover = some h → d.age ≤ h.deadline → d.oldPending h = false →
    d.changeOwner = (d.setOwner (if h.release then none else some h.target) h.intervalMs).endHandOver stOk) ∧
  (∀ s : State, ∀ d : Dev, s.dev = d →
    d.hp.own.valid = true → d.hp.own.warned = false → d.hbTicks ≤ 2 * (d.age - d.hp.own.since) →
    exec .heartbeatWarn s = .next (s.on (fun _ =>
      (d.modOwn (fun o => { o with warned := true })).setIrq d.hp.own.stall irqHbWarn))) ∧
  (∀ s : State, ∀ d : Dev, s.dev = d →
    d.hp.own.valid = true → d.hp.own.since + d.hbTicks < d.age →
    exec .heartbeatLapse s = .next (s.on (fun _ => d.vacate.decideClaims)))

/-- Register and link rows of the host port (03 R70 to R84, R101 to R105, 01 R28): each access of a present stall and each
change of the link completes. The clauses follow the model's choices of log entries 8, 9, 25, 102 and 112 where the
spec leaves one. -/
def Obligations.HostAccessRowsComplete : Prop :=
  (∀ (s : State) (st : Stall) (off : BitVec 26) (ws : List W32), ∀ d : Dev, s.dev = d →
    d.present st = true → off.toNat % 4 = 0 →
    exec (.registerWrite st off ws 0xF) s = .next (s.on (fun _ => d.writeBurst s.dram st off.toNat ws))) ∧
  (∀ (s : State) (addr : Nat) (bs : List Byte), ∀ d : Dev, s.dev = d →
    d.present 0 = true → addr + bs.length ≤ 2 ^ 33 →
    exec (.dramWrite 0 false addr bs) s = .next (s.on (fun _ => d.dramStore 0 addr bs))) ∧
  (∀ (s : State) (addr n : Nat), ∀ d : Dev, s.dev = d →
    d.present 0 = true → d.sownDram addr n = false → addr + n ≤ 2 ^ 33 →
    exec (.hostRead 0 true addr n false) s = .next (s.on (fun _ =>
      d.answer (wordsOf (cdiv n 4) ((List.range n).map (fun i => Memory.byte s.dram (addr + i)))) false))) ∧
  (∀ (s : State) (st : Stall) (addr n : Nat), ∀ d : Dev, s.dev = d →
    d.present st = true → inDramWin addr = false →
    exec (.hostRead st false addr n false) s = .next (s.on (fun _ => d.regRead s.dram st addr n))) ∧
  (∀ s : State, ∀ d : Dev, s.dev = d →
    d.present 0 = true →
    exec .poisonedWriteTlp s = .next (s.on (fun _ => { d with out := d.out ++ [.aer] })) ∧
    exec .unsupportedRequest s = .next (s.on (fun _ => { d with out := d.out ++ [.unsupported] }))) ∧
  (∀ (s : State) (bm ms mx fm : Bool), ∀ d : Dev, s.dev = d →
    d.pw.pcie ≠ .down →
    exec (.pcieLinkChange true bm ms ⟨mx, fm⟩) s = .next (s.on (fun _ =>
      Dev.s0Changed (d.present 0) { d with
        pw := { d.pw with pcie := .up },
        hp := { d.hp with pcie := { d.hp.pcie with linkUp := true, busMaster := bm, memSpace := ms, msixEnable := mx, msixFuncMask := fm } } }))) ∧
  (∀ s : State, ∀ d : Dev, s.dev = d →
    exec .busMasterEnable s = .next (s.on (fun _ =>
      Dev.s0Changed (d.present 0) { d with hp := { d.hp with pcie := { d.hp.pcie with busMaster := true } } }))) ∧
  (∀ s : State, ∀ d : Dev, s.dev = d →
    exec (.debugAccessSelect true) s = .next (s.on (fun _ => { d with hp := { d.hp with debugSel := true } }))) ∧
  (∀ (s : State) (header : W32) (mosi : List W32) (tail ready : Nat) (ecc : Bool), ∀ d : Dev, s.dev = d →
    d.hp.sphUp = true → bitOf header 31 = false → mosi.length ≤ fld header 30 24 + 1 →
    exec (.spiFrame header 32 mosi tail ⟨ready, ecc⟩) s = .next (s.on (fun _ =>
      let e := d.writeBurst s.dram 1 (4 * fld header 23 0) mosi
      { e with hp := { e.hp with spi :=
          ⟨BitVec.ofNat 8 mosi.length, false, d.breaks (fun x => x.writeBurst s.dram 1 (4 * fld header 23 0) mosi),
           d.spiStatus :: List.replicate (mosi.length + (if tail = 0 then 0 else 1)) 0⟩ } }))) ∧
  (∀ (s : State) (st : Stall) (off : BitVec 24), ∀ d : Dev, s.dev = d →
    d.present st = true →
    exec (.lowWordRead st off) s = .next (s.on (fun _ => d.regRead s.dram st off.toNat 1)) ∧
    exec (.highWordRead st off) s = .next (s.on (fun _ => d.regRead s.dram st off.toNat 1))) ∧
  (∀ (s : State) (st : Stall), ∀ d : Dev, s.dev = d →
    d.present st = true →
    exec (.ntNsRead st false) s = .next (s.on (fun _ => d.regRead s.dram st 0x100210 1)) ∧
    exec (.ntNsRead st true) s = .next (s.on (fun _ => d.regRead s.dram st 0x100220 1))) ∧
  (∀ (s : State) (st : Stall) (a : AxisNo), ∀ d : Dev, s.dev = d →
    d.present st = true →
    exec (.winSeqRead st a) s = .next (s.on (fun _ => d.regRead s.dram st (0x40000 + 0x1000 * a.val) 1))) ∧
  (∀ (s : State) (st : Stall) (a : AxisNo) (f : Freeze), ∀ d : Dev, s.dev = d →
    d.hp.windows[a].freeze[st] = some f → 2 ≤ f.frames →
    exec (.windowFreezeLapse st a) s = .next (s.on (fun _ =>
      { d with hp := { d.hp with windows := vmod d.hp.windows a (fun w =>
          { w with freeze := vset w.freeze st (some { f with lapsed := true }) }) } }))) ∧
  (∀ (s : State) (st : Stall) (v : W32), ∀ d : Dev, s.dev = d →
    d.present st = true →
    exec (.interruptRegisterWrite st .enable v) s = .next (s.on (fun _ => d.irqEnableWrite st v)) ∧
    (st ≠ 0 → exec (.interruptRegisterWrite st .status v) s = .next (s.on (fun _ => d.modStall st (fun x =>
      { x with irqStatus := x.irqStatus &&& ~~~(v.setWidth 11) })))) ∧
    (st = 0 → exec (.interruptRegisterWrite st .status v) s = .next (s.on (fun _ => (d.modStall st (fun x =>
      { x with irqStatus := x.irqStatus &&& ~~~(v.setWidth 11) })).msixSettle))))

/-- The tick (02 R47 to R55, R59 to R68): its boundary, its sync states, its lanes' ends and its commands. The clauses
follow the model's choices of log entries 29, 30, 31, 32, 35 and 118 where the spec leaves one. -/
def Obligations.TickRowsComplete : Prop :=
  (∀ (s : State) (inp : TickInputs), ∀ d : Dev, s.dev = d →
    d.ticks = true → d.tk.ended = false →
    exec (.tickBoundary inp) s = .next (s.on (fun _ =>
      d.oneClock (fun d => ((d.endTick s.dram).modTk (fun t => { t with ended := false })).beginTick s.dram inp)))) ∧
  (∀ s : State, ∀ d : Dev, s.dev = d →
    d.tk.sync = .acquire → 16 ≤ d.tk.goodCycles →
    exec .tickSyncLocked s = .next (s.on (fun _ => d.setSync .locked))) ∧
  (∀ s : State, ∀ d : Dev, s.dev = d →
    d.tk.sync = .holdover → 10000 * clksPerMs < d.tk.holdoverClks →
    exec .tickHoldoverTimeout s = .next (s.on (fun _ => (d.setSync .free).fire 32 .device))) ∧
  (∀ s : State, ∀ d : Dev, s.dev = d →
    d.ticks = true → d.lastTick = true → d.tk.ended = false →
    exec .ticksetEpoch s = .next (s.on (fun _ => (d.oneClock (Dev.endTick s.dram)).modTk (fun t => { t with ended := true })))) ∧
  (∀ (s : State) (ln : LaneNo), ∀ d : Dev, s.dev = d →
    d.lanes[ln].role = .inService → d.lanes[ln].phase = .ready →
    exec (.laneOverrun ln) s = .next (s.on (fun _ =>
      Dev.laneFault ln 30 { d with tk := { d.tk with peaks := vmod d.tk.peaks d.lanes[ln].axis (fun p =>
        { p with overruns := BitVec.ofNat 8 (satU 8 (p.overruns.toNat + 1)) }) } }))) ∧
  (∀ (s : State) (ln : LaneNo) (cycles : Nat), ∀ d0 : Dev, s.dev = d0 →
    d0.lanes[ln].phase = .ready → d0.lanes[ln].role = .inService → d0.lanes[ln].aerr = false →
    exec (.laneCommit ln cycles) s = .next (s.on (fun _ =>
      let d := (d0.eventEntry ln).eventEntry ln
      let x := d.lanes[ln]
      let a := x.axis
      let i : Fin 2 := if d.loops[a].slot then 0 else 1
      let d1 := d.modLoop a (fun l =>
        { l with slots := vset l.slots i (x.lm.filter (fun w => decide (0x180 ≤ w.1 ∧ w.1 < 0x200))),
                 marks := vset l.marks i (some d.age), slot := !l.slot,
                 userFar := x.far.foldl (fun m f => Mem.write 0 m f.1 f.2) l.userFar, sigOut := d.sigMem a,
                 svUser := l.svUser || x.sv, svStd := l.svStd || d.ctl[a].svNow,
                 lastCycles := BitVec.ofNat 16 (satU 16 cycles), lane := BitVec.ofNat 5 ln.val })
      let d2 := (d1.modPwm a (fun p => if d.noBridge a then p else { p with staged := some (d.outSet a) })).modCtl a
        (fun c => { c with svNow := false })
      let d3 := { d2.modLane ln (fun y => { y with phase := .idle, far := [] }) with saved := vset d2.saved a none }
      (if x.sv then d3.fire 35 (.axes [a]) else d3).notePeak a cycles))) ∧
  (∀ s : State, ∀ d : Dev, s.dev = d →
    exec .stagingHandover s = .next (s.on (fun _ => { d with pwm := d.pwm.map (fun p =>
      match p.staged with
      | some x => { p with latest := x, staged := none, fresh := p.fresh || p.bridgeOn }
      | none => { p with fresh := p.fresh || (p.direct && p.bridgeOn) }) }))) ∧
  (∀ (s : State) (ln : LaneNo), ∀ d : Dev, s.dev = d →
    d.lanes[ln].phase = .ready → exec (.eventEntry ln) s = .next (s.on (fun _ => d.eventEntry ln))) ∧
  (∀ (s : State) (st : Stall) (tag : BitVec 8) (c : Cmd), ∀ d : Dev, s.dev = d →
    let l := limitOf (fld (wd c.payload 0) 14 0)
    d.runs st tag 0x210 c = true → badLen c 4 = false → d.liveAxes = [] → d.tickSetBad c = false →
    overBudget l l d.costs = none →
    exec (.tickSet st tag) s = .next (s.on (fun _ => d.acceptTickSet c))) ∧
  (∀ (s : State) (st : Stall) (tag : BitVec 8) (c : Cmd), ∀ d : Dev, s.dev = d →
    let w := wd c.payload 0
    let t := fld w 14 0
    let l := limitOf (if t = 0 then d.tickClks else t)
    d.runs st tag 0x211 c = true → Passes [(noWord c, stParam), (bitOf w 15 && !d.isOwner st, stNotOwner), (badLen c 1 || rsv w 0xFFFF0000 || (t != 0 && !validTick t), stParam)] →
    exec (.budgetQuery st tag) s = .next (s.on (fun _ =>
      let ws := allAxes.map (fun a =>
        let cost := d.tk.admitted[a].toNat
        mkw [(b2n (d.assigned a), 31, 1), (b2n (decide (cost ≤ l)), 30, 1), (cost, 0, 16)])
      (if bitOf w 15 then d.modTk (fun t => { t with peaks := Vector.replicate 16 ⟨0, false, 0⟩ }) else d).ok c (nW l :: ws))))

/-- The moves and memory instructions of a lane (05 R146 to R149, R153, Table 5.7): each executes at a hook, on every
operand that its fields take, and what it leaves in its lane; nothing else changes. The clauses follow the model's
choices of log entries 5 and 13 where the spec leaves one. -/
def Obligations.LaneMovesExecute : Prop :=
  ∀ (s : State) (ln : LaneNo) (h : Fin 3) (l : Lane), s.atHook ln h l →
  exec (.nop ln) s = .next (s.withLane ln (l.past 1)) ∧
  (∀ rd ra, exec (.mov ln rd ra) s = .next (s.withLane ln { l.past 1 with d := vset l.d rd l.d[ra] })) ∧
  (∀ rd imm, exec (.ldi ln rd imm) s = .next (s.withLane ln { l.past 1 with d := vset l.d rd imm })) ∧
  (∀ rd k p, exec (.ld ln rd k p) s = .next (s.withLane ln { l.past 1 with
    pend := [⟨0, .d rd, l.word l.a[k].toNat, false⟩], a := l.postA k p l.a,
    aerr := l.aerr || decide (0x1000 ≤ l.a[k].toNat) })) ∧
  (∀ rd k ofs, exec (.ldo ln rd k ofs) s = .next (s.withLane ln { l.past 1 with
    pend := [⟨0, .d rd, l.word (l.a[k] + ofs).toNat, false⟩], aerr := l.aerr || decide (0x1000 ≤ (l.a[k] + ofs).toNat) })) ∧
  (∀ rd addr, exec (.lda ln rd addr) s = .next (s.withLane ln { l.past 1 with
    pend := [⟨0, .d rd, (l.lmWord addr.toNat).toInt, false⟩] })) ∧
  (∀ ra k p, l.a[k].toNat < 0x1000 → mayWrite h l.a[k].toNat = true →
    exec (.st ln ra k p) s = .next (s.withLane ln { l.past 1 with
      lm := Mem.write 0 l.lm l.a[k].toNat l.d[ra], a := l.postA k p l.a })) ∧
  (∀ ra k p, mayWrite h l.a[k].toNat = false →
    exec (.st ln ra k p) s = .next (s.withLane ln { l.past 1 with aerr := true, a := l.postA k p l.a })) ∧
  (∀ ra k ofs, (l.a[k] + ofs).toNat < 0x1000 → mayWrite h (l.a[k] + ofs).toNat = true →
    exec (.sto ln ra k ofs) s = .next (s.withLane ln { l.past 1 with lm := Mem.write 0 l.lm (l.a[k] + ofs).toNat l.d[ra] })) ∧
  (∀ ra addr, mayWrite h addr.toNat = true →
    exec (.sta ln ra addr) s = .next (s.withLane ln { l.past 1 with lm := Mem.write 0 l.lm addr.toNat l.d[ra] })) ∧
  (∀ rd k ofs, (l.a[k] + ofs).toNat ≤ 0x3FFF → l.far = [] →
    exec (.fld ln rd k ofs) s = .next (s.withLane ln { l.past 10 with
      d := vset l.d rd (Mem.read 0 s.dev.loops[l.axis].userFar (l.a[k] + ofs).toNat) })) ∧
  (∀ ra k ofs, (l.a[k] + ofs).toNat ≤ 0x3FFF →
    exec (.fst ln ra k ofs) s = .next (s.withLane ln { l.past 1 with far := l.far ++ [((l.a[k] + ofs).toNat, l.d[ra])] })) ∧
  (∀ k imm, exec (.lai ln k imm) s = .next (s.withLane ln { l.past 1 with pend := [⟨0, .a k, imm.toNat, false⟩] })) ∧
  (∀ k len stride, exec (.lmi ln k len stride) s = .next (s.withLane ln { l.past 1 with
    pend := [⟨0, .m k, ((len.toNat * 2 ^ 12 + stride.toNat : Nat) : Int), false⟩] })) ∧
  (∀ k ra, exec (.mad ln k ra) s = .next (s.withLane ln { l.past 1 with pend := [⟨0, .a k, l.rd ra, false⟩] }))

/-- The arithmetic and logic of a lane (05 R142 to R145, R151, R152, Tables 5.6 and 5.9): each executes at a hook on
every operand that its fields take, with its result, its flags and its clocks; nothing else changes. The clauses follow
the model's choices of log entries 5, 12 and 13 where the spec leaves one. -/
def Obligations.LaneArithmeticExecutes : Prop :=
  ∀ (s : State) (ln : LaneNo) (h : Fin 3) (l : Lane), s.atHook ln h l →
  (∀ sat rd ra rb, exec (.add ln sat rd ra rb) s = .next (s.withLane ln (l.resultD 1 sat rd (l.rd ra + l.rd rb)))) ∧
  (∀ sat rd ra rb, exec (.sub ln sat rd ra rb) s = .next (s.withLane ln (l.resultD 1 sat rd (l.rd ra - l.rd rb)))) ∧
  (∀ sat rd ra imm, exec (.addi ln sat rd ra imm) s = .next (s.withLane ln (l.resultD 1 sat rd (l.rd ra + imm.toInt)))) ∧
  (∀ sat rd ra, exec (.neg ln sat rd ra) s = .next (s.withLane ln (l.resultD 1 sat rd (-l.rd ra)))) ∧
  (∀ sat rd ra, exec (.abs ln sat rd ra) s = .next (s.withLane ln (l.resultD 1 sat rd (l.rd ra).natAbs))) ∧
  (∀ rd ra rb, exec (.min ln rd ra rb) s =
    .next (s.withLane ln (l.plainD rd (if l.rd ra ≤ l.rd rb then l.rd ra else l.rd rb)))) ∧
  (∀ rd ra rb, exec (.max ln rd ra rb) s =
    .next (s.withLane ln (l.plainD rd (if l.rd ra ≤ l.rd rb then l.rd rb else l.rd ra)))) ∧
  (∀ rd ra rb, exec (.lim ln rd ra rb) s = .next (s.withLane ln
    { l.plainD rd (clampI (-limBound (l.rd rb)) (limBound (l.rd rb)) (l.rd ra)) with
        l := decide (clampI (-limBound (l.rd rb)) (limBound (l.rd rb)) (l.rd ra) ≠ l.rd ra) })) ∧
  (∀ rd ra rb, exec (.and ln rd ra rb) s = .next (s.withLane ln (l.plainD rd (l.d[ra] &&& l.d[rb]).toInt))) ∧
  (∀ rd ra rb, exec (.or ln rd ra rb) s = .next (s.withLane ln (l.plainD rd (l.d[ra] ||| l.d[rb]).toInt))) ∧
  (∀ rd ra rb, exec (.xor ln rd ra rb) s = .next (s.withLane ln (l.plainD rd (l.d[ra] ^^^ l.d[rb]).toInt))) ∧
  (∀ sat rd ra (n : Fin 32), n.val ≤ 19 →
    exec (.shl ln sat rd ra n) s = .next (s.withLane ln (l.resultD 1 sat rd (l.rd ra * 2 ^ n.val)))) ∧
  (∀ rd ra (n : Fin 32), n.val ≤ 19 →
    exec (.shr ln rd ra n) s = .next (s.withLane ln (l.plainD rd (Int.fdiv (l.rd ra) (2 ^ n.val))))) ∧
  (∀ sat rd ra rb, exec (.mul ln sat rd ra rb) s = .next (s.withLane ln
    { ((l.past 1).setZN (fitTo 20 sat (rshift (l.rd ra * l.rd rb) 19))).setV (!fits 20 (rshift (l.rd ra * l.rd rb) 19)) with
        pend := [⟨0, .d rd, fitTo 20 sat (rshift (l.rd ra * l.rd rb) 19), false⟩] })) ∧
  (∀ cc rd ra rb, ccOk cc = true →
    exec (.selcc ln cc rd ra rb) s = .next (s.withLane ln { l.past 1 with
      d := vset l.d rd (if l.cond cc then l.d[ra] else l.d[rb]) })) ∧
  (∀ sat rd ra rb, exec (.div ln sat rd ra rb) s = .next (s.withLane ln
    { ((l.past 12).setZN (divQ19 (l.rd ra) (l.rd rb)).1).setV (divQ19 (l.rd ra) (l.rd rb)).2 with
        d := vset l.d rd (BitVec.ofInt 20 (divQ19 (l.rd ra) (l.rd rb)).1) })) ∧
  (∀ rd ra, exec (.sqrt ln rd ra) s = .next (s.withLane ln
    { ((l.past 8).setZN (sqrtQ19 (l.rd ra)).1).setV (sqrtQ19 (l.rd ra)).2 with
        d := vset l.d rd (BitVec.ofInt 20 (sqrtQ19 (l.rd ra)).1) })) ∧
  (∀ rd ra, pairOk rd = true → exec (.sincos ln rd ra) s = .next (s.withLane ln
    { l.past 1 with pend :=
        [⟨2, .d rd, withinTwo (Config.freeOf 14 [l.rd ra]) (sin40 (l.rd ra)), false⟩,
         ⟨2, .d (nextReg rd), withinTwo (Config.freeOf 15 [l.rd ra]) (cos40 (l.rd ra)), false⟩] }))

/-- The accumulator instructions of a lane (05 R142, R152 to R155, Table 5.9): each executes at a hook, with every pair
of parallel loads that its fields take; nothing else changes. The clauses follow the model's choices of log entry 13
where the spec leaves one. -/
def Obligations.LaneAccumulatorsExecute : Prop :=
  ∀ (s : State) (ln : LaneNo) (h : Fin 3) (l : Lane), s.atHook ln h l →
  (∀ sat ac dx dy lx ly, loadsOk lx ly = true → exec (.mpy ln sat ac dx dy lx ly) s =
    .next (s.withLane ln (l.resultMac 1 sat [(ac, l.rd dx * l.rd dy)] lx ly))) ∧
  (∀ sat ac dx dy lx ly, loadsOk lx ly = true → exec (.mac ln sat ac dx dy lx ly) s =
    .next (s.withLane ln (l.resultMac 1 sat [(ac, l.racc ac + l.rd dx * l.rd dy)] lx ly))) ∧
  (∀ sat ac dx dy lx ly, loadsOk lx ly = true → exec (.msu ln sat ac dx dy lx ly) s =
    .next (s.withLane ln (l.resultMac 1 sat [(ac, l.racc ac - l.rd dx * l.rd dy)] lx ly))) ∧
  (∀ sat ac dx dy lx ly, pairOk dx = true → pairOk dy = true → loadsOk lx ly = true → exec (.dmpy ln sat ac dx dy lx ly) s =
    .next (s.withLane ln (l.resultMac 1 sat
      [(ac, l.rd dx * l.rd dy), (accPair ac, l.rd (nextReg dx) * l.rd (nextReg dy))] lx ly))) ∧
  (∀ sat ac dx dy lx ly, pairOk dx = true → pairOk dy = true → loadsOk lx ly = true → exec (.dmac ln sat ac dx dy lx ly) s =
    .next (s.withLane ln (l.resultMac 1 sat
      [(ac, l.racc ac + l.rd dx * l.rd dy), (accPair ac, l.racc (accPair ac) + l.rd (nextReg dx) * l.rd (nextReg dy))] lx ly))) ∧
  (∀ sat ac dx dy lx ly, pairOk dx = true → pairOk dy = true → loadsOk lx ly = true → exec (.rot ln sat ac dx dy lx ly) s =
    .next (s.withLane ln (l.resultMac 2 sat
      [(ac, l.rd dx * l.rd dy - l.rd (nextReg dx) * l.rd (nextReg dy)),
       (accPair ac, l.rd dx * l.rd (nextReg dy) + l.rd (nextReg dx) * l.rd dy)] lx ly))) ∧
  (∀ ac ra, exec (.lac ln ac ra) s = .next (s.withLane ln { l.past 1 with pend := [⟨0, .ac ac, l.rd ra * 2 ^ 19, false⟩] })) ∧
  (∀ sat rd ac (sh : BitVec 6), sacShiftOk sh = true → exec (.sac ln sat rd ac sh) s =
    .next (s.withLane ln (l.resultD 1 sat rd (accShift (l.racc ac) (sh.toInt - 19))))) ∧
  (∀ sat ac acs, exec (.adda ln sat ac acs) s = .next (s.withLane ln
    { (l.past 1).setV (!fits 52 (l.racc ac + l.racc acs)) with
        pend := [⟨0, .ac ac, fitTo 52 sat (l.racc ac + l.racc acs), false⟩] })) ∧
  (∀ sat ac (sh : BitVec 6), exec (.sha ln sat ac sh) s = .next (s.withLane ln
    { (l.past 1).setV (!fits 52 (accShift (l.racc ac) sh.toInt)) with
        pend := [⟨0, .ac ac, fitTo 52 sat (accShift (l.racc ac) sh.toInt), false⟩] })) ∧
  (∀ ac, exec (.clra ln ac) s = .next (s.withLane ln { l.past 1 with pend := [⟨0, .ac ac, 0, false⟩] }))

/-- The control instructions of a lane (05 R156 to R158): branches with their two delay slots, repeats, and END, which
hands the hook's results to the law's next stage. The clauses follow the model's choices of log entries 13 and 68 where
the spec leaves one. -/
def Obligations.LaneControlExecutes : Prop :=
  ∀ (s : State) (ln : LaneNo) (h : Fin 3) (l : Lane), s.atHook ln h l → l.slots = 0 →
  (∀ t : BitVec 11, l.pc + 2 < t.toNat → exec (.br ln t) s = .next (s.withLane ln
    { l with cycles := l.cycles + 1, pc := l.pc + 1, slots := 2, branch := some (t.toNat, 2) })) ∧
  (∀ cc (t : BitVec 11), ccOk cc = true → l.pc + 2 < t.toNat → exec (.bcc ln cc t) s = .next (s.withLane ln
    { l with cycles := l.cycles + 1, pc := l.pc + 1, slots := 2, branch := if l.cond cc then some (t.toNat, 2) else none })) ∧
  (∀ n : BitVec 11, 1 ≤ n.toNat → n.toNat ≤ 1024 → exec (.rpt ln n) s = .next (s.withLane ln
    { l with cycles := l.cycles + 1, pc := l.pc + 1, rep := some n.toNat })) ∧
  (∀ rd (n : BitVec 11), 1 ≤ n.toNat → n.toNat ≤ 1024 → exec (.rptr ln rd n) s = .next (s.withLane ln
    { l with cycles := l.cycles + 1, pc := l.pc + 1,
             rep := some (if l.rd rd < 0 then 0 else if l.rd rd ≤ n.toNat then (l.rd rd).toNat else n.toNat) })) ∧
  exec (.endProg ln) s = .next (s.on (fun d =>
    let d1 := (d.modLane ln (fun l => { l.drain with cycles := l.cycles + 3, phase := .idle })).takeHook l.axis ln h
    match h.val with
    | 0 => d1.lawTick l.axis ln
    | 1 => d1.lawOut l.axis ln
    | _ => d1.lawDone l.axis ln))

/-- The plot commands (04 R112 to R115, R123 to R133): queries answer at once, the others wait for the frame boundary,
where each makes its checks and takes effect. The clauses follow the model's choices of log entries 19, 72 and 96 where
the spec leaves one. -/
def Obligations.PlotCommandsComplete : Prop :=
  (∀ (s : State) (st : Stall) (tag : BitVec 8) (c : Cmd), ∀ d : Dev, s.dev = d →
    d.runs st tag 0x100 c = true → Passes [(badLen c 0, stParam)] →
    exec (.fieldQuery st tag) s = .next (s.on (fun _ =>
      let legs := maskOf (((List.finRange 48).filter (fun l => (d.legAxis l).isNone)).map Fin.val)
      let sd := maskOf ((List.range 8).filter (fun n => (d.sdAxis n).isNone))
      let emu := maskOf ((List.range 4).filter (fun n => (d.emuAxis n).isNone))
      d.ok c [nW legs, nW (legs / 2 ^ 32), mkw [(emu, 8, 4), (sd, 0, 8)],
              nW (maskOf ((List.range 32).filter (fun s => allAxes.any (fun a => d.priSrc a == s))))]))) ∧
  (∀ (s : State) (st : Stall) (tag : BitVec 8) (c : Cmd), ∀ d : Dev, s.dev = d →
    d.runs st tag 0x104 c = true → Passes [(badLen c 1 || rsv (wd c.payload 0) 0xFFFFFFF0, stParam)] →
    exec (.plotQuery st tag) s = .next (s.on (fun _ => d.ok c d.plots[axisOf c].toList))) ∧
  (∀ (s : State) (st : Stall) (tag : BitVec 8) (c : Cmd), ∀ d : Dev, s.dev = d →
    d.runs st tag 0x101 c = true → Passes [(noWord c, stParam)] →
    exec (.plotAssign st tag) s = .next (s.on (fun _ => d.await st tag .atFrame))) ∧
  (∀ (s : State) (st : Stall) (tag : BitVec 8) (c : Cmd), ∀ d : Dev, s.dev = d →
    d.runs st tag 0x102 c = true → Passes [(noWord c, stParam)] →
    exec (.plotRelease st tag) s = .next (s.on (fun _ => d.await st tag .atFrame))) ∧
  (∀ (s : State) (st : Stall) (tag : BitVec 8) (c : Cmd), ∀ d : Dev, s.dev = d →
    d.runs st tag 0x103 c = true → Passes [(noWord c, stParam)] →
    exec (.plotModify st tag) s = .next (s.on (fun _ => d.await st tag .atFrame))) ∧
  (∀ (m : Memory) (d : Dev) (c : Cmd), c.code.toNat = 0x101 → Passes (d.plotChecks false c) →
    d.failsBudget [((axisOf c).val, d.costOfPlot (recWord c))] = none →
    applyCmd m c d = ((d.assign (axisOf c) (recWord c)).readmit).ok c []) ∧
  (∀ (m : Memory) (d : Dev) (c : Cmd), c.code.toNat = 0x103 → Passes (d.plotChecks true c) →
    d.failsBudget [((axisOf c).val, d.costOfPlot (recWord c))] = none →
    applyCmd m c d = ((d.modify (axisOf c) (recWord c)).readmit).ok c []) ∧
  (∀ (m : Memory) (d : Dev) (c : Cmd), c.code.toNat = 0x102 → Passes (d.releaseChecks c) →
    let d1 := (d.axisLegs (axisOf c)).foldl (fun d l => d.legOff l) (d.endAxis (axisOf c))
    applyCmd m c d = (Dev.readmit { d1 with plots := vset d1.plots (axisOf c) (Vector.replicate 14 0) }).ok c [])

/-- The law and coefficient commands (05 R159 to R167, R170 to R178): each completes, and what it does to programs,
attachments, flags and banks. The clauses follow the model's choices of log entries 71, 76, 77 and 78 where the spec
leaves one. -/
def Obligations.LawCommandsComplete : Prop :=
  (∀ (s : State) (st : Stall) (tag : BitVec 8) (c : Cmd), ∀ d : Dev, s.dev = d → d.runs st tag 0x220 c = true →
    exec (.lawLoad st tag) s = .next (s.on (fun _ => d.await st tag .atTick))) ∧
  (∀ (m : Memory) (d : Dev) (c : Cmd), c.code.toNat = 0x220 →
    Passes (d.loadChecks c) →
    applyCmd m c d = (
      let w1 := wd c.payload 1
      let big := wideOf (c.payload.drop 2)
      let ws := (List.range (fld w1 25 16)).map (fun i => big / 2 ^ (40 * i) % 2 ^ 40)
      let old : Mem (Option (BitVec 40)) := if bitOf (wd c.payload 0) 8 then [] else (d.progs.staging.map (·.words)).getD []
      ({ d with progs := { d.progs with staging := some ⟨progOf c, stageWords old (fld w1 10 0) ws⟩ } }).ok c [])) ∧
  (∀ (s : State) (st : Stall) (tag : BitVec 8) (c : Cmd), ∀ d : Dev, s.dev = d → d.runs st tag 0x221 c = true →
    exec (.lawCommit st tag) s = .next (s.on (fun _ => d.await st tag .atTick))) ∧
  (∀ (m : Memory) (d0 : Dev) (c : Cmd) (b ho f start : Nat),
    let d := { d0 with progs := { d0.progs with staging := none } }
    let w := wd c.payload 0
    let n := progOf c
    let len := fld (wd c.payload 1) 11 0
    let hook : Fin 3 := Fin.ofNat 3 (fld w 9 8)
    let image := (d0.progs.staging.map (·.words)).getD []
    c.code.toNat = 0x221 →
    Passes [(noWord c, stParam), (!d0.stagedFor n || d0.loaded n, stState),
      (badLen c 3 || rsv w 0xFFFFFC00 || rsv (wd c.payload 1) 0xFFFFF000 || fld w 9 8 == 3, stParam)] →
    verifyImage image len (wd c.payload 2) hook = .passes b ho f → d.progs.place len = some start →
    let prog : Program := ⟨hook, start, len, b, ho, f, wd c.payload 2, imageUpTo image 0 len⟩
    applyCmd m c d0 = Dev.ok c [mkw [(satU 16 ho, 16, 16), (satU 16 b, 0, 16)], mkw [(f, 24, 7)]]
        { d with progs := { d.progs with progs := Mem.write none d.progs.progs n (some prog) } }) ∧
  (∀ (s : State) (st : Stall) (tag : BitVec 8) (c : Cmd), ∀ d : Dev, s.dev = d → d.runs st tag 0x222 c = true →
    exec (.lawDelete st tag) s = .next (s.on (fun _ => d.await st tag .atTick))) ∧
  (∀ (m : Memory) (d : Dev) (c : Cmd), c.code.toNat = 0x222 →
    let n := progOf c
    Passes [(badLen c 1 || rsv (wd c.payload 0) 0xFFFFFF00 || badProg n || !d.loaded n, stParam), (!(d.axesOfProg n).isEmpty || d.attaching c n, stState)] →
    applyCmd m c d = (
      let freed := match d.prog? n with
        | some x => [(x.start, x.length)]
        | none => []
      ({ d with progs := { d.progs with progs := Mem.write none d.progs.progs n none, freed := d.progs.freed ++ freed } }).ok c [])) ∧
  (∀ (s : State) (st : Stall) (tag : BitVec 8) (c : Cmd), ∀ d : Dev, s.dev = d →
    let n := progOf c
    d.runs st tag 0x223 c = true → Passes [(badLen c 1 || rsv (wd c.payload 0) 0xFFFFFF00 || badProg n, stParam)] →
    exec (.lawQuery st tag) s = .next (s.on (fun _ =>
      d.ok c (match d.prog? n with
        | some x => [mkw [(1, 31, 1), (x.hook.val, 16, 2), (satU 16 x.bound, 0, 16)],
                     mkw [(maskOf ((d.axesOfProg n).map Fin.val), 16, 16), (x.length, 0, 12)], x.crc]
        | none => [0, 0, 0])))) ∧
  (∀ (s : State) (st : Stall) (tag : BitVec 8) (c : Cmd), ∀ d : Dev, s.dev = d →
    let a := axisOf c
    d.runs st tag 0x224 c = true → Passes [(noWord c, stParam), (!(d.before c 0x224 a).isEmpty || (bitOf (wd c.payload 0) 16 && d.loops[a].swap.isSome), stState)] →
    exec (.lawAttach st tag) s = .next (s.on (fun _ => d.await c.stall c.tag .atFrame))) ∧
  (∀ (s : State) (st : Stall) (tag : BitVec 8) (c : Cmd), ∀ d : Dev, s.dev = d →
    d.runs st tag 0x225 c = true → Passes [(badLen c 1 || rsv (wd c.payload 0) 0xFFFF0000 || fld (wd c.payload 0) 15 0 == 0, stParam)] →
    exec (.lawFlagsClear st tag) s = .next (s.on (fun _ => d.await c.stall c.tag .atFrame))) ∧
  (∀ (s : State) (st : Stall) (tag : BitVec 8) (c : Cmd), ∀ d : Dev, s.dev = d → d.runs st tag 0x230 c = true →
    exec (.coefWrite st tag) s = .next (s.on (fun _ => d.await st tag .atTick))) ∧
  (∀ (m : Memory) (d : Dev) (c : Cmd), c.code.toNat = 0x230 →
    Passes (d.coefChecks c) →
    applyCmd m c d = (d.await c.stall c.tag .started).bankRun (axisOf c)) ∧
  (∀ (s : State) (st : Stall) (tag : BitVec 8) (c : Cmd), ∀ d : Dev, s.dev = d →
    let a := axisOf c
    let hold := d.loops[a].copying || !(d.earlier c 0x230 a).isEmpty
    d.runs st tag 0x231 c = true → Passes [(noWord c, stParam), (d.axisUnfit a || d.loops[a].swap.isSome || d.attachSwaps c a, stState), (badLen c 3 || rsv (wd c.payload 0) 0xFFFFFFC0 || (!hold && d.swapTooNear c), stParam)] →
    exec (.coefSwap st tag) s = .next (s.on (fun _ =>
      let d1 := d.await c.stall c.tag .started
      if hold then d1.modLoop a (fun l => { l with swap := some ⟨true, 0, bitOf (wd c.payload 0) 4, c.stall, c.tag⟩ })
      else d1.scheduleSwap c))) ∧
  (∀ (s : State) (st : Stall) (tag : BitVec 8) (c : Cmd), ∀ d : Dev, s.dev = d →
    let w := wd c.payload 0
    let w1 := wd c.payload 1
    let a := axisOf c
    let k := fld w 25 16
    let n := fld w1 10 0
    d.runs st tag 0x232 c = true → Passes [(noWord c, stParam), (!d.assigned a, stState), (badLen c 2 || rsv w 0xFC00FFE0 || rsv w1 0xFFFFF800 || notIn n 1 1022 || decide (k + n > 1024), stParam)] →
    exec (.coefRead st tag) s = .next (s.on (fun _ =>
      let l := d.loops[a]
      let other := b2n l.bank != (if bitOf w 4 then 1 - c.aux else c.aux)
      d.ok c ((List.range n).map (fun i =>
        iW (if other && l.copying then l.midCopy a (k + i) d.age else Mem.read 0 (l.bankOf other) (k + i)).toInt))))) ∧
  (∀ (s : State) (a : AxisNo), ∀ d : Dev, s.dev = d →
    d.loops[a].copying = true → exec (.bankCopyDone a) s = .next (s.on (fun _ =>
      (d.modLoop a (fun l => { (l.setOther (l.bankOf false)) with copying := false })).bankRun a))) ∧
  (∀ (m : Memory) (d : Dev) (c : Cmd), c.code.toNat = 0x225 →
    applyCmd m c d = ((bitsOf 16 (fld (wd c.payload 0) 15 0)).foldl (fun d k =>
      d.modLoop (ax k) (fun l => { l with svStd := false, svUser := false, aerr := false })) d).ok c []) ∧
  (∀ (m : Memory) (d : Dev) (c : Cmd), c.code.toNat = 0x224 → Passes (d.attachChecks c) →
    let a := axisOf c
    let w5 := d.attachWord a (fld (wd c.payload 0) 15 8)
    d.failsBudget [(a.val, d.costOfPlot (fun k => if k = 5 then w5 else d.plotW a k))] = none → bitOf (wd c.payload 0) 16 = false →
    applyCmd m c d = (Dev.readmit (Dev.modLoop a (fun l =>
        { l with slots := vset l.slots (if l.slot then 1 else 0) [], userFar := [], bypassed := false })
      { d with plots := vset d.plots a ((d.plots[a].set 0 (nextGen d.plots[a][0])).set 5 w5) })).ok c [])

/-- The law's own commands (06 R183, R196, R204 to R224): each waits for the frame boundary, and what it does there. The
clauses follow the model's choices of log entries 64, 65, 66 and 117 where the spec leaves one. -/
def Obligations.ControlCommandsComplete : Prop :=
  (∀ (s : State) (st : Stall) (tag : BitVec 8) (c : Cmd), ∀ d : Dev, s.dev = d →
    d.runs st tag 0x240 c = true → Passes (d.scaleChecks c) →
    exec (.lawScale st tag) s = .next (s.on (fun _ => d.await st tag .atFrame))) ∧
  (∀ (s : State) (st : Stall) (tag : BitVec 8) (c : Cmd), ∀ d : Dev, s.dev = d →
    d.runs st tag 0x241 c = true → Passes (d.modeChecks c) →
    exec (.lawMode st tag) s = .next (s.on (fun _ => d.await st tag .atFrame))) ∧
  (∀ (s : State) (st : Stall) (tag : BitVec 8) (c : Cmd), ∀ d : Dev, s.dev = d →
    d.runs st tag 0x250 c = true → Passes (d.repChecks c) →
    exec (.repConfig st tag) s = .next (s.on (fun _ => d.await st tag .atFrame))) ∧
  (∀ (s : State) (st : Stall) (tag : BitVec 8) (c : Cmd), ∀ d : Dev, s.dev = d →
    d.runs st tag 0x251 c = true → Passes (d.repControlChecks c) →
    exec (.repControl st tag) s = .next (s.on (fun _ => d.await st tag .atFrame))) ∧
  (∀ (s : State) (st : Stall) (tag : BitVec 8) (c : Cmd), ∀ d : Dev, s.dev = d →
    d.runs st tag 0x260 c = true → Passes (d.exciteChecks c) →
    exec (.tuneExcite st tag) s = .next (s.on (fun _ => d.await st tag .atFrame))) ∧
  (∀ (s : State) (st : Stall) (tag : BitVec 8) (c : Cmd), ∀ d : Dev, s.dev = d →
    d.runs st tag 0x261 c = true → Passes (d.identifyChecks c) →
    exec (.tuneIdentify st tag) s = .next (s.on (fun _ => d.await st tag .atFrame))) ∧
  (∀ (s : State) (st : Stall) (tag : BitVec 8) (c : Cmd), ∀ d : Dev, s.dev = d →
    d.runs st tag 0x252 c = true → Passes (d.storeChecks c) →
    exec (.repStore st tag) s = .next (s.on (fun _ => d.await st tag .atFrame))) ∧
  (∀ (m : Memory) (d : Dev) (c : Cmd), c.code.toNat = 0x240 → Passes (d.scaleChecks c) →
    applyCmd m c d = (d.modCtl (axisOf c) (fun x => { x with scale0 := wd c.payload 0, scale1 := wd c.payload 1 })).ok c []) ∧
  (∀ (m : Memory) (d : Dev) (c : Cmd), c.code.toNat = 0x241 → Passes (d.modeChecks c) → bitOf (wd c.payload 0) 7 = false →
    applyCmd m c d = (d.setMode (axisOf c) (fld (wd c.payload 0) 5 4) (bitOf (wd c.payload 0) 6)
      (int20 (wd c.payload 1))).ok c []) ∧
  (∀ (m : Memory) (d : Dev) (c : Cmd), c.code.toNat = 0x251 → Passes (d.repControlChecks c) → fld (wd c.payload 0) 5 4 = 1 →
    applyCmd m c d = (d.modCtl (axisOf c) (fun x => { x with rep := { x.rep with frozen := true } })).ok c []) ∧
  (∀ (m : Memory) (d : Dev) (c : Cmd), c.code.toNat = 0x252 → Passes (d.storeChecks c) → storeOp c = 2 →
    applyCmd m c d = Dev.ok c [0] { d with slots := vset d.slots (slotOf c) (Vector.replicate 2 SlotCopy.empty) }) ∧
  (∀ (m : Memory) (d : Dev) (c : Cmd), c.code.toNat = 0x260 → Passes (d.exciteChecks c) → bitOf (wd c.payload 0) 8 = true →
    applyCmd m c d = (d.modCtl (axisOf c) (fun y => { y with excite := none })).ok c []) ∧
  (∀ (m : Memory) (d : Dev) (c : Cmd), c.code.toNat = 0x261 → Passes (d.identifyChecks c) →
    applyCmd m c d = (d.modCtl (axisOf c) (fun y =>
      { y with identify := some (Identify.begin (int20 (wd c.payload 1)) (fld (wd c.payload 2) 15 0) c.stall c.tag d.clk) })).await c.stall c.tag
        .started)

/-- The law's events (06 R189, R200, R203, R209, R210, R214, R215): table saves, the end of an excitation, the end of an
identification, and the counted conditions. The clauses follow the model's choices of log entries 65, 66, 67 and 117
where the spec leaves one. -/
def Obligations.ControlEventsComplete : Prop :=
  (∀ (s : State) (a : AxisNo), ∀ d : Dev, s.dev = d →
    let r := d.ctl[a].rep
    let slot : Fin 64 := Fin.ofNat 64 (fld r.conf[5] 21 16)
    d.lawOn a 5 = true → bitOf r.conf[5] 22 = true → fld r.conf[5] 15 0 ≠ 0 →
    d.passedMs r.lastSave (1000 * fld r.conf[5] 15 0) = true → r.frozen = false → r.storing = none →
    exec (.repAutoSave a) s = .next (s.on (fun _ =>
      (d.modCtl a (fun c => { c with rep := { c.rep with lastSave := d.clk } })).startSave a slot
        (((bestCopy d.slots[slot]).map (·.tableId)).getD (iW (Config.freeOf 23 [a.val, slot.val]))) none))) ∧
  (∀ (s : State) (a : AxisNo) (slot : Nat), ∀ d : Dev, s.dev = d →
    let k : Fin 64 := Fin.ofNat 64 slot
    let v := d.slots[k]
    let n (i : Fin 2) : Nat := if v[i].valid then v[i].count else 0
    let i : Fin 2 := if n 1 < n 0 then 1 else 0
    let count := max (n 0) (n 1) + 1
    d.ctl[a].rep.storing = some (slot, none) → d.pw.mramShut = false → exec (.repSaveDone a) s = .next (s.on (fun _ =>
      { d.modCtl a (fun c => { c with rep := { c.rep with storing := none } }) with
          slots := vset d.slots k (vset v i { d.ctl[a].rep.draft with count := count }) }))) ∧
  (∀ (s : State) (a : AxisNo) (x : Excitation), ∀ d : Dev, s.dev = d →
    d.ctl[a].excite = some x → d.passedMs x.startClk x.durMs = true →
    exec (.excitationEnd a) s = .next (s.on (fun _ => d.modCtl a (fun c => { c with excite := none })))) ∧
  (∀ (s : State) (a : AxisNo) (q : BitVec 32) (x : Identify), ∀ d : Dev, s.dev = d →
    let tail := mkw [(x.result.toNat, 24, 8), (satU 16 ((d.clk - x.startClk) / clksPerMs), 0, 16)]
    d.ctl[a].identify = some x → x.stage = 4 → x.result ≠ 0 →
    exec (.identifyDone a q) s = .next (s.on (fun _ =>
      ((d.modCtl a (fun c => { c with identify := none, presetV := some (d.loops[a].bankOf false) })).respond x.stall x.tag stOk
        [0, 0, 0, 0, 0, 0, 0, tail]).fire 49 (.axes [a])))) ∧
  (∀ (s : State) (a : AxisNo) (q : BitVec 32) (x : Identify), ∀ d : Dev, s.dev = d →
    let uv := rangeUv (fld (d.plotW a 2) 9 8)
    let shunt := fld (d.plotW a 2) 31 16
    let r := x.rUohm uv shunt
    let ld := x.lNh uv shunt x.i0 x.i1 x.iClks
    let lq := x.lqNh q (d.mtype a) uv shunt
    let scale := 2 * pi40.toNat * x.bwHz * uv
    let den := 2 ^ 40 * shunt * 100
    let kp (nH : Nat) : W32 := gainWord (scale * nH) (den * 1000000000)
    let ki : W32 := gainWord (scale * r * d.tickClks) (den * 1000000 * 512000000)
    d.ctl[a].identify = some x → x.stage = 4 → x.result = 0 →
    exec (.identifyDone a q) s = .next (s.on (fun _ =>
      (d.modCtl a (fun c => { c with identify := none, presetV := some (d.loops[a].bankOf false) })).respond x.stall x.tag stOk
        [nW r, nW ld, nW lq, kp ld, ki, kp lq, ki, mkw [(x.result.toNat, 24, 8), (satU 16 ((d.clk - x.startClk) / clksPerMs), 0, 16)]]))) ∧
  (∀ (s : State) (a : AxisNo), ∀ d : Dev, s.dev = d →
    d.ctl[a].uLimDue = true → exec (.voltageLimitPersist a) s = .next (s.on (fun _ =>
      (d.modCtl a (fun c => { c with uLimDue := false })).fire 46 (.axes [a])))) ∧
  (∀ (s : State) (a : AxisNo), ∀ d : Dev, s.dev = d →
    d.ctl[a].overDue = true → exec (.overspeed a) s = .next (s.on (fun _ =>
      (d.modCtl a (fun c => { c with overDue := false })).fire 44 (.axes [a])))) ∧
  (∀ (s : State) (a : AxisNo) (k : Fin 4), ∀ d : Dev, s.dev = d →
    d.ctl[a].plaus[k].due = true → exec (.plausCountLimit a k) s = .next (s.on (fun _ =>
      (d.modCtl a (fun c => { c with plaus := vmod c.plaus k (fun x => { x with due := false }) })).fire (plausSrc k) (.axes [a]))))


/-- The commands of feedback, probes and encoder emulation (07 R260 to R266): each is taken and waits for its boundary,
PROBE_READ answers with the entries, and what waits applies at the boundary. The clauses follow the model's choices of
log entries 62, 82 and 83 where the spec leaves one. -/
def Obligations.FeedbackCommandsComplete : Prop :=
  (∀ (s : State) (st : Stall) (tag : BitVec 8) (c : Cmd), ∀ d : Dev, s.dev = d →
    d.runs st tag 0x300 c = true → Passes [(noWord c, stParam), (d.srcLive (srcNo c).val || d.namesFault c, stState), (d.badFb c, stParam)] →
    exec (.fbConfig st tag) s = .next (s.on (fun _ => d.await st tag .atFrame))) ∧
  (∀ (s : State) (st : Stall) (tag : BitVec 8) (c : Cmd), ∀ d : Dev, s.dev = d →
    let w := wd c.payload 0
    let f := wd c.payload 1
    let e : Fin 4 := Fin.ofNat 4 (fld w 1 0)
    d.runs st tag 0x301 c = true → Passes [(noWord c, stParam), ((d.excUsers e).any (fun i => d.srcLive i.val), stState), (badLen c 2 || rsv w 0xFFFFFC00 || rsv f 0xFFFF8000 || decide (fld w 9 3 < 10) || decide (fld w 9 3 > 70) || decide (fld f 14 0 < 2000) || decide (fld f 14 0 > 20000), stParam)] →
    exec (.excConfig st tag) s = .next (s.on (fun _ => d.await st tag .atFrame))) ∧
  (∀ (s : State) (st : Stall) (tag : BitVec 8) (c : Cmd), ∀ d : Dev, s.dev = d →
    d.runs st tag 0x302 c = true → Passes [(noWord c, stParam), (d.fb.src[srcNo c].mode == 0 || d.srcLive (srcNo c).val || d.namesFault c, stState), (badLen c 3 || rsv (wd c.payload 0) 0xFFFFFFE0 || !inR11 (s64 (wd c.payload 1) (wd c.payload 2)), stParam)] →
    exec (.fbPosSet st tag) s = .next (s.on (fun _ => d.await st tag .atFrame))) ∧
  (∀ (s : State) (st : Stall) (tag : BitVec 8) (c : Cmd), ∀ d : Dev, s.dev = d →
    d.runs st tag 0x303 c = true → Passes [(badLen c 1 || wd c.payload 0 == 0, stParam)] →
    exec (.fbClear st tag) s = .next (s.on (fun _ => d.await st tag .atTick))) ∧
  (∀ (s : State) (st : Stall) (tag : BitVec 8) (c : Cmd), ∀ d : Dev, s.dev = d →
    let w := wd c.payload 0
    d.runs st tag 0x310 c = true → Passes [(badLen c 1 || rsv w 0xFE00C0C0 || (decide (fld w 13 8 > 31) && fld w 13 8 != 63), stParam)] →
    exec (.probeConfig st tag) s = .next (s.on (fun _ => d.await st tag .atTick))) ∧
  (∀ (s : State) (st : Stall) (tag : BitVec 8) (c : Cmd), ∀ d : Dev, s.dev = d →
    let w := wd c.payload 0
    let p : Fin 16 := Fin.ofNat 16 (fld w 3 0)
    let x := d.fb.probes[p]
    let ready := x.entries.filter (·.readable)
    let n := min ready.length (fld w 6 4)
    d.runs st tag 0x311 c = true → Passes [(badLen c 1 || rsv w 0xFFFFFF80 || fld w 6 4 == 0 || decide (fld w 6 4 > 4), stParam)] →
    exec (.probeRead st tag) s = .next (s.on (fun _ => (d.modProbe p (fun x => { x with entries := x.entries.drop n })).ok c (mkw [(n, 0, 3), (ready.length - n, 8, 3), (b2n x.ovf, 11, 1)] :: (ready.take n).flatMap ProbeEntry.words)))) ∧
  (∀ (s : State) (st : Stall) (tag : BitVec 8) (c : Cmd), ∀ d : Dev, s.dev = d →
    let p := c.payload
    d.runs st tag 0x320 c = true → Passes [(badLen c 3 || rsv (wd p 0) 0xFFFFFFE0 || rsv (wd p 1) 0xFF000000 || decide ((wd p 1).toNat < 4) || rsv (wd p 2) 0xF0000000 || fld (wd p 2) 27 20 == 0 || decide (fld (wd p 2) 27 20 > 64), stParam)] →
    exec (.emuConfig st tag) s = .next (s.on (fun _ => d.await st tag .atFrame))) ∧
  (∀ (m : Memory) (d : Dev) (c : Cmd), c.code.toNat = 0x302 → d.fb.src[srcNo c].mode ≠ 0 → d.srcLive (srcNo c).val = false →
    let v := s64 (wd c.payload 1) (wd c.payload 2)
    let shift := v - d.ownPos d.fb.src[srcNo c] - d.fb.src[srcNo c].offset
    applyCmd m c d = (((d.modSrc (srcNo c) (fun x =>
      { x with offset := x.offset + shift, pos := v, trackLost := false, untracked := false,
               goodRun := if x.untracked then 0 else x.goodRun })).probeMap (srcNo c) (d.clk + 1) (· + shift)).unhomeSrc
        (srcNo c).val).ok c []) ∧
  (∀ (m : Memory) (d : Dev) (c : Cmd), c.code.toNat = 0x303 →
    applyCmd m c d = ((bitsOf 32 (wd c.payload 0).toNat).foldl (fun d i => d.modSrc (Fin.ofNat 32 i) FbSource.clear) d).ok c []) ∧
  (∀ (m : Memory) (d : Dev) (c : Cmd), c.code.toNat = 0x310 →
    applyCmd m c d = (d.modProbe (Fin.ofNat 16 (fld (wd c.payload 0) 3 0)) (fun x =>
      { x with filt := BitVec.ofNat 8 (fld (wd c.payload 0) 23 16), src := BitVec.ofNat 6 (fld (wd c.payload 0) 13 8),
               edge := BitVec.ofNat 2 (fld (wd c.payload 0) 5 4),
               entries := if bitOf (wd c.payload 0) 24 then [] else x.entries,
               ovf := x.ovf && !bitOf (wd c.payload 0) 24 })).ok c [])

/-- The events of the feedback pins (07 R226 to R245): one edge of a quadrature, Hall, tooth or reference input, an index,
a standstill, an alarm line and an excitation that overloads. The clauses follow the model's choices of log entries
79, 81 and 118 where the spec leaves one. -/
def Obligations.FeedbackPinsComplete : Prop :=
  (∀ (s : State) (e : Fin 4) (f : BitVec 15) (a : BitVec 7), ∀ d : Dev, s.dev = d →
    d.fb.exc[e].pending = some (f, a) →
    exec (.excZeroCrossing e) s = .next (s.on (fun _ => d.modExc e (fun x => { x with freq := f, ampl := a, pending := none })))) ∧
  (∀ (s : State) (g : Fin 16) (a b : Bool) (k n : Nat), ∀ d : Dev, s.dev = d →
    ∀ x : FbSource, d.fb.src[egSrc g] = x →
    let d1 := d.modSrc (egSrc g) (fun x => { x with lineA := a, lineB := b })
    let step := (quadIndex a b + 4 - quadIndex x.lineA x.lineB) % 4
    x.accepts k = true → x.mode = 1 → step = 1 ∨ step = 3 →
    exec (.quadratureEdge g a b ⟨k, n⟩) s = .next (s.on (fun _ =>
      (d1.modSrc (egSrc g) (FbSource.edge (if (step == 1) != x.inv then 1 else -1) (d.clk + 2 * n))).probeFollow
        (egSrc g) (d.clk + 2 * n)))) ∧
  (∀ (s : State) (g : Fin 16) (a b : Bool) (k n : Nat), ∀ d : Dev, s.dev = d →
    ∀ x : FbSource, d.fb.src[egSrc g] = x →
    let d1 := d.modSrc (egSrc g) (fun x => { x with lineA := a, lineB := b })
    x.accepts k = true → x.mode = 1 → (quadIndex a b + 4 - quadIndex x.lineA x.lineB) % 4 = 2 → x.doubleOk (d.clk + 2 * n) = false →
    exec (.quadratureEdge g a b ⟨k, n⟩) s = .next (s.on (fun _ =>
      ((d1.modSrc (egSrc g) FbSource.qfail).fbFire 50 (egSrc g)).probeFollow (egSrc g) (d.clk + 2 * n)))) ∧
  (∀ (s : State) (g : Fin 16) (k n : Nat), ∀ d : Dev, s.dev = d → ∀ x : FbSource, d.fb.src[egSrc g] = x →
    x.accepts k = true → x.mode = 1 → bitOf x.conf[1] 24 = false → x.firstIdx = none →
    exec (.indexEdge g ⟨k, n⟩) s = .next (s.on (fun _ =>
      (d.markIndex (egSrc g) (x.ofCount x.count + x.offset)).modSrc (egSrc g) (fun x => { x with firstIdx := some x.count })))) ∧
  (∀ (s : State) (g : Fin 16) (code : Fin 8) (k n : Nat), ∀ d : Dev, s.dev = d → ∀ x : FbSource, d.fb.src[egSrc g] = x →
    let d1 := d.modSrc (egSrc g) (fun x =>
      { x with lineA := code.val.testBit 0, lineB := code.val.testBit 1, lineC := code.val.testBit 2 })
    x.accepts k = true → x.mode = 2 →
    (5 < x.sectorOf code.val → exec (.hallTransition g code ⟨k, n⟩) s = .next (s.on (fun _ =>
      (d1.modSrc (egSrc g) (fun x => { x with hallErr := true, qerrCnt := inc8 x.qerrCnt })).fbFire 52 (egSrc g)))) ∧
    (x.sectorOf code.val ≤ 5 → x.hallSector ≤ 5 →
      (x.hallPlace (x.sectorOf code.val) + 6 - x.hallPlace x.hallSector) % 6 = 1 →
      exec (.hallTransition g code ⟨k, n⟩) s = .next (s.on (fun _ =>
        (d1.modSrc (egSrc g) (FbSource.edge 1 (d.clk + 2 * n))).modSrc (egSrc g) (fun y =>
          { y with hallSector := x.sectorOf code.val }))))) ∧
  (∀ (s : State) (g : Fin 16) (high : Bool) (k n : Nat), ∀ d : Dev, s.dev = d → ∀ x : FbSource, d.fb.src[egSrc g] = x →
    let up := (!bitOf x.conf[1] 14 || high) != x.inv
    x.accepts k = true → x.mode = 3 → fld x.conf[1] 13 12 = 0 → x.refNext = false → x.sync ≠ .synced →
    exec (.toothEdge g high ⟨k, n⟩) s = .next (s.on (fun _ =>
      ((d.modSrc (egSrc g) (FbSource.edge (if up then 1 else -1) (d.clk + 2 * n))).modSrc (egSrc g) (fun y =>
        { y with interval := if !x.edges.isEmpty && x.dirNeg == !up then d.clk + 2 * n - x.lastEdge else 0,
                 refNext := false })).probeFollow (egSrc g) (d.clk + 2 * n)))) ∧
  (∀ (s : State) (g : Fin 16) (w : AnalogData) (k : Nat) (p : Int × Int), ∀ d : Dev, s.dev = d →
    ∀ x : FbSource, d.fb.src[egSrc g] = x →
    let r := x.read (some w)
    x.accepts k = true → x.mode = 4 → bitOf x.conf[1] 21 = true → r.pair = some p →
    exec (.refMarkEdge g w k) s = .next (s.on (fun _ =>
      d.markIndex (egSrc g) (x.ofPhase (r.src.phaseAt [(egSrc g).val, d.clk, 1] p) + x.offset)))) ∧
  (∀ (s : State) (i : Fin 32), ∀ d : Dev, s.dev = d → ∀ x : FbSource, d.fb.src[i] = x →
    x.isEdge = true → x.still = false → x.lastEdge + x.stillTicks * d.tickClks ≤ d.clk + d.tickClks →
    exec (.standstill i) s = .next (s.on (fun _ => d.modSrc i FbSource.standstill))) ∧
  (∀ (s : State) (g : Fin 16) (level : Bool) (k : Nat), ∀ d : Dev, s.dev = d → d.fb.src[egSrc g].accepts k = true →
    exec (.encoderAlarm g ⟨level, k⟩) s =
      .next (s.on (fun _ => (d.modSrc (egSrc g) (fun x => { x with lineAlarm := level })).setAlarm (egSrc g)))) ∧
  (∀ (s : State) (g : Fin 16) (a b high : Bool) (code : Fin 8) (w : AnalogData) (k n : Nat), ∀ d : Dev, s.dev = d →
    d.fb.src[egSrc g].accepts k = false →
    exec (.quadratureEdge g a b ⟨k, n⟩) s = .next (s.on (fun _ => d)) ∧ exec (.indexEdge g ⟨k, n⟩) s = .next (s.on (fun _ => d)) ∧
    exec (.hallTransition g code ⟨k, n⟩) s = .next (s.on (fun _ => d)) ∧ exec (.toothEdge g high ⟨k, n⟩) s = .next (s.on (fun _ => d)) ∧
    exec (.refMarkEdge g w k) s = .next (s.on (fun _ => d)) ∧ exec (.encoderAlarm g ⟨high, k⟩) s = .next (s.on (fun _ => d))) ∧
  (∀ (s : State) (e : Fin 4), ∀ d : Dev, s.dev = d → d.fb.exc[e].en = true →
    exec (.excOverload e) s = .next (s.on (fun _ =>
      (d.excUsers e).foldl (fun d i =>
        (d.modSrc i (fun x => { x with excErr := true, fbValid := false, speedValid := false, goodRun := 0 })).fbFire 55 i)
        (d.modExc e (fun x => { x with en := false, overloaded := true, pending := none })))))

/-- The events of the serial encoder ports and of the probes (07 R247 to R254). The clauses follow the model's choices
of log entries 80 and 82 where the spec leaves one. -/
def Obligations.SerialAndProbeEventsComplete : Prop :=
  (∀ (s : State) (p : Fin 16), ∀ d : Dev, s.dev = d → ∀ x : FbSource, d.fb.src[espSrc p] = x →
    x.isSerial = true → (bitOf x.conf[2] 19 && (d.sampleAt x).2 % max 1 d.tk.conf.frameTicks.toNat != 0) = false →
    x.reply = none → x.exchange = false →
    exec (.serialExchangeStart p) s = .next (s.on (fun _ =>
      (d.modSrc (espSrc p) (fun y => { y with exchange := true, reply := none, exchClk := (d.sampleAt x).1 })).emit (.serial p.val)))) ∧
  (∀ (s : State) (p : Fin 16) (b k e : Bool) (bits : Nat), ∀ d : Dev, s.dev = d →
    ∀ x : FbSource, d.fb.src[espSrc p] = x → x.mode = 8 → x.exchange = true →
    exec (.serialResponse p (.ssi b k e bits)) s = .next (s.on (fun _ =>
      d.modSrc (espSrc p) (fun y => { y with exchange := false, reply := some (x.ssi b k e bits) })))) ∧
  (∀ (s : State) (p : Fin 16), ∀ d : Dev, s.dev = d → d.fb.src[espSrc p].isSerial = true → d.fb.src[espSrc p].exchange = true →
    exec (.serialWaitExpiry p) s = .next (s.on (fun _ =>
      d.modSrc (espSrc p) (fun x => { x with exchange := false, reply := some .bad })))) ∧
  (∀ (s : State) (p : Fin 16) (rising : Bool) (k n : Nat), ∀ d : Dev, s.dev = d → ∀ x : Probe, d.fb.probes[p] = x →
    let d0 := (d.modProbe p (fun x => { x with level := rising })).homeEdge (32 + p.val) rising (d.clk + 2 * n)
    let d1 : Dev := { d0 with cap := { d0.cap with units := d0.cap.units.map (fun u =>
      if u.state == .waiting || u.state == .pre then { u with events := u.events ++ [.probe p rising (d.ntAt (2 * n))] } else u) } }
    filtered x.filt.toNat k = true → x.edge.getLsbD (if rising then 0 else 1) = true →
    (x.entries.length < 4 → exec (.probeEdge p rising ⟨k, n⟩) s = .next (s.on (fun _ =>
      d1.modProbe p (fun y => { y with entries := y.entries ++ [⟨d.ntAt (2 * n), d.clk + 2 * n, rising, x.src,
        if x.src.toNat < 32 then d.fb.src[Fin.ofNat 32 x.src.toNat].ofCount d.fb.src[Fin.ofNat 32 x.src.toNat].count +
          d.fb.src[Fin.ofNat 32 x.src.toNat].offset else 0, false, false, false⟩] })))) ∧
    (4 ≤ x.entries.length → exec (.probeEdge p rising ⟨k, n⟩) s = .next (s.on (fun _ =>
      (d1.modProbe p (fun x => { x with ovf := true })).fire 59
        (.axes (if x.src.toNat < 32 then d.axesOfSrc x.src.toNat else [])))))) ∧
  (∀ (s : State) (p : Fin 16), exec (.probeEntryReadable p) s = .next (s.on (fun d => d.modProbe p Probe.openOne)))

/-- The commands of the bridges (08 R295 to R301): each is taken and waits for its boundary or is answered, and what
waits applies there. The clauses follow the model's choices of log entries 50 and 56 where the spec leaves one. -/
def Obligations.BridgeCommandsComplete : Prop :=
  (∀ (s : State) (st : Stall) (tag : BitVec 8) (c : Cmd), ∀ d : Dev, s.dev = d →
    d.runs st tag 0x400 c = true → Passes (d.pwmBad c) →
    exec (.pwmConfig st tag) s = .next (s.on (fun _ => d.await st tag .atFrame))) ∧
  (∀ (s : State) (st : Stall) (tag : BitVec 8) (c : Cmd), ∀ d : Dev, s.dev = d →
    d.runs st tag 0x401 c = true → Passes (d.pwmBad c) →
    exec (.gateProfile st tag) s = .next (s.on (fun _ => d.await st tag .atTick))) ∧
  (∀ (s : State) (st : Stall) (tag : BitVec 8) (c : Cmd), ∀ d : Dev, s.dev = d →
    d.runs st tag 0x402 c = true → Passes (d.pwmBad c) →
    exec (.protectConfig st tag) s = .next (s.on (fun _ => d.await st tag .atFrame))) ∧
  (∀ (s : State) (st : Stall) (tag : BitVec 8) (c : Cmd), ∀ d : Dev, s.dev = d →
    d.runs st tag 0x411 c = true → Passes (d.pwmBad c) →
    exec (.pwmDirect st tag) s = .next (s.on (fun _ => d.await st tag (if bitOf (wd c.payload 0) 4 || bitOf (wd c.payload 0) 5 then .atFrame else .atTick)))) ∧
  (∀ (s : State) (st : Stall) (tag : BitVec 8) (c : Cmd), ∀ d : Dev, s.dev = d →
    d.runs st tag 0x412 c = true → Passes [(badLen c 2 || (wd c.payload 0 == 0 && wd c.payload 1 == 0), stParam)] →
    exec (.pwmClear st tag) s = .next (s.on (fun _ => d.await st tag .atTick))) ∧
  (∀ (s : State) (st : Stall) (tag : BitVec 8) (c : Cmd), ∀ d : Dev, s.dev = d →
    let a := axisOf c
    let p := d.pwm[a]
    d.runs st tag 0x413 c = true → Passes [(noWord c, stParam), (!d.assigned a, stState), (badLen c 1 || d.noPwm a || rsv (wd c.payload 0) 0xFFFFFFF0, stParam)] →
    exec (.pwmQuery st tag) s = .next (s.on (fun _ => d.ok c (withAxis a p.pwm ++ withAxis a p.gate ++ withAxis a p.prot)))) ∧
  (∀ (s : State) (st : Stall) (tag : BitVec 8) (c : Cmd), ∀ d : Dev, s.dev = d →
    let w := wd c.payload 0
    d.runs st tag 0x410 c = true → badLen c 1 = false →
    (bitOf w 16 = true → exec (.bridgeControl st tag) s = .next (s.on (fun _ => d.await st tag .atFrame))) ∧
    (bitOf w 16 = false → rsv w 0xFFFE0000 = false → bitsOf 16 (fld w 15 0) ≠ [] →
      ((bitsOf 16 (fld w 15 0)).map ax).any d.noPwm = false →
      exec (.bridgeControl st tag) s = .next (s.on (fun _ => d.await st tag .atTick)))) ∧
  (∀ (m : Memory) (d : Dev) (c : Cmd), c.code.toNat = 0x400 → Passes (d.pwmBad c) →
    applyCmd m c d = (d.modPwm (axisOf c) (fun x => { x with pwm := confOf c.payload })).ok c []) ∧
  (∀ (m : Memory) (d : Dev) (c : Cmd), c.code.toNat = 0x401 → d.axisUnfit (axisOf c) = false →
    applyCmd m c d = (d.modPwm (axisOf c) (fun x => { x with gatePending := some (confOf c.payload) })).ok c []) ∧
  (∀ (m : Memory) (d : Dev) (c : Cmd), c.code.toNat = 0x402 → d.axisUnfit (axisOf c) = false →
    applyCmd m c d = (d.modPwm (axisOf c) (fun x => { x with prot := confOf c.payload })).ok c []) ∧
  (∀ (m : Memory) (d : Dev) (c : Cmd), c.code.toNat = 0x410 → bitOf (wd c.payload 0) 16 = false →
    applyCmd m c d = (((bitsOf 16 (fld (wd c.payload 0) 15 0)).map ax).foldl (fun d a => d.bridgeOffCmd a) d).ok c [0])

/-- The events of a leg's two switches (08 R274 to R279, R289): a commanded edge, a turn-on the interlock lets through,
the end of its wait, the phases of a gate, the checks of a gate or an external output, and the bootstrap. The clauses
follow the model's choices of log entries 51, 53, 55 and 119 where the spec leaves one. -/
def Obligations.LegEventsComplete : Prop :=
  (∀ (s : State) (l : LegNo) (a : AxisNo) (n : Nat), ∀ d : Dev, s.dev = d → ∀ x : Leg, d.legs[l] = x →
    d.legAxis l = some a → d.pwm[a].bridgeOn = true → d.mayTurnOn a l = true → x.inPulse (d.fine n) = false → x.side ≠ .high →
    d.highAt a l (d.fine n) = true → x.ocLow = false → (d.edgeInstants a l).contains (d.fine n) = true →
    exec (.commandedEdge l ⟨true, n⟩) s = .next (s.on (fun _ => d.modLeg l (fun x =>
      { x.edge (d.extDriver a) true (d.fine n) with
          refresh := if x.refresh == .running then .none else x.refresh, pulseEnd := none })))) ∧
  (∀ (s : State) (l : LegNo) (a : AxisNo) (n : Nat), ∀ d : Dev, s.dev = d → ∀ x : Leg, d.legs[l] = x →
    d.legAxis l = some a → d.pwm[a].bridgeOn = true → d.mayTurnOn a l = true → x.inPulse (d.fine n) = false → x.side ≠ .low →
    d.highAt a l (d.fine n) = false → x.refresh = .none → (d.edgeInstants a l).contains (d.fine n) = true →
    exec (.commandedEdge l ⟨false, n⟩) s = .next (s.on (fun _ => d.modLeg l (fun x =>
      { x.edge (d.extDriver a) false (d.fine n) with refresh := .none, pulseEnd := none })))) ∧
  (∀ (s : State) (l : LegNo) (a : AxisNo) (n : Nat), ∀ d : Dev, s.dev = d → ∀ x : Leg, d.legs[l] = x →
    ∀ p : AxisPwm, d.pwm[a] = p →
    d.legAxis l = some a → p.bridgeOn = true → d.mayTurnOn a l = true → x.refresh = .due → x.side = .high →
    d.fine n = p.start.getD 0 + p.len / 2 - refreshLen p.pwm / 2 →
    exec (.commandedEdge l ⟨false, n⟩) s = .next (s.on (fun _ =>
      d.modLeg l (Leg.pulse (d.extDriver a) (d.fine n) (refreshFine p.pwm[2]))))) ∧
  (∀ (s : State) (l : LegNo) (a : AxisNo) (n : Nat), ∀ d : Dev, s.dev = d → ∀ x : Leg, d.legs[l] = x →
    d.legAxis l = some a → x.hi = .pending → x.lo = .off → d.stoActive (dieOf l) = false →
    x.edgeAt + fld d.pwm[a].pwm[1] 11 0 ≤ d.fine n → d.fine n ≤ x.edgeAt + 4096 →
    exec (.interlockTurnOn l true n) s = .next (s.on (fun _ => d.modLeg l (fun x =>
      { x with hi := if d.legExt l then .on3 else .on1, dtHi := BitVec.ofNat 8 (satU 8 (fineNs (d.fine n - x.edgeAt))),
               hiHold := d.fine n, hiOn := d.fine n })))) ∧
  (∀ (s : State) (l : LegNo) (a : AxisNo) (n : Nat), ∀ d : Dev, s.dev = d → ∀ x : Leg, d.legs[l] = x →
    d.legAxis l = some a → x.lo = .pending → x.hi = .off → d.stoActive (dieOf l) = false → x.pulseEnd = none →
    x.edgeAt + fld d.pwm[a].pwm[1] 11 0 ≤ d.fine n → d.fine n ≤ x.edgeAt + 4096 →
    exec (.interlockTurnOn l false n) s = .next (s.on (fun _ => d.modLeg l (fun x =>
      { x with lo := if d.legExt l then .on3 else .on1, dtLo := BitVec.ofNat 8 (satU 8 (fineNs (d.fine n - x.edgeAt))),
               loHold := d.fine n, loOn := d.fine n,
               pulseEnd := if x.refresh == .running then some (d.fine n + refreshFine d.pwm[a].pwm[2]) else x.pulseEnd })))) ∧
  (∀ (s : State) (l : LegNo) (high : Bool) (n : Nat), ∀ d : Dev, s.dev = d → d.legs[l].sw high = .pending →
    d.legs[l].edgeAt + 4096 ≤ d.fine n → d.legs[l].refresh ≠ .running →
    exec (.interlockTimeout l ⟨high, n⟩) s = .next (s.on (fun _ =>
      (d.modLeg l (fun x => { x.setSw high .off with ilTimeout := true, refresh := x.refresh })).fire 73 (d.legScope l)))) ∧
  (∀ (s : State) (l : LegNo) (high : Bool) (n : Nat), ∀ d : Dev, s.dev = d → ∀ x : Leg, d.legs[l] = x →
    x.refresh ≠ .wanted →
    exec (.gatePhaseEnd l ⟨high, n⟩) s = .next (s.on (fun _ => d.modLeg l (fun x =>
      let y := x.setSw high (x.sw high).next
      if x.sw high == .on2 then y.holds high (d.fine n) else y)))) ∧
  (∀ (s : State) (l : LegNo) (high : Bool), ∀ d : Dev, s.dev = d → d.legExt l = false → (d.legs[l].sw high).isOn = true →
    exec (.gateCheckFail l high) s = .next (s.on (fun _ => d.gateFail l))) ∧
  (∀ (s : State) (l : LegNo) (high : Bool) (a : AxisNo), ∀ d : Dev, s.dev = d → d.legExt l = true → d.legAxis l = some a →
    d.bridgeBusy a = true → d.legs[l].tripped = false → d.legs[l].sw high ≠ .pending →
    exec (.extOutputCheck l high false) s = .next (s.on (fun _ => d.gateFail l))) ∧
  (∀ (s : State) (l : LegNo) (a : AxisNo) (mv : BitVec 16) (n : Nat), ∀ d : Dev, s.dev = d → ∀ x : Leg, d.legs[l] = x →
    d.legAxis l = some a → d.extDriver a = false → mv.toNat < bstWarnMv d.pwm[a].pwm[2] → d.pwm[a].bridgeOn = true →
    d.mayTurnOn a l = true → x.hi.isOn = true → x.side = .high →
    let d1 := d.modLeg l (fun x => { x with bstMv := mv })
    exec (.bootstrapWarning l ⟨mv, n⟩) s = .next (s.on (fun _ =>
      if x.settled then (d1.modLeg l (fun x =>
        { x.pulse false (d.fine n) (refreshFine d.pwm[a].pwm[2]) with bstWarn := true })).fire 74 (.axes [a])
      else d1.modLeg l (fun x => { x with refresh := .wanted })))) ∧
  (∀ (s : State) (l : LegNo) (a : AxisNo) (n : Nat), ∀ d : Dev, s.dev = d → d.legAxis l = some a →
    d.extDriver a = false → d.pwm[a].bridgeOn = true → d.mayTurnOn a l = true →
    exec (.bootstrapUvlo ⟨l, n⟩) s = .next (s.on (fun _ =>
      (d.modLeg l (fun x => { x.pulse false (d.fine n) (refreshFine d.pwm[a].pwm[2]) with bstUv := true })).fire 75 (.axes [a]))))

/-- The events that charge, apply and trip a bridge, and those of a die's torque-off (08 R268 to R273, R280 to R291). The
clauses follow the model's choices of log entries 52, 54 and 119 where the spec leaves one. -/
def Obligations.BridgeEventsComplete : Prop :=
  (∀ (s : State) (a : AxisNo) (mv : List Nat), ∀ d : Dev, s.dev = d →
    d.pwm[a].charging = true → d.pwm[a].sampled = false → d.extDriver a = true →
    exec (.chargeSample a mv) s = .next (s.on (fun _ =>
      (((d.axisLegs a).zip (List.range 4)).foldl (fun d x => d.modLeg x.1 (fun l => { l with bstMv := 0 })) d).modPwm a
        (fun p => { p with sampled := true, sampleFailed := false })))) ∧
  (∀ (s : State) (a : AxisNo) (n k : Nat) (slew : Int), ∀ d : Dev, s.dev = d → d.assigned a = true → d.noBridge a = false →
    d.pwm[a].start ≠ some (d.fine n) → d.periodAt a n = some k →
    exec (.applicationInstant a n slew) s = .next (s.on (fun _ => d.periodStart a (d.periodLen a k slew) (d.fine n)))) ∧
  (∀ (s : State) (a : AxisNo) (n b : Nat) (slew : Int), ∀ d : Dev, s.dev = d → d.assigned a = true → d.noBridge a = false →
    ∀ p : AxisPwm, d.pwm[a] = p → d.periodAt a n = none → p.start = some b → b ≠ d.fine n → d.fine n = b + p.len / 2 →
    p.midDone = false → p.bridgeOn = true → p.fresh = true → bitOf p.pwm[0] 9 = true → d.mtype a ≠ 3 →
    exec (.applicationInstant a n slew) s = .next (s.on (fun _ =>
      (d.applySet a p.len).modPwm a (fun p => { p with midDone := true })))) ∧
  (∀ (s : State) (a : AxisNo) (n : Nat) (li lj : LegNo) (rest : List LegNo), ∀ d : Dev, s.dev = d → ∀ p : AxisPwm, d.pwm[a] = p →
    p.bridgeOn = true → d.chops a = true → 0 < p.applied.chopA → p.decayA = false →
    p.start.getD 0 + tenNs (fld p.prot[2] 15 8) ≤ d.fine n →
    d.axisLegs a = li :: lj :: rest → d.decayMode a = 0 →
    exec (.chopTrip a ⟨false, n⟩) s = .next (s.on (fun _ =>
      ((d.modPwm a (fun p => { p with decayA := true, fastA := 0 })).drive a li false (d.fine n)).modLeg li (fun x =>
        { x with emit := 0, fullHigh := 0 })))) ∧
  (∀ (s : State) (l : LegNo) (a : AxisNo) (n : Nat), ∀ d : Dev, s.dev = d → d.legAxis l = some a → d.bridgeBusy a = true →
    d.legs[l].tripped = false → d.stoActive (dieOf l) = false →
    max d.legs[l].hiOn d.legs[l].loOn + tenNs (fld d.pwm[a].prot[2] 7 0) ≤ d.fine n → bitOf d.pwm[a].prot[0] 21 = false →
    exec (.overcurrentTrip ⟨l, n⟩) s = .next (s.on (fun _ =>
      ((d.modLeg l (fun x => { x with oc := true })).tripLeg l).fire 77 (.axes [a])))) ∧
  (∀ (s : State) (l : LegNo) (high : Bool) (n : Nat),
    exec (.desaturation l high n) s = .next (s.on (Dev.short l high false n)) ∧
    exec (.hardShort l high n) s = .next (s.on (Dev.short l high true n))) ∧
  (∀ (s : State) (a : AxisNo), ∀ d : Dev, s.dev = d → ∀ w : W32, d.pwm[a].prot[2] = w →
    d.assigned a = true → d.noBridge a = false → fld w 21 16 ≤ 15 →
    d.fb.probes[Fin.ofNat 16 (fld w 21 16)].level ≠ bitOf w 22 →
    exec (.externalTrip a) s = .next (s.on (fun _ =>
      ((d.axisLegs a).foldl (fun d l => (d.tripLeg l).modLeg l (fun x => { x with extTrip := true })) d).fire 79 (.axes [a])))) ∧
  (∀ (s : State) (die : Fin 2), ∀ d : Dev, s.dev = d → d.stoActive die = true →
    exec (.stoSwitchesOpen die) s = .next (s.on (fun _ =>
      (dieLegs die).foldl (fun d l => d.modLeg l (fun x => { x with hi := .off, lo := .off }))
        (d.modGate die (fun g => { g with switchesOpen := true, supplyOk := false }))))) ∧
  (∀ (s : State) (die : Fin 2), ∀ d : Dev, s.dev = d → d.stoActive die = true → d.gates[die].switchesOpen = true →
    exec (.stoFeedback die) s = .next (s.on (fun _ => d.modGate die (fun g => { g with fb := true })))) ∧
  (∀ (s : State) (die : Fin 2), ∀ d : Dev, s.dev = d → d.stoActive die = false → d.gates[die].switchesOpen = false →
    (if die = 0 then d.pw.vgdaOk else d.pw.vgdbOk) = true →
    exec (.stoSupplyRestored die) s = .next (s.on (fun _ =>
      d.modGate die (fun g => { g with supplyOk := true, sto := false, fb := false }))))

/-- The express commands of an axis (09 R350 to R355): one that passes its checks waits for its frame boundary, and there it
has its effect; READ_STATUS answers at once. The clauses follow the model's choices of log entries 57 and 60 where the
spec leaves one. -/
def Obligations.MotionExpressComplete : Prop :=
  (∀ (s : State) (st : Stall) (tag : BitVec 8) (c : Cmd), ∀ d : Dev, s.dev = d → d.motParam c = false → d.motState false c = false →
    d.runs st tag 0x500 c = true →
    exec (.setTarget st tag) s = .next (s.on (fun _ => d.await st tag .atFrame)) ∧
    (∀ (dram : Memory) (y : Dev), y.motState true c = false →
      let p := c.payload
      let a := axisOf c
      let w := wd p 0
      let d1 := y.modMot a (Motion.sync y.clk)
      let m := d1.mot[a]
      let base := match m.cur with
        | some e => if e.move.kind == .velocity then rdivUp m.p (2 ^ 20) else e.target
        | none => rdivUp m.p (2 ^ 20)
      let pos := s64 (wd p 1) (wd p 2)
      let mv : Move := { kind := .absolute, id := BitVec.ofNat 16 (fld w 31 16), chain := false, probe := 0,
                         pos := if bitOf w 4 then base + pos else pos, v := wd p 3, a := wd p 4, j := wd p 5, dwellMs := 0,
                         distAfter := 0 }
      let d2 := match m.cur with
        | some e => d1.moveEnd a e.move.id .replaced
        | none => d1
      applyCmd dram c y = ((d2.modMot a (fun m => { m with cur := none, overshoot := false, stopKind := 0, jogVel := 0 })).startMove a mv base).ok c [])) ∧
  (∀ (s : State) (st : Stall) (tag : BitVec 8) (c : Cmd), ∀ d : Dev, s.dev = d → d.motParam c = false → d.motState false c = false →
    d.runs st tag 0x501 c = true →
    exec (.setOverride st tag) s = .next (s.on (fun _ => d.await st tag .atFrame)) ∧
    (∀ (dram : Memory) (y : Dev), y.motState true c = false →
      let w := wd c.payload 0
      applyCmd dram c y = (
        (((bitsOf 16 (fld w 15 0)).map ax).foldl (fun y a =>
          ((y.modMot a (Motion.sync y.clk)).modMot a (fun m => { m with ovr := BitVec.ofNat 14 (fld w 29 16) })).replan a) y).ok c []))) ∧
  (∀ (s : State) (st : Stall) (tag : BitVec 8) (c : Cmd), ∀ d : Dev, s.dev = d → d.motParam c = false → d.motState false c = false →
    d.runs st tag 0x502 c = true →
    exec (.setGearRatio st tag) s = .next (s.on (fun _ => d.await st tag .atFrame)) ∧
    (∀ (dram : Memory) (y : Dev), y.motState true c = false →
      applyCmd dram c y = (y.modMot (axisOf c) (fun m => { m with ratioAsked := some (wd c.payload 1, wd c.payload 2) })).ok c [])) ∧
  (∀ (s : State) (st : Stall) (tag : BitVec 8) (c : Cmd), ∀ d : Dev, s.dev = d → d.motParam c = false → d.motState false c = false →
    d.runs st tag 0x503 c = true →
    exec (.jog st tag) s = .next (s.on (fun _ => d.await st tag .atFrame)) ∧
    (∀ (dram : Memory) (y : Dev), y.motState true c = false →
      let a := axisOf c
      let d1 := (y.modMot a (Motion.sync y.clk)).endMoves a .replaced .flushed
      applyCmd dram c y = (
        ((d1.modMot a (fun m => { m with src := 2, jogVel := (wd c.payload 1).toInt, overshoot := false, stopKind := 0, still := false,
                                         stillF := 2 ^ 19, stillSince := y.clk })).replan a).ok c []))) ∧
  (∀ (s : State) (st : Stall) (tag : BitVec 8) (c : Cmd), ∀ d : Dev, s.dev = d → d.motParam c = false → d.motState false c = false →
    d.runs st tag 0x504 c = true →
    exec (.stop st tag) s = .next (s.on (fun _ => d.await st tag .atFrame)) ∧
    (∀ (dram : Memory) (y : Dev), y.motState true c = false →
      let w := wd c.payload 0
      applyCmd dram c y = (((bitsOf 16 (fld w 15 0)).map ax).foldl (fun y a => y.stopOne (bitOf w 16) a) y).ok c [])) ∧
  (∀ (s : State) (st : Stall) (tag : BitVec 8) (c : Cmd), ∀ d : Dev, s.dev = d →
    d.runs st tag 0x505 c = true → Passes (d.motChecks c) →
    exec (.readStatus st tag) s = .next (s.on (fun _ =>
      let word (off : Nat) : W32 := Mem.read 0 d.hp.windows[axisOf c].snapshot (off / 4)
      d.ok c ([0x80, 0x84, 0x10, 0x14, 0x88, 0x8C, 0x90].map word))))

/-- The move queue and homing (09 R356 to R360, R341 to R343): a command that passes its checks waits for its frame boundary,
and there it has its effect; MOVE_WAIT answers or waits, and a dwell, a hard-stop time and a standstill delay end. The
clauses follow the model's choices of log entries 57, 60 and 61 where the spec leaves one. -/
def Obligations.MotionQueueAndHomingComplete : Prop :=
  (∀ (s : State) (st : Stall) (tag : BitVec 8) (c : Cmd), ∀ d : Dev, s.dev = d → d.motParam c = false → d.motState false c = false →
    d.runs st tag 0x510 c = true →
    exec (.profileLimits st tag) s = .next (s.on (fun _ => d.await st tag .atFrame)) ∧
    (∀ (dram : Memory) (y : Dev), y.motState true c = false →
      let a := axisOf c
      let d1 := (y.modMot a (Motion.sync y.clk)).modMot a (fun m =>
        { m with limits := Vector.ofFn (fun i : Fin 7 => wd c.payload (1 + i.val)) })
      applyCmd dram c y = (
        (match d1.mot[a].cur with
         | some e => if e.startClk < y.clk ∧ (e.move.v = 0 ∨ e.move.a = 0 ∨ e.move.j = 0) then d1.replan a else d1
         | none => d1).ok c []))) ∧
  (∀ (s : State) (st : Stall) (tag : BitVec 8) (c : Cmd), ∀ d : Dev, s.dev = d → d.motParam c = false → d.motState false c = false →
    d.runs st tag 0x511 c = true →
    exec (.moveQueue st tag) s = .next (s.on (fun _ => d.await st tag .atFrame)) ∧
    (∀ (dram : Memory) (y : Dev), y.motState true c = false →
      let a := axisOf c
      let n := fld (wd c.payload 0) 7 4
      applyCmd dram c y = (
        if y.mot[a].queue.length + n > 64 then y.reply c.stall c.tag stResource []
        else (y.modMot a (fun m => { m with queue := m.queue ++ (List.range n).map (moveOf c.payload) })).ok c []))) ∧
  (∀ (s : State) (st : Stall) (tag : BitVec 8) (c : Cmd), ∀ d : Dev, s.dev = d →
    let m := d.mot[axisOf c]
    let id := BitVec.ofNat 16 (fld (wd c.payload 0) 31 16)
    let runs := (match m.cur with | some e => e.move.id == id | none => false) || m.queue.any (fun q => q.id == id)
    let ended := m.ends.find? (fun e => e.1 == id)
    d.runs st tag 0x512 c = true → Passes (d.motChecks c ++ [(!runs && ended.isNone, stParam)]) →
    exec (.moveWait st tag) s = .next (s.on (fun _ =>
      if runs then d.await st tag .started
      else d.ok c [mkw [((ended.map (·.2.code)).getD 0, 0, 3)]]))) ∧
  (∀ (s : State) (a : AxisNo) (t : Nat), ∀ d : Dev, s.dev = d → d.mot[a].dwellUntil = some t → t ≤ d.clk + d.tickClks →
    exec (.dwellEnd a) s = .next (s.on (fun _ => d.modMot a (fun m => { m with dwellUntil := none })))) ∧
  (∀ (s : State) (st : Stall) (tag : BitVec 8) (c : Cmd), ∀ d : Dev, s.dev = d → d.motParam c = false → d.motState false c = false →
    d.runs st tag 0x520 c = true →
    exec (.homeConfig st tag) s = .next (s.on (fun _ => d.await st tag .atFrame)) ∧
    (∀ (dram : Memory) (y : Dev), y.motState true c = false →
      applyCmd dram c y = (
        ((y.modMot (axisOf c) (fun m => { m with homeConf := Vector.ofFn (fun i : Fin 10 => wd c.payload i.val) })).limitCheck
          (axisOf c)).ok c []))) ∧
  (∀ (s : State) (st : Stall) (tag : BitVec 8) (c : Cmd), ∀ d : Dev, s.dev = d → d.motParam c = false → d.motState false c = false →
    d.runs st tag 0x521 c = true →
    exec (.homeStart st tag) s = .next (s.on (fun _ => d.await st tag .atFrame)) ∧
    (∀ (dram : Memory) (y : Dev), y.motState true c = false →
      let a := axisOf c
      let m := y.mot[a]
      applyCmd dram c y = (
        if bitOf (wd c.payload 0) 4 then
          (if m.home.isSome then ((y.modMot a (Motion.sync y.clk)).failHome a 3).stopAxis a false 0 else y).ok c []
        else if m.method = 0 then
          ((y.setReference a (y.priPos a)).modMot a (fun m => { m with homeState := .done })).ok c [0]
        else
          let run : HomeRun := ⟨c.stall, c.tag, .search, false, false, m.p, none, false, none, [], []⟩
          let d1 := (y.modMot a (fun m => { m with src := 6, home := some run })).await c.stall c.tag .started
          match m.method with
          | 1 | 2 =>
            if y.inputActive m.homeIn (bitOf m.homeConf[0] 9) then d1.homeStart a .leave else d1.homeStart a .search
          | 3 => d1.homeStart a .index
          | 4 => d1.homeStart a .search
          | _ => d1.homeStart a .hard))) ∧
  (∀ (s : State) (a : AxisNo) (r : HomeRun) (t : Nat), ∀ d : Dev, s.dev = d → d.mot[a].home = some r → r.phase = .hard →
    r.hsSince = some t → t + d.mot[a].homeConf[6].toNat * clksPerMs ≤ d.clk + d.tickClks →
    exec (.homingHardStop a) s = .next (s.on (fun _ => d.hardStop a))) ∧
  (∀ (s : State) (a : AxisNo), ∀ d : Dev, s.dev = d → d.mtype a = 3 →
    d.mot[a].stillSince + d.mot[a].stillDelay.toNat * clksPerMs ≤ d.clk + d.tickClks →
    exec (.standstillDelay a) s = .next (s.on (fun _ => d.modMot a (fun m => { m with still := true }))))

/-- Followers, cams, path groups and step outputs (09 R361 to R370): a command that passes its checks waits for its frame
boundary, and there it has its effect. The clauses follow the model's choices of log entries 57 and 61 where the spec
leaves one. -/
def Obligations.FollowersAndPathsComplete : Prop :=
  (∀ (s : State) (st : Stall) (tag : BitVec 8) (c : Cmd), ∀ d : Dev, s.dev = d → d.motParam c = false → d.motState false c = false →
    d.runs st tag 0x530 c = true →
    exec (.gearConfig st tag) s = .next (s.on (fun _ => d.await st tag .atFrame)) ∧
    (∀ (dram : Memory) (y : Dev), y.motState true c = false →
      applyCmd dram c y = (y.modMot (axisOf c) (fun m => { m with gear := Vector.ofFn (fun i : Fin 7 => wd c.payload i.val) })).ok c [])) ∧
  (∀ (s : State) (st : Stall) (tag : BitVec 8) (c : Cmd), ∀ d : Dev, s.dev = d → d.motParam c = false → d.motState false c = false →
    d.runs st tag 0x531 c = true →
    exec (.gearEngage st tag) s = .next (s.on (fun _ => d.await st tag .atFrame)) ∧
    (∀ (dram : Memory) (y : Dev), y.motState true c = false →
      let p := c.payload
      let a := axisOf c
      let w := wd p 0
      applyCmd dram c y = (
        if bitOf w 4 then
          (y.modMot a (fun m =>
            { m with follow := .waiting, src := if bitOf m.gear[0] 4 then 5 else 4, engage := some ⟨bitOf w 5, s64 (wd p 1) (wd p 2)⟩,
                     camOrigin := if bitOf m.gear[0] 4 then s64 (wd p 3) (wd p 4) else m.camOrigin })).ok c []
        else (y.modMot a (fun m => { m with outAsked := true })).ok c []))) ∧
  (∀ (s : State) (st : Stall) (tag : BitVec 8) (c : Cmd), ∀ d : Dev, s.dev = d → d.motParam c = false → d.motState false c = false →
    d.runs st tag 0x532 c = true →
    exec (.camLoad st tag) s = .next (s.on (fun _ => d.await st tag .atFrame)) ∧
    (∀ (dram : Memory) (y : Dev), y.motState true c = false →
      let p := c.payload
      let w := wd p 0
      applyCmd dram c y = (
        (y.modMot (axisOf c) (fun m => { m with cams := vmod m.cams (Fin.ofNat 2 (fld w 4 4)) (fun t =>
          Mem.writes 0 t (2 * fld w 27 16) ((p.drop 2).take (2 * fld (wd p 1) 8 0))) })).ok c []))) ∧
  (∀ (s : State) (st : Stall) (tag : BitVec 8) (c : Cmd), ∀ d : Dev, s.dev = d → d.motParam c = false → d.motState false c = false →
    d.runs st tag 0x533 c = true →
    exec (.camSelect st tag) s = .next (s.on (fun _ => d.await st tag .atFrame)) ∧
    (∀ (dram : Memory) (y : Dev), y.motState true c = false →
      let a := axisOf c
      let w := wd c.payload 0
      applyCmd dram c y = (
        if bitOf w 5 then
          (y.modMot a (fun m => { m with camPending := some ⟨w, c.stall, c.tag⟩ })).await c.stall c.tag .started
        else (y.modMot a (Motion.selectCam w)).ok c []))) ∧
  (∀ (s : State) (st : Stall) (tag : BitVec 8) (c : Cmd), ∀ d : Dev, s.dev = d → d.motParam c = false → d.motState false c = false →
    d.runs st tag 0x534 c = true →
    exec (.masterPublish st tag) s = .next (s.on (fun _ => d.await st tag .atFrame)) ∧
    (∀ (dram : Memory) (y : Dev), y.motState true c = false →
      let w := wd c.payload 0
      let s := BitVec.ofNat 16 (fld w 15 0)
      let t := BitVec.ofNat 16 (fld w 31 16)
      let plan := plannedBytes (masterCount s t) y.ringOutCount (safetyBytes y.safeSet) y.ring.conf.acycBytes.toNat
      applyCmd dram c y = (
        if decide (masterCount s t > masterCount y.mu.setMask y.mu.actMask) && y.breaksCycle plan then
          y.reply c.stall c.tag stResource []
        else Dev.ok c [] { y with mu := { y.mu with setMask := s, actMask := t } }))) ∧
  (∀ (s : State) (st : Stall) (tag : BitVec 8) (c : Cmd), ∀ d : Dev, s.dev = d → d.motParam c = false → d.motState false c = false →
    d.runs st tag 0x540 c = true →
    exec (.pathGroup st tag) s = .next (s.on (fun _ => d.await st tag .atFrame)) ∧
    (∀ (dram : Memory) (y : Dev), y.motState true c = false →
      let p := c.payload
      let w := wd p 0
      let g := groupNo c
      let others := ((List.finRange 8).filter (fun h => h != g)).foldl (fun n h => n + y.mu.groups[h].lookahead.toNat) 0
      applyCmd dram c y = (
        if bitOf w 3 then (y.modGroup g (fun _ => PathGroup.reset)).ok c []
        else if others + (wd p 1).toNat > 8192 then y.reply c.stall c.tag stResource []
        else
          (y.modGroup g (fun x =>
            { x with members := BitVec.ofNat 16 (fld w 31 16), lookahead := BitVec.ofNat 16 (wd p 1).toNat, aPath := wd p 2,
                     jPath := wd p 3, cornerDv := wd p 4, queue := [], s := 0, v := 0, a := 0 })).ok c []))) ∧
  (∀ (s : State) (st : Stall) (tag : BitVec 8) (c : Cmd), ∀ d : Dev, s.dev = d → d.motParam c = false → d.motState false c = false →
    d.runs st tag 0x541 c = true →
    exec (.pathAppend st tag) s = .next (s.on (fun _ => d.await st tag .atFrame)) ∧
    (∀ (dram : Memory) (y : Dev), y.motState true c = false →
      let g := groupNo c
      let x := y.mu.groups[g]
      let n := fld (wd c.payload 0) 15 8
      applyCmd dram c y = (
        match parseSegs x.axes.length n 0 (c.payload.drop 1) [] with
        | .error i => y.respond c.stall c.tag stParam [mkw [(i, 0, 16)]]
        | .ok segs =>
          if x.queue.length + segs.length > 65535 then y.reply c.stall c.tag stResource [0]
          else
            (y.modGroup g (fun x => { x with queue := x.queue ++ segs,
                                             segId := if x.queue.isEmpty then BitVec.ofNat 16 (fld (wd (segs.headD []) 0) 31 16) else x.segId })).ok
              c [0]))) ∧
  (∀ (s : State) (st : Stall) (tag : BitVec 8) (c : Cmd), ∀ d : Dev, s.dev = d → d.motParam c = false → d.motState false c = false →
    d.runs st tag 0x542 c = true →
    exec (.pathControl st tag) s = .next (s.on (fun _ => d.await st tag .atFrame)) ∧
    (∀ (dram : Memory) (y : Dev), y.motState true c = false →
      let g := groupNo c
      let x := y.mu.groups[g]
      applyCmd dram c y = (
        match fld (wd c.payload 0) 5 4 with
        | 0 =>
          let d1 := y.modGroup g (fun x =>
            { x with state := .running, starved := false, hlStop := false, quick := false, s := 0, v := 0, a := 0, dwellUntil := none,
                     start := Vector.ofFn (fun a : Fin 16 => y.mot[a].p) })
          (x.axes.foldl (fun y a => y.modMot a (fun m =>
            { m with src := 3, profile := none, still := false, stillF := 2 ^ 19, stillSince := y.clk })) d1).ok c []
        | 1 => (y.stopGroup g false).ok c []
        | _ => (y.modGroup g (fun x => { x with queue := [] })).ok c []))) ∧
  (∀ (s : State) (st : Stall) (tag : BitVec 8) (c : Cmd), ∀ d : Dev, s.dev = d → d.motParam c = false → d.motState false c = false →
    d.runs st tag 0x550 c = true →
    exec (.stepConfig st tag) s = .next (s.on (fun _ => d.await st tag .atFrame)) ∧
    (∀ (dram : Memory) (y : Dev), y.motState true c = false →
      let p := c.payload
      let w := wd p 0
      let n : Fin 8 := Fin.ofNat 8 (fld w 2 0)
      applyCmd dram c y = (
        Dev.ok c [] { y with mu := { y.mu with sd := vmod y.mu.sd n (fun x =>
          { x with en := bitOf w 3, dirInv := bitOf w 4, stepLow := bitOf w 5, stepsPerTurn := BitVec.ofNat 24 (fld (wd p 1) 23 0),
                   pulse := BitVec.ofNat 8 (fld (wd p 2) 7 0), dirSetup := BitVec.ofNat 8 (fld (wd p 2) 15 8),
                   maxRate := BitVec.ofNat 16 (fld (wd p 2) 31 16), active := false, lag := 0, plan := 0, carry := 0 }) } }))) ∧
  (∀ (s : State) (st : Stall) (tag : BitVec 8) (c : Cmd), ∀ d : Dev, s.dev = d → d.motParam c = false → d.motState false c = false →
    d.runs st tag 0x551 c = true →
    exec (.standstillConfig st tag) s = .next (s.on (fun _ => d.await st tag .atFrame)) ∧
    (∀ (dram : Memory) (y : Dev), y.motState true c = false →
      let p := c.payload
      applyCmd dram c y = (
        (y.modMot (axisOf c) (fun m => { m with stillFrac := (wd p 1).toInt, stillDelay := BitVec.ofNat 16 (fld (wd p 2) 15 0),
                                                stillRamp := BitVec.ofNat 16 (fld (wd p 2) 31 16) })).ok c [])))

/-- What a motion command does at its frame boundary (09 R350 to R370), its state check passing there again. The clauses
follow the model's choices of log entries 57, 60 and 61 where the spec leaves one. -/
def Obligations.MotionCommandsApply : Prop :=
  ∀ (m : Memory) (d : Dev) (c : Cmd), d.motState true c = false →
    (c.code.toNat = 0x501 → applyCmd m c d =
      (((bitsOf 16 (fld (wd c.payload 0) 15 0)).map ax).foldl (fun d a =>
        ((d.modMot a (Motion.sync d.clk)).modMot a (fun m =>
          { m with ovr := BitVec.ofNat 14 (fld (wd c.payload 0) 29 16) })).replan a) d).ok c []) ∧
    (c.code.toNat = 0x502 → applyCmd m c d =
      (d.modMot (axisOf c) (fun m => { m with ratioAsked := some (wd c.payload 1, wd c.payload 2) })).ok c []) ∧
    (c.code.toNat = 0x503 → applyCmd m c d =
      (((((d.modMot (axisOf c) (Motion.sync d.clk)).endMoves (axisOf c) .replaced .flushed).modMot (axisOf c) (fun m =>
        { m with src := 2, jogVel := (wd c.payload 1).toInt, overshoot := false, stopKind := 0, still := false, stillF := 2 ^ 19,
                 stillSince := d.clk })).replan (axisOf c))).ok c []) ∧
    (c.code.toNat = 0x504 → applyCmd m c d =
      (((bitsOf 16 (fld (wd c.payload 0) 15 0)).map ax).foldl (fun d a => d.stopOne (bitOf (wd c.payload 0) 16) a) d).ok c []) ∧
    (c.code.toNat = 0x511 → d.mot[axisOf c].queue.length + fld (wd c.payload 0) 7 4 ≤ 64 → applyCmd m c d =
      (d.modMot (axisOf c) (fun m =>
        { m with queue := m.queue ++ (List.range (fld (wd c.payload 0) 7 4)).map (moveOf c.payload) })).ok c []) ∧
    (c.code.toNat = 0x511 → 64 < d.mot[axisOf c].queue.length + fld (wd c.payload 0) 7 4 →
      applyCmd m c d = d.reply c.stall c.tag stResource []) ∧
    (c.code.toNat = 0x530 → applyCmd m c d =
      (d.modMot (axisOf c) (fun m => { m with gear := Vector.ofFn (fun i : Fin 7 => wd c.payload i.val) })).ok c []) ∧
    (c.code.toNat = 0x534 → d.ring.fn = .off → applyCmd m c d =
      Dev.ok c [] { d with mu := { d.mu with setMask := BitVec.ofNat 16 (fld (wd c.payload 0) 15 0),
                                             actMask := BitVec.ofNat 16 (fld (wd c.payload 0) 31 16) } }) ∧
    (c.code.toNat = 0x540 → bitOf (wd c.payload 0) 3 = true →
      applyCmd m c d = (d.modGroup (groupNo c) (fun _ => PathGroup.reset)).ok c []) ∧
    (c.code.toNat = 0x551 → applyCmd m c d =
      (d.modMot (axisOf c) (fun m =>
        { m with stillFrac := (wd c.payload 1).toInt, stillDelay := BitVec.ofNat 16 (fld (wd c.payload 2) 15 0),
                 stillRamp := BitVec.ofNat 16 (fld (wd c.payload 2) 31 16) })).ok c [])

/-- A command that waits for a tick or a frame boundary has its effect there, whole (03 R95): where one command is due, the
boundary applies it, or times it out where its limit has passed (03 R98); a frame boundary is a tick boundary, and where no
command is due nothing applies. CoefSwap, which waits in its bank, has its own statement. While the active management pair changes, only it applies (14 R541). -/
def Obligations.WaitingCommandsApply : Prop :=
  (∀ (d : Dev) (c : Cmd), d.sv.mpChange = .none → (c.phase = .atTick → d.dueNow c = true) ∧ (c.phase = .atFrame → d.isFrame = true → d.dueNow c = true)) ∧
  (∀ (m : Memory) (d : Dev), d.hp.inFlight.filter d.dueNow = [] → d.applyWaiting m = d) ∧
  (∀ (m : Memory) (d : Dev) (c : Cmd), d.hp.inFlight.filter d.dueNow = [c] → d.cmd? c.stall c.tag = some c → c.code ≠ 0x231 →
    (d.expired c = false → d.applyWaiting m = applyCmd m c d) ∧ (d.expired c = true → d.applyWaiting m = d.timeOut c))

/-- Capture (10 R377 to R389, R401 to R406): the commands, the two registers that act, the timers of a unit and the skew
calibration. The clauses follow the model's choices of log entries 44, 47 and 82 where the spec leaves one. -/
def Obligations.CaptureRowsComplete : Prop :=
  (∀ (s : State) (st : Stall) (tag : BitVec 8) (c : Cmd), ∀ d : Dev, s.dev = d → d.runs st tag 0x800 c = true →
    exec (.captureClaim st tag) s = .next (s.on (fun _ => d.await st tag .atTick))) ∧
  (∀ (m : Memory) (d : Dev) (c : Cmd), c.code.toNat = 0x800 →
    let w := wd c.payload 0
    let u := unitOf c
    let x := d.cap.units[u]
    let rel := bitOf w 4
    let take := bitOf w 5
    Passes [(noWord c, stParam), (!rel && !take && x.claimed, stResource), ((rel && x.claimed && x.stall != c.stall) || (take && !d.isOwner c.stall), stNotOwner), (badLen c 1 || rsv w 0xFFFFFFC8 || (rel && take), stParam)] →
    applyCmd m c d = (
      (d.modUnit u (fun _ =>
        if rel then CapUnit.reset else { CapUnit.reset with claimed := true, stall := c.stall })).ok c [])) ∧
  (∀ (s : State) (st : Stall) (tag : BitVec 8) (c : Cmd), ∀ d : Dev, s.dev = d → d.runs st tag 0x801 c = true →
    exec (.captureConfig st tag) s = .next (s.on (fun _ => d.await st tag .atTick))) ∧
  (∀ (m : Memory) (d : Dev) (c : Cmd), c.code.toNat = 0x801 →
    let u := unitOf c
    let place := firstFit (d.allotted u) (capBuf c.payload * 2097152)
    let cl := d.capClamp c.payload
    let clamped := cl.1 != (wd c.payload 2).toNat || cl.2 != (wd c.payload 3).toNat
    Passes [(noWord c, stParam), (!d.claims u c.stall, stNotOwner), (d.cap.units[u].active, stState), (capConfBad c, stParam), (place.isNone || (bitOf (wd c.payload 0) 14 && d.breaksCycle (d.capRingBytes u)), stResource)] →
    applyCmd m c d = (d.modUnit u (fun x => { CapUnit.reset with state := .idle, claimed := true, stall := c.stall, ringLate := x.ringLate, ringSkip := x.ringSkip, clamped := x.clamped || clamped, base := BitVec.ofNat 64 (place.getD 0), segBytes := BitVec.ofNat 32 (capSegBytes c.payload), conf := c.payload, trigHead := x.trigHead, trig := x.trig, preN := cl.1, postN := cl.2 })).ok c []) ∧
  (∀ (s : State) (st : Stall) (tag : BitVec 8) (c : Cmd), ∀ d : Dev, s.dev = d → d.runs st tag 0x802 c = true →
    exec (.captureTrigger st tag) s = .next (s.on (fun _ => d.await st tag .atTick))) ∧
  (∀ (m : Memory) (d : Dev) (c : Cmd), c.code.toNat = 0x802 →
    let u := unitOf c
    let x := d.cap.units[u]
    let sts := stagesOf c.payload
    Passes [(noWord c, stParam), (!d.claims u c.stall, stNotOwner), (x.state == .free || x.active, stState), (c.payload.length != 1 + 4 * sts.length || rsv (wd c.payload 0) 0xFFFFFFC8 || sts.any stageBad || sts.any (fun s => decide (fld (wd s 0) 7 4 ≥ capNch x.conf)), stParam)] →
    applyCmd m c d = (d.modUnit u (fun x => { x with trigHead := wd c.payload 0, trig := sts })).ok c []) ∧
  (∀ (s : State) (st : Stall) (tag : BitVec 8) (c : Cmd), ∀ d : Dev, s.dev = d →
    d.runs st tag 0x803 c = true → Passes (d.capControlChecks c) →
    exec (.captureControl st tag) s = .next (s.on (fun _ => d.await st tag .atTick))) ∧
  (∀ (s : State) (st : Stall) (tag : BitVec 8) (c : Cmd), ∀ d : Dev, s.dev = d →
    let w := wd c.payload 0
    d.runs st tag 0x810 c = true → Passes [((bitOf w 0 && d.dieBusy 0) || (bitOf w 1 && d.dieBusy 1), stState), (badLen c 1 || rsv w 0xFFFFFFFC || fld w 1 0 == 0, stParam)] →
    exec (.skewCal st tag) s = .next (s.on (fun _ =>
      { d.await st tag .started with cap := { d.cap with skewRun := Vector.ofFn (fun g : Fin 2 =>
        if bitOf w g.val then some (st, tag) else d.cap.skewRun[g]) } }))) ∧
  (∀ (s : State) (st : Stall) (tag : BitVec 8) (c : Cmd), ∀ d : Dev, s.dev = d →
    d.runs st tag 0x811 c = true → Passes (d.adcChecks c) →
    exec (.adcConfig st tag) s = .next (s.on (fun _ => d.await st tag .atFrame))) ∧
  (∀ (s : State) (st : Stall) (u : Fin 8), ∀ d : Dev, s.dev = d → d.present st = true → d.claims u st = true →
    d.cap.units[u].state = .waiting →
    exec (.capCtrlForce st u) s = .next (s.on (fun _ => d.trigger s.dram u ⟨d.tick, 2, none, d.ring.addr⟩))) ∧
  (∀ (s : State) (st : Stall) (u : Fin 8) (mask : W32), ∀ d : Dev, s.dev = d → d.present st = true → d.claims u st = true →
    d.cap.units[u].state ≠ .halted →
    exec (.capDoneRelease st u mask) s = .next (s.on (fun _ => d.modUnit u (fun x => { x with done := x.done &&& ~~~mask })))) ∧
  (∀ (s : State) (u : Fin 8) (g : List W32), ∀ d : Dev, s.dev = d → ∀ x : CapUnit, d.cap.units[u] = x →
    x.trig[x.stage.toNat]? = some g → x.state = .waiting → 0 < (wd g 3).toNat → 0 < x.written →
    x.stageTick + (wd g 3).toNat ≤ x.lastTick →
    (bitOf (wd g 0) 8 = true → exec (.stageTimeout u) s = .next (s.on (fun _ =>
      (d.trigger s.dram u ⟨x.lastTick, 0, none, d.ring.addr⟩).modUnit u (fun y => { y with stageTick := d.tick })))) ∧
    (bitOf (wd g 0) 8 = false → exec (.stageTimeout u) s = .next (s.on (fun _ =>
      d.modUnit u (fun x => { x with stage := 0, stageCount := 0, crossArmed := false, stageTick := x.lastTick }))))) ∧
  (∀ (s : State) (u : Fin 8), ∀ d : Dev, s.dev = d → ∀ x : CapUnit, d.cap.units[u] = x →
    capMode x.conf = 2 → x.state = .waiting → x.waitTick + (wd x.conf 4).toNat ≤ d.tick →
    exec (.autoTrigger u) s = .next (s.on (fun _ => d.trigger s.dram u ⟨d.tick, 3, none, d.ring.addr⟩))) ∧
  (∀ (s : State) (g : Fin 2) (v : List Int) (k : Stall × BitVec 8), ∀ d : Dev, s.dev = d → d.cap.skewRun[g] = some k →
    (∀ d1 : Dev, d.fire 102 .device = d1 → exec (.skewCalDone g false v) s = .next (s.on (fun _ =>
      ({ d1 with cap := { d1.cap with skewRun := vset d1.cap.skewRun g none } }).skewEnd))) ∧
    (((List.range 48).all (fun i => decide (-256 ≤ v.getD i 0 ∧ v.getD i 0 ≤ 256))) = true →
      exec (.skewCalDone g true v) s = .next (s.on (fun _ =>
        ({ d with cap := { d.cap with skewNew := vset d.cap.skewNew g (some v),
                                      skewRun := vset d.cap.skewRun g none } }).skewEnd)))) ∧
  (∀ (d : Dev) (i : Fin 96) (v : List Int), d.cap.skewNew[(Fin.ofNat 2 (i.val / 48) : Fin 2)] = some v →
    d.skewTick.cap.trims[i].skewCal = BitVec.ofInt 10 (v.getD (i.val % 48) 0)) ∧
  (∀ (m : Memory) (d : Dev) (c : Cmd) (u : Fin 8), c.code.toNat = 0x803 → unitOf c = u → fld (wd c.payload 0) 5 4 = 0 →
    Passes (d.capControlChecks c) → applyCmd m c d = (d.armUnit u).ok c []) ∧
  (∀ (m : Memory) (d : Dev) (c : Cmd), c.code.toNat = 0x811 → Passes (d.adcChecks c) → applyCmd m c d =
    (({ d with cap := { d.cap with
        avgMode := vset d.cap.avgMode (axisOf c) (fld (wd c.payload 0) 5 4 == 1),
        lsSettle := vset d.cap.lsSettle (axisOf c) (BitVec.ofNat 8 (fld (wd c.payload 0) 15 8)) } }).setTrims (axisOf c)
      (BitVec.ofNat 10 (fld (wd c.payload 1) 9 0))).ok c [])

/-- The DMA channels (10 R390 to R396, R400): a channel is claimed and released, a chain starts, and a running one
aborts or goes on. The clauses follow the model's choices of log entries 5, 48 and 49 where the spec leaves one. -/
def Obligations.DmaRowsComplete : Prop :=
  (∀ (s : State) (st : Stall) (ch : Fin 8), ∀ d : Dev, s.dev = d → d.present st = true → d.cap.dma[ch].claimed = false →
    exec (.dmaClaim st ch) s = .next (s.on (fun _ => d.modDma ch (fun c => { c with claimed := true, stall := st })))) ∧
  (∀ (s : State) (st : Stall) (ch : Fin 8), ∀ d : Dev, s.dev = d → d.present st = true → d.cap.dma[ch].claimed = true →
    d.cap.dma[ch].stall = st →
    exec (.dmaRelease st ch) s = .next (s.on (fun _ => d.modDma ch (fun c => c.leave st))) ∧
    (d.cap.dma[ch].state = .running → exec (.dmaAbort st ch) s =
      .next (s.on (fun _ => d.modDma ch (fun c => if c.state == .running then { c with abort := true } else c)))) ∧
    (∀ f : Option (List W32), d.cap.dma[ch].state ≠ .running → exec (.dmaStart st ch f) s =
      .next (s.on (fun _ => (d.modDma ch (fun c => { c with doneCnt := 0 })).dmaFetch s.dram ch d.cap.dma[ch].desc f)))) ∧
  (∀ (s : State) (ch : Fin 8) (n : Nat) (bs : List Byte), ∀ d : Dev, s.dev = d → ∀ c : DmaChan, d.cap.dma[ch] = c →
    c.state = .running → c.abort = true → preError c.ofS0 c.words = 0 → n < descCount c.words →
    exec (.dmaAbortEffect ch n bs) s = .next (s.on (fun _ =>
      (((d.dmaEnd s.dram ch n bs 7).dmaIrq ch (dmaBad + dmaHalt)).fire 101 .device).dmaStop ch .halted))) ∧
  (∀ (s : State) (ch : Fin 8) (o : DmaOutcome) (f : Option (List W32)) (n : Nat) (bs : List Byte),
    ∀ d : Dev, s.dev = d → ∀ c : DmaChan, d.cap.dma[ch] = c →
    c.state = .running → dmaResult c o = (n, 0, bs) → bitOf (wd c.words 0) 0 = false → descLast c.words = true →
    exec (.dmaDescriptorEnd ch o f) s = .next (s.on (fun _ => (d.dmaEnd s.dram ch n bs 0).dmaStop ch .idle)))

/-- The commands of the ring (11 R413 to R425, R449 to R452) and how a node joins, leaves, sends and goes on past a
broken port. The clauses follow the model's choices of log entries 24 and 99 where the spec leaves one. -/
def Obligations.RingLinkRowsComplete : Prop :=
  (∀ (s : State) (st : Stall) (tag : BitVec 8) (c : Cmd), ∀ d : Dev, s.dev = d →
    let w := wd c.payload 0
    let w1 := wd c.payload 1
    let acyc := fld w1 31 16
    let et := fld w1 15 0
    let tmo := (wd c.payload 2).toNat
    let own := plannedBytes (masterCount d.mu.setMask d.mu.actMask) d.ringOutCount (safetyBytes d.safeSet) acyc
    d.runs st tag 0x600 c = true → Passes [(badLen c 3 || rsv w 0xFC001FFF || (bitOf w 15 && bitOf w 14) || !(acyc == 0 || (64 ≤ acyc && acyc ≤ 4096 && acyc % 4 == 0)) || et < 0x600 || et == 0x88F7 || tmo < 10 || tmo > 10000, stParam), (acyc > d.ring.stored.acycBytes.toNat && d.breaksCycle own, stResource)] →
    exec (.ringConfig st tag) s = .next (s.on (fun _ => (d.modRing (fun r => { r with stored := { addrSet := if bitOf w 15 then true else if bitOf w 14 then false else r.stored.addrSet, addr := if bitOf w 15 then BitVec.ofNat 10 (fld w 25 16) else if bitOf w 14 then 0 else r.stored.addr, autoStart := bitOf w 13, acycBytes := BitVec.ofNat 16 acyc, etherType := BitVec.ofNat 16 et, timeoutMs := BitVec.ofNat 14 tmo } })).ok c []))) ∧
  (∀ (s : State) (st : Stall) (tag : BitVec 8) (c : Cmd), ∀ d : Dev, s.dev = d → d.runs st tag 0x602 c = true →
    exec (.remoteStallConfig st tag) s = .next (s.on (fun _ => d.await st tag .atTick))) ∧
  (∀ (m : Memory) (d : Dev) (c : Cmd), c.code.toNat = 0x602 →
    let w := wd c.payload 0
    let sel := fld w 2 0
    let i : Fin 4 := Fin.ofNat 4 (sel + 2)
    Passes [(badLen c 1 || rsv w 0xFC00FFC0 || sel < 2 || sel > 5, stParam), (sel == c.stall.val, stState)] →
    applyCmd m c d = (
      if bitOf w 5 then (if d.ring.remote[i].connected then d.endRemote i else d).ok c []
      else
        let d1 := d.modRemote i (fun r => { r with enabled := bitOf w 3, any := bitOf w 4, node := BitVec.ofNat 10 (fld w 25 16) })
        let r := d1.ring.remote[i]
        let out := !r.enabled || (!r.any && (r.peerHop || r.peer != r.node))
        (if r.connected && out then d1.endRemote i else d1).ok c [])) ∧
  (∀ (s : State) (st : Stall) (tag : BitVec 8) (c : Cmd), ∀ d : Dev, s.dev = d → ∀ w : W32, wd c.payload 0 = w →
    d.runs st tag 0x601 c = true → badLen c 1 = false → rsv w 0xFFFFFFFC = false →
    (fld w 1 0 = 0 → d.ring.fn = .off → d.breaksCycle d.ownBytes = false →
      exec (.ringControl st tag) s = .next (s.on (fun _ => d.ringListen.ok c []))) ∧
    (fld w 1 0 = 1 → d.ring.fn = .active → exec (.ringControl st tag) s = .next (s.on (fun _ =>
      (d.ok c []).modRing (fun r => { r with leave := if r.leave = 0 then 1 else r.leave })))) ∧
    (fld w 1 0 = 2 → exec (.ringControl st tag) s = .next (s.on (fun _ => d.ringClear.ok c [])))) ∧
  (∀ (s : State) (a b : Bool), ∀ d d1 : Dev, s.dev = d →
    (d.modPort false (fun p => { p with lock := a, rfault := p.rfault && !a })).modPort true (fun p =>
      { p with lock := b, rfault := p.rfault && !b }) = d1 →
    ((a && b) = false → exec (.blockLock a b) s = .next (s.on (fun _ => d1))) ∧
    (a = true → b = true → d.ring.fn = .listen → d.hp.devReady = true →
      exec (.blockLock a b) s = .next (s.on (fun _ => d1.tryJoin))) ∧
    (a = true → b = true → d.ring.fn = .joining → d.ring.opened = true → exec (.blockLock a b) s = .next (s.on (fun _ =>
      d1.modRing (fun r => { r with fn := .active, joinFail := false, leave := 0, seen := [] }))))) ∧
  (∀ (s : State), ∀ d : Dev, s.dev = d → d.ring.fn = .joining →
    (d.ring.opened = false → exec .insertWindow s = .next (s.on (fun _ => d.openBypass))) ∧
    (d.ring.opened = true → d.past d.ring.joinClk clksPerMs = true →
      exec .joinTimeout s = .next (s.on (fun _ => d.ringListen.modRing (fun r => { r with joinFail := true }))))) ∧
  (∀ (s : State), ∀ d : Dev, s.dev = d → d.ring.fn = .listen → d.hp.devReady = true →
    max d.ring.listenCycle d.ring.heardCycle + 3 ≤ d.ownCycle →
    exec .listenTimeout s = .next (s.on (fun _ =>
      if d.tryJoin.ring.fn == .joining then d.tryJoin.openBypass else d.tryJoin))) ∧
  (∀ (s : State), ∀ d : Dev, s.dev = d → d.ring.fn = .active →
    ∃ t, exec .cycleFrameSend s = .next t ∧ t = s.on doCycleFrameSend) ∧
  (∀ (s : State) (b : Bool) (f : RingFrame), ∀ d : Dev, s.dev = d → d.ring.fn = .active → f.hdr.nonce ≠ d.ring.nonce →
    (exec (.cycleFrame b .bad f) s = .next (s.on (fun _ => (d.crcError b).forwardBad b))) ∧
    (exec (.cycleFrame b .inverted f) s = .next (s.on (fun _ => d.forwardBad b))) ∧
    (f.etherType ≠ d.ring.conf.etherType → exec (.cycleFrame b .good f) s = .next (s.on (doForeignFrame b))) ∧
    (f.etherType = d.ring.conf.etherType → ((d.forward b f).ring.seen.any (fun x => x.1 == (nodeKey f.hdr, f.hdr.cycleNo, f.hdr.fragIdx))) = true →
      exec (.cycleFrame b .good f) s = .next (s.on (fun _ => d.forward b f))) ∧
    (∀ d0 d1 d2 d3 : Dev, d.forward b f = d0 →
      d0.modRing (fun r => { r with seen := r.seen ++ [((nodeKey f.hdr, f.hdr.cycleNo, f.hdr.fragIdx), d0.ownCycle)] }) = d1 →
      (d1.hearNode f).hearGm b f = d2 → (d2.hearMasters f).hearTriggers s.dram f = d3 → f.etherType = d.ring.conf.etherType →
      (d0.ring.seen.any (fun x => x.1 == (nodeKey f.hdr, f.hdr.cycleNo, f.hdr.fragIdx))) = false →
      (d1.ring.fn == .active && d1.ring.addrValid && f.hdr.addrValid && f.hdr.origin == d1.ring.addr) = false →
      d2.ring.fn = .active → d2.ring.tickMismatch = false → f.hdr.addrValid = true →
      d3.cyclesBehind f.hdr ≠ 1 →
      exec (.cycleFrame b .good f) s = .next (s.on (fun _ => d3.hearFragments f)))) ∧
  (∀ (s : State) (b : Bool), exec (.foreignFrame b) s = .next (s.on (Dev.modPort b (fun p =>
    { p with foreign := BitVec.ofNat 32 (satU 32 (p.foreign.toNat + 1)) })))) ∧
  (∀ (s : State) (k : BitVec 10) (n : NodeInfo), ∀ d : Dev, s.dev = d → Mem.read none d.ring.nodes k.toNat = some n →
    n.leaving = false → n.missing = false → n.heard + 3 ≤ d.ownCycle →
    exec (.nodeMissing k) s = .next (s.on (fun _ => (d.modRing (fun r =>
      { r with nodes := Mem.write none r.nodes k.toNat (some { n with missing := true }) })).fire 111 .device))) ∧
  (∀ (s : State) (b lock rfault : Bool), ∀ d : Dev, s.dev = d → d.ring.fn = .active → (d.ring.port b).brk = false →
    d.ring.healed = false → exec (.portBreak ⟨b, lock, rfault⟩) s = .next (s.on (fun _ =>
      (((d.modPort b (fun p =>
        { p with brk := true, lock := lock, rfault := rfault, restore := 0, peerRestore := false })).modRing
          (Ring.setLoop b true)).fire 110 .device).heal))) ∧
  (∀ (s : State) (b : Bool), ∀ d : Dev, s.dev = d → (d.ring.port b).brk = true → (d.ring.port b).restore = 0 →
    exec (.portRestore b) s = .next (s.on (fun _ =>
      d.modPort b (fun p => { p with restore := 1, lock := true, rfault := false }))))

/-- The acyclic messages a node takes for its remote stalls (11 R429 to R433): connect, disconnect, keep-alive, read,
write, command. The clauses follow the model's choices of log entry 22 where the spec leaves one. -/
def Obligations.RemoteStallRowsComplete : Prop :=
  (∀ (s : State) (src : BitVec 10) (tr : BitVec 16), exec (.acyclicFragmentTimeout src tr) s =
    .next (s.on (fun d => d.modRing (fun r => { r with partials := r.partials.filter (fun p =>
      !(p.src == src && p.trans == tr && decide (d.ownCycle ≥ p.cycle + 16))) })))) ∧
  (∀ (s : State) (m : AcycMsg) (i : Fin 4), ∀ d : Dev, s.dev = d → ∀ e : BitVec 16,
    d.ring.fn = .active → d.ring.conf.acycBytes ≠ 0 → (∀ k : Fin 4, d.ring.remote[k].of m = false) →
    fld (wd m.data 0) 2 0 = i.val + 2 → d.ring.remote[i].admits m = true → d.ring.remote[i].connected = false →
    d.ring.remote[i].epoch + 1 = e →
    exec (.ringConnect m) s = .next (s.on (fun _ =>
      (d.modRemote i (fun r => { r with epoch := e, connected := true, peer := m.src, peerHop := m.srcUnset, lastClk := d.clk,
                                        trans := [], irqDue := false })).sendMsg (replyTo m kAccept 0 e (i.val + 2) [])))) ∧
  (∀ (s : State) (m : AcycMsg) (i : Fin 4), ∀ d : Dev, s.dev = d →
    (List.finRange 4).find? (fun k => d.ring.remote[k].of m && d.ring.remote[k].epoch == m.epoch &&
      m.stall.toNat == k.val + 2) = some i →
    exec (.ringDisconnect m) s = .next (s.on (fun _ => d.endRemote i))) ∧
  (∀ (s : State) (m : AcycMsg) (i : Fin 4), ∀ d : Dev, s.dev = d → ∀ d1 : Dev,
    d.heardPeer m = d1 →
    d.ring.fn = .active → m.stall.toNat = i.val + 2 → d.ring.remote[i].of m = true → d.ring.remote[i].epoch = m.epoch →
    exec (.ringKeepalive m) s = .next (s.on (fun _ => d1)) ∧
    (d1.ring.remote[i].trans.find? (fun t => t.trans == m.trans) = none →
      (∀ (e : Bool) (r : List W32 × Dev),
        d1.readChecked s.dram (remoteStall i) (4 * fld (wd m.data 0) 23 0) (fld (wd m.data 0) 31 24 + 1) e = r →
        exec (.ringRead ⟨m, e⟩) s = .next (s.on (fun _ =>
          ((r.2.answer r.1 false).modRemote i (fun q =>
            { q with trans := (⟨m.trans, none, [replyTo m kReadData 0 m.epoch m.stall.toNat r.1]⟩ :: q.trans).take 32 })).sendMsg
              (replyTo m kReadData 0 m.epoch m.stall.toNat r.1)))) ∧
      exec (.ringCommand m) s = .next (s.on (fun _ =>
        ((d1.deliver (remoteStall i) (wd m.data 0) (m.data.drop 1)).modRemote i (fun q =>
          { q with trans := (⟨m.trans, some (BitVec.ofNat 8 (fld (wd m.data 0) 19 12)),
                              [replyTo m kAck 0 m.epoch m.stall.toNat []]⟩ :: q.trans).take 32 })).sendMsg
            (replyTo m kAck 0 m.epoch m.stall.toNat [])))) ∧
    (∀ t : TransRec, d1.ring.remote[i].trans.find? (fun t => t.trans == m.trans) = some t →
      exec (.ringWrite m) s = .next (s.on (fun _ => t.replies.foldl (fun d x => d.sendMsg x) d1)) ∧
      exec (.ringCommand m) s = .next (s.on (fun _ => t.replies.foldl (fun d x => d.sendMsg x) d1)))) ∧
  (∀ (s : State) (m : AcycMsg) (i : Fin 4), ∀ d : Dev, s.dev = d → ∀ d1 e : Dev,
    d.heardPeer m = d1 →
    d.ring.fn = .active → m.stall.toNat = i.val + 2 → d.ring.remote[i].of m = true → d.ring.remote[i].epoch = m.epoch →
    d1.ring.remote[i].trans.find? (fun t => t.trans == m.trans) = none →
    (d1.modStall (remoteStall i) (fun s => { s with accessErr := false, overrun := false })).writeBurst s.dram (remoteStall i)
      (4 * fld (wd m.data 0) 23 0) (m.data.drop 1) = e →
    ∀ r, replyTo m kWriteDone (b2n e.hp.stalls[remoteStall i].accessErr + 2 * b2n e.hp.stalls[remoteStall i].overrun) m.epoch
      m.stall.toNat [] = r →
    exec (.ringWrite m) s = .next (s.on (fun _ =>
      ((d1.writeBurst s.dram (remoteStall i) (4 * fld (wd m.data 0) 23 0) (m.data.drop 1)).modRemote i (fun q =>
        { q with trans := (⟨m.trans, none, [r]⟩ :: q.trans).take 32 })).sendMsg r))) ∧
  (∀ (s : State) (i : Fin 4), ∀ d : Dev, s.dev = d → d.ring.remote[i].connected = true →
    d.past d.ring.remote[i].lastClk (d.ring.conf.timeoutMs.toNat * clksPerMs) = true →
    exec (.remoteStallTimeout (remoteStall i)) s = .next (s.on (fun _ => (d.endRemote i).fire 117 .device)))

/-- The proxied commands of a node's own stalls (11 R454): the command, the replies it can get, and its timers. The
clauses follow the model's choices of log entry 22 where the spec leaves one. -/
def Obligations.ProxyRowsComplete : Prop :=
  (∀ (s : State) (st : Stall) (tag : BitVec 8) (c : Cmd), ∀ d : Dev, s.dev = d →
    let w := wd c.payload 0
    let node := BitVec.ofNat 10 (fld w 9 0)
    let hop := bitOf w 10
    let want := fld w 13 11
    let n := c.payload.length - 2
    let known := d.proxy? node hop
    d.runs st tag 0x620 c = true → Passes [(c.payload.length < 2 || n > 1022 || fld (wd c.payload 1) 11 0 != n || rsv w 0xC000 || fld w 31 16 < 10 || fld w 31 16 > 60000 || want == 1 || want > 5, stParam), (known.isNone && d.ring.proxies.length ≥ 4, stResource), (d.ring.conf.acycBytes == 0, stState)] →
    exec (.ringProxy st tag) s = .next (s.on (fun _ =>
      let d1 := if known.isSome then d
        else (d.modRing (fun r => { r with proxies := r.proxies ++
            [⟨node, hop, BitVec.ofNat 3 want, none, 0, 1, d.clk, d.clk, []⟩] })).sendMsg
              (msgTo node hop kConnect 0 0 0 0 [nW want])
      let trans := match d1.proxy? node hop with
        | some p => p.nextTrans
        | none => 0
      ((d1.modProxy node hop (fun p =>
        { p with nextTrans := trans + 1, lastUse := d.clk,
                 cmds := p.cmds ++ [⟨st, tag, trans, wd c.payload 1, c.payload.drop 2, 0, none, false⟩] })).await st tag
          .started).sendProxied node hop trans))) ∧
  (∀ (s : State) (m : AcycMsg) (p : ProxyConn), ∀ d : Dev, s.dev = d → d.proxy? m.src m.srcUnset = some p → p.stall = none →
    exec (.ringAccept m) s = .next (s.on (fun _ =>
      p.cmds.foldl (fun d c => d.sendProxied m.src m.srcUnset c.trans)
        (d.modProxy m.src m.srcUnset (fun p => { p with stall := some m.stall, epoch := m.epoch })))) ∧
    exec (.ringReject m) s = .next (s.on (fun _ =>
      p.cmds.foldl (fun d c => d.respond c.stall c.tag stState [m.code.setWidth 32])
        (d.modRing (fun r => { r with proxies := r.proxies.filter (fun x => !(x.node == m.src && x.hop == m.srcUnset)) }))))) ∧
  (∀ (s : State) (m : AcycMsg) (p : ProxyConn) (c : ProxyCmd), ∀ d : Dev, s.dev = d → ∀ d1 : Dev,
    d.modProxy m.src m.srcUnset (fun p =>
      { p with lastUse := d.clk, cmds := p.cmds.filter (fun x => x.trans != c.trans) }) = d1 →
    d.proxy? m.src m.srcUnset = some p → p.stall.isSome = true → p.epoch = m.epoch →
    p.cmds.find? (fun c => c.trans == m.trans) = some c →
    exec (.ringAck m) s = .next (s.on (fun _ =>
      d.modProxy m.src m.srcUnset (fun p =>
        { p with cmds := p.cmds.map (fun (x : ProxyCmd) => if x.trans == c.trans then { x with acked := true } else x) }))) ∧
    (m.data.length ≤ 1022 → exec (.ringResponse m) s = .next (s.on (fun _ => d1.respond c.stall c.tag stOk m.data))) ∧
    (1022 < m.data.length → exec (.ringResponse m) s =
      .next (s.on (fun _ => d1.reply c.stall c.tag stResource (m.data.take 1))))) ∧
  (∀ (s : State) (st : Stall) (tag : BitVec 8) (p : ProxyConn) (c : ProxyCmd) (k : Nat), ∀ d : Dev, s.dev = d →
    d.ring.proxies.find? (fun p => p.cmds.any (fun c => c.stall == st && c.tag == tag)) = some p →
    p.cmds.find? (fun c => c.stall == st && c.tag == tag) = some c → c.sentCycle = some k → c.acked = false →
    k + 4 ≤ d.ownCycle →
    (c.retries < 3 → exec (.proxyAckTimeout st tag) s = .next (s.on (fun _ =>
      (d.modProxy p.node p.hop (fun p => { p with cmds := p.cmds.map (fun (x : ProxyCmd) =>
        if x.trans == c.trans then { x with retries := x.retries + 1 } else x) })).sendProxied p.node p.hop c.trans))) ∧
    (3 ≤ c.retries → exec (.proxyAckTimeout st tag) s = .next (s.on (fun _ =>
      (d.modProxy p.node p.hop (fun p => { p with cmds := p.cmds.filter (fun x => x.trans != c.trans) })).respond st tag
        stTimeout [])))) ∧
  (∀ (s : State) (node : BitVec 10) (p : ProxyConn), ∀ d : Dev, s.dev = d →
    (d.ring.proxies.find? (fun p => p.node == node && p.stall.isSome && d.past p.lastSent (8 * clksPerMs)) = some p →
      exec (.proxyKeepalive node) s = .next (s.on (fun _ =>
        (d.modProxy p.node p.hop (fun p => { p with lastSent := d.clk })).sendMsg
          (msgTo p.node p.hop kKeepalive 0 p.epoch 0 ((p.stall.map BitVec.toNat).getD 0) [])))) ∧
    (d.ring.proxies.find? (fun p => p.node == node && p.cmds.isEmpty && d.past p.lastUse (1000 * clksPerMs)) = some p →
      exec (.proxyIdleDisconnect node) s = .next (s.on (fun _ =>
        (d.modRing (fun r => { r with proxies := r.proxies.filter (fun x => !(x.node == p.node && x.hop == p.hop)) })).sendMsg
          (msgTo p.node p.hop kDisconnect 0 p.epoch 0 ((p.stall.map BitVec.toNat).getD 0) [])))))

/-- Network time (11 R435 to R446, R452, R453): its two commands, the sync and delay messages, the pulse per second, and
the 25 MHz reference. The clauses follow the model's choices of log entries 27, 28 and 34 where the spec leaves one. -/
def Obligations.NetworkTimeRowsComplete : Prop :=
  (∀ (s : State) (st : Stall) (tag : BitVec 8) (c : Cmd), ∀ d : Dev, s.dev = d →
    let w := wd c.payload 0
    let w1 := wd c.payload 1
    d.runs st tag 0x610 c = true → Passes [(badLen c 2 || rsv w 0xFF80FC00 || rsv w1 0xFFFFE0F0, stParam)] →
    exec (.timeConfig st tag) s = .next (s.on (fun _ => (d.modNt (fun t => { t with stored := ⟨BitVec.ofNat 7 (fld w 22 16), bitOf w 9, bitOf w 8, BitVec.ofNat 8 (fld w 7 0), BitVec.ofNat 5 (fld w1 12 8), BitVec.ofNat 4 (fld w1 3 0)⟩ })).ok c []))) ∧
  (∀ (s : State) (st : Stall) (tag : BitVec 8) (c : Cmd), ∀ d : Dev, s.dev = d →
    let ns := fld (wd c.payload 2) 29 0
    let pps := d.nt.conf.ppsSrc
    let given : Int := ((fld (wd c.payload 1) 15 0 * 2 ^ 32 + (wd c.payload 0).toNat : Nat) : Int) * secUnit + (ns : Int) * nsUnit
    let left := (d.cycleTicks - d.tick % d.cycleTicks) * d.tickClks
    d.runs st tag 0x611 c = true → Passes [(!d.nt.isGm, stState), (badLen c 3 || rsv (wd c.payload 1) 0xFFFF0000 || rsv (wd c.payload 2) 0xC0000000 || ns ≥ 1000000000 || (pps && ns != 0), stParam), (d.nt.timeSet.isSome || d.nt.step.isSome, stState)] →
    exec (.timeSet st tag) s = .next (s.on (fun _ =>
      let d1 := (d.await st tag .started).modNt (fun t => { t with timeSet := some ⟨st, tag, given, false⟩ })
      if pps then d1 else d1.planStep (given - (d.nt.nt + d.ntStep left))))) ∧
  (∀ (s : State), ∀ d : Dev, s.dev = d → d.nt.isGm = true → d.ring.fn = .active → d.nt.gmCycle < d.ownCycle →
    (d.ring.port false).brk = false → (d.ring.port true).brk = false → exec .syncSend s = .next (s.on (fun _ =>
      (d.emit (.sync false d.nt.conf.domain (d.nt.nt + d.ntStep 256))).emit
        (.sync true d.nt.conf.domain (d.nt.nt + d.ntStep 256))))) ∧
  (∀ (s : State) (b : Bool) (q : BitVec 7) (origin base : Int) (n res : Nat), ∀ d : Dev, s.dev = d → ∀ d1 d2 : Dev,
    d.ring.fn = .active → d.nt.isGm = false → q = d.nt.conf.domain → origin + (d.ring.port b).delay = base →
    d.passSync b base res = d1 →
    (b ≠ d.nt.syncPort → exec (.syncReceived b ⟨q, origin, n, res⟩) s = .next (s.on (fun _ => d1))) ∧
    (∀ o : Int, d.nt.nt + d.ntStep n - base = o → b = d.nt.syncPort → d1.missedStep = none → d1.nt.state = .locked →
      (d1.modNt (fun t => { t with syncCycle := d1.ownCycle, timeIsSet := true })).servo o n = d2 → d2.nt.state = .locked →
      ¬ (-(20 * nsUnit) ≤ o ∧ o ≤ 20 * nsUnit) →
      exec (.syncReceived b ⟨q, origin, n, res⟩) s = .next (s.on (fun _ => d2.modNt (fun t => { t with lockRun := 0 }))))) ∧
  (∀ (s : State), ∀ d : Dev, s.dev = d → d.nt.state = .locked → d.nt.syncCycle + 5 ≤ d.ownCycle →
    exec .ntHoldover s = .next (s.on (fun _ => d.setNtState .holdover))) ∧
  (∀ (s : State), ∀ d : Dev, s.dev = d → d.ring.fn = .active → (d.ring.port false).brk = false →
    (d.ring.port true).brk = false →
    exec .pdelayReqSend s = .next (s.on (fun _ =>
      (d.emit (.pdelayReq false d.nt.conf.domain)).emit (.pdelayReq true d.nt.conf.domain)))) ∧
  (∀ (s : State) (b : Bool) (q : BitVec 16) (delay : Nat), ∀ d : Dev, s.dev = d → ∀ p : RingPort, d.ring.port b = p →
    d.ring.fn = .active → p.brk = false →
    exec (.pdelayReqReceived b ⟨d.nt.conf.domain, q⟩) s = .next (s.on (fun _ => d.emit (.pdelayResp b d.nt.conf.domain q))) ∧
    (farDelay p.meas delay = false → exec (.pdelayRespReceived b ⟨d.nt.conf.domain, delay⟩) s = .next (s.on (fun _ =>
      d.modPort b (fun p => { p with meas := (delay :: p.meas).take 8, linkDelay := delayWord ((delay :: p.meas).take 8) }))))) ∧
  (∀ (s : State) (n : Nat), ∀ d : Dev, s.dev = d → (d.nt.isGm && d.nt.conf.ppsSrc) = false →
    exec (.ppsEdge n) s = .next (s.on (fun _ => d.modNt (fun x => { x with ppsStamp := d.nt.nt + d.ntStep (2 * n) })))) ∧
  (∀ (s : State), ∀ d : Dev, s.dev = d → d.nt.conf.ppsOutEn = true → d.ntValid = true →
    Int.fdiv (d.nt.nt + d.ntStep d.tickClks - 1) secUnit ≠ Int.fdiv (d.nt.nt - 1) secUnit →
    exec .ppsOutSecond s = .next (s.on (fun _ => d.modNt (fun n => { n with ppsOut := true, ppsClk := d.clk })))) ∧
  (∀ (s : State), exec .ref25Detect s = .next (s.on (Dev.modNt fun n => { n with ref25Ok := true })) ∧
    exec .ref25Loss s = .next (s.on (Dev.modNt fun n => { n with ref25Ok := false }))) ∧
  (∀ (s : State) (n : Nat), ∀ d : Dev, s.dev = d → d.ntValid = true →
    (ntOf d.nt.nt).sec.toNat * 2 ^ 15 + (ntOf d.nt.nt).ns.toNat * 2 ^ 15 / 1000000000 = n →
    exec .kaTimeSet s = .next (s.on (fun _ => { d with pw := { d.pw with kaTime := BitVec.ofNat 63 n } })))

/-- The commands of the two CAN controllers (12 R480 to R486). The clauses follow the model's choices of log entry 20
where the spec leaves one. -/
def Obligations.CanCommandsComplete : Prop :=
  (∀ (s : State) (st : Stall) (tag : BitVec 8) (c : Cmd), ∀ d : Dev, s.dev = d → d.runs st tag 0x700 c = true →
    exec (.canConfig st tag) s = .next (s.on (fun _ => d.await st tag .atTick))) ∧
  (∀ (m : Memory) (d : Dev) (c : Cmd), c.code.toNat = 0x700 →
    let k := ctrlOf c
    Passes [(noWord c, stParam), (d.can.ctl[k].state != .off, stState), (badLen c 4 || canConfBad c.payload || (!bitOf (wd c.payload 0) 6 && d.canBound k), stParam)] →
    applyCmd m c d = (d.modCan k (fun x => { x with conf := ⟨#[wd c.payload 0, wd c.payload 1, wd c.payload 2, wd c.payload 3], rfl⟩ })).ok c []) ∧
  (∀ (s : State) (st : Stall) (tag : BitVec 8) (c : Cmd), ∀ d : Dev, s.dev = d →
    let k := ctrlOf c
    let w := wd c.payload 0
    let id := wd c.payload 1
    d.runs st tag 0x701 c = true → Passes [(badLen c 3 || rsv w 0xFFFCE0FE || rsv id 0xE0000000 || rsv (wd c.payload 2) 0xE0000000 || (!bitOf w 17 && fld id 28 0 > 0x7FF), stParam)] →
    exec (.canFilter st tag) s = .next (s.on (fun _ =>
      let f : CanFilter := ⟨bitOf w 16, bitOf w 17, BitVec.ofNat 29 (fld id 28 0), BitVec.ofNat 29 (fld (wd c.payload 2) 28 0)⟩
      (d.modCan k (fun x => { x with filtersNext := vset x.filtersNext (Fin.ofNat 32 (fld w 12 8)) f })).ok c []))) ∧
  (∀ (s : State) (st : Stall) (tag : BitVec 8) (c : Cmd), ∀ d : Dev, s.dev = d →
    let k := ctrlOf c
    let x := d.can.ctl[k]
    let p := c.payload
    let w := wd p 0
    let b : Fin 32 := Fin.ofNat 32 (fld w 12 8)
    let n := fld (wd p 2) 6 0
    let life := fld (wd p 2) 31 16
    d.runs st tag 0x702 c = true → Passes [(noWord c, stParam), (x.state == .off || x.mode == 1 || x.mode == 2, stState), (x.bufs[b].safety.isSome, stResource), (p.length != 4 + cdiv n 4 || rsv w 0xFFE0E0FE || rsv (wd p 1) 0xE0000000 || rsv (wd p 2) 0x0000FF80 || (!bitOf w 16 && fld (wd p 1) 28 0 > 0x7FF) || !canBytesOk (bitOf w 17) n || (bitOf w 17 && !x.fdEn) || (bitOf w 18 && (!bitOf w 17 || !x.brsEn)) || (bitOf w 20 && x.role.role == 0) || (!bitOf w 20 && wd p 3 != 0), stParam)] →
    exec (.canSend st tag) s = .next (s.on (fun _ =>
      let t : CanTx := ⟨sendFrame p, bitOf w 19, bitOf w 20, BitVec.ofNat 16 (fld (wd p 3) 15 0),
        BitVec.ofNat 16 (fld (wd p 3) 31 16), if life = 0 then none else some (d.clkTaken c + life * clksPerMs)⟩
      ((d.bufSend k b t).canKick k).ok c []))) ∧
  (∀ (s : State) (st : Stall) (tag : BitVec 8) (c : Cmd), ∀ d : Dev, s.dev = d →
    let k := ctrlOf c
    let w := wd c.payload 0
    let x := d.can.ctl[k]
    let got := x.fifo.take (fld w 7 4)
    d.runs st tag 0x703 c = true → Passes [(badLen c 1 || rsv w 0xFFFFFF0E || outside 1 8 (fld w 7 4), stParam)] →
    exec (.canReceive st tag) s = .next (s.on (fun _ => (d.modCan k (fun x => { x with fifo := x.fifo.drop (fld w 7 4) })).ok c (mkw [(got.length, 0, 4), (x.fifo.length - got.length, 8, 7), (b2n (x.event.getLsbD evRxOvf), 15, 1)] :: got.flatMap rxWords)))) ∧
  (∀ (s : State) (st : Stall) (tag : BitVec 8) (c : Cmd), ∀ d : Dev, s.dev = d →
    let k := ctrlOf c
    let x := d.can.ctl[k]
    let w := wd c.payload 0
    let op := fld w 5 4
    d.runs st tag 0x704 c = true → Passes [(noWord c, stParam), ((op == 0 && x.state != .off) || (op == 1 && x.state == .off) || (op == 2 && (x.state != .busOff || x.autoRec)), stState), (badLen c 1 || rsv w 0xFFFFFFCE, stParam)] →
    exec (.canControl st tag) s = .next (s.on (fun _ =>
      match op with
      | 0 => (d.modCan k (fun x => { x with state := .integrating, tec := 0, recCnt := 0, tecWarned := false,
                                            recWarned := false })).ok c []
      | 1 =>
        let d1 := { d.await st tag .started with can := (d.modCan k (fun x => { x with stopping := some (st, tag) })).can }
        if x.onBus.isSome then d1 else d1.canStopped k
      | 2 => (d.modCan k (fun x => { x with state := .recovering })).ok c []
      | _ => (d.modCan k CanCtl.clear).ok c []))) ∧
  (∀ (s : State) (st : Stall) (tag : BitVec 8) (c : Cmd), ∀ d : Dev, s.dev = d →
    let k := ctrlOf c
    let x := d.can.ctl[k]
    let role := fld (wd c.payload 0) 5 4
    let windows := x.bufs.toList.any (fun b => (b.result == .pending || b.result == .onBus) &&
      (b.tx.any (·.window) || b.next.any (·.window)))
    d.runs st tag 0x710 c = true → Passes [(noWord c, stParam), (role == 1 && (x.mode == 1 || x.mode == 2), stState), (badLen c 3 || d.roleBad c.payload || (role == 0 && windows), stParam)] →
    exec (.canTimeMaster st tag) s = .next (s.on (fun _ =>
      if role = 0 ∧ x.role.role = 0 then (d.modCan k (fun x => { x with roleNext := none })).ok c []
      else (d.await st tag .started).modCan k (fun x => { x with roleNext := some (roleOf c.payload) })))) ∧
  (∀ (s : State) (st : Stall) (tag : BitVec 8) (c : Cmd), ∀ d : Dev, s.dev = d → d.runs st tag 0x720 c = true →
    exec (.canGateway st tag) s = .next (s.on (fun _ => d.await st tag .atTick))) ∧
  (∀ (m : Memory) (d : Dev) (c : Cmd), c.code.toNat = 0x720 →
    let k := ctrlOf c
    let x := d.can.ctl[k]
    let p := c.payload
    let w := wd p 0
    let en := bitOf w 1
    let req := BitVec.ofNat 29 (fld (wd p 1) 28 0)
    let rsp := BitVec.ofNat 29 (fld (wd p 2) 28 0)
    let g := d.can.gw
    Passes [(noWord c, stParam), (c.stall == 6 || (g.ctrl.isSome && g.ctrl != some k) || (en && (x.state == .off || x.mode != 0 || !x.fdEn)), stState), (badLen c 4 || rsv w 0xFFFFFFF0 || rsv (wd p 1) 0xE0000000 || rsv (wd p 2) 0xE0000000 || req == rsp || (!bitOf w 2 && (req.toNat > 0x7FF || rsp.toNat > 0x7FF)) || rsv (wd p 3) 0xFFFFF800, stParam)] →
    applyCmd m c d = (
      let changed := g.ctrl.isSome && (!en || g.reqId != req || g.rspId != rsp || g.ide != bitOf w 2)
      let d1 := if changed then d.gwEnd else d
      let d2 := d1.modStall 6 (fun s => { s with irqEnable := BitVec.ofNat 11 (fld (wd p 3) 10 0) })
      let d3 := { d2 with can := { d2.can with gw := if en then
          { d2.can.gw with ctrl := some k, ide := bitOf w 2, brs := bitOf w 3, reqId := req, rspId := rsp }
        else { d2.can.gw with reqId := req, rspId := rsp } } }
      d3.ok c []))

/-- The events of the CAN buses and of the gateway (12 R458 to R477). The clauses follow the model's choices of log
entries 20, 21 and 23 where the spec leaves one. -/
def Obligations.CanEventsComplete : Prop :=
  (∀ (s : State) (k : Fin 2), ∀ d : Dev, s.dev = d → d.can.ctl[k].state = .integrating →
    exec (.canIntegrated k) s = .next (s.on (fun _ => (d.modCan k (fun c => { c with state := .active })).canKick k))) ∧
  (∀ (s : State) (k : Fin 2) (f : CanFrame) (n : Int), ∀ d : Dev, s.dev = d → d.can.ctl[k].state = .active →
    d.can.ctl[k].mode ≠ 3 →
    exec (.canFrameReceived k true f n) s = .next (s.on (fun _ => ((d.canRec k true).canSort k f n).canKick k)) ∧
    exec (.canFrameReceived k false f n) s = .next (s.on (fun _ => (d.canRec k false).canKick k))) ∧
  (∀ (s : State) (k : Fin 2) (n : Nat) (f : CanFrame) (z : Int), ∀ d : Dev, s.dev = d → ∀ d1 : Dev,
    d.modCan k (fun c => { c with onBus := none }) = d1 →
    d.can.ctl[k].onBus = some n → d.busFrame k n = some f → d.can.ctl[k].mode ≠ 3 →
    exec (.canTxEnd k ⟨.sent, z⟩) s = .next (s.on (fun _ =>
      (((((((d1.emit (.can k f)).canSent k n).modCan k (fun c =>
        { c with tec := c.tec - (if c.tec = 0 then 0 else 1) })).canConfine k).canStopped k).gwPump).canKick k)))) ∧
  (∀ (s : State) (k : Fin 2) (n : Nat) (z : Int), ∀ d : Dev, s.dev = d → ∀ d1 : Dev,
    d.modCan k (fun c => { c with onBus := none }) = d1 → d.can.ctl[k].onBus = some n → d.can.ctl[k].state = .active →
    exec (.canTxEnd k ⟨.ackError, z⟩) s = .next (s.on (fun _ =>
      (((((((d1.modCan k (fun c => { c with tec := BitVec.ofNat 9 (satU 9 (c.tec.toNat + 8)) })).canFailed k n).canConfine
        k).canStopped k).gwPump).canKick k))))) ∧
  (∀ (s : State) (k : Fin 2) (b : Fin 32) (t : CanTx) (e : Nat), ∀ d : Dev, s.dev = d → d.can.ctl[k].bufs[b].tx = some t →
    t.expiry = some e → e < d.clk + max 1 d.tickClks → d.can.ctl[k].bufs[b].result = .pending →
    exec (.canLifetimeExpiry k b) s = .next (s.on (fun _ => d.bufExpire k b))) ∧
  (∀ (s : State) (k : Fin 2), ∀ d : Dev, s.dev = d → d.can.ctl[k].state = .recovering →
    exec (.canRecoveryDone k) s = .next (s.on (fun _ =>
      ((d.modCan k (fun c =>
        { c with state := .active, tec := 0, recCnt := 0, tecWarned := false, recWarned := false })).canEvent
          k evRecovered).canKick k))) ∧
  (∀ (s : State) (k : Fin 2), ∀ d : Dev, s.dev = d → ∀ c : CanCtl, d.can.ctl[k] = c → c.role.role = 2 → c.roleNext = none →
    c.role.basic ≠ 0 → d.tick % c.role.basic.toNat = 0 → c.basicTick ≠ d.tick →
    exec (.canBasicCycle k) s = .next (s.on (fun _ =>
      ((d.refAccount k).modCan k (fun c =>
        { c with basicClk := d.clk, basicTick := d.tick, refAcked := false, refSeen := false, lostRef := false, guarding := false,
                 refPending := c.role.role == 1 && c.counts && c.state != .off && c.state != .integrating })).canKick k))) ∧
  (∀ (s : State) (k : Fin 2), ∀ d : Dev, s.dev = d → d.can.ctl[k].role.role = 1 →
    d.toBasic d.can.ctl[k].role ≤ d.tickClks + 512 * d.can.ctl[k].role.guardUs.toNat →
    exec (.canGuardStart k) s = .next (s.on (fun _ => d.modCan k (fun c => { c with guarding := true })))) ∧
  (∀ (s : State) (k : Fin 2), ∀ d : Dev, s.dev = d → d.can.ctl[k].refPending = true → d.can.ctl[k].onBus = none →
    d.can.ctl[k].basicClk + 512 * d.can.ctl[k].role.windowUs.toNat < d.clk + d.tickClks →
    exec (.refWindowExpiry k) s = .next (s.on (fun _ =>
      ((d.modCan k (fun c => { c with refPending := false })).canEvent k evRefLate).canKick k))) ∧
  (∀ (s : State) (k : Fin 2) (b : Fin 32) (t : CanTx), ∀ d : Dev, s.dev = d → ∀ c : CanCtl, d.can.ctl[k] = c →
    c.bufs[b].tx = some t → t.window = true →
    (c.role.role ≠ 0 → c.basicClk + 512 * t.winStart.toNat < d.clk + max 1 d.tickClks →
      d.clk ≤ c.basicClk + 512 * (t.winStart.toNat + t.winLen.toNat) →
      exec (.canWindowOpen k b) s = .next (s.on (fun _ => (d.modBuf k b (fun x => { x with winOpen := true })).canKick k))) ∧
    (c.basicClk + 512 * (t.winStart.toNat + t.winLen.toNat) < d.clk + max 1 d.tickClks →
      exec (.canWindowClose k b) s = .next (s.on (fun _ => d.modBuf k b (fun x => { x with winOpen := false }))))) ∧
  (∀ (s : State) (ws : List W32) (e : Bool), ∀ d : Dev, s.dev = d → d.can.gw.ctrl.isSome = true →
    (gwOp ws = 0 → exec (.gwCommand ws) s = .next (s.on (fun _ =>
      d.gwFrame ws fun data d => (d.deliver 6 (wd data 0) (data.drop 1)).gwPump))) ∧
    (gwOp ws = 1 → exec (.gwRead ⟨ws, e⟩) s = .next (s.on (fun _ => d.gwFrame ws fun data d =>
      let r := d.readChecked s.dram 6 (4 * fld (wd data 0) 23 0) (min 15 (fld (wd data 0) 27 24 + 1)) e
      ((r.2.answer r.1 false).gwQueue 1 r.1 false false).gwPump))) ∧
    (gwOp ws = 2 → gwFirst ws = true → gwLast ws = true → exec (.gwIrqClear ws) s = .next (s.on (fun _ =>
      d.gwFrame ws fun data d => ((d.irqClear 6 (wd data 0)).pageWrite 6 0 (wd data 1)).gwPump))))

/-- The field inputs and outputs (13 R487 to R499, R511 to R515): the commands, an edge, a readback, a mismatch and the
bank's temperature. The clauses follow the model's choices of log entries 81 and 100 where the spec leaves one. -/
def Obligations.FieldIoRowsComplete : Prop :=
  (∀ (s : State) (st : Stall) (tag : BitVec 8) (c : Cmd), ∀ d : Dev, s.dev = d →
    let w := wd c.payload 1
    d.runs st tag 0x900 c = true → Passes [(badLen c 2 || wd c.payload 0 == 0 || rsv w 0xFFFC0000 || fld w 15 0 < 1 || fld w 15 0 > 50000, stParam)] →
    exec (.fioInConfig st tag) s = .next (s.on (fun _ => d.await st tag .atTick))) ∧
  (∀ (s : State) (st : Stall) (tag : BitVec 8) (c : Cmd), ∀ d : Dev, s.dev = d →
    let w0 := wd c.payload 0
    let w := wd c.payload 1
    d.runs st tag 0x901 c = true → Passes [(badLen c 2 || fld w0 15 0 == 0 || rsv w0 0xFFFC0000 || fld w 15 0 < 1 || fld w 15 0 > 50000 || fld w 31 16 < 10, stParam)] →
    exec (.fioOutConfig st tag) s = .next (s.on (fun _ => d.await st tag .atTick))) ∧
  (∀ (s : State) (st : Stall) (tag : BitVec 8) (c : Cmd), ∀ d : Dev, s.dev = d →
    d.runs st tag 0x902 c = true → Passes [(d.outHeld c, stState), (badLen c 1 || fld (wd c.payload 0) 15 0 == 0, stParam)] →
    exec (.outSet st tag) s = .next (s.on (fun _ => d.await st tag .atTick))) ∧
  (∀ (s : State) (st : Stall) (tag : BitVec 8) (c : Cmd), ∀ d : Dev, s.dev = d →
    d.runs st tag 0x903 c = true → Passes [(badLen c 1 || rsv (wd c.payload 0) 0xFFFFFFFC || wd c.payload 0 == 0, stParam)] →
    exec (.fioClear st tag) s = .next (s.on (fun _ => d.await st tag .atTick))) ∧
  (∀ (s : State) (st : Stall) (tag : BitVec 8) (c : Cmd), ∀ d : Dev, s.dev = d →
    let x := d.fio.ins[Fin.ofNat 32 (fld (wd c.payload 0) 4 0)]
    d.runs st tag 0x904 c = true → Passes [(badLen c 1 || rsv (wd c.payload 0) 0xFFFFFFE0, stParam)] →
    exec (.fioStamp st tag) s = .next (s.on (fun _ => d.ok c (x.riseStamp.words ++ x.fallStamp.words)))) ∧
  (∀ (s : State) (st : Stall) (tag : BitVec 8) (c : Cmd), ∀ d : Dev, s.dev = d →
    let ch := fld (wd c.payload 0) 5 0
    d.runs st tag 0x905 c = true → Passes [(badLen c 1 || rsv (wd c.payload 0) 0xFFFFFFC0 || ch > 47, stParam)] →
    exec (.fioQuery st tag) s = .next (s.on (fun _ =>
      if ch < 32 then
        let x := d.fio.ins[Fin.ofNat 32 ch]
        d.ok c [mkw [(x.debUs.toNat, 0, 16), (b2n x.irqRise, 16, 1), (b2n x.irqFall, 17, 1)], 0]
      else
        let o := d.fio.outs[Fin.ofNat 16 (ch - 32)]
        d.ok c [mkw [(o.debUs.toNat, 0, 16), (o.settleUs.toNat, 16, 16)], mkw [(b2n o.failOff, 0, 1), (b2n o.fltLatch, 1, 1)]]))) ∧
  (∀ (s : State) (n : Fin 32) (k : Nat), ∀ d : Dev, s.dev = d → ∀ x : FieldIn, d.fio.ins[n] = x →
    ∀ t, ntOf (d.nt.nt + d.ntStep (2 * k) - d.ntStep (512 * (x.debUs.toNat + 1))) = t → ∀ d1 d2 : Dev,
    d.modFio (fun f =>
      { f with ins := vmod f.ins n (fun x => { x with level := true, riseStamp := t, fallStamp := x.fallStamp }),
               inRise := f.inRise ||| nW (2 ^ n.val), inFall := f.inFall }) = d1 →
    { d1 with cap := { d1.cap with units := d1.cap.units.map (fun u =>
      if u.state == .waiting || u.state == .pre then { u with events := u.events ++ [.input n true t] } else u) } } = d2 →
    x.level = false → x.debClk + 512 * x.debUs.toNat ≤ d.clk + 2 * k →
    exec (.inEdge n true k) s = .next (s.on (fun _ => (if x.irqRise then d2.setIrqAll irqField else d2).homeEdge n.val true
      (d.clk + 2 * k - 512 * (x.debUs.toNat + 1))))) ∧
  (∀ (s : State) (n : Fin 16) (level : Bool), ∀ d : Dev, s.dev = d → ∀ o : FieldOut, d.fio.outs[n] = o →
    o.debClk + 512 * o.debUs.toNat ≤ d.clk + d.tickClks → exec (.readbackEdge n level) s = .next (s.on (fun _ =>
    d.modFio (fun f => { f with outs := vmod f.outs n (fun o => { o with read := level }) })))) ∧
  (∀ (s : State) (n : Fin 16), ∀ d : Dev, s.dev = d → ∀ o : FieldOut, d.fio.outs[n] = o → o.read ≠ o.cmd →
    d.pw.v24aOk = true → o.since + o.settleUs.toNat * 512 ≤ d.clk + d.tickClks →
    exec (.outputMismatch n) s = .next (s.on (fun _ => (d.modFio (fun f =>
      { f with outs := vmod f.outs n (fun o => { o with latched := o.latched || (o.fltLatch && o.cmd) }) })).fioFault))) ∧
  (∀ (s : State), ∀ d : Dev, s.dev = d → d.fio.bankHot = false → d.fio.bankOt = false →
    exec .bankOvertemp s = .next (s.on (fun _ =>
      ((d.modFio (fun f => { f with bankHot := true, bankOt := true })).setIrqAll irqField).fire 131 .device))) ∧
  (∀ (s : State), exec .bankCooled s = .next (s.on (Dev.modFio (fun f => { f with bankHot := false })))) ∧
  (∀ (m : Memory) (d : Dev) (c : Cmd), c.code.toNat = 0x902 → d.outHeld c = false →
    applyCmd m c d = (d.modFio (fun f => { f with outs := Vector.ofFn (fun n : Fin 16 =>
      let o := f.outs[n]
      let v := bitOf (wd c.payload 0) (16 + n.val)
      if bitOf (wd c.payload 0) n.val then
        { o with cmd := v, latched := false, held := o.held && !v, since := if o.cmd == v then o.since else d.clk }
      else o) })).ok c [])

/-- The SPI master ports and the mapped memory (13 R500 to R508, R516 to R520). The clauses follow the model's choices of
log entries 101 and 120 where the spec leaves one. -/
def Obligations.PeripheralPortRowsComplete : Prop :=
  (∀ (s : State) (st : Stall) (tag : BitVec 8) (c : Cmd), ∀ d : Dev, s.dev = d → d.runs st tag 0x910 c = true →
    exec (.spmSelect st tag) s = .next (s.on (fun _ => d.await st tag .atTick))) ∧
  (∀ (m : Memory) (d : Dev) (c : Cmd), c.code.toNat = 0x910 →
    let w := wd c.payload 0
    let p : Fin 2 := Fin.ofNat 2 (fld w 0 0)
    let sel : Fin 4 := Fin.ofNat 4 (fld w 2 1)
    let x := d.fio.spm[p]
    Passes [(noWord c, stParam), (d.mappedSel p.val sel.val, stResource), (x.queue.any (fun t => t.cs == sel) || x.held == some sel, stState), (badLen c 2 || rsv w 0xFF00F800 || fld w 10 6 < 3 || fld (wd c.payload 1) 31 28 == 0, stParam)] →
    applyCmd m c d = (d.modSpm p (fun x => { x with selects := vset x.selects sel (some (w, wd c.payload 1)), sck := some (x.sck.getD (bitOf w 4)) })).ok c []) ∧
  (∀ (s : State) (st : Stall) (tag : BitVec 8) (c : Cmd), ∀ d : Dev, s.dev = d →
    let w := wd c.payload 0
    let p : Fin 2 := Fin.ofNat 2 (fld w 0 0)
    let sel : Fin 4 := Fin.ofNat 4 (fld w 2 1)
    let n := fld w 25 16
    let x := d.fio.spm[p]
    d.runs st tag 0x911 c = true → Passes [(noWord c, stParam), (x.selects[sel].isNone, stState), (x.queue.length ≥ 16 || d.mappedSel p.val sel.val, stResource), (c.payload.length != 1 + n || rsv w 0xFC00FFC0 || n < 1 || n > 1022, stParam)] →
    exec (.spmTransfer st tag) s = .next (s.on (fun _ => (d.await st tag .started).modSpm p (fun x => { x with queue := x.queue ++ [⟨st, tag, sel, bitOf w 3, bitOf w 4, bitOf w 5, c.payload.drop 1⟩] })))) ∧
  (∀ (s : State) (st : Stall) (tag : BitVec 8) (c : Cmd), ∀ d : Dev, s.dev = d → d.runs st tag 0x912 c = true →
    exec (.spmControl st tag) s = .next (s.on (fun _ => d.await st tag .atTick))) ∧
  (∀ (m : Memory) (d : Dev) (c : Cmd), c.code.toNat = 0x912 →
    let w := wd c.payload 0
    let p : Fin 2 := Fin.ofNat 2 (fld w 0 0)
    let op := fld w 5 4
    Passes [(badLen c 1 || rsv w 0xFFFFFFCE || op > 1, stParam)] →
    applyCmd m c d = (
      if op = 0 then ((d.modSpm p (fun x => { x with holdLapse := false })).modMap (fun m => { m with failed := false })).ok c []
      else
        let x := d.fio.spm[p]
        let run := x.running
        let gone := x.queue.filter (fun t => run != some t)
        let d0 := if run.isSome then d else d.spmRelease p
        let d1 := d0.modSpm p (fun x => { x with queue := x.queue.filter (fun t => run == some t) })
        (gone.foldl (fun d t => d.respond t.stall t.tag stDiscarded []) d1).ok c [])) ∧
  (∀ (s : State) (st : Stall) (tag : BitVec 8) (c : Cmd), ∀ d : Dev, s.dev = d → d.runs st tag 0x920 c = true →
    exec (.spmMap st tag) s = .next (s.on (fun _ => d.await st tag .atTick))) ∧
  (∀ (m : Memory) (d : Dev) (c : Cmd), c.code.toNat = 0x920 →
    let w := wd c.payload 0
    let w1 := wd c.payload 1
    let w2 := wd c.payload 2
    let size := fld w 12 8
    let within (lo hi v : Nat) : Bool := decide (lo ≤ v ∧ v ≤ hi)
    Passes [(noWord c, stParam), (d.fio.map.op.isSome || d.fio.spm[0].queue.any (fun t => t.cs.val == fld w 2 1), stState), (badLen c 5 || rsv w 0xFE00E0C0 || rsv (wd c.payload 3) 0xFFFFFF00 || !within 16 28 size || !within 4 12 (fld w 19 16) || !within 8 18 (fld w 24 20) || fld w1 23 16 == 0 || fld w1 31 24 > 32 || fld w2 15 0 == 0 || fld w2 31 16 == 0 || (size ≥ 24 && !bitOf w 3) || (bitOf w 0 && !d.mapSelOk (fld w 2 1)), stParam)] →
    applyCmd m c d = (d.modMap (fun m => { m with en := bitOf w 0, cache := [], conf := ⟨#[w, w1, w2, wd c.payload 3, wd c.payload 4], rfl⟩ })).ok c []) ∧
  (∀ (s : State) (st : Stall) (tag : BitVec 8) (data : List W32) (c : Cmd), ∀ d : Dev, s.dev = d →
    d.runs st tag 0x921 c = true → d.fio.map.en = true → d.fio.map.op = none → d.fio.spm[0].held = none →
    (badLen c 2 || rsv (wd c.payload 1) 0xFFFFFC00 || fld (wd c.payload 1) 9 0 < 1 || fld (wd c.payload 1) 9 0 > 1022 ||
      d.fio.map.outside (wd c.payload 0).toNat 4 (fld (wd c.payload 1) 9 0)) = false →
    exec (.spmMemRead st tag data) s = .next (s.on (fun _ =>
      (d.emitRead (wd c.payload 0).toNat (4 * fld (wd c.payload 1) 9 0)).ok c ((List.range (fld (wd c.payload 1) 9 0)).map (wd data))))) ∧
  (∀ (s : State) (st : Stall) (tag : BitVec 8) (c : Cmd), ∀ d : Dev, s.dev = d →
    let m := d.fio.map
    let a := (wd c.payload 0).toNat
    let w := wd c.payload 1
    let n := fld w 9 0
    d.runs st tag 0x922 c = true → Passes [(!m.en || !bitOf m.conf[0] 4, stState), (c.payload.length != 2 + n || rsv w 0xFFFFFC00 || n < 1 || n > 1022 || m.outside a 4 n, stParam)] →
    exec (.spmMemWrite st tag) s = .next (s.on (fun _ => (d.await st tag .started).mapQueue ⟨st, tag, false, a, bytesOf (c.payload.drop 2), 0, 0, 0⟩))) ∧
  (∀ (s : State) (st : Stall) (tag : BitVec 8) (c : Cmd), ∀ d : Dev, s.dev = d →
    let m := d.fio.map
    let a := (wd c.payload 0).toNat
    let w := wd c.payload 1
    let n := fld w 15 0
    d.runs st tag 0x923 c = true → Passes [(!m.en || !bitOf m.conf[0] 4, stState), (badLen c 2 || rsv w 0xFFFF0000 || n < 1 || m.outside a m.sector n, stParam)] →
    exec (.spmMemErase st tag) s = .next (s.on (fun _ => (d.await st tag .started).mapQueue ⟨st, tag, true, a, [], 0, n, 0⟩))) ∧
  (∀ (s : State) (p : Fin 2) (rx : List W32) (t : SpmXfer), ∀ d : Dev, s.dev = d → ∀ x : SpmPort, d.fio.spm[p] = x →
    x.running = some t →
    exec (.spmTransferDone p rx) s = .next (s.on (fun _ =>
      (((d.modSpm p (fun x => { x with queue := x.queue.erase t, held := if t.hold then some t.cs else none,
                                       sck := some (x.cpol t.cs), heldSince := d.clk })).emit
        (.spm p.val t.cs.val (x.settings t.cs) (x.lines { t with words := t.words.map (x.mask t.cs) }))).respond t.stall t.tag
          stOk (if t.noRx then [] else (List.range t.words.length).map (fun i => x.mask t.cs (wd rx i)))).mapNext))) ∧
  (∀ (s : State) (p : Fin 2) (k : Fin 4) (cfg : W32 × W32), ∀ d : Dev, s.dev = d → ∀ x : SpmPort, d.fio.spm[p] = x →
    x.held = some k → x.selects[k] = some cfg → x.running = none →
    x.heldSince + fld cfg.2 31 28 * 51200 ≤ d.clk + d.tickClks →
    exec (.spmHoldLapse p) s = .next (s.on (fun _ =>
      ((((d.modSpm p (fun x => { x with held := none })).emit (.spm p.val k.val (x.settings k) [.rise])).mapNext).modSpm p
        (fun x => { x with holdLapse := true })).fire 132 .device))) ∧
  (∀ (s : State) (status : Byte) (rb : List Byte) (o : MapOp), ∀ d : Dev, s.dev = d → ∀ m : SpmMap, d.fio.map = m →
    ∀ d0 d1 : Dev, d.emitMem [m.op_ 3] 0 1 = d0 → (if bitOf m.conf[0] 5 then d0.emitRead o.addr o.piece else d0) = d1 →
    m.op = some o → d.fio.spm[0].held = none → ((status.toNat &&& fld m.conf[1] 7 0) != 0) = false →
    (((status.toNat &&& fld m.conf[1] 15 8) != 0) = true →
      exec (.spmStatusPoll status rb) s = .next (s.on (fun _ => d0.mapEnd o 3 o.addr))) ∧
    (((status.toNat &&& fld m.conf[1] 15 8) != 0) = false →
      (o.erase = true → o.sectors ≤ 1 → exec (.spmStatusPoll status rb) s = .next (s.on (fun _ => d0.mapEnd o 0 0))) ∧
      (o.erase = true → 1 < o.sectors → exec (.spmStatusPoll status rb) s = .next (s.on (fun _ =>
        d0.mapBegin { o with addr := o.addr + o.piece, sectors := o.sectors - 1 }))) ∧
      (o.erase = false → (bitOf m.conf[0] 5 = true → rb.take o.piece = o.rest.take o.piece) →
        (o.rest.length ≤ o.piece → exec (.spmStatusPoll status rb) s = .next (s.on (fun _ => d1.mapEnd o 0 0))) ∧
        (o.piece < o.rest.length → exec (.spmStatusPoll status rb) s = .next (s.on (fun _ =>
          d1.mapBegin { o with addr := o.addr + o.piece, rest := o.rest.drop o.piece })))))) ∧
  (∀ (s : State) (addr : Nat) (line : List Byte), ∀ d : Dev, s.dev = d → ∀ m : SpmMap, d.fio.map = m →
    m.en = true → m.op = none → d.fio.spm[0].held = none → addr < m.size → Mem.read none m.cache (addr / 64) = none →
    m.cache.length < 1024 →
    exec (.mappedRead addr line) s = .next (s.on (fun _ => (d.emitRead (addr / 64 * 64) 64).modMap (fun m =>
      { m with cache := Mem.write none m.cache (addr / 64) (some (line.take 64)) }))))

/-- Faults (14 R521 to R532, R554 to R557): the fault commands, what a boundary does with them, the episode, the
recovery of an axis and the restarts. The clauses follow the model's choices of log entries 73, 90 and 91 where the spec
leaves one. -/
def Obligations.FaultRowsComplete : Prop :=
  (∀ (s : State) (st : Stall) (tag : BitVec 8) (c : Cmd), ∀ d : Dev, s.dev = d →
    d.runs st tag 0xB00 c = true → Passes [(badLen c 2 || badFaultConfig c.payload, stParam)] →
    exec (.faultConfig st tag) s = .next (s.on (fun _ => d.await st tag .atTick))) ∧
  (∀ (s : State) (st : Stall) (tag : BitVec 8) (c : Cmd), ∀ d : Dev, s.dev = d →
    d.runs st tag 0xB01 c = true → Passes [(badLen c 1 || rsv (wd c.payload 0) 0xFFFFFFF8 || fld (wd c.payload 0) 2 0 == 0, stParam)] →
    exec (.faultClear st tag) s = .next (s.on (fun _ => d.await st tag .atTick))) ∧
  (∀ (s : State) (st : Stall) (tag : BitVec 8) (c : Cmd), ∀ d : Dev, s.dev = d →
    d.runs st tag 0xB02 c = true → Passes (d.recoverChecks c) →
    exec (.faultRecover st tag) s = .next (s.on (fun _ => d.await st tag .atTick))) ∧
  (∀ (s : State) (st : Stall) (tag : BitVec 8) (c : Cmd), ∀ d : Dev, s.dev = d →
    let w := wd c.payload 0
    let t := fld w 3 0
    let k := fld w 14 8
    d.runs st tag 0xB03 c = true → Passes [(badLen c 2 || rsv w 0xFFFF80F0 || decide (t > 7), stParam), (d.sowBlocked t k, stState), (sowRange t k (wd c.payload 1).toNat, stParam)] →
    exec (.faultSow st tag) s = .next (s.on (fun _ =>
      let x : Sown := ⟨BitVec.ofNat 4 t, BitVec.ofNat 7 (if t ≥ 4 then 0 else k), wd c.payload 1, d.clk, st, tag⟩
      { d.await st tag .started with sv := { (d.await st tag .started).sv with sown := d.sv.sown ++ [x] } }))) ∧
  (∀ (s : State) (x : Sown), ∀ d : Dev, s.dev = d → d.sv.sown = [x] → d.passedMs x.since 100 = true → ∀ d1 : Dev,
    { d with sv := { d.sv with sown := [] } } = d1 →
    exec .sowTimeout s = .next (s.on (fun _ => Dev.respond x.stall x.tag stOk [0, 0] (d1.asSown true (Dev.fire 154 .device))))) ∧
  (∀ (s : State), ∀ d : Dev, s.dev = d → d.ft.episode = true → d.ft.safeState = false →
    (∀ a : AxisNo, d.axf[a].fault = false) → d.ft.lastSev2 + d.ft.quietMs.toNat * clksPerMs < d.clk →
    exec .episodeClose s = .next (s.on (fun _ => { d with ft := { d.ft with episode := false } }))) ∧
  (∀ (s : State) (a : AxisNo), ∀ d : Dev, s.dev = d → d.axf[a].fault = true → d.axf[a].latched = false →
    d.ft.safeState = false → d.mayRecover a = true →
    (d.ft.latchN = 0 → exec (.axisRecovery a) s = .next (s.on (fun _ => d.recoverAxis a))) ∧
    (d.ft.latchN ≠ 0 → d.ft.latchN.toNat ≤ d.recovWin a + 1 → exec (.axisRecovery a) s = .next (s.on (fun _ =>
      ((d.modAxf a (fun f => { f with latched := true })).ledger 3 0 0 (2 ^ a.val) (nW (satU 8 (d.recovWin a))) 0).fire 153
        (.axes [a]))))) ∧
  (∀ (s : State) (t : Nat), ∀ d : Dev, s.dev = d → d.ft.railRestartAt = some t → d.up = true → t ≤ d.clk + d.tickClks →
    d.ft.safeUntilPower = false → exec .railFaultRestart s = .next (s.on (fun _ => d.resetNow .rail))) ∧
  (∀ (s : State) (die : Fin 4) (t : Int), ∀ d : Dev, s.dev = d → ∀ d1 : Dev,
    d.modSv (fun s =>
      { s with dies := vset s.dies die { d.sv.dies[die] with tempC := BitVec.ofInt 8 (satS 8 t), hot := decide (135 < t) } }) = d1 →
    120 < t → t ≤ 135 → d.sv.dies[die].tempC.toInt ≤ 120 →
    exec (.dieOvertemp die t) s = .next (s.on (fun _ => d1.fire 7 .device))) ∧
  (∀ (s : State) (a b c e : Int), ∀ d : Dev, s.dev = d → d.up = true → d.ft.thermalRestart = true →
    a < 115 → b < 115 → c < 115 → e < 115 → d.ft.safeUntilPower = false →
    exec (.thermalRestart [a, b, c, e]) s = .next (s.on (fun _ => Dev.resetNow .thermal (d.modSv (fun s => { s with
      dies := Vector.ofFn (fun i : Fin 4 => { s.dies[i] with tempC := BitVec.ofInt 8 (satS 8 ([a, b, c, e].getD i.val 0)), hot := false }) }))))) ∧
  (∀ (m : Memory) (d : Dev) (c : Cmd) (e : Mem (Option Nat)), c.code.toNat = 0xB00 → bitOf (wd c.payload 0) 31 = false →
    Mem.write none d.ft.sevSet (fld (wd c.payload 0) 8 0)
      (if bitOf (wd c.payload 0) 15 then none else some (fld (wd c.payload 0) 14 12)) = e →
    applyCmd m c d = Dev.ok c [] { d with ft := { d.ft with sevSet := e } })

/-- The memories' and the processors' faults (14 R522, R541, R542). The clauses follow the model's choices of log entry
91 where the spec leaves one. -/
def Obligations.MemoryAndProcessorFaultsComplete : Prop :=
  (∀ (s : State) (a : AxisNo) (w : BitVec 16),
    exec (.plotMemoryEccError a w true) s = .next (s.on (Dev.withSown 2 a.val 147 (fun d => d.fire 147 (.axes [a])))) ∧
    exec (.plotMemoryEccError a w false) s = .next (s.on (Dev.withSown 1 a.val 146 (fun d => d.fire 146 .device))) ∧
    exec .mramEccError s = .next (s.on (Dev.withSown 7 0 148 (fun d => d.fire 148 .device)))) ∧
  (∀ (s : State) (n : Nat), 16 < n → exec (.dramCorrectableRate n) s = .next (s.on (Dev.fire 149 .device))) ∧
  (∀ s : State, exec .mpLockstepError s = .next (s.on (Dev.withSown 5 0 0 (fun d => d.activeFails 0))) ∧
    exec .mpWatchdogExpiry s = .next (s.on (fun d => d.activeFails 9))) ∧
  (∀ s : State, s.dev.sv.standby = .ready →
    exec .standbyPairFailure s = .next (s.on (Dev.withSown 4 0 1 (fun d => d.fireStandby.modSv (fun s =>
      { s with standby := .starting, mpWasActive := false, standbyNew := false }))))) ∧
  (∀ (s : State), ∀ d : Dev, s.dev = d → d.sv.standby = .starting → d.sv.mpChange = .none → d.sv.fwPhase ≠ 5 →
    exec (.mpTestDone true) s = .next (s.on (fun _ => d.modSv (fun s => { s with standby := .ready, mpWasActive := false }))))

/-- The rotation of the lanes and the standing-in of the converters (14 R533 to R540, R547, R558, R559). The clauses
follow the model's choices of log entries 86 and 87 where the spec leaves one. -/
def Obligations.RotationRowsComplete : Prop :=
  (∀ (s : State) (st : Stall) (tag : BitVec 8) (c : Cmd), ∀ d : Dev, s.dev = d →
    let w := wd c.payload 0
    let op := fld w 1 0
    let l := retireLane c
    let out := d.lanes[l].role == .out
    let pend := d.sv.rot.retire.contains l
    d.runs st tag 0xB10 c = true → Passes [(noWord c, stParam), (op == 2 && decide (fld w 12 8 < 18) && !out && !pend && decide (d.capable < d.sv.rot.retire.length + 18), stState), (badLen c 1 || op == 3 || rsv w 0xFFFFE0FC || (op != 2 && rsv w 0x1F00) || (op == 2 && decide (fld w 12 8 ≥ 18)), stParam)] →
    exec (.rotationControl st tag) s = .next (s.on (fun _ =>
      if op = 0 then (d.modRot (fun r => { r with hold := false })).ok c []
      else if op = 1 then (d.modRot (fun r => { r with hold := true, holdSince := d.clk })).ok c []
      else if out then d.ok c []
      else (d.modRot (fun r => { r with retire := if pend then r.retire else r.retire ++ [l] })).await st tag .started))) ∧
  (∀ (s : State) (st : Stall) (tag : BitVec 8) (c : Cmd), ∀ d : Dev, s.dev = d →
    let w := wd c.payload 0
    let t := fld w 3 0
    let k := fld w 14 8
    let lane := d.lanes[(Fin.ofNat 18 k : LaneNo)].role
    d.runs st tag 0xB11 c = true → Passes [(noWord c, stParam), ((t == 0 && decide (k < 18) && !(lane == .spare || lane == .out)) || (t == 1 && d.sv.standby != .ready) || (t == 2 && decide (k < 96) && (d.bistSpare k).isNone), stState), (badLen c 1 || rsv w 0xFFFF80F0 || decide (t > 2) || (t == 0 && decide (k ≥ 18)) || (t == 2 && decide (k ≥ 96)), stParam)] →
    exec (.bistRun st tag) s = .next (s.on (fun _ => ((d.bistBegin t k).modSv (fun s => { s with bist := s.bist ++ [⟨BitVec.ofNat 4 t, BitVec.ofNat 7 k, st, tag⟩] })).await st tag .started))) ∧
  (∀ (s : State), ∀ d : Dev, s.dev = d → d.sv.rot.hold = true → d.passedMs d.sv.rot.holdSince 3600000 = true →
    exec .rotationHoldExpiry s = .next (s.on (fun _ => d.modRot (fun r => { r with hold := false })))) ∧
  (∀ (s : State) (got want : W32) (us : Nat) (b : Bist) (rest : List Bist), ∀ d : Dev, s.dev = d → d.sv.bist = b :: rest → b.target ≠ 0 →
    exec (.bistDone got want us) s = .next (s.on (fun _ =>
      ((d.bistEnd b).modSv (fun s => { s with bist := rest })).respond b.stall b.tag stOk
        [got, want, mkw [(b2n (got == want), 31, 1), (us / 1000, 0, 16)]]))) ∧
  (∀ (s : State), ∀ d : Dev, s.dev = d → (d.tick + 1) % d.rotTicks = 0 → d.sv.rot.retire = [] → d.sv.rot.hold = false →
    d.sv.rot.errs = [] → d.sv.rot.takeoverTick = none →
    exec .rotationStep s = .next (s.on (fun _ => d.rotate))) ∧
  (∀ (s : State) (l : LaneNo), ∀ d : Dev, s.dev = d → ∀ d1 : Dev,
    d.modRot (fun r => { r with testOrder := r.testOrder.filter (· != l) ++ [l] }) = d1 →
    d.sv.rot.fallow = some l → d.sv.rot.passed = false →
    exec (.laneTestDone l .failed) s = .next (s.on (fun _ => ((d1.laneOut l).fire 141 .device).laneRecord l 31 0)) ∧
    exec (.laneTestDone l .imageBad) s = .next (s.on (fun _ =>
      (((d1.modLane l (fun x => { x with pmOk := false })).laneOut l).fire 141 .device).laneRecord l 31 0)) ∧
    (d.sv.rot.worn.contains l = false → d.sv.rot.inPlace = false → exec (.laneTestDone l .pass) s = .next (s.on (fun _ =>
      (d1.modLane l (fun x => { x with pmOk := true })).modRot (fun r => { r with passed := true })))) ∧
    (d.sv.rot.worn.contains l = false → d.sv.rot.inPlace = true → exec (.laneTestDone l .pass) s = .next (s.on (fun _ =>
      (d1.modLane l (fun x => { x with pmOk := true, role := .spare })).modRot (fun r =>
        { r with fallow := none, inPlace := false }))))) ∧
  (∀ (s : State) (l : LaneNo), ∀ d : Dev, s.dev = d → d.lanes[l].role = .inService →
    exec (.laneError l) s = .next (s.on (fun _ => d.withSown 0 l.val 140 (fun d => d.laneFault l 140)))) ∧
  (∀ (s : State) (k : Fin 4) (n : Nat), ∀ d : Dev, s.dev = d →
    (d.sv.spares[k].step = .back n → ∀ ok : Bool, exec (.converterStandinStep k ok) s = .next (s.on (fun _ => d.endStandIn k))) ∧
    (d.sv.spares[k].step = .overlap n → ∀ ok : Bool,
      exec (.converterStandinStep k ok) s = .next (s.on (fun _ => d.standIn k n (.deliver n)))) ∧
    (d.sv.spares[k].step = .deliver n →
      exec (.converterStandinStep k false) s = .next (s.on (fun _ => d.convError n)))) ∧
  (∀ (s : State) (n : Fin 96) (k : Fin 4), ∀ d : Dev, s.dev = d → k ≠ 2 →
    exec (.converterError n k) s = .next (s.on (fun _ => d.convError n.val)))

/-- Margins, firmware and the ledger (14 R543 to R552, R560 to R566). The clauses follow the model's choices of log
entries 88 and 89 where the spec leaves one. -/
def Obligations.MarginAndFirmwareRowsComplete : Prop :=
  (∀ (s : State) (st : Stall) (tag : BitVec 8) (c : Cmd), ∀ d : Dev, s.dev = d →
    d.runs st tag 0xB20 c = true → Passes (d.measureChecks c) →
    exec (.marginMeasure st tag) s = .next (s.on (fun _ =>
      let w := wd c.payload 0
      let a := axisOf c
      let d1 := d.modAxf a (fun f => { f with remeasure := bitOf w 6 })
      if bitOf w 7 then d1.ok c []
      else (d1.modSv (fun s => { s with measuring := s.measuring ++ [⟨a, bitOf w 4, bitOf w 5, some (st, tag)⟩] })).await st tag .started))) ∧
  (∀ (s : State) (st : Stall) (tag : BitVec 8) (c : Cmd), ∀ d : Dev, s.dev = d →
    d.runs st tag 0xB21 c = true → Passes (d.applyChecks c) →
    exec (.marginApply st tag) s = .next (s.on (fun _ => if bitOf (wd c.payload 0) 4 then d.await st tag .atFrame else d.answerPlan c))) ∧
  (∀ (s : State) (st : Stall) (tag : BitVec 8) (c : Cmd), ∀ d : Dev, s.dev = d →
    let p := c.payload
    let w := wd p 0
    let n := p.length - 1
    let ofs := fld w 21 0
    d.runs st tag 0xB30 c = true → Passes [(d.sv.fwPhase.toNat ≥ 3, stState), (p.length < 2 || rsv w 0x7FC00003 || decide (ofs + 4 * n > 2 ^ 22), stParam)] →
    exec (.fwLoad st tag) s = .next (s.on (fun _ =>
      let first := bitOf w 31
      (d.modSv (fun s =>
        { s with images := vmod s.images s.other (fun i =>
                   { i with words := Mem.writes 0 (if first then [] else i.words) (ofs / 4) (p.drop 1), valid := i.valid && !first })
                 fwPhase := if first then 1 else s.fwPhase })).ok c []))) ∧
  (∀ (s : State) (st : Stall) (tag : BitVec 8) (c : Cmd), ∀ d : Dev, s.dev = d →
    d.runs st tag 0xB33 c = true → Passes [(d.sv.fwPhase != 4, stState), (badLen c 0, stParam)] →
    exec (.fwConfirm st tag) s = .next (s.on (fun _ =>
      let s := d.sv
      let d1 := d.modSv (fun s => { s with bootImage := s.running, fwPhase := 0, nextStart := false })
      (d1.ledger 7 0 0 0 ((s.images[s.other].version).setWidth 32 ||| 0x03000000) ((s.images[s.running].version).setWidth 32)).ok c []))) ∧
  (∀ (s : State) (st : Stall) (tag : BitVec 8) (c : Cmd), ∀ d : Dev, s.dev = d →
    let w := wd c.payload 0
    let w1 := wd c.payload 1
    d.runs st tag 0xB40 c = true → Passes [(badLen c 2 || rsv w 0xFFFF0000 || rsv w1 0xFFFFFF80 || fld w1 6 0 == 0, stParam)] →
    exec (.ledgerRead st tag) s = .next (s.on (fun _ =>
      let rec_ (i : Nat) : List W32 :=
        let r := Mem.read [] d.sv.ledger ((fld w 15 0 + i) % 65536)
        if r.isEmpty then List.replicate 8 0 else r
      d.ok c (mkw [(d.sv.ledgerWraps.toNat, 16, 16), (d.sv.ledgerHead.toNat, 0, 16)] :: (List.range (fld w1 6 0)).flatMap rec_)))) ∧
  (∀ (s : State) (a : AxisNo) (r : List LegMeasure) (x : Measuring), ∀ d : Dev, s.dev = d → ∀ d1 : Dev,
    ((d.axisLegs a).zip r).foldl (fun d y => d.legMeasured a true y.1 y.2) d = d1 →
    d.assigned a = true → r.length = (d.axisLegs a).length → d.sv.measuring.find? (fun m => m.axis == a) = some x →
    x.baseline = true → x.apply = false → x.cmd = none → (d.axf[a].measureDue && !d.bridgeBusy a && !d.busLow a) = false →
    (d.planOf a r).2 = false →
    exec (.marginMeasureDone a r) s = .next (s.on (fun _ => d1.modSv (fun s =>
      { s with measuring := s.measuring.eraseIdx (s.measuring.findIdx (fun m => m.axis == a)),
               plans := vset s.plans a (some (d.planOf a r).1) })))) ∧
  (∀ (s : State) (st : Stall) (tag : BitVec 8) (sig laws : Bool) (c : Cmd), ∀ d : Dev, s.dev = d →
    d.runs st tag 0xB31 c = true → badLen c 2 = false → rsv (wd c.payload 0) 0xFFC00000 = false →
    exec (.fwCommit st tag sig laws) s = .next (s.on (fun _ =>
      let i : Image := d.sv.images[d.sv.other]
      let run := d.sv.images[d.sv.running].version
      let r := i.reason run (fld (wd c.payload 0) 21 0) (wd c.payload 1) sig
      if r ≠ 0 then d.respond st tag stParam [mkw [(r, 28, 4)]]
      else (d.modSv (fun s =>
        { s with images := vset s.images s.other { i with version := BitVec.ofInt 24 (i.says run 2), valid := true },
                 liveOk := i.says run 3 % 2 != 0, lawsChanged := laws,
                 fwPhase := if s.fwPhase.toNat < 3 then 2 else s.fwPhase })).ok c
        [mkw [((BitVec.ofInt 24 (i.says run 2)).toNat, 0, 24), (b2n (i.says run 3 % 2 != 0), 24, 1), (b2n laws, 25, 1)]]))) ∧
  (∀ (s : State) (st : Stall) (tag : BitVec 8) (c : Cmd), ∀ d : Dev, s.dev = d →
    d.runs st tag 0xB32 c = true → Passes (d.activateChecks c) →
    (fld (wd c.payload 0) 1 0 = 0 → exec (.fwActivate st tag) s = .next (s.on (fun _ =>
      (d.modSv (fun s => { s with nextStart := true })).ok c []))) ∧
    (fld (wd c.payload 0) 1 0 = 1 → exec (.fwActivate st tag) s = .next (s.on (fun _ => (d.modSv (fun s =>
      { s with fwPhase := 3, fwBefore := s.fwPhase, fwCmd := some (st, tag), fwSince := d.clkTaken c,
               trialS := fld (wd c.payload 0) 31 16, standbyNew := false, switchClk := none,
               standby := .inUpdate })).await st tag .started)))) ∧
  (∀ (s : State), ∀ d : Dev, s.dev = d → d.updating = true →
    (d.sv.standby = .inUpdate → d.sv.mpChange = .none → exec .standbyImageStarted s = .next (s.on (fun _ =>
      d.modSv (fun s => { s with standby := .inUpdate, standbyNew := true })))) ∧
    (d.sv.fwCmd = none → d.sv.standby ≠ .starting → d.sv.mpChange = .none → d.passedMs d.sv.fwSince 1000 = true → exec .liveSwitchTimeout s = .next (s.on (fun _ =>
      d.modSv (fun s => { s with fwPhase := s.fwBefore, fwCmd := none, standbyNew := false,
                                 standby := if s.standby == .inUpdate then .ready else s.standby })))) ∧
    (d.sv.fwPhase = 3 → d.sv.fwCmd = none → d.sv.standbyNew = true → d.isFrame = true → d.bestEffortRuns = false →
      d.sv.mpChange = .none → d.clk ≤ d.sv.fwSince + 1000 * clksPerMs → exec .liveSwitch s = .next (s.on (fun _ =>
        (d.modSv (fun s => { s with running := s.other, active := !s.active, standbyNew := false, stdArea := s.stdArea != s.lawsChanged, switchClk := some d.clk,
                                    fwCmd := none })).ledger 7 0 0 0
          (((d.sv.images[d.sv.running]).version).setWidth 32 ||| 0x02000000)
          (((d.sv.images[d.sv.other]).version).setWidth 32))))) ∧
  (∀ (s : State) (t : Nat), ∀ d : Dev, s.dev = d → d.sv.switchClk = some t → d.sv.fwPhase = 3 → d.passedMs t 400 = true →
    exec .trialStart s = .next (s.on (fun _ => d.modSv (fun s =>
      { s with switchClk := none, standby := .ready, fwPhase := 4, trialEnd := d.clk + 1000 * clksPerMs * s.trialS })))) ∧
  (∀ (s : State), ∀ d : Dev, s.dev = d → d.sv.fwPhase = 4 → d.sv.trialEnd ≤ d.clk + d.tickClks →
    exec .trialExpiry s = .next (s.on (fun _ => d.rollBack none)))

/-- The safety commands (15 R592, R602 to R606, R609 to R612): the acknowledge, the commissioning, and the parameter
image that it writes and reads. The clauses follow the model's choices of log entries 33, 38, 41 and 42 where the spec
leaves one. -/
def Obligations.SafetyCommandsComplete : Prop :=
  (∀ (s : State) (st : Stall) (tag : BitVec 8) (c : Cmd), ∀ d0 d d1 : Dev, s.dev = d0 → d0.touch = d →
    d.modSafe Safety.cleared = d1 → d0.runs st tag 0xA00 c = true → badLen c 0 = false → d.sf.lockout ≠ 0 → d.sf.armed = true →
    (∀ u < 22, d.sf.lockout.getLsbD u = true → d.causePersists u = false) → d.sf.lockout ≠ unitBit unitParam →
    exec (.safetyAck st tag) s = .next (s.on (fun _ =>
      ((d1.stoEdge 0 (d.stoActive 0)).stoEdge 1 (d.stoActive 1)).ok c []))) ∧
  (∀ (s : State) (st : Stall) (tag : BitVec 8) (c : Cmd), ∀ d0 d : Dev, s.dev = d0 → d0.touch = d →
    let w := wd c.payload 0
    let ofs := fld w 8 0
    let n := fld w 24 16
    d0.runs st tag 0xA11 c = true → Passes [(!d0.sf.commissioning, stState), (c.payload.length != 1 + n || rsv w 0xFE00FE00 || ofs + n > 383, stParam)] →
    exec (.safetyParamWrite st tag) s = .next (s.on (fun _ =>
      let put (x : SafeChan) : SafeChan := { x with staging := Mem.writes 0 x.staging ofs (c.payload.drop 1) }
      (d.modSafe (fun s => { s with chA := put s.chA, chB := put s.chB })).ok c []))) ∧
  (∀ (s : State) (st : Stall) (tag : BitVec 8) (c : Cmd), ∀ d0 d : Dev, s.dev = d0 → d0.touch = d →
    let w := wd c.payload 0
    let ofs := fld w 8 0
    let n := fld w 24 16
    let staging := bitOf w 31
    d0.runs st tag 0xA12 c = true → Passes [(noWord c, stParam), (staging && !d0.sf.commissioning, stState), (badLen c 1 || rsv w 0x7E00FE00 || ofs + n > 384, stParam)] →
    exec (.safetyParamRead st tag) s = .next (s.on (fun _ => d.ok c (Mem.reads 0 (if staging then d.sf.chB.staging else d.safeSet) ofs n)))) ∧
  (∀ (s : State) (st : Stall) (tag : BitVec 8) (c : Cmd), ∀ d0 d : Dev, s.dev = d0 → d0.touch = d →
    ∀ w : W32, wd c.payload 0 = w → d0.runs st tag 0xA10 c = true → badLen c 3 = false → rsv w 0xFFFFFFEC = false → bitOf w 4 = false → wd c.payload 2 = 0 →
    (fld w 1 0 = 0 → wd c.payload 1 = d.sf.code → d.sf.codeBlocked = false → d.sf.commissioning = false →
      exec (.safetyCommission st tag) s = .next (s.on (fun _ => d.openCommission.ok c [0, 0, 0]))) ∧
    (fld w 1 0 = 0 → wd c.payload 1 ≠ d.sf.code → d.sf.codeBlocked = false → d.sf.commissioning = false →
      exec (.safetyCommission st tag) s = .next (s.on (fun _ => d0.wrongCode.touch.respondN c.stall c.tag stSafetyLock 4))) ∧
    (fld w 1 0 = 3 → wd c.payload 1 = 0 → d.sf.commissioning = true →
      exec (.safetyCommission st tag) s = .next (s.on (fun _ => d.abortCommission.ok c [0, 0, 0])))) ∧
  (∀ (s : State), ∀ d : Dev, s.dev = d → d.sf.commissioning = true →
    (d.sf.commClk + 1800000 * clksPerMs ≤ d.clk → exec .commissionIdleTimeout s = .next (s.on (fun _ => d.abortCommission))) ∧
    (∀ c, d.sf.confirm = some c → d.past c.since (60000 * clksPerMs) = true → exec .commissionConfirmTimeout s = .next (s.on (fun _ =>
      (d.modSafe (fun s => { s with confirm := none })).respondN c.stall c.tag stTimeout 4)))) ∧
  (∀ (s : State), ∀ d : Dev, s.dev = d → d.sf.codeBlocked = true → d.past d.sf.blockClk (600000 * clksPerMs) = true →
    exec .codeBlockExpiry s = .next (s.on (fun _ => d.modSafe (fun s => { s with codeBlocked := false, wrongCodes := 0 })))) ∧
  (∀ (s : State), ∀ d : Dev, s.dev = d → d.sf.paramValid = true → paramCrcOf d.sf.chA.params ≠ d.sf.paramCrc →
    exec .paramCrcCheck s = .next (s.on (fun _ => (d.fire 173 .device).functionFault unitParam)))

/-- The safety channels' start, check cycle, inputs and test pulses (15 R567 to R580). The clauses follow the model's
choices of log entries 36, 39 and 40 where the spec leaves one. -/
def Obligations.SafetyInputsComplete : Prop :=
  (∀ (s : State), ∀ d : Dev, s.dev = d → d.pw.v24bOk = true → d.sf.chB.started = false → d.pw.phase = .running →
    exec .channelBStart s = .next (s.on (fun _ => ((d.vsafeOn.startChannel false).startChannel true).startSet))) ∧
  (∀ (s : State) (b : Bool) (inp : CheckInputs), ∀ d : Dev, s.dev = d → (d.chan b).started = true → ∀ d1 d3 d4 : Dev,
    (d.exchangeCycle b inp.exchange).readback inp.read = d1 → ∀ pulse, (if b then d1.sf.resetB else d1.sf.resetA) = pulse →
    ((d1.modChan b (fun c => c.evalPermits d1.sf pulse)).slsCycle b inp).modSafe (fun s =>
      if b then { s with resetB := false } else { s with resetA := false }) = d3 →
    (if b then d3 else (d3.sharedCycle pulse).permitFalls (permitsAfter d1.sf (d1.chan b).permits)
      (permitsAfter d3.sf d3.sf.chA.permits)) = d4 →
    ∀ d5 : Dev, (if d4.sf.chA.run && d4.sf.chB.run && d4.pw.v24bOk then
      (((d4.ossdCycle b).zoneCycle b 0).zoneCycle b 1).compareCycle b else d4.holdSafe b) = d5 →
    exec (.safetyCheckCycle b inp) s = .next (s.on (fun _ => if b then d5 else d5.showSafety))) ∧
  (∀ (s : State) (b : Bool) (n : Fin 16) (level : Bool), ∀ d : Dev, s.dev = d → (d.chan b).started = true →
    d.filterHeld n.val = false →
    exec (.safetyInputAccept b n level) s = .next (s.on (fun _ =>
      (d.modChan b (fun c => { c with sin := if level then c.sin ||| BitVec.ofNat 16 (2 ^ n.val)
                                             else c.sin &&& ~~~(BitVec.ofNat 16 (2 ^ n.val)) })).pairTimer
        (Fin.ofNat 8 (n.val / 2))))) ∧
  (∀ (s : State) (n : Fin 4), ∀ d : Dev, s.dev = d → d.sf.chB.started = true →
    exec (.testPulseStart n) s = .next (s.on (fun _ =>
      d.modSafe (fun s => { s with tpOff := s.tpOff ||| BitVec.ofNat 4 (2 ^ n.val) })))) ∧
  (∀ (s : State) (n : Fin 4) (seen : BitVec 16) (fed : List Nat), ∀ d : Dev, s.dev = d → d.sf.tpOff.getLsbD n.val = true →
    (List.range 16).filter (fun i => tpOf d.sf.chB.params i == n.val) = fed → (∀ i ∈ fed, seen.getLsbD i = true) →
    exec (.testPulseEnd n seen) s = .next (s.on (fun _ => d.modSafe (fun s =>
      { s with tpOff := s.tpOff &&& ~~~(BitVec.ofNat 4 (2 ^ n.val)), tpEnd := vset s.tpEnd n d.clk,
               pairs := Vector.ofFn (fun p : Fin 8 => { s.pairs[p] with
                 missNow := s.pairs[p].missNow &&& ~~~(BitVec.ofNat 2 (maskOf
                   ((fed.filter (fun i => i / 2 == p.val)).map (· % 2)))) }) })))) ∧
  (∀ (s : State) (p : Fin 8) (t : Nat), ∀ d : Dev, s.dev = d → d.sf.pairs[p].discSince = some t →
    d.sf.pairs[p].reported = false → t + 4 * ifDisc d.sf.chA.params p.val < d.sf.chA.cycles →
    exec (.inputDiscrepancy p) s = .next (s.on (fun _ =>
      ((d.modSafe (fun s => { s with pairs := vmod s.pairs p (fun x => { x with reported := true, discFault := true }) })).fire
        166 .device).elementFault p.val (!d.sf.pairs[p].discFault)))) ∧
  (∀ (s : State) (ms : Nat), ∀ d : Dev, s.dev = d →
    (250 ≤ ms → ms ≤ 3000 → d.sf.chA.started = true → d.sf.chB.started = true → ∀ d1 : Dev,
      d.modSafe (fun s => { s with resetA := true, resetB := true, armed := true, armedClk := d.clk }) = d1 →
      exec (.sresetAccept ms) s = .next (s.on (fun _ =>
        match d.sf.confirm with
        | some w => d1.confirmed w
        | none => d1))) ∧
    (ms < 250 → exec (.sresetAccept ms) s = .next (s.on (fun _ => d))) ∧
    (3000 < ms → exec (.sresetAccept ms) s = .next (s.on (fun _ => d.modSafe (fun s => { s with sresetStuck := false }))))) ∧
  (∀ (s : State), ∀ d : Dev, s.dev = d → d.sf.sresetStuck = false →
    exec .sresetStuck s = .next (s.on (fun _ => (d.modSafe (fun s => { s with sresetStuck := true })).fire 176 .device))) ∧
  (∀ (s : State), ∀ d : Dev, s.dev = d → d.sf.armed = true → d.past d.sf.armedClk (30000 * clksPerMs) = true →
    exec .sresetArmExpiry s = .next (s.on (fun _ => d.modSafe (fun s => { s with armed := false })))) ∧
  (∀ (s : State) (p : Fin 8) (t : Nat), ∀ d : Dev, s.dev = d → d.sf.chA.funcs[p].firstHand = some t →
    t + 2000 < d.sf.chA.cycles → d.sf.chA.funcs[p].lapsed = false → ifType d.sf.chA.params p.val = 3 →
    exec (.twoHandLapse p) s = .next (s.on (fun _ =>
      (d.modSafe (fun s =>
        { s with chA := { s.chA with funcs := vmod s.chA.funcs p (fun f => { f with lapsed := true }) },
                 chB := { s.chB with funcs := vmod s.chB.funcs p (fun f => { f with lapsed := true }) } })).fire 177 .device)))

/-- The safe outputs, the speed monitors, the zones and the safety telegrams (15 R581 to R601). The clauses follow the
model's choices of log entries 43 and 95 where the spec leaves one. -/
def Obligations.SafetyOutputsComplete : Prop :=
  (∀ (s : State) (b : Bool) (z : Fin 2) (t : Nat), ∀ d : Dev, s.dev = d → (d.chan b).zones[z].ss1 = some t →
    t ≤ (d.chan b).cycles → exec (.ss1Expiry b z) s = .next (s.on (fun _ => d.zoneSto b z))) ∧
  (∀ (s : State) (i : Fin 8), ∀ d : Dev, s.dev = d → d.sf.ossdOn (i.val / 2) = true → d.sf.ossd[i].pulsing = false →
    exec (.ossdTestPulse i) s = .next (s.on (fun _ => d.modSafe (fun s =>
      { s with ossd := vmod s.ossd i (fun o => { o with pulsing := true, discard := false }) })))) ∧
  (∀ (s : State) (i : Fin 8) (off : Bool), ∀ d : Dev, s.dev = d → d.sf.ossd[i].pulsing = true → ∀ d1 : Dev,
    d.modSafe (fun s => { s with ossd := vmod s.ossd i (fun o =>
      { o with pulsing := false, discard := false, onWaits := false, failed := o.failed && (o.discard || !off) }) }) = d1 →
    exec (.ossdPulseEnd i off) s = .next (s.on (fun _ => if d.sf.ossd[i].discard || off then d1 else d1.readbackFault i))) ∧
  (∀ (s : State) (i : Fin 8) (off : Bool), ∀ d : Dev, s.dev = d → d.sf.ossd[i].offCheck = true →
    d.past d.sf.ossd[i].offClk (5 * clksPerMs / 2) = true → ∀ d1 : Dev,
    d.modSafe (fun s => { s with ossd := vmod s.ossd i (fun o =>
      { o with offCheck := false, failed := o.failed && !off }) }) = d1 →
    exec (.ossdOffCheck i off) s = .next (s.on (fun _ => if off then d1 else d1.readbackFault i))) ∧
  (∀ (s : State) (k : Fin 8), ∀ d : Dev, s.dev = d → d.sf.sls[k].active = true →
    d.sf.sls[k].activeSince + 4 * fld (slsWord d.sf.chA.params k.val 3) 31 16 ≤ d.sf.chA.cycles →
    overLimit d.sf.chA.params k.val d.sf.chA.sls[k].speed = false → overLimit d.sf.chB.params k.val d.sf.chB.sls[k].speed = false →
    exec (.slsActDelayEnd k) s = .next (s.on (fun _ => d.modSafe (fun s =>
      { s with sls := vmod s.sls k (fun x => { x with checking := true }) })))) ∧
  (∀ (s : State) (k : Fin 8), ∀ d : Dev, s.dev = d → ∀ x : SlsState, d.sf.sls[k] = x → x.reported = false →
    discOver d.sf.chA.params k.val d.sf.chA.cycles x.discSince = true →
    discOver d.sf.chA.params k.val d.sf.chA.cycles x.bothSince = false →
    exec (.slsDiscrepancy k) s = .next (s.on (fun _ =>
      ((d.modSafe (fun s => { s with sls := vmod s.sls k (fun x => { x with reported := true, discFault := true }) })).fire
        178 .device).elementFault (12 + k.val) (!x.discFault)))) ∧
  (∀ (s : State) (u : Fin 22), ∀ d : Dev, s.dev = d → ∀ d0 d1 : Dev,
    d.modSafe (fun s => { s with degEnding := s.degEnding ||| unitBit u.val }) = d0 →
    ((d0.permitFalls (permitsAfter d.sf d.sf.chA.permits) (permitsAfter d0.sf d.sf.chA.permits)).ossdCycle false).ossdCycle
      true = d1 →
    d.sf.degraded.getLsbD u.val = true → d.sf.degEnding.getLsbD u.val = false →
    Mem.read 0 d.sf.degEnd u.val ≤ d.sf.chA.cycles →
    exec (.degradedEnd u) s = .next (s.on (fun _ =>
      ((((d1.startSs1 false 0).startSs1 true 0).startSs1 false 1).startSs1 true 1).endingLockOut))) ∧
  (∀ (s : State) (g : Fin 2), ∀ d : Dev, s.dev = d → ∀ d1 : Dev, (d.fire 172 .device).functionFault unitDevice = d1 →
    d.stoActive g = true → d.gates[g].fb = false →
    d.past d.gates[g].stoClk clksPerMs = true →
    exec (.stoFbTimeout g) s = .next (s.on (fun _ =>
      ((d1.modSafe (fun s => { s with vsafeOpen := true })).stoEdge 0 (d1.stoActive 0)).stoEdge 1 (d1.stoActive 1)))) ∧
  (∀ (s : State) (i : Fin 64) (bs : List Byte), ∀ d : Dev, s.dev = d → bitOf (connWord d.safeSet i.val 0) 0 = true →
    bitOf (connWord d.safeSet i.val 0) 1 = false → d.connCarried i = true → d.sf.conns[i].state ≠ .off →
    d.sf.chA.run = true → d.sf.chB.run = true → bs.length < 12 + fld (connWord d.safeSet i.val 0) 9 4 →
    exec (.safetyTelegram i bs) s = .next (s.on (fun _ => d.rejectTelegram i))) ∧
  (∀ (s : State) (i : Fin 64) (bs : List Byte) (seq : BitVec 16) (len : Nat), ∀ d : Dev, s.dev = d →
    ∀ m : Mem W32, d.safeSet = m → fld (connWord m i.val 0) 9 4 = len → BitVec.ofNat 16 (beNat ((bs.drop 2).take 2)) = seq →
    bitOf (connWord m i.val 0) 0 = true → bitOf (connWord m i.val 0) 1 = false → d.connCarried i = true →
    d.sf.conns[i].state ≠ .off → d.sf.chA.run = true → d.sf.chB.run = true → 12 + len ≤ bs.length →
    (bs.getD 0 0).toNat = (if fld (connWord m i.val 0) 3 2 = 0 then fld (connWord m i.val 0) 15 10 else i.val) →
    (bs.getD 1 0).toNat = len → beNat ((bs.drop 4).take 2) = fld (connWord m i.val 2) 15 0 →
    beNat ((bs.drop (8 + len)).take 4) = (telegramCheck (connWord m i.val 1) (bs.take (8 + len))).toNat →
    (d.sf.conns[i].refSet = false → exec (.safetyTelegram i bs) s = .next (s.on (fun _ => d.modSafe (fun s =>
      { s with conns := vmod s.conns i (fun c => { c with refSet := true, lastSeq := seq }) })))) ∧
    (d.sf.conns[i].refSet = true → 1 ≤ (seq - d.sf.conns[i].lastSeq).toNat → (seq - d.sf.conns[i].lastSeq).toNat ≤ 1000 →
      exec (.safetyTelegram i bs) s = .next (s.on (fun _ => d.modSafe (fun s => { s with conns := vmod s.conns i (fun c =>
        { c with state := .valid, lastSeq := seq, age := 0, data := (bs.drop 8).take len }) }))))) ∧
  (∀ (s : State) (i : Fin 64), ∀ d : Dev, s.dev = d → bitOf (connWord d.safeSet i.val 0) 0 = true →
    bitOf (connWord d.safeSet i.val 0) 1 = true → d.sf.chA.run = true → d.sf.chB.run = true →
    exec (.safetyTelegramSend i false) s = .next (s.on (fun _ => (d.fire 170 .device).functionFault unitDevice)) ∧
    (∀ (k : Fin 2) (b : Fin 32), d.connCarried i = true → fld (connWord d.safeSet i.val 0) 3 2 = k.val + 1 →
      (List.finRange 32).find? (fun b => (d.nextSeq i).can.ctl[k].bufs[b].safety == some i) = some b →
      (List.finRange 32).find? (fun b => d.can.ctl[k].bufs[b].safety == some i) = some b →
      exec (.safetyTelegramSend i true) s = .next (s.on (fun _ =>
        ((d.nextSeq i).bufSend k b ((d.nextSeq i).telegramTx i k)).canKick k)))) ∧
  (∀ (s : State) (i : Fin 64), ∀ d : Dev, s.dev = d → d.sf.conns[i].state = .valid →
    bitOf (connWord d.safeSet i.val 0) 1 = false → 4 * fld (connWord d.safeSet i.val 2) 15 0 < d.sf.conns[i].age →
    exec (.connTimeout i) s = .next (s.on (fun _ =>
      (d.modSafe (fun s => { s with conns := vmod s.conns i (fun c =>
        { c with state := .timedOut, data := [], refSet := false,
                 timeouts := BitVec.ofNat 16 (satU 16 (c.timeouts.toNat + 1)) }) })).fire 174 .device))) ∧
  (∀ (s : State) (b : Bool), ∀ d : Dev, s.dev = d → (d.chan b).started = true →
    exec (.safetyChannelFault b) s = .next (s.on (fun _ => (d.fire 171 .device).functionFault unitDevice)))

/-- Echo (03 R106): a payload of up to 64 words comes back after the status OK, a longer one is answered with PARAM;
with room in the response area the host reads it from the old RSP_WR_PTR on. -/
def Obligations.EchoReturnsThePayload : Prop :=
  ∀ (s : State) (st : Stall) (tag : BitVec 8) (c : Cmd), ∀ d : Dev, s.dev = d → d.runs st tag 0x000 c = true →
    c.dropped = false → d.hasRoom st 66 →
    ∃ t, exec (.echo st tag) s = .next t ∧
      (c.payload.length ≤ 64 →
        Posted d t.dev st (headerOf 0 tag (c.payload.length + 1) :: nW stOk :: c.payload)) ∧
      (65 ≤ c.payload.length → Posted d t.dev st [headerOf 0 tag 1, nW stParam])

/-- A doorbell with a command code of 0xC00 to 0xFFF (00 R7), from a stall that takes it: the answer is UNKNOWN, no
command is left in flight, and nothing but the mailbox and host side changes. The row of that name does the same. -/
def Obligations.ReservedCodesAnswerUnknown : Prop :=
  ∀ (s : State) (st : Stall) (h : W32) (tag : BitVec 8), ∀ d : Dev, s.dev = d → d.wr = [] →
    d.present st = true → d.hp.stalls[st].mbxReset = false → d.hp.devReady = true → d.sv.mpChange = .none → d.hp.stalls[st].held = [] →
    0xC00 ≤ fld h 31 20 → fld h 11 0 ≤ 1024 → BitVec.ofNat 8 (fld h 19 12) = tag → d.hasRoom st 2 →
    (∀ c ∈ d.hp.inFlight, c.stall = st → c.tag ≠ tag) →
    (d.hp.inFlight.filter (fun c => c.stall == st)).length < 28 →
    ∃ t, exec (.doorbell st h) s = .next t ∧ exec (.reservedCommandCode st h) s = .next t ∧
      Posted d t.dev st [headerOf (BitVec.ofNat 12 (fld h 31 20)) tag 1, nW stUnknown] ∧
      t.dev.hp.inFlight = d.hp.inFlight ∧ MailboxOnly d t.dev ∧ t.dram = s.dram

/-- The commands that only ask (03 R106, 04 R133, 05 R173, 09 R355, 13 R515, 14 R566): whatever the state and whatever
the answer, they change the mailbox and host side at most. The clauses follow the model's choices of log entry 11 where
the spec leaves one. -/
def Obligations.QueriesChangeOnlyTheMailbox : Prop :=
  ∀ (s t : State) (st : Stall) (tag : BitVec 8), s.dev.wr = [] →
    (exec (.echo st tag) s = .next t ∨ exec (.plotQuery st tag) s = .next t ∨ exec (.fieldQuery st tag) s = .next t ∨
      exec (.lawQuery st tag) s = .next t ∨ exec (.coefRead st tag) s = .next t ∨ exec (.pwmQuery st tag) s = .next t ∨
      exec (.readStatus st tag) s = .next t ∨ exec (.fioStamp st tag) s = .next t ∨ exec (.fioQuery st tag) s = .next t ∨
      exec (.ledgerRead st tag) s = .next t) →
    MailboxOnly s.dev t.dev ∧ t.dram = s.dram ∧ t.pending = s.pending

/-- A command that fails a check (03 R93) is answered with the status of the first check that fails, and has no effect:
of each family one, with its own checks. The clauses follow the model's choices of log entries 11 and 17 where the spec
leaves one. -/
def Obligations.FailingChecksHaveNoEffect : Prop :=
  ∀ (s : State) (st : Stall) (tag : BitVec 8) (c : Cmd), ∀ d : Dev, s.dev = d → d.wr = [] →
    (d.runs st tag 0x241 c = true → ¬ Passes (d.modeChecks c) → ∃ t, exec (.lawMode st tag) s = .next t ∧
      t = s.on (fun _ => d.respondN c.stall c.tag (firstBad (d.modeChecks c)) 1) ∧ MailboxOnly d t.dev) ∧
    (d.runs st tag 0x252 c = true → ¬ Passes (d.storeChecks c) → storeOp c ≠ 1 → firstBad (d.storeChecks c) ≠ stResource →
      ∃ t, exec (.repStore st tag) s = .next t ∧
        t = s.on (fun _ => d.respondN c.stall c.tag (firstBad (d.storeChecks c)) 2) ∧ MailboxOnly d t.dev) ∧
    (d.runs st tag 0x252 c = true → firstBad (d.storeChecks c) = stResource → storeOp c ≠ 1 →
      exec (.repStore st tag) s = .next (s.on (fun _ => d.reply c.stall c.tag stResource [0]))) ∧
    (d.runs st tag 0x400 c = true → ¬ Passes (d.pwmBad c) → ∃ t, exec (.pwmConfig st tag) s = .next t ∧
      t = s.on (fun _ => d.respondN c.stall c.tag (firstBad (d.pwmBad c)) 1) ∧ MailboxOnly d t.dev) ∧
    (d.runs st tag 0x503 c = true → d.motState false c = false → d.motParam c = true → ∃ t, exec (.jog st tag) s = .next t ∧
      t = s.on (fun _ => d.respondN c.stall c.tag stParam 1) ∧ MailboxOnly d t.dev) ∧
    (d.runs st tag 0x511 c = true → noWord c = false → d.motState false c = true → ∃ t, exec (.moveQueue st tag) s = .next t ∧
      t = s.on (fun _ => d.respondN c.stall c.tag stState 1) ∧ MailboxOnly d t.dev) ∧
    (d.runs st tag 0xB02 c = true → ¬ Passes (d.recoverChecks c) → ∃ t, exec (.faultRecover st tag) s = .next t ∧
      t = s.on (fun _ => d.respondN c.stall c.tag (firstBad (d.recoverChecks c)) 1) ∧ MailboxOnly d t.dev) ∧
    (d.runs st tag 0xB20 c = true → ¬ Passes (d.measureChecks c) → ∃ t, exec (.marginMeasure st tag) s = .next t ∧
      t = s.on (fun _ => d.respondN c.stall c.tag (firstBad (d.measureChecks c)) 1) ∧ MailboxOnly d t.dev) ∧
    (d.runs st tag 0xB32 c = true → ¬ Passes (d.activateChecks c) → ∃ t, exec (.fwActivate st tag) s = .next t ∧
      t = s.on (fun _ => d.respondN c.stall c.tag (firstBad (d.activateChecks c)) 1) ∧ MailboxOnly d t.dev)

/-- A tick configuration that is not valid (02 R51) is answered with PARAM: TICK_CLKS 2,000 to 32,000 and a multiple of
250, FRAME_TICKS 1 to 16, CYCLE_FRAMES 1 to 64, and a network cycle of 31.25 µs to 1 ms, which is 16,000 to 512,000 lane
clocks. -/
def Obligations.InvalidTickConfigurationsAnswerParam : Prop :=
  ∀ (s : State) (st : Stall) (tag : BitVec 8) (c : Cmd) (clks ft cf : Nat), ∀ d : Dev, s.dev = d →
    d.runs st tag 0x210 c = true → d.liveAxes = [] →
    fld (wd c.payload 0) 14 0 = clks → fld (wd c.payload 0) 20 16 = ft → fld (wd c.payload 0) 30 24 = cf →
    ¬ ((2000 ≤ clks ∧ clks ≤ 32000 ∧ clks % 250 = 0) ∧ (1 ≤ ft ∧ ft ≤ 16 ∧ 1 ≤ cf ∧ cf ≤ 64) ∧
      16000 ≤ clks * ft * cf ∧ clks * ft * cf ≤ 512000) →
    exec (.tickSet st tag) s = .next (s.on (fun _ => d.respondN c.stall c.tag stParam 1))

/-- FwConfirm (14 R565): outside a trial the answer is STATE and nothing else happens; in a trial it ends the trial, and
the image that runs becomes the boot image (14 R546). -/
def Obligations.ConfirmEndsTheTrial : Prop :=
  ∀ (s : State) (st : Stall) (tag : BitVec 8) (c : Cmd), ∀ d : Dev, s.dev = d → d.wr = [] → d.runs st tag 0xB33 c = true →
    badLen c 0 = false →
    ∃ t, exec (.fwConfirm st tag) s = .next t ∧
      (d.sv.fwPhase ≠ 4 → t = s.on (fun _ => d.respondN c.stall c.tag stState 1) ∧ MailboxOnly d t.dev) ∧
      (d.sv.fwPhase = 4 → t.dev.sv.fwPhase = 0 ∧ t.dev.sv.bootImage = d.sv.running ∧ t.dev.sv.running = d.sv.running)

/-- SafetyAck (15 R609) while a lock-out is in force and SRESET is not armed: SAFETY_LOCK, and the lock-out stays. -/
def Obligations.UnarmedAckLeavesTheLockOut : Prop :=
  ∀ (s : State) (st : Stall) (tag : BitVec 8) (c : Cmd), ∀ d : Dev, s.dev = d → d.runs st tag 0xA00 c = true →
    d.sf.lockout ≠ 0 → d.sf.armed = false →
    ∃ t, exec (.safetyAck st tag) s = .next t ∧
      t = s.on (fun _ => d.touch.respondN c.stall c.tag stSafetyLock 1) ∧ t.dev.sf.lockout = d.sf.lockout

/-- No event of a leg's own turns both its switches on (08 R274): a leg with one of them off keeps one off through a
commanded edge, a turn-on, the end of a gate phase and a die's torque-off. The clauses follow the
model's choices of log entry 4 where the spec leaves one. -/
def Obligations.NeverBothSwitchesOn : Prop :=
  ∀ (s t : State) (k : LegNo), ¬ (s.dev.legs[k].hi.isOn = true ∧ s.dev.legs[k].lo.isOn = true) →
    ((∃ l high n, exec (.commandedEdge l ⟨high, n⟩) s = .next t) ∨ (∃ l high n, exec (.interlockTurnOn l high n) s = .next t) ∨
      (∃ l high n, exec (.gatePhaseEnd l ⟨high, n⟩) s = .next t) ∨ (∃ die, exec (.stoSwitchesOpen die) s = .next t)) →
    ¬ (t.dev.legs[k].hi.isOn = true ∧ t.dev.legs[k].lo.isOn = true)

/-- An instruction of a user law program changes its own lane and nothing else (05 R137, R141), END apart. The clauses
follow the model's choices of log entry 13 where the spec leaves one. -/
def Obligations.InstructionsChangeOnlyTheirLane : Prop :=
  ∀ (i : Instr) (ln : LaneNo) (s t : State), laneOf i = some ln → exec i s = .next t →
    OnlyLane ln s t ∧ t.pending = s.pending ∧ (s.dev.wr = [] → t.dram = s.dram) ∧
      (∀ k : LaneNo, k ≠ ln → t.dev.lanes[k] = s.dev.lanes[k])

/-- An instruction whose fields 05 R150 to R157 call illegal stops the block: LawCommit lets none of them into a
program. The clauses follow the model's choices of log entry 94 where the spec leaves one. -/
def Obligations.IllegalFieldsStop : Prop :=
  ∀ (i : Instr) (s : State), i.wellFormed = false → exec i s = .refused .illegalInstruction

/-- The words of the lane instructions (05 R150, Tables 5.7 and 5.9): every lane instruction has a word, END too, and the
word, with every operand at every value, reads back as that instruction for that lane; that a word stands for a row is the model's
reading (log entry 116). -/
def Obligations.LaneWordsReadBack : Prop :=
  (∀ (i : Instr) (ln : LaneNo), laneOf i = some ln ∨ i = .endProg ln → ∃ w, laneCode i = some (ln, w)) ∧
  (∀ (i : Instr) (ln : LaneNo) (w : BitVec 40), laneCode i = some (ln, w) → laneInstr ln w = some i)

/-- Post-modification of an address register (05 R147) by LD, ST and the first load of a MAC: with LEN 0 the step is
added mod 2^16; else b is the smallest integer with 2^b ≥ LEN, and Ak moves within the LEN words from Ak with its low b
bits cleared. The new value is there for the next instruction. -/
def Obligations.PostModification : Prop :=
  ∀ (s : State) (ln : LaneNo) (h : Fin 3) (l : Lane) (k : Fin 8) (p : Fin 4) (step : Int) (b ak len new : Nat),
    s.atHook ln h l → l.a[k].toNat = ak → (l.m[k].extractLsb' 12 12).toNat = len →
    ((p = 1 ∧ step = 1) ∨ (p = 2 ∧ step = -1) ∨ (p = 3 ∧ step = (l.m[k].extractLsb' 0 12).toInt)) →
    len ≤ 2 ^ b → (∀ e, len ≤ 2 ^ e → b ≤ e) →
    (len = 0 → (new : Int) = (ak + step) % 65536) →
    (len ≠ 0 → (new : Int) = (ak / 2 ^ b * 2 ^ b : Nat) + ((ak - ak / 2 ^ b * 2 ^ b : Nat) + step) % len) →
    (∀ rd, ∃ t, exec (.ld ln rd k p) s = .next t ∧ (t.dev.lanes[ln].a[k]).toNat = new) ∧
    (∀ ra, ∃ t, exec (.st ln ra k p) s = .next t ∧ (t.dev.lanes[ln].a[k]).toNat = new) ∧
    (∀ sat ac dx dy rd ly, ly.en = false →
      ∃ t, exec (.mac ln sat ac dx dy ⟨true, rd, k, p⟩ ly) s = .next t ∧ (t.dev.lanes[ln].a[k]).toNat = new)

/-- Dropped low-order bits (05 R145): MUL, SAC and SHA with a right shift round to the nearest value, ties toward +∞,
and SHR truncates toward −∞; the results that the register holds, where they fit it. -/
def Obligations.DroppedBitsRound : Prop :=
  ∀ (s : State) (ln : LaneNo) (h : Fin 3) (l : Lane) (v : Int), s.atHook ln h l →
    (∀ sat rd ra rb, fits 20 v = true →
      -(2 ^ 19 : Int) < 2 * (v * 2 ^ 19 - l.rd ra * l.rd rb) → 2 * (v * 2 ^ 19 - l.rd ra * l.rd rb) ≤ 2 ^ 19 →
      ∃ t w, exec (.mul ln sat rd ra rb) s = .next t ∧ t.dev.lanes[ln].pend = [w] ∧ w.dest = .d rd ∧ w.val = v) ∧
    (∀ sat rd ac (sh : BitVec 6) (n : Nat), sacShiftOk sh = true → sh.toInt = 19 - n → 0 < n → fits 20 v = true →
      -(2 ^ n : Int) < 2 * (v * 2 ^ n - l.racc ac) → 2 * (v * 2 ^ n - l.racc ac) ≤ 2 ^ n →
      ∃ t, exec (.sac ln sat rd ac sh) s = .next t ∧ (t.dev.lanes[ln].d[rd]).toInt = v) ∧
    (∀ sat ac (sh : BitVec 6) (n : Nat), sh.toInt = -n → 0 < n → fits 52 v = true →
      -(2 ^ n : Int) < 2 * (v * 2 ^ n - l.racc ac) → 2 * (v * 2 ^ n - l.racc ac) ≤ 2 ^ n →
      ∃ t w, exec (.sha ln sat ac sh) s = .next t ∧ t.dev.lanes[ln].pend = [w] ∧ w.dest = .ac ac ∧ w.val = v) ∧
    (∀ rd ra (n : Fin 32), shiftOk n = true → v * 2 ^ n.val ≤ l.rd ra → l.rd ra < (v + 1) * 2 ^ n.val →
      ∃ t, exec (.shr ln rd ra n) s = .next t ∧ (t.dev.lanes[ln].d[rd]).toInt = v)

/-- Host writes to DRAM through BAR2 (10 R371): into the gigabyte a host may write they land and change no other byte,
and outside it they change none; at 8 GB and above there is no DRAM, and the block stops. The clauses follow the model's
choices of log entry 94 where the spec leaves one. -/
def Obligations.HostWritesLandInDram : Prop :=
  ∀ (s : State) (addr : Nat) (bs : List Byte), Memory.wf s.dram = true → s.dev.wr = [] → s.dev.present 0 = true →
    (0x40000000 ≤ addr → addr + bs.length ≤ 0x80000000 →
      ∃ t, exec (.dramWrite 0 false addr bs) s = .next t ∧ Memory.wf t.dram = true ∧
        ∀ a, Memory.byte t.dram a = if addr ≤ a ∧ a < addr + bs.length then bs.getD (a - addr) 0 else Memory.byte s.dram a) ∧
    (addr + bs.length ≤ 0x40000000 ∨ (0x80000000 ≤ addr ∧ addr + bs.length ≤ 2 ^ 33) →
      ∃ t, exec (.dramWrite 0 false addr bs) s = .next t ∧ t.dram = s.dram) ∧
    (2 ^ 33 < addr + bs.length → exec (.dramWrite 0 false addr bs) s = .fault .noDram) ∧
    (∀ n e, 2 ^ 33 < addr + n → exec (.hostRead 0 true addr n e) s = .fault .noDram)

/-- The circular areas of the mailbox (03 R91, R94): a block of at most 1,024 words reads back as it was written, from
any pointer, and the area keeps its canonical form. -/
def Obligations.MailboxAreasReadBack : Prop :=
  ∀ (m : Mem W32) (p : Nat) (ws : List W32), Mem.wf 0 m = true → ws.length ≤ 1024 →
    areaRead (areaWrite m p ws) p ws.length = ws ∧ Mem.wf 0 (areaWrite m p ws) = true ∧
      (∀ q, p ≤ q → q < p + 1024 → p + ws.length ≤ q →
        Mem.read 0 (areaWrite m p ws) (q % 1024) = Mem.read 0 m (q % 1024))

/-- What every command keeps: DRAM in its canonical form, and no DRAM byte left to write. -/
def Obligations.StepKeepsDramCanonical : Prop :=
  ∀ s t : State, Memory.wf s.dram = true → s.dev.wr = [] → step s = .next t →
    Memory.wf t.dram = true ∧ t.dev.wr = [] ∧ t.pending = s.pending.drop 1

/-- The state after reset meets the invariant, and holds what the spec gives: the default tick (02 R65), no owner (03
R102), DEV_READY 0 (03 R81), every bridge off (08 R294), every plot record 0 (04 R123), CAN off (12 R479). That DRAM
lists nothing and that no command waits is the model's own choice (log entries 1 and 3). -/
def Obligations.ResetMeetsTheInvariant : Prop :=
  Memory.wf State.reset.dram = true ∧ State.reset.dev.wr = [] ∧ State.reset.pending = [] ∧
    State.reset.dev.tk.conf = ⟨4000, 4, 8⟩ ∧ State.reset.dev.hp.own.valid = false ∧ State.reset.dev.hp.devReady = false ∧
    (∀ a : AxisNo, State.reset.dev.pwm[a].bridgeOn = false ∧ State.reset.dev.plots[a] = Vector.replicate 14 0) ∧
    (∀ k : Fin 2, State.reset.dev.can.ctl[k].state = .off)
end

