-- ==== Sys2Proof/Laws/Memory.lean ====
section
/-! SUPPORT. The laws of the sparse memories: what reading after writing gives, and that every operation keeps the
canonical form. -/
namespace Sys2Proof.Machine

variable {α : Type} [DecidableEq α]

/-- A canonical memory whose indexes start at hi also starts at any lower index. -/
theorem Mem.wfFrom_mono {d : α} {m : Mem α} {lo hi : Nat} (h : Mem.wfFrom d hi m = true) (le : lo ≤ hi) :
    Mem.wfFrom d lo m = true := by
  cases m with
  | nil => rfl
  | cons e m =>
    simp only [Mem.wfFrom, Bool.and_eq_true, decide_eq_true_eq] at h ⊢
    exact ⟨⟨Nat.le_trans le h.1.1, h.1.2⟩, h.2⟩

/-- A write keeps the canonical form above any bound that the written index meets. -/
theorem Mem.wfFrom_write {d : α} (m : Mem α) (k : Nat) (v : α) :
    ∀ lo, lo ≤ k → Mem.wfFrom d lo m = true → Mem.wfFrom d lo (Mem.write d m k v) = true := by
  induction m with
  | nil => intro lo le _; by_cases h : v = d <;> simp [Mem.write, Mem.wfFrom, h, le]
  | cons e m ih =>
    intro lo le wf
    simp only [Mem.wfFrom, Bool.and_eq_true, decide_eq_true_eq] at wf
    obtain ⟨⟨l1, ne⟩, wf⟩ := wf
    unfold Mem.write
    split
    · rename_i eq
      split
      · exact Mem.wfFrom_mono wf (by omega)
      · simp only [Mem.wfFrom, Bool.and_eq_true, decide_eq_true_eq]
        exact ⟨⟨le, ‹_›⟩, eq ▸ wf⟩
    · split
      · split
        · simp only [Mem.wfFrom, Bool.and_eq_true, decide_eq_true_eq]
          exact ⟨⟨l1, ne⟩, wf⟩
        · simp only [Mem.wfFrom, Bool.and_eq_true, decide_eq_true_eq]
          exact ⟨⟨le, ‹_›⟩, ⟨by omega, ne⟩, wf⟩
      · simp only [Mem.wfFrom, Bool.and_eq_true, decide_eq_true_eq]
        exact ⟨⟨l1, ne⟩, ih _ (by omega) wf⟩

/-- A write keeps the canonical form. -/
theorem Mem.wf_write {d : α} {m : Mem α} (k : Nat) (v : α) (h : Mem.wf d m = true) : Mem.wf d (Mem.write d m k v) = true :=
  Mem.wfFrom_write m k v 0 (Nat.zero_le k) h

/-- Writing consecutive cells keeps the canonical form. -/
theorem Mem.wf_writes {d : α} (vs : List α) :
    ∀ (m : Mem α) (k : Nat), Mem.wf d m = true → Mem.wf d (Mem.writes d m k vs) = true := by
  induction vs with
  | nil => exact fun _ _ h => h
  | cons v vs ih => exact fun m k h => ih _ _ (Mem.wf_write k v h)

/-- An index below a canonical memory's first reads the value of an unlisted one. -/
theorem Mem.read_below {d : α} {m : Mem α} {k lo : Nat} (h : Mem.wfFrom d lo m = true) (lt : k < lo) : Mem.read d m k = d := by
  cases m with
  | nil => rfl
  | cons e m =>
    simp only [Mem.wfFrom, Bool.and_eq_true, decide_eq_true_eq] at h
    have : e.1 ≠ k := by omega
    have : k < e.1 := by omega
    simp [Mem.read, *]

/-- In a canonical memory a read gives the value written last at its index, and every other index reads as before. -/
theorem Mem.read_write {d : α} (m : Mem α) (k j : Nat) (v : α) :
    ∀ lo, Mem.wfFrom d lo m = true → Mem.read d (Mem.write d m k v) j = if j = k then v else Mem.read d m j := by
  induction m with
  | nil =>
    intro lo _
    by_cases h : v = d <;> by_cases e : j = k <;> simp [Mem.write, Mem.read, h, e]
    · exact fun x => absurd x.symm e
  | cons e m ih =>
    intro lo wf
    simp only [Mem.wfFrom, Bool.and_eq_true, decide_eq_true_eq] at wf
    obtain ⟨⟨_, _⟩, wf⟩ := wf
    unfold Mem.write
    split
    · rename_i eq
      subst eq
      split
      · rename_i vd
        by_cases e1 : j = e.1
        · simp [e1, vd, Mem.read_below wf (Nat.lt_succ_self _)]
        · by_cases lt : j < e.1
          · simp [Mem.read, e1, Ne.symm e1, lt, Mem.read_below wf (Nat.lt_succ_of_lt lt)]
          · simp [Mem.read, e1, Ne.symm e1, lt]
      · by_cases e1 : j = e.1
        · simp [Mem.read, e1]
        · simp [Mem.read, e1, Ne.symm e1]
    · split
      · split
        · by_cases e1 : j = k
          · subst e1; simp [Mem.read, *]
          · simp [e1]
        · by_cases e1 : j = k
          · simp [Mem.read, e1]
          · by_cases lt : j < k
            · have h1 : e.1 ≠ j := by omega
              have h2 : j < e.1 := by omega
              simp [Mem.read, e1, Ne.symm e1, lt, h1, h2]
            · simp [Mem.read, e1, Ne.symm e1, lt]
      · by_cases e1 : e.1 = j
        · have : j ≠ k := by omega
          simp [Mem.read, e1, this]
        · by_cases lt : j < e.1
          · have : j ≠ k := by omega
            simp [Mem.read, e1, lt, this]
          · simp only [Mem.read, e1, lt, if_false, ih _ wf]

/-- The memory's own read after its own write, from the canonical form. -/
theorem Mem.read_write_of_wf {d : α} {m : Mem α} (h : Mem.wf d m = true) (k j : Nat) (v : α) :
    Mem.read d (Mem.write d m k v) j = if j = k then v else Mem.read d m j := Mem.read_write m k j v 0 h

/-- Writing consecutive cells leaves every other cell as it was. -/
theorem Mem.read_writes_outside {d : α} (vs : List α) :
    ∀ (m : Mem α) (k j : Nat), Mem.wf d m = true → (j < k ∨ k + vs.length ≤ j) →
      Mem.read d (Mem.writes d m k vs) j = Mem.read d m j := by
  induction vs with
  | nil => intros; rfl
  | cons v vs ih =>
    intro m k j h out
    simp only [List.length_cons] at out
    rw [Mem.writes, ih _ _ _ (Mem.wf_write k v h) (by omega), Mem.read_write_of_wf h]
    have : j ≠ k := by omega
    simp [this]

/-- Writing consecutive cells: cell i of them reads as it was written. -/
theorem Mem.read_writes_inside {d : α} (vs : List α) :
    ∀ (m : Mem α) (k i : Nat), Mem.wf d m = true → (lt : i < vs.length) → Mem.read d (Mem.writes d m k vs) (k + i) = vs[i] := by
  induction vs with
  | nil => intro _ _ _ _ lt; simp at lt
  | cons v vs ih =>
    intro m k i h lt
    cases i with
    | zero =>
      rw [Mem.writes, Mem.read_writes_outside _ _ _ _ (Mem.wf_write k v h) (by omega), Mem.read_write_of_wf h]
      simp
    | succ i =>
      have := ih (Mem.write d m k v) (k + 1) i (Mem.wf_write k v h) (by simpa using lt)
      rw [Mem.writes, show k + (i + 1) = k + 1 + i by omega, this]
      rfl

/-- DRAM keeps its canonical form under the writes of a command. -/
theorem dramApply_wf (ws : List (Nat × List Byte)) :
    ∀ m : Memory, Memory.wf m = true → Memory.wf (dramApply m ws) = true := by
  induction ws with
  | nil => exact fun _ h => h
  | cons w ws ih => exact fun m h => ih _ (Mem.wf_writes _ _ _ h)

/-- A command that writes no bytes leaves DRAM as it is. -/
@[simp] theorem dramApply_nil (m : Memory) : dramApply m [] = m := rfl

end Sys2Proof.Machine
end

