-- ==== Sys2Proof/Laws/Exec.lean ====
section
/-! SUPPORT. What a command can do to the state, said once: its effect goes through State.on. -/
namespace Sys2Proof.Machine

@[simp] theorem State.on_pending (f : Dev → Dev) (s : State) : (s.on f).pending = s.pending := rfl
@[simp] theorem State.on_wr (f : Dev → Dev) (s : State) : (s.on f).dev.wr = [] := rfl
@[simp] theorem State.on_dram (f : Dev → Dev) (s : State) : (s.on f).dram = dramApply s.dram (f s.dev).wr := rfl
@[simp] theorem State.on_dev (f : Dev → Dev) (s : State) : (s.on f).dev = { f s.dev with wr := [] } := rfl
theorem State.onMem_eq (f : Memory → Dev → Dev) (s : State) : s.onMem f = s.on (f s.dram) := rfl

/-- DRAM stays canonical under a command's effect. -/
theorem State.on_wf (f : Dev → Dev) {s : State} (h : Memory.wf s.dram = true) : Memory.wf (s.on f).dram = true :=
  dramApply_wf _ _ h

/-- The states that a command can leave: the state itself, an effect on the device, or one after which DRAM has lost its
contents (RAILS_OFF). -/
inductive Leaves (s : State) : State → Prop
  | same : Leaves s s
  | on (f : Dev → Dev) : Leaves s (s.on f)
  | lost (f : Dev → Dev) : Leaves s { s.on f with dram := [] }

theorem Leaves.of_next {f : Dev → Dev} {s t : State} (h : (Host.Outcome.next (s.on f) : Host.Outcome State Fault Refusal) = .next t) :
    Leaves s t := by
  injection h with h; subst h; exact .on f

/-- A lane instruction that answers leaves the state, or changes its lane. -/
theorem State.lane_leaves {i : Sys2Proof.Instr} {ln : LaneNo} {k : Nat} {f : Fin 3 → Mem W20 → Lane → Lane} {s t : State}
    (h : s.lane i ln k f = .next t) : Leaves s t := by
  unfold State.lane at h
  simp only at h
  split at h
  · cases h
  · split at h <;> injection h with h <;> subst h
    · exact .on _
    · exact .same

/-- A control instruction that answers leaves the state, or changes its lane. -/
theorem State.control_leaves {i : Sys2Proof.Instr} {ln : LaneNo} {ok : Lane → Bool} {f : Lane → Lane} {s t : State}
    (h : s.control i ln ok f = .next t) : Leaves s t := by
  unfold State.control at h
  simp only at h
  split at h
  · cases h
  · split at h <;> injection h with h <;> subst h
    · exact .on _
    · exact .same

theorem execRailsOff_leaves {s t : State} (h : execRailsOff s = .next t) : Leaves s t := by
  unfold execRailsOff at h
  injection h with h
  subst h
  split
  · exact .lost _
  · exact .on _

theorem execEndProg_leaves {ln : LaneNo} {s t : State} (h : execEndProg ln s = .next t) : Leaves s t := by
  unfold execEndProg at h
  simp only at h
  split at h
  · cases h
  · split at h <;> injection h with h <;> subst h
    · exact .on _
    · exact .same

theorem execDramWrite_leaves {st : Stall} {w : Bool} {a : Nat} {bs : List Byte} {s t : State}
    (h : execDramWrite st w a bs s = .next t) : Leaves s t := by
  unfold execDramWrite at h
  split at h
  · cases h
  · injection h with h; subst h; exact .on _

theorem execHostRead_leaves {st : Stall} {w e : Bool} {a n : Nat} {s t : State} (h : execHostRead st w a n e s = .next t) :
    Leaves s t := by
  unfold execHostRead at h
  split at h
  · cases h
  · injection h with h; subst h; exact .on _

theorem exec_leaves (i : Sys2Proof.Instr) {s t : State} (h : exec i s = .next t) : Leaves s t := by
  cases i with
  | powerUpStart => exact Leaves.of_next h
  | internalResetRelease => exact Leaves.of_next h
  | startUpComplete => exact Leaves.of_next h
  | pcieConfigRequest => exact Leaves.of_next h
  | supplyFalling => exact Leaves.of_next h
  | supplyRecovered => exact Leaves.of_next h
  | vbatCheck => exact Leaves.of_next h
  | v24bLoss => exact Leaves.of_next h
  | vmainUvlo => exact Leaves.of_next h
  | bypassClose => exact Leaves.of_next h
  | powerLossRecord => exact Leaves.of_next h
  | railsOff => exact execRailsOff_leaves h
  | vkaToVbat => exact Leaves.of_next h
  | safetyBShutdown => exact Leaves.of_next h
  | porstAssert => exact Leaves.of_next h
  | porstRelease => exact Leaves.of_next h
  | hrstAssert => exact Leaves.of_next h
  | standbyEntry => exact Leaves.of_next h
  | kaWakePin => exact Leaves.of_next h
  | kaAlarmExpiry => exact Leaves.of_next h
  | kaContentsLost => exact Leaves.of_next h
  | kaCrystalTimeout => exact Leaves.of_next h
  | deviceResetPulse => exact Leaves.of_next h
  | standbyEnter => exact Leaves.of_next h
  | keepAliveWrite => exact Leaves.of_next h
  | deviceReset => exact Leaves.of_next h
  | reservedCommandCode => exact Leaves.of_next h
  | tickBoundary => exact Leaves.of_next h
  | tickSyncLocked => exact Leaves.of_next h
  | tickHoldoverTimeout => exact Leaves.of_next h
  | ticksetEpoch => exact Leaves.of_next h
  | laneOverrun => exact Leaves.of_next h
  | laneCommit => exact Leaves.of_next h
  | stagingHandover => exact Leaves.of_next h
  | eventEntry => exact Leaves.of_next h
  | nop x0 =>
    have g : execNop x0 s = .next t := h
    unfold execNop at g
    exact State.lane_leaves g
  | mov x0 x1 x2 =>
    have g : execMov x0 x1 x2 s = .next t := h
    unfold execMov at g
    exact State.lane_leaves g
  | ldi x0 x1 x2 =>
    have g : execLdi x0 x1 x2 s = .next t := h
    unfold execLdi at g
    exact State.lane_leaves g
  | ld x0 x1 x2 x3 =>
    have g : execLd x0 x1 x2 x3 s = .next t := h
    unfold execLd at g
    exact State.lane_leaves g
  | ldo x0 x1 x2 x3 =>
    have g : execLdo x0 x1 x2 x3 s = .next t := h
    unfold execLdo at g
    exact State.lane_leaves g
  | lda x0 x1 x2 =>
    have g : execLda x0 x1 x2 s = .next t := h
    unfold execLda at g
    exact State.lane_leaves g
  | st x0 x1 x2 x3 =>
    have g : execSt x0 x1 x2 x3 s = .next t := h
    unfold execSt at g
    exact State.lane_leaves g
  | sto x0 x1 x2 x3 =>
    have g : execSto x0 x1 x2 x3 s = .next t := h
    unfold execSto at g
    exact State.lane_leaves g
  | sta x0 x1 x2 =>
    have g : execSta x0 x1 x2 s = .next t := h
    unfold execSta at g
    exact State.lane_leaves g
  | fld x0 x1 x2 x3 =>
    have g : execFld x0 x1 x2 x3 s = .next t := h
    unfold execFld at g
    exact State.lane_leaves g
  | fst x0 x1 x2 x3 =>
    have g : execFst x0 x1 x2 x3 s = .next t := h
    unfold execFst at g
    exact State.lane_leaves g
  | lai x0 x1 x2 =>
    have g : execLai x0 x1 x2 s = .next t := h
    unfold execLai at g
    exact State.lane_leaves g
  | lmi x0 x1 x2 x3 =>
    have g : execLmi x0 x1 x2 x3 s = .next t := h
    unfold execLmi at g
    exact State.lane_leaves g
  | mad x0 x1 x2 =>
    have g : execMad x0 x1 x2 s = .next t := h
    unfold execMad at g
    exact State.lane_leaves g
  | add x0 x1 x2 x3 x4 =>
    have g : execAdd x0 x1 x2 x3 x4 s = .next t := h
    unfold execAdd at g
    exact State.lane_leaves g
  | sub x0 x1 x2 x3 x4 =>
    have g : execSub x0 x1 x2 x3 x4 s = .next t := h
    unfold execSub at g
    exact State.lane_leaves g
  | addi x0 x1 x2 x3 x4 =>
    have g : execAddi x0 x1 x2 x3 x4 s = .next t := h
    unfold execAddi at g
    exact State.lane_leaves g
  | neg x0 x1 x2 x3 =>
    have g : execNeg x0 x1 x2 x3 s = .next t := h
    unfold execNeg at g
    exact State.lane_leaves g
  | abs x0 x1 x2 x3 =>
    have g : execAbs x0 x1 x2 x3 s = .next t := h
    unfold execAbs at g
    exact State.lane_leaves g
  | min x0 x1 x2 x3 =>
    have g : execMin x0 x1 x2 x3 s = .next t := h
    unfold execMin at g
    exact State.lane_leaves g
  | max x0 x1 x2 x3 =>
    have g : execMax x0 x1 x2 x3 s = .next t := h
    unfold execMax at g
    exact State.lane_leaves g
  | lim x0 x1 x2 x3 =>
    have g : execLim x0 x1 x2 x3 s = .next t := h
    unfold execLim at g
    exact State.lane_leaves g
  | and x0 x1 x2 x3 =>
    have g : execAnd x0 x1 x2 x3 s = .next t := h
    unfold execAnd at g
    exact State.lane_leaves g
  | or x0 x1 x2 x3 =>
    have g : execOr x0 x1 x2 x3 s = .next t := h
    unfold execOr at g
    exact State.lane_leaves g
  | xor x0 x1 x2 x3 =>
    have g : execXor x0 x1 x2 x3 s = .next t := h
    unfold execXor at g
    exact State.lane_leaves g
  | shl x0 x1 x2 x3 x4 =>
    have g : execShl x0 x1 x2 x3 x4 s = .next t := h
    unfold execShl at g
    exact State.lane_leaves g
  | shr x0 x1 x2 x3 =>
    have g : execShr x0 x1 x2 x3 s = .next t := h
    unfold execShr at g
    exact State.lane_leaves g
  | mul x0 x1 x2 x3 x4 =>
    have g : execMul x0 x1 x2 x3 x4 s = .next t := h
    unfold execMul at g
    exact State.lane_leaves g
  | selcc x0 x1 x2 x3 x4 =>
    have g : execSelcc x0 x1 x2 x3 x4 s = .next t := h
    unfold execSelcc at g
    exact State.lane_leaves g
  | mpy x0 x1 x2 x3 x4 x5 x6 =>
    have g : execMpy x0 x1 x2 x3 x4 x5 x6 s = .next t := h
    unfold execMpy at g
    exact State.lane_leaves g
  | mac x0 x1 x2 x3 x4 x5 x6 =>
    have g : execMac x0 x1 x2 x3 x4 x5 x6 s = .next t := h
    unfold execMac at g
    exact State.lane_leaves g
  | msu x0 x1 x2 x3 x4 x5 x6 =>
    have g : execMsu x0 x1 x2 x3 x4 x5 x6 s = .next t := h
    unfold execMsu at g
    exact State.lane_leaves g
  | dmpy x0 x1 x2 x3 x4 x5 x6 =>
    have g : execDmpy x0 x1 x2 x3 x4 x5 x6 s = .next t := h
    unfold execDmpy at g
    exact State.lane_leaves g
  | dmac x0 x1 x2 x3 x4 x5 x6 =>
    have g : execDmac x0 x1 x2 x3 x4 x5 x6 s = .next t := h
    unfold execDmac at g
    exact State.lane_leaves g
  | rot x0 x1 x2 x3 x4 x5 x6 =>
    have g : execRot x0 x1 x2 x3 x4 x5 x6 s = .next t := h
    unfold execRot at g
    exact State.lane_leaves g
  | lac x0 x1 x2 =>
    have g : execLac x0 x1 x2 s = .next t := h
    unfold execLac at g
    exact State.lane_leaves g
  | sac x0 x1 x2 x3 x4 =>
    have g : execSac x0 x1 x2 x3 x4 s = .next t := h
    unfold execSac at g
    exact State.lane_leaves g
  | adda x0 x1 x2 x3 =>
    have g : execAdda x0 x1 x2 x3 s = .next t := h
    unfold execAdda at g
    exact State.lane_leaves g
  | sha x0 x1 x2 x3 =>
    have g : execSha x0 x1 x2 x3 s = .next t := h
    unfold execSha at g
    exact State.lane_leaves g
  | clra x0 x1 =>
    have g : execClra x0 x1 s = .next t := h
    unfold execClra at g
    exact State.lane_leaves g
  | sincos x0 x1 x2 =>
    have g : execSincos x0 x1 x2 s = .next t := h
    unfold execSincos at g
    exact State.lane_leaves g
  | div x0 x1 x2 x3 x4 =>
    have g : execDiv x0 x1 x2 x3 x4 s = .next t := h
    unfold execDiv at g
    exact State.lane_leaves g
  | sqrt x0 x1 x2 =>
    have g : execSqrt x0 x1 x2 s = .next t := h
    unfold execSqrt at g
    exact State.lane_leaves g
  | br x0 x1 =>
    have g : execBr x0 x1 s = .next t := h
    unfold execBr at g
    exact State.control_leaves g
  | bcc x0 x1 x2 =>
    have g : execBcc x0 x1 x2 s = .next t := h
    unfold execBcc at g
    exact State.control_leaves g
  | rpt x0 x1 =>
    have g : execRpt x0 x1 s = .next t := h
    unfold execRpt at g
    exact State.control_leaves g
  | rptr x0 x1 x2 =>
    have g : execRptr x0 x1 x2 s = .next t := h
    unfold execRptr at g
    exact State.control_leaves g
  | endProg => exact execEndProg_leaves h
  | tickSet => exact Leaves.of_next h
  | budgetQuery => exact Leaves.of_next h
  | registerWrite => exact Leaves.of_next h
  | dramWrite => exact execDramWrite_leaves h
  | poisonedWriteTlp => exact Leaves.of_next h
  | unsupportedRequest => exact Leaves.of_next h
  | pcieLinkChange => exact Leaves.of_next h
  | busMasterEnable => exact Leaves.of_next h
  | debugAccessSelect => exact Leaves.of_next h
  | spiFrame => exact Leaves.of_next h
  | lowWordRead => exact Leaves.of_next h
  | highWordRead => exact Leaves.of_next h
  | ntNsRead => exact Leaves.of_next h
  | winSeqRead => exact Leaves.of_next h
  | windowFreezeLapse => exact Leaves.of_next h
  | doorbell => exact Leaves.of_next h
  | rspRdPtrWrite => exact Leaves.of_next h
  | mbxReset => exact Leaves.of_next h
  | mbxResetDone => exact Leaves.of_next h
  | mailboxTimeout => exact Leaves.of_next h
  | echo => exact Leaves.of_next h
  | ownerClaim => exact Leaves.of_next h
  | ownerRelease => exact Leaves.of_next h
  | ownerHandOver => exact Leaves.of_next h
  | handoverTimeout => exact Leaves.of_next h
  | heartbeat => exact Leaves.of_next h
  | heartbeatWarn => exact Leaves.of_next h
  | heartbeatLapse => exact Leaves.of_next h
  | irqRoute => exact Leaves.of_next h
  | fieldQuery => exact Leaves.of_next h
  | plotAssign => exact Leaves.of_next h
  | plotRelease => exact Leaves.of_next h
  | plotModify => exact Leaves.of_next h
  | plotQuery => exact Leaves.of_next h
  | lawLoad => exact Leaves.of_next h
  | lawCommit => exact Leaves.of_next h
  | lawDelete => exact Leaves.of_next h
  | lawQuery => exact Leaves.of_next h
  | lawAttach => exact Leaves.of_next h
  | lawFlagsClear => exact Leaves.of_next h
  | coefWrite => exact Leaves.of_next h
  | coefSwap => exact Leaves.of_next h
  | coefRead => exact Leaves.of_next h
  | bankCopyDone => exact Leaves.of_next h
  | lawScale => exact Leaves.of_next h
  | lawMode => exact Leaves.of_next h
  | repConfig => exact Leaves.of_next h
  | repControl => exact Leaves.of_next h
  | repStore => exact Leaves.of_next h
  | repAutoSave => exact Leaves.of_next h
  | repSaveDone => exact Leaves.of_next h
  | tuneExcite => exact Leaves.of_next h
  | excitationEnd => exact Leaves.of_next h
  | tuneIdentify => exact Leaves.of_next h
  | identifyDone => exact Leaves.of_next h
  | voltageLimitPersist => exact Leaves.of_next h
  | overspeed => exact Leaves.of_next h
  | plausCountLimit => exact Leaves.of_next h
  | fbConfig => exact Leaves.of_next h
  | excConfig => exact Leaves.of_next h
  | excZeroCrossing => exact Leaves.of_next h
  | fbPosSet => exact Leaves.of_next h
  | fbClear => exact Leaves.of_next h
  | probeConfig => exact Leaves.of_next h
  | probeRead => exact Leaves.of_next h
  | emuConfig => exact Leaves.of_next h
  | quadratureEdge => exact Leaves.of_next h
  | indexEdge => exact Leaves.of_next h
  | hallTransition => exact Leaves.of_next h
  | toothEdge => exact Leaves.of_next h
  | refMarkEdge => exact Leaves.of_next h
  | standstill => exact Leaves.of_next h
  | encoderAlarm => exact Leaves.of_next h
  | excOverload => exact Leaves.of_next h
  | serialExchangeStart => exact Leaves.of_next h
  | serialResponse => exact Leaves.of_next h
  | serialWaitExpiry => exact Leaves.of_next h
  | probeEdge => exact Leaves.of_next h
  | probeEntryReadable => exact Leaves.of_next h
  | pwmConfig => exact Leaves.of_next h
  | gateProfile => exact Leaves.of_next h
  | protectConfig => exact Leaves.of_next h
  | bridgeControl => exact Leaves.of_next h
  | chargeSample => exact Leaves.of_next h
  | pwmDirect => exact Leaves.of_next h
  | pwmClear => exact Leaves.of_next h
  | pwmQuery => exact Leaves.of_next h
  | applicationInstant => exact Leaves.of_next h
  | interlockTurnOn => exact Leaves.of_next h
  | interlockTimeout => exact Leaves.of_next h
  | gateCheckFail => exact Leaves.of_next h
  | extOutputCheck => exact Leaves.of_next h
  | bootstrapWarning => exact Leaves.of_next h
  | bootstrapUvlo => exact Leaves.of_next h
  | chopTrip => exact Leaves.of_next h
  | overcurrentTrip => exact Leaves.of_next h
  | desaturation => exact Leaves.of_next h
  | hardShort => exact Leaves.of_next h
  | externalTrip => exact Leaves.of_next h
  | stoSwitchesOpen => exact Leaves.of_next h
  | stoFeedback => exact Leaves.of_next h
  | stoSupplyRestored => exact Leaves.of_next h
  | setTarget => exact Leaves.of_next h
  | setOverride => exact Leaves.of_next h
  | setGearRatio => exact Leaves.of_next h
  | jog => exact Leaves.of_next h
  | stop => exact Leaves.of_next h
  | readStatus => exact Leaves.of_next h
  | profileLimits => exact Leaves.of_next h
  | moveQueue => exact Leaves.of_next h
  | moveWait => exact Leaves.of_next h
  | dwellEnd => exact Leaves.of_next h
  | homeConfig => exact Leaves.of_next h
  | homeStart => exact Leaves.of_next h
  | homingHardStop => exact Leaves.of_next h
  | gearConfig => exact Leaves.of_next h
  | gearEngage => exact Leaves.of_next h
  | camLoad => exact Leaves.of_next h
  | camSelect => exact Leaves.of_next h
  | masterPublish => exact Leaves.of_next h
  | pathGroup => exact Leaves.of_next h
  | pathAppend => exact Leaves.of_next h
  | pathControl => exact Leaves.of_next h
  | stepConfig => exact Leaves.of_next h
  | standstillConfig => exact Leaves.of_next h
  | standstillDelay => exact Leaves.of_next h
  | captureClaim => exact Leaves.of_next h
  | captureConfig => exact Leaves.of_next h
  | captureTrigger => exact Leaves.of_next h
  | captureControl => exact Leaves.of_next h
  | capCtrlForce => exact Leaves.of_next h
  | capDoneRelease => exact Leaves.of_next h
  | stageTimeout => exact Leaves.of_next h
  | autoTrigger => exact Leaves.of_next h
  | skewCal => exact Leaves.of_next h
  | skewCalDone => exact Leaves.of_next h
  | adcConfig => exact Leaves.of_next h
  | dmaClaim => exact Leaves.of_next h
  | dmaRelease => exact Leaves.of_next h
  | dmaStart => exact Leaves.of_next h
  | dmaAbort => exact Leaves.of_next h
  | dmaAbortEffect => exact Leaves.of_next h
  | dmaDescriptorEnd => exact Leaves.of_next h
  | ringConfig => exact Leaves.of_next h
  | ringControl => exact Leaves.of_next h
  | remoteStallConfig => exact Leaves.of_next h
  | timeConfig => exact Leaves.of_next h
  | timeSet => exact Leaves.of_next h
  | ringProxy => exact Leaves.of_next h
  | blockLock => exact Leaves.of_next h
  | listenTimeout => exact Leaves.of_next h
  | insertWindow => exact Leaves.of_next h
  | joinTimeout => exact Leaves.of_next h
  | cycleFrameSend => exact Leaves.of_next h
  | cycleFrame => exact Leaves.of_next h
  | foreignFrame => exact Leaves.of_next h
  | nodeMissing => exact Leaves.of_next h
  | portBreak => exact Leaves.of_next h
  | portRestore => exact Leaves.of_next h
  | acyclicFragmentTimeout => exact Leaves.of_next h
  | ringConnect => exact Leaves.of_next h
  | ringDisconnect => exact Leaves.of_next h
  | ringKeepalive => exact Leaves.of_next h
  | ringRead => exact Leaves.of_next h
  | ringWrite => exact Leaves.of_next h
  | ringCommand => exact Leaves.of_next h
  | ringAccept => exact Leaves.of_next h
  | ringReject => exact Leaves.of_next h
  | ringAck => exact Leaves.of_next h
  | ringResponse => exact Leaves.of_next h
  | remoteStallTimeout => exact Leaves.of_next h
  | proxyAckTimeout => exact Leaves.of_next h
  | proxyKeepalive => exact Leaves.of_next h
  | proxyIdleDisconnect => exact Leaves.of_next h
  | syncSend => exact Leaves.of_next h
  | syncReceived => exact Leaves.of_next h
  | ntHoldover => exact Leaves.of_next h
  | pdelayReqSend => exact Leaves.of_next h
  | pdelayReqReceived => exact Leaves.of_next h
  | pdelayRespReceived => exact Leaves.of_next h
  | ppsEdge => exact Leaves.of_next h
  | ppsOutSecond => exact Leaves.of_next h
  | ref25Detect => exact Leaves.of_next h
  | kaTimeSet => exact Leaves.of_next h
  | canConfig => exact Leaves.of_next h
  | canFilter => exact Leaves.of_next h
  | canSend => exact Leaves.of_next h
  | canReceive => exact Leaves.of_next h
  | canControl => exact Leaves.of_next h
  | canTimeMaster => exact Leaves.of_next h
  | canGateway => exact Leaves.of_next h
  | canIntegrated => exact Leaves.of_next h
  | canFrameReceived => exact Leaves.of_next h
  | canTxEnd => exact Leaves.of_next h
  | canLifetimeExpiry => exact Leaves.of_next h
  | canRecoveryDone => exact Leaves.of_next h
  | canBasicCycle => exact Leaves.of_next h
  | canGuardStart => exact Leaves.of_next h
  | refWindowExpiry => exact Leaves.of_next h
  | canWindowOpen => exact Leaves.of_next h
  | gwCommand => exact Leaves.of_next h
  | gwRead => exact Leaves.of_next h
  | gwIrqClear => exact Leaves.of_next h
  | fioInConfig => exact Leaves.of_next h
  | fioOutConfig => exact Leaves.of_next h
  | outSet => exact Leaves.of_next h
  | fioClear => exact Leaves.of_next h
  | fioStamp => exact Leaves.of_next h
  | fioQuery => exact Leaves.of_next h
  | inEdge => exact Leaves.of_next h
  | readbackEdge => exact Leaves.of_next h
  | outputMismatch => exact Leaves.of_next h
  | bankOvertemp => exact Leaves.of_next h
  | bankCooled => exact Leaves.of_next h
  | spmSelect => exact Leaves.of_next h
  | spmTransfer => exact Leaves.of_next h
  | spmControl => exact Leaves.of_next h
  | spmMap => exact Leaves.of_next h
  | spmMemRead => exact Leaves.of_next h
  | spmMemWrite => exact Leaves.of_next h
  | spmMemErase => exact Leaves.of_next h
  | spmTransferDone => exact Leaves.of_next h
  | spmHoldLapse => exact Leaves.of_next h
  | spmStatusPoll => exact Leaves.of_next h
  | mappedRead => exact Leaves.of_next h
  | faultConfig => exact Leaves.of_next h
  | faultClear => exact Leaves.of_next h
  | faultRecover => exact Leaves.of_next h
  | faultSow => exact Leaves.of_next h
  | sowTimeout => exact Leaves.of_next h
  | rotationControl => exact Leaves.of_next h
  | rotationHoldExpiry => exact Leaves.of_next h
  | bistRun => exact Leaves.of_next h
  | bistDone => exact Leaves.of_next h
  | marginMeasure => exact Leaves.of_next h
  | marginMeasureDone => exact Leaves.of_next h
  | marginApply => exact Leaves.of_next h
  | fwLoad => exact Leaves.of_next h
  | fwCommit => exact Leaves.of_next h
  | fwActivate => exact Leaves.of_next h
  | fwConfirm => exact Leaves.of_next h
  | ledgerRead => exact Leaves.of_next h
  | standbyImageStarted => exact Leaves.of_next h
  | liveSwitch => exact Leaves.of_next h
  | liveSwitchTimeout => exact Leaves.of_next h
  | trialStart => exact Leaves.of_next h
  | trialExpiry => exact Leaves.of_next h
  | episodeClose => exact Leaves.of_next h
  | axisRecovery => exact Leaves.of_next h
  | railFaultRestart => exact Leaves.of_next h
  | dieOvertemp => exact Leaves.of_next h
  | thermalRestart => exact Leaves.of_next h
  | rotationStep => exact Leaves.of_next h
  | laneTestDone => exact Leaves.of_next h
  | laneError => exact Leaves.of_next h
  | converterStandinStep => exact Leaves.of_next h
  | converterError => exact Leaves.of_next h
  | plotMemoryEccError => exact Leaves.of_next h
  | mramEccError => exact Leaves.of_next h
  | dramCorrectableRate => exact Leaves.of_next h
  | mpLockstepError => exact Leaves.of_next h
  | mpWatchdogExpiry => exact Leaves.of_next h
  | standbyPairFailure => exact Leaves.of_next h
  | mpTestDone => exact Leaves.of_next h
  | safetyAck => exact Leaves.of_next h
  | safetyCommission => exact Leaves.of_next h
  | safetyParamWrite => exact Leaves.of_next h
  | safetyParamRead => exact Leaves.of_next h
  | channelBStart => exact Leaves.of_next h
  | safetyCheckCycle => exact Leaves.of_next h
  | safetyInputAccept => exact Leaves.of_next h
  | testPulseStart => exact Leaves.of_next h
  | testPulseEnd => exact Leaves.of_next h
  | inputDiscrepancy => exact Leaves.of_next h
  | sresetAccept => exact Leaves.of_next h
  | sresetStuck => exact Leaves.of_next h
  | sresetArmExpiry => exact Leaves.of_next h
  | twoHandLapse => exact Leaves.of_next h
  | ss1Expiry => exact Leaves.of_next h
  | ossdTestPulse => exact Leaves.of_next h
  | ossdOffCheck => exact Leaves.of_next h
  | slsActDelayEnd => exact Leaves.of_next h
  | slsDiscrepancy => exact Leaves.of_next h
  | degradedEnd => exact Leaves.of_next h
  | stoFbTimeout => exact Leaves.of_next h
  | safetyTelegram => exact Leaves.of_next h
  | safetyTelegramSend => exact Leaves.of_next h
  | connTimeout => exact Leaves.of_next h
  | paramCrcCheck => exact Leaves.of_next h
  | commissionIdleTimeout => exact Leaves.of_next h
  | commissionConfirmTimeout => exact Leaves.of_next h
  | codeBlockExpiry => exact Leaves.of_next h
  | hrstRelease => exact Leaves.of_next h
  | hostRead => exact execHostRead_leaves h
  | interruptRegisterWrite => exact Leaves.of_next h
  | commandedEdge => exact Leaves.of_next h
  | gatePhaseEnd => exact Leaves.of_next h
  | ref25Loss => exact Leaves.of_next h
  | canWindowClose => exact Leaves.of_next h
  | ossdPulseEnd => exact Leaves.of_next h
  | safetyChannelFault => exact Leaves.of_next h

end Sys2Proof.Machine
end

