-- ==== Sys2Proof/Laws/Lane.lean ====
section
/-! SUPPORT. What the shared operations of a lane do, said once: running an instruction at a hook, loads, stores,
post-modification, and results that wait. -/
namespace Sys2Proof.Machine
open Sys2Proof

/-- An instruction of legal fields at a quiet hook runs its effect once, and only its lane changes. -/
theorem State.lane_atHook {s : State} {ln : LaneNo} {h : Fin 3} {l : Lane} (hk : s.atHook ln h l) {i : Instr} (k : Nat)
    (f : Fin 3 → Mem W20 → Lane → Lane) (wf : i.wellFormed = true) :
    s.lane i ln k f = .next (s.withLane ln
      ({ (f h s.dev.loops[l.axis].userFar l).age with cycles := l.cycles + k } : Lane).advance) := by
  obtain ⟨h1, h2, h3, h4, h5⟩ := hk
  subst h1
  unfold State.lane
  simp only [h2, wf, h4]
  simp only [Bool.not_true, Option.isSome_none, Bool.and_false, Bool.false_and, Bool.or_false]
  rw [if_neg (by decide)]
  unfold State.withLane State.on Dev.modLane vmod Lane.run
  rw [h4]

/-- A control instruction at a quiet hook, outside a delay slot, runs its effect. -/
theorem State.control_atHook {s : State} {ln : LaneNo} {h : Fin 3} {l : Lane} (hk : s.atHook ln h l) {i : Instr}
    (ok : Lane → Bool) (f : Lane → Lane) (hs : l.slots = 0) (hok : ok l = true) (wf : i.wellFormed = true) :
    s.control i ln ok f = .next (s.withLane ln (f l)) := by
  obtain ⟨h1, h2, h3, h4, h5⟩ := hk
  subst h1
  unfold State.control
  simp only [h2, wf, h4, hs, hok]
  rw [if_neg (by simp)]
  unfold State.withLane State.on Dev.modLane vmod
  rfl

/-- A load to a D register: its value waits one instruction; an address that does not exist faults. -/
theorem Lane.loadTo_eq (l : Lane) (r : Fin 16) (k : Nat) :
    l.loadTo r k = { l with pend := l.pend ++ [⟨1, .d r, l.word k, false⟩], aerr := l.aerr || decide (0x1000 ≤ k) } := by
  unfold Lane.loadTo Lane.load Lane.word Lane.post Lane.fault
  by_cases h : k < 0x1000
  · have : ¬0x1000 ≤ k := by omega
    simp [h, this]
  · have : 0x1000 ≤ k := by omega
    simp [h, this]

/-- A post-modification waits behind the results before it. -/
theorem Lane.postMod_eq (l : Lane) (k : Fin 8) (p : Fin 4) :
    l.postMod k p = { l with pend := l.pend ++
      if p = 0 then [] else [⟨0, .a k, postModify l.a[k].toNat (l.postStep k p) (l.m[k].toNat / 2 ^ 12), false⟩] } := by
  unfold Lane.postMod Lane.post
  split <;> simp

/-- A parallel load: its value and its post-modification. -/
theorem Lane.parLoad_eq (l : Lane) (x : ParLoad) :
    l.parLoad x = { l with
      pend := l.pend ++ if x.en then [⟨1, .d x.d, l.word l.a[x.a].toNat, false⟩] ++
        (if x.p = 0 then [] else [⟨0, .a x.a, postModify l.a[x.a].toNat (l.postStep x.a x.p) (l.m[x.a].toNat / 2 ^ 12), false⟩]) else [],
      aerr := l.aerr || l.loadFaults x } := by
  unfold Lane.parLoad
  cases h : x.en
  · simp [Lane.loadFaults, h]
  · simp [Lane.loadTo_eq, Lane.postMod_eq, Lane.loadFaults, h, Lane.postStep]

/-- The accumulator results of a MAC-class instruction wait; V is that of its accumulations. -/
theorem Lane.resMac_eq (sat : Bool) (rs : List (Fin 4 × Int)) (l : Lane) :
    l.resMac sat rs = { l.setV (rs.any (fun x => !fits 52 x.2)) with
      pend := l.pend ++ rs.map (fun x => ⟨1, .ac x.1, fitTo 52 sat x.2, true⟩) } := by
  unfold Lane.resMac
  have : ∀ (rs : List (Fin 4 × Int)) (l : Lane), rs.foldl (fun l x => l.postMac x.1 (fitTo 52 sat x.2)) l =
      { l with pend := l.pend ++ rs.map (fun x => ⟨1, .ac x.1, fitTo 52 sat x.2, true⟩) } := by
    intro rs
    induction rs with
    | nil => intro l; simp
    | cons r rs ih => intro l; rw [List.foldl_cons, ih]; simp [Lane.postMac]
  rw [this]; rfl

/-- With nothing waiting, a MAC-class instruction accumulates onto the register. -/
theorem Lane.macBase_eq (l : Lane) (r : Fin 4) (h : l.pend = []) : l.macBase r = l.racc r := by
  unfold Lane.macBase; rw [h]; rfl

end Sys2Proof.Machine
end

