-- ==== Sys2Proof/Laws/Mailbox.lean ====
section
/-! SUPPORT. What answering a command can do, said once: its words are posted, and only the mailbox and host side change. -/
namespace Sys2Proof.Machine
open Sys2Proof

theorem Mem.wf_areaWrite (ws : List W32) :
    ∀ (m : Mem W32) (p : Nat), Mem.wf 0 m = true → Mem.wf 0 (areaWrite m p ws) = true := by
  induction ws with
  | nil => exact fun _ _ h => h
  | cons w ws ih => exact fun m p h => ih _ _ (Mem.wf_write _ _ h)

/-- Words written later leave an earlier word of the same block as it was. -/
theorem areaWrite_before (ws : List W32) :
    ∀ (m : Mem W32) (p q : Nat), Mem.wf 0 m = true → q < p → p + ws.length ≤ q + 1024 →
      Mem.read 0 (areaWrite m p ws) (q % 1024) = Mem.read 0 m (q % 1024) := by
  induction ws with
  | nil => intros; rfl
  | cons w ws ih =>
    intro m p q h lt le
    simp only [List.length_cons] at le
    unfold areaWrite
    rw [ih _ _ _ (Mem.wf_write _ _ h) (by omega) (by omega), Mem.read_write_of_wf h]
    rw [if_neg (by omega)]

/-- A block of at most 1,024 words reads back from a circular area as it was written. -/
theorem areaRead_areaWrite (ws : List W32) :
    ∀ (m : Mem W32) (p : Nat), Mem.wf 0 m = true → ws.length ≤ 1024 → areaRead (areaWrite m p ws) p ws.length = ws := by
  induction ws with
  | nil => intros; rfl
  | cons w ws ih =>
    intro m p h le
    simp only [List.length_cons] at le
    have hw := Mem.wf_write (p % 1024) w h
    have tail := ih _ (p + 1) hw (by omega)
    unfold areaRead at tail ⊢
    rw [List.length_cons, List.range_succ_eq_map, List.map_cons, List.map_map]
    have head : Mem.read 0 (areaWrite (Mem.write 0 m (p % 1024) w) (p + 1) ws) (p % 1024) = w := by
      rw [areaWrite_before ws _ (p + 1) p hw (by omega) (by omega), Mem.read_write_of_wf h, if_pos rfl]
    have rest : (List.range ws.length).map ((fun i => Mem.read 0 (areaWrite (Mem.write 0 m (p % 1024) w) (p + 1) ws)
        ((p + i) % 1024)) ∘ Nat.succ) = ws := by
      refine Eq.trans (List.map_congr_left ?_) tail
      intro i _
      simp only [Function.comp]
      rw [show p + i.succ = p + 1 + i by omega]
    exact congr (congrArg List.cons head) rest

theorem MailboxOnly.refl (d : Dev) : MailboxOnly d d := rfl

theorem MailboxOnly.trans {a b c : Dev} (h : MailboxOnly a b) (k : MailboxOnly b c) : MailboxOnly a c := by
  unfold MailboxOnly at *
  rw [← h, ← k]

theorem Dev.modStall_mailbox (st : Stall) (f : StallState → StallState) (d : Dev) : MailboxOnly d (d.modStall st f) := rfl

theorem Dev.msix_mailbox (k : Nat) (d : Dev) : MailboxOnly d (d.msix k) := by
  unfold Dev.msix
  split
  · rfl
  · split <;> rfl

theorem Dev.irqTransport_mailbox (st : Stall) (d : Dev) : MailboxOnly d (d.irqTransport st) := by
  unfold Dev.irqTransport
  split
  · rfl
  · split <;> rfl

/-- Setting an interrupt cause changes the mailbox and host side at most. -/
theorem Dev.setIrq_mailbox (st : Stall) (k : Nat) (d : Dev) : MailboxOnly d (d.setIrq st k) := by
  unfold Dev.setIrq
  simp only
  split
  · split
    · exact (Dev.modStall_mailbox st _ d).trans (Dev.msix_mailbox _ _)
    · split
      · exact (Dev.modStall_mailbox st _ d).trans (Dev.irqTransport_mailbox _ _)
      · exact Dev.modStall_mailbox st _ d
  · exact Dev.modStall_mailbox st _ d

theorem Dev.writeRsp_mailbox (st : Stall) (r : Response) (d : Dev) : MailboxOnly d (d.writeRsp st r) :=
  (Dev.modStall_mailbox st _ d).trans (Dev.setIrq_mailbox _ _ _)

/-- Answering a command changes the mailbox and host side at most. -/
theorem Dev.respond_mailbox (st : Stall) (tag : BitVec 8) (status : Nat) (words : List W32) (d : Dev) :
    MailboxOnly d (d.respond st tag status words) := by
  unfold Dev.respond
  split
  · rfl
  · simp only
    split
    · rfl
    · split
      · refine MailboxOnly.trans ?_ (Dev.writeRsp_mailbox _ _ _)
        rfl
      · rfl

theorem vget_vset {α : Type} {n : Nat} (v : Vector α n) (i j : Fin n) (x : α) :
    (vset v i x)[j] = if j = i then x else v[j] := by
  unfold vset
  simp only [Fin.getElem_fin, Vector.getElem_set, Fin.ext_iff, eq_comm]

theorem vget_vmod {α : Type} {n : Nat} (v : Vector α n) (i j : Fin n) (f : α → α) :
    (vmod v i f)[j] = if j = i then f v[i] else v[j] := by
  unfold vmod
  rw [vget_vset]

theorem Dev.stall_modStall (st k : Stall) (f : StallState → StallState) (d : Dev) :
    (d.modStall st f).hp.stalls[k] = if k = st then f d.hp.stalls[st] else d.hp.stalls[k] := by
  unfold Dev.modStall
  exact vget_vmod _ _ _ _

theorem Dev.stall_msix (k : Nat) (st : Stall) (d : Dev) : (d.msix k).hp.stalls[st] = d.hp.stalls[st] := by
  unfold Dev.msix
  split
  · rfl
  · split <;> rfl

theorem Dev.stall_irqTransport (st k : Stall) (d : Dev) : (d.irqTransport st).hp.stalls[k] = d.hp.stalls[k] := by
  unfold Dev.irqTransport
  split
  · rfl
  · split <;> rfl

/-- Setting a cause sets its bit of the stall's IRQ_STATUS and nothing else of the stall. -/
theorem Dev.stall_setIrq (st : Stall) (k : Nat) (d : Dev) :
    (d.setIrq st k).hp.stalls[st] =
      { d.hp.stalls[st] with irqStatus := d.hp.stalls[st].irqStatus ||| BitVec.ofNat 11 (2 ^ k) } := by
  have h : ∀ e : Dev, e = d.modStall st (fun s => { s with irqStatus := s.irqStatus ||| BitVec.ofNat 11 (2 ^ k) }) →
      e.hp.stalls[st] = { d.hp.stalls[st] with irqStatus := d.hp.stalls[st].irqStatus ||| BitVec.ofNat 11 (2 ^ k) } := by
    intro e he
    rw [he, Dev.stall_modStall, if_pos rfl]
  unfold Dev.setIrq
  simp only
  split
  · split
    · rw [Dev.stall_msix]; exact h _ rfl
    · split
      · rw [Dev.stall_irqTransport]; exact h _ rfl
      · exact h _ rfl
  · exact h _ rfl

/-- A response that is written stands in the response area, and the cause is set. -/
theorem Dev.writeRsp_posted (st : Stall) (r : Response) (d : Dev) :
    Posted d (d.writeRsp st r) st (headerOf r.code r.tag r.words.length :: r.words) := by
  unfold Posted Dev.writeRsp
  rw [Dev.stall_setIrq, Dev.stall_modStall, if_pos rfl]
  refine ⟨rfl, rfl, ?_⟩
  simp [irqRsp]

/-- A command in flight that is not dropped, answered with room in the response area. -/
theorem Dev.respond_posted {st : Stall} {tag : BitVec 8} {status : Nat} {words : List W32} {d : Dev} {c : Cmd}
    (hc : d.cmd? st tag = some c) (hd : c.dropped = false)
    (hr : d.hasRoom st ((rspWords c.code.toNat status words).length + 1)) :
    Posted d (d.respond st tag status words) st
      (headerOf c.code tag (rspWords c.code.toNat status words).length :: rspWords c.code.toNat status words) := by
  obtain ⟨h1, h2⟩ := hr
  unfold Dev.respond
  simp only [hc, hd, Bool.false_eq_true, if_false]
  rw [if_pos]
  · exact Dev.writeRsp_posted st _ _
  · rw [h1]; simp only [rspRoom, List.isEmpty_nil, Bool.true_and, decide_eq_true_eq]; omega

theorem MailboxOnly.wr {d e : Dev} (h : MailboxOnly d e) : e.wr = d.wr := by
  have k := congrArg Dev.wr (show _ = _ from h)
  exact k
theorem MailboxOnly.clk {d e : Dev} (h : MailboxOnly d e) : e.clk = d.clk := by
  have k := congrArg Dev.clk (show _ = _ from h)
  exact k
theorem MailboxOnly.pw {d e : Dev} (h : MailboxOnly d e) : e.pw = d.pw := by
  have k := congrArg Dev.pw (show _ = _ from h)
  exact k
theorem MailboxOnly.tk {d e : Dev} (h : MailboxOnly d e) : e.tk = d.tk := by
  have k := congrArg Dev.tk (show _ = _ from h)
  exact k
theorem MailboxOnly.ft {d e : Dev} (h : MailboxOnly d e) : e.ft = d.ft := by
  have k := congrArg Dev.ft (show _ = _ from h)
  exact k
theorem MailboxOnly.sv {d e : Dev} (h : MailboxOnly d e) : e.sv = d.sv := by
  have k := congrArg Dev.sv (show _ = _ from h)
  exact k
theorem MailboxOnly.plots {d e : Dev} (h : MailboxOnly d e) : e.plots = d.plots := by
  have k := congrArg Dev.plots (show _ = _ from h)
  exact k
theorem MailboxOnly.lanes {d e : Dev} (h : MailboxOnly d e) : e.lanes = d.lanes := by
  have k := congrArg Dev.lanes (show _ = _ from h)
  exact k
theorem MailboxOnly.loops {d e : Dev} (h : MailboxOnly d e) : e.loops = d.loops := by
  have k := congrArg Dev.loops (show _ = _ from h)
  exact k
theorem MailboxOnly.progs {d e : Dev} (h : MailboxOnly d e) : e.progs = d.progs := by
  have k := congrArg Dev.progs (show _ = _ from h)
  exact k
theorem MailboxOnly.ctl {d e : Dev} (h : MailboxOnly d e) : e.ctl = d.ctl := by
  have k := congrArg Dev.ctl (show _ = _ from h)
  exact k
theorem MailboxOnly.fb {d e : Dev} (h : MailboxOnly d e) : e.fb = d.fb := by
  have k := congrArg Dev.fb (show _ = _ from h)
  exact k
theorem MailboxOnly.pwm {d e : Dev} (h : MailboxOnly d e) : e.pwm = d.pwm := by
  have k := congrArg Dev.pwm (show _ = _ from h)
  exact k
theorem MailboxOnly.legs {d e : Dev} (h : MailboxOnly d e) : e.legs = d.legs := by
  have k := congrArg Dev.legs (show _ = _ from h)
  exact k
theorem MailboxOnly.gates {d e : Dev} (h : MailboxOnly d e) : e.gates = d.gates := by
  have k := congrArg Dev.gates (show _ = _ from h)
  exact k
theorem MailboxOnly.mot {d e : Dev} (h : MailboxOnly d e) : e.mot = d.mot := by
  have k := congrArg Dev.mot (show _ = _ from h)
  exact k
theorem MailboxOnly.mu {d e : Dev} (h : MailboxOnly d e) : e.mu = d.mu := by
  have k := congrArg Dev.mu (show _ = _ from h)
  exact k
theorem MailboxOnly.cap {d e : Dev} (h : MailboxOnly d e) : e.cap = d.cap := by
  have k := congrArg Dev.cap (show _ = _ from h)
  exact k
theorem MailboxOnly.nt {d e : Dev} (h : MailboxOnly d e) : e.nt = d.nt := by
  have k := congrArg Dev.nt (show _ = _ from h)
  exact k
theorem MailboxOnly.fio {d e : Dev} (h : MailboxOnly d e) : e.fio = d.fio := by
  have k := congrArg Dev.fio (show _ = _ from h)
  exact k
theorem MailboxOnly.sf {d e : Dev} (h : MailboxOnly d e) : e.sf = d.sf := by
  have k := congrArg Dev.sf (show _ = _ from h)
  exact k

/-- An effect that changes the mailbox and host side at most leaves DRAM and the queue as they were. -/
theorem State.on_mailbox {s : State} {f : Dev → Dev} (hw : s.dev.wr = []) (h : MailboxOnly s.dev (f s.dev)) :
    MailboxOnly s.dev (s.on f).dev ∧ (s.on f).dram = s.dram ∧ (s.on f).pending = s.pending := by
  have e := h.wr
  refine ⟨?_, ?_, rfl⟩
  · have : (s.on f).dev = f s.dev := by rw [State.on_dev, ← hw, ← e]
    rw [this]; exact h
  · rw [State.on_dram, e, hw]; rfl

/-- A command whose own effect changes the mailbox side at most does so whether it runs or not. -/
theorem Dev.start_mailbox {st : Stall} {tag : BitVec 8} {code : Nat} {f : Cmd → Dev → Dev} {d : Dev}
    (h : ∀ c, MailboxOnly d (f c d)) : MailboxOnly d (Dev.start st tag code f d) := by
  unfold Dev.start
  split
  · split
    · exact h _
    · rfl
  · rfl

/-- An answer other than RESOURCE changes the mailbox and host side at most: it waits its turn. RESOURCE may lose the
doorbell, which fires FS005 (03 R94). -/
theorem Dev.reply_mailbox {status : Nat} (h : status ≠ stResource) (st : Stall) (tag : BitVec 8) (words : List W32) (d : Dev) :
    MailboxOnly d (d.reply st tag status words) := by
  unfold Dev.reply
  split
  · rfl
  · rw [if_pos]
    · exact Dev.respond_mailbox _ _ _ _ _
    · simp [h]

/-- A checked command changes the mailbox side at most where its effect does and no check answers RESOURCE. -/
theorem Dev.checked_mailbox {c : Cmd} {n : Nat} {ch : List (Bool × Nat)} {g : Dev → Dev} {d e : Dev}
    (h : MailboxOnly d (g e)) (k : MailboxOnly d e) (r : firstBad ch ≠ stResource) : MailboxOnly d (Dev.checked c n ch g e) := by
  unfold Dev.checked
  dsimp only
  split
  · exact h
  · exact k.trans (Dev.reply_mailbox r _ _ _ _)

/-- Checks none of whose statuses is RESOURCE do not answer RESOURCE. -/
theorem firstBad_ne_resource {ch : List (Bool × Nat)} (h : ∀ x ∈ ch, x.2 ≠ stResource) : firstBad ch ≠ stResource := by
  induction ch with
  | nil => decide
  | cons x xs ih =>
    unfold firstBad
    split
    · exact h _ (List.mem_cons_self ..)
    · exact ih (fun y hy => h y (List.mem_cons_of_mem _ hy))

end Sys2Proof.Machine
end

