-- ==== Sys2Proof/Laws/Run.lean ====
section
/-! SUPPORT. How a command starts and is checked, said once. -/
namespace Sys2Proof.Machine
open Sys2Proof

/-- A command that runs starts with its own effect. -/
theorem Dev.start_runs {d : Dev} {st : Stall} {tag : BitVec 8} {code : Nat} {c : Cmd} (f : Cmd → Dev → Dev)
    (h : d.runs st tag code c = true) : Dev.start st tag code f d = f c d := by
  simp only [Dev.runs, Bool.and_eq_true, beq_iff_eq] at h
  obtain ⟨⟨⟨h1, h2⟩, h3⟩, h4⟩ := h
  simp [Dev.start, h1, h2, h3, h4]

/-- A command that does not run changes nothing. -/
theorem Dev.start_absent {d : Dev} {st : Stall} {tag : BitVec 8} {code : Nat} (f : Cmd → Dev → Dev)
    (h : ∀ c, d.cmd? st tag = some c → d.runs st tag code c = false) : Dev.start st tag code f d = d := by
  unfold Dev.start
  split
  · rename_i c e
    have := h c e
    simp only [Dev.runs, e, beq_self_eq_true, Bool.true_and] at this
    simp [this]
  · rfl

/-- A command whose checks pass goes on. -/
theorem Dev.checked_pass {c : Cmd} {n : Nat} {checks : List (Bool × Nat)} (go : Dev → Dev) (d : Dev)
    (h : Passes checks) : Dev.checked c n checks go d = go d := by
  unfold Passes at h
  simp [Dev.checked, h]

/-- A command with a failing check is answered with the status of the first that fails, and nothing else. -/
theorem Dev.checked_fail {c : Cmd} {n : Nat} {checks : List (Bool × Nat)} (go : Dev → Dev) (d : Dev)
    (h : ¬Passes checks) : Dev.checked c n checks go d = d.reply c.stall c.tag (firstBad checks) (List.replicate (n - 1) 0) := by
  unfold Passes at h
  simp [Dev.checked, h]

/-- No check, no failure; the first that fails gives the status. -/
@[simp] theorem passes_nil : Passes [] := rfl
theorem passes_cons {b : Bool} {st : Nat} {cs : List (Bool × Nat)} (hst : st ≠ 0) :
    Passes ((b, st) :: cs) ↔ b = false ∧ Passes cs := by
  cases b <;> simp [Passes, firstBad, hst]

end Sys2Proof.Machine
end

