-- ==== Sys2Proof/Laws/State.lean ====
section
/-! SUPPORT. What each named update of the state does to each field: the one it changes, and the others it keeps. -/
namespace Sys2Proof.Machine
open Sys2Proof

variable (d : Dev)

/-! ### Dev.modAxf -/
@[simp] theorem Dev.modAxf_clk (a : AxisNo) (f : AxisFault → AxisFault) : (d.modAxf a f).clk = d.clk := rfl
@[simp] theorem Dev.modAxf_free (a : AxisNo) (f : AxisFault → AxisFault) : (d.modAxf a f).free = d.free := rfl
@[simp] theorem Dev.modAxf_pw (a : AxisNo) (f : AxisFault → AxisFault) : (d.modAxf a f).pw = d.pw := rfl
@[simp] theorem Dev.modAxf_tk (a : AxisNo) (f : AxisFault → AxisFault) : (d.modAxf a f).tk = d.tk := rfl
@[simp] theorem Dev.modAxf_hp (a : AxisNo) (f : AxisFault → AxisFault) : (d.modAxf a f).hp = d.hp := rfl
@[simp] theorem Dev.modAxf_ft (a : AxisNo) (f : AxisFault → AxisFault) : (d.modAxf a f).ft = d.ft := rfl
@[simp] theorem Dev.modAxf_sv (a : AxisNo) (f : AxisFault → AxisFault) : (d.modAxf a f).sv = d.sv := rfl
@[simp] theorem Dev.modAxf_axf (a : AxisNo) (f : AxisFault → AxisFault) : (d.modAxf a f).axf = vmod d.axf a f := rfl
@[simp] theorem Dev.modAxf_plots (a : AxisNo) (f : AxisFault → AxisFault) : (d.modAxf a f).plots = d.plots := rfl
@[simp] theorem Dev.modAxf_lanes (a : AxisNo) (f : AxisFault → AxisFault) : (d.modAxf a f).lanes = d.lanes := rfl
@[simp] theorem Dev.modAxf_loops (a : AxisNo) (f : AxisFault → AxisFault) : (d.modAxf a f).loops = d.loops := rfl
@[simp] theorem Dev.modAxf_progs (a : AxisNo) (f : AxisFault → AxisFault) : (d.modAxf a f).progs = d.progs := rfl
@[simp] theorem Dev.modAxf_ctl (a : AxisNo) (f : AxisFault → AxisFault) : (d.modAxf a f).ctl = d.ctl := rfl
@[simp] theorem Dev.modAxf_saved (a : AxisNo) (f : AxisFault → AxisFault) : (d.modAxf a f).saved = d.saved := rfl
@[simp] theorem Dev.modAxf_slots (a : AxisNo) (f : AxisFault → AxisFault) : (d.modAxf a f).slots = d.slots := rfl
@[simp] theorem Dev.modAxf_aux (a : AxisNo) (f : AxisFault → AxisFault) : (d.modAxf a f).aux = d.aux := rfl
@[simp] theorem Dev.modAxf_fb (a : AxisNo) (f : AxisFault → AxisFault) : (d.modAxf a f).fb = d.fb := rfl
@[simp] theorem Dev.modAxf_pwm (a : AxisNo) (f : AxisFault → AxisFault) : (d.modAxf a f).pwm = d.pwm := rfl
@[simp] theorem Dev.modAxf_legs (a : AxisNo) (f : AxisFault → AxisFault) : (d.modAxf a f).legs = d.legs := rfl
@[simp] theorem Dev.modAxf_gates (a : AxisNo) (f : AxisFault → AxisFault) : (d.modAxf a f).gates = d.gates := rfl
@[simp] theorem Dev.modAxf_mot (a : AxisNo) (f : AxisFault → AxisFault) : (d.modAxf a f).mot = d.mot := rfl
@[simp] theorem Dev.modAxf_mu (a : AxisNo) (f : AxisFault → AxisFault) : (d.modAxf a f).mu = d.mu := rfl
@[simp] theorem Dev.modAxf_cap (a : AxisNo) (f : AxisFault → AxisFault) : (d.modAxf a f).cap = d.cap := rfl
@[simp] theorem Dev.modAxf_ring (a : AxisNo) (f : AxisFault → AxisFault) : (d.modAxf a f).ring = d.ring := rfl
@[simp] theorem Dev.modAxf_nt (a : AxisNo) (f : AxisFault → AxisFault) : (d.modAxf a f).nt = d.nt := rfl
@[simp] theorem Dev.modAxf_can (a : AxisNo) (f : AxisFault → AxisFault) : (d.modAxf a f).can = d.can := rfl
@[simp] theorem Dev.modAxf_fio (a : AxisNo) (f : AxisFault → AxisFault) : (d.modAxf a f).fio = d.fio := rfl
@[simp] theorem Dev.modAxf_sf (a : AxisNo) (f : AxisFault → AxisFault) : (d.modAxf a f).sf = d.sf := rfl
@[simp] theorem Dev.modAxf_sfSeen (a : AxisNo) (f : AxisFault → AxisFault) : (d.modAxf a f).sfSeen = d.sfSeen := rfl
@[simp] theorem Dev.modAxf_out (a : AxisNo) (f : AxisFault → AxisFault) : (d.modAxf a f).out = d.out := rfl
@[simp] theorem Dev.modAxf_wr (a : AxisNo) (f : AxisFault → AxisFault) : (d.modAxf a f).wr = d.wr := rfl

/-! ### Dev.modLane -/
@[simp] theorem Dev.modLane_clk (l : LaneNo) (f : Lane → Lane) : (d.modLane l f).clk = d.clk := rfl
@[simp] theorem Dev.modLane_free (l : LaneNo) (f : Lane → Lane) : (d.modLane l f).free = d.free := rfl
@[simp] theorem Dev.modLane_pw (l : LaneNo) (f : Lane → Lane) : (d.modLane l f).pw = d.pw := rfl
@[simp] theorem Dev.modLane_tk (l : LaneNo) (f : Lane → Lane) : (d.modLane l f).tk = d.tk := rfl
@[simp] theorem Dev.modLane_hp (l : LaneNo) (f : Lane → Lane) : (d.modLane l f).hp = d.hp := rfl
@[simp] theorem Dev.modLane_ft (l : LaneNo) (f : Lane → Lane) : (d.modLane l f).ft = d.ft := rfl
@[simp] theorem Dev.modLane_sv (l : LaneNo) (f : Lane → Lane) : (d.modLane l f).sv = d.sv := rfl
@[simp] theorem Dev.modLane_axf (l : LaneNo) (f : Lane → Lane) : (d.modLane l f).axf = d.axf := rfl
@[simp] theorem Dev.modLane_plots (l : LaneNo) (f : Lane → Lane) : (d.modLane l f).plots = d.plots := rfl
@[simp] theorem Dev.modLane_lanes (l : LaneNo) (f : Lane → Lane) : (d.modLane l f).lanes = vmod d.lanes l f := rfl
@[simp] theorem Dev.modLane_loops (l : LaneNo) (f : Lane → Lane) : (d.modLane l f).loops = d.loops := rfl
@[simp] theorem Dev.modLane_progs (l : LaneNo) (f : Lane → Lane) : (d.modLane l f).progs = d.progs := rfl
@[simp] theorem Dev.modLane_ctl (l : LaneNo) (f : Lane → Lane) : (d.modLane l f).ctl = d.ctl := rfl
@[simp] theorem Dev.modLane_saved (l : LaneNo) (f : Lane → Lane) : (d.modLane l f).saved = d.saved := rfl
@[simp] theorem Dev.modLane_slots (l : LaneNo) (f : Lane → Lane) : (d.modLane l f).slots = d.slots := rfl
@[simp] theorem Dev.modLane_aux (l : LaneNo) (f : Lane → Lane) : (d.modLane l f).aux = d.aux := rfl
@[simp] theorem Dev.modLane_fb (l : LaneNo) (f : Lane → Lane) : (d.modLane l f).fb = d.fb := rfl
@[simp] theorem Dev.modLane_pwm (l : LaneNo) (f : Lane → Lane) : (d.modLane l f).pwm = d.pwm := rfl
@[simp] theorem Dev.modLane_legs (l : LaneNo) (f : Lane → Lane) : (d.modLane l f).legs = d.legs := rfl
@[simp] theorem Dev.modLane_gates (l : LaneNo) (f : Lane → Lane) : (d.modLane l f).gates = d.gates := rfl
@[simp] theorem Dev.modLane_mot (l : LaneNo) (f : Lane → Lane) : (d.modLane l f).mot = d.mot := rfl
@[simp] theorem Dev.modLane_mu (l : LaneNo) (f : Lane → Lane) : (d.modLane l f).mu = d.mu := rfl
@[simp] theorem Dev.modLane_cap (l : LaneNo) (f : Lane → Lane) : (d.modLane l f).cap = d.cap := rfl
@[simp] theorem Dev.modLane_ring (l : LaneNo) (f : Lane → Lane) : (d.modLane l f).ring = d.ring := rfl
@[simp] theorem Dev.modLane_nt (l : LaneNo) (f : Lane → Lane) : (d.modLane l f).nt = d.nt := rfl
@[simp] theorem Dev.modLane_can (l : LaneNo) (f : Lane → Lane) : (d.modLane l f).can = d.can := rfl
@[simp] theorem Dev.modLane_fio (l : LaneNo) (f : Lane → Lane) : (d.modLane l f).fio = d.fio := rfl
@[simp] theorem Dev.modLane_sf (l : LaneNo) (f : Lane → Lane) : (d.modLane l f).sf = d.sf := rfl
@[simp] theorem Dev.modLane_sfSeen (l : LaneNo) (f : Lane → Lane) : (d.modLane l f).sfSeen = d.sfSeen := rfl
@[simp] theorem Dev.modLane_out (l : LaneNo) (f : Lane → Lane) : (d.modLane l f).out = d.out := rfl
@[simp] theorem Dev.modLane_wr (l : LaneNo) (f : Lane → Lane) : (d.modLane l f).wr = d.wr := rfl

/-! ### Dev.modLoop -/
@[simp] theorem Dev.modLoop_clk (a : AxisNo) (f : AxisLoop → AxisLoop) : (d.modLoop a f).clk = d.clk := rfl
@[simp] theorem Dev.modLoop_free (a : AxisNo) (f : AxisLoop → AxisLoop) : (d.modLoop a f).free = d.free := rfl
@[simp] theorem Dev.modLoop_pw (a : AxisNo) (f : AxisLoop → AxisLoop) : (d.modLoop a f).pw = d.pw := rfl
@[simp] theorem Dev.modLoop_tk (a : AxisNo) (f : AxisLoop → AxisLoop) : (d.modLoop a f).tk = d.tk := rfl
@[simp] theorem Dev.modLoop_hp (a : AxisNo) (f : AxisLoop → AxisLoop) : (d.modLoop a f).hp = d.hp := rfl
@[simp] theorem Dev.modLoop_ft (a : AxisNo) (f : AxisLoop → AxisLoop) : (d.modLoop a f).ft = d.ft := rfl
@[simp] theorem Dev.modLoop_sv (a : AxisNo) (f : AxisLoop → AxisLoop) : (d.modLoop a f).sv = d.sv := rfl
@[simp] theorem Dev.modLoop_axf (a : AxisNo) (f : AxisLoop → AxisLoop) : (d.modLoop a f).axf = d.axf := rfl
@[simp] theorem Dev.modLoop_plots (a : AxisNo) (f : AxisLoop → AxisLoop) : (d.modLoop a f).plots = d.plots := rfl
@[simp] theorem Dev.modLoop_lanes (a : AxisNo) (f : AxisLoop → AxisLoop) : (d.modLoop a f).lanes = d.lanes := rfl
@[simp] theorem Dev.modLoop_loops (a : AxisNo) (f : AxisLoop → AxisLoop) :
    (d.modLoop a f).loops = vmod d.loops a f := rfl
@[simp] theorem Dev.modLoop_progs (a : AxisNo) (f : AxisLoop → AxisLoop) : (d.modLoop a f).progs = d.progs := rfl
@[simp] theorem Dev.modLoop_ctl (a : AxisNo) (f : AxisLoop → AxisLoop) : (d.modLoop a f).ctl = d.ctl := rfl
@[simp] theorem Dev.modLoop_saved (a : AxisNo) (f : AxisLoop → AxisLoop) : (d.modLoop a f).saved = d.saved := rfl
@[simp] theorem Dev.modLoop_slots (a : AxisNo) (f : AxisLoop → AxisLoop) : (d.modLoop a f).slots = d.slots := rfl
@[simp] theorem Dev.modLoop_aux (a : AxisNo) (f : AxisLoop → AxisLoop) : (d.modLoop a f).aux = d.aux := rfl
@[simp] theorem Dev.modLoop_fb (a : AxisNo) (f : AxisLoop → AxisLoop) : (d.modLoop a f).fb = d.fb := rfl
@[simp] theorem Dev.modLoop_pwm (a : AxisNo) (f : AxisLoop → AxisLoop) : (d.modLoop a f).pwm = d.pwm := rfl
@[simp] theorem Dev.modLoop_legs (a : AxisNo) (f : AxisLoop → AxisLoop) : (d.modLoop a f).legs = d.legs := rfl
@[simp] theorem Dev.modLoop_gates (a : AxisNo) (f : AxisLoop → AxisLoop) : (d.modLoop a f).gates = d.gates := rfl
@[simp] theorem Dev.modLoop_mot (a : AxisNo) (f : AxisLoop → AxisLoop) : (d.modLoop a f).mot = d.mot := rfl
@[simp] theorem Dev.modLoop_mu (a : AxisNo) (f : AxisLoop → AxisLoop) : (d.modLoop a f).mu = d.mu := rfl
@[simp] theorem Dev.modLoop_cap (a : AxisNo) (f : AxisLoop → AxisLoop) : (d.modLoop a f).cap = d.cap := rfl
@[simp] theorem Dev.modLoop_ring (a : AxisNo) (f : AxisLoop → AxisLoop) : (d.modLoop a f).ring = d.ring := rfl
@[simp] theorem Dev.modLoop_nt (a : AxisNo) (f : AxisLoop → AxisLoop) : (d.modLoop a f).nt = d.nt := rfl
@[simp] theorem Dev.modLoop_can (a : AxisNo) (f : AxisLoop → AxisLoop) : (d.modLoop a f).can = d.can := rfl
@[simp] theorem Dev.modLoop_fio (a : AxisNo) (f : AxisLoop → AxisLoop) : (d.modLoop a f).fio = d.fio := rfl
@[simp] theorem Dev.modLoop_sf (a : AxisNo) (f : AxisLoop → AxisLoop) : (d.modLoop a f).sf = d.sf := rfl
@[simp] theorem Dev.modLoop_sfSeen (a : AxisNo) (f : AxisLoop → AxisLoop) : (d.modLoop a f).sfSeen = d.sfSeen := rfl
@[simp] theorem Dev.modLoop_out (a : AxisNo) (f : AxisLoop → AxisLoop) : (d.modLoop a f).out = d.out := rfl
@[simp] theorem Dev.modLoop_wr (a : AxisNo) (f : AxisLoop → AxisLoop) : (d.modLoop a f).wr = d.wr := rfl

/-! ### Dev.modCtl -/
@[simp] theorem Dev.modCtl_clk (a : AxisNo) (f : Ctl → Ctl) : (d.modCtl a f).clk = d.clk := rfl
@[simp] theorem Dev.modCtl_free (a : AxisNo) (f : Ctl → Ctl) : (d.modCtl a f).free = d.free := rfl
@[simp] theorem Dev.modCtl_pw (a : AxisNo) (f : Ctl → Ctl) : (d.modCtl a f).pw = d.pw := rfl
@[simp] theorem Dev.modCtl_tk (a : AxisNo) (f : Ctl → Ctl) : (d.modCtl a f).tk = d.tk := rfl
@[simp] theorem Dev.modCtl_hp (a : AxisNo) (f : Ctl → Ctl) : (d.modCtl a f).hp = d.hp := rfl
@[simp] theorem Dev.modCtl_ft (a : AxisNo) (f : Ctl → Ctl) : (d.modCtl a f).ft = d.ft := rfl
@[simp] theorem Dev.modCtl_sv (a : AxisNo) (f : Ctl → Ctl) : (d.modCtl a f).sv = d.sv := rfl
@[simp] theorem Dev.modCtl_axf (a : AxisNo) (f : Ctl → Ctl) : (d.modCtl a f).axf = d.axf := rfl
@[simp] theorem Dev.modCtl_plots (a : AxisNo) (f : Ctl → Ctl) : (d.modCtl a f).plots = d.plots := rfl
@[simp] theorem Dev.modCtl_lanes (a : AxisNo) (f : Ctl → Ctl) : (d.modCtl a f).lanes = d.lanes := rfl
@[simp] theorem Dev.modCtl_loops (a : AxisNo) (f : Ctl → Ctl) : (d.modCtl a f).loops = d.loops := rfl
@[simp] theorem Dev.modCtl_progs (a : AxisNo) (f : Ctl → Ctl) : (d.modCtl a f).progs = d.progs := rfl
@[simp] theorem Dev.modCtl_ctl (a : AxisNo) (f : Ctl → Ctl) : (d.modCtl a f).ctl = vmod d.ctl a f := rfl
@[simp] theorem Dev.modCtl_saved (a : AxisNo) (f : Ctl → Ctl) : (d.modCtl a f).saved = d.saved := rfl
@[simp] theorem Dev.modCtl_slots (a : AxisNo) (f : Ctl → Ctl) : (d.modCtl a f).slots = d.slots := rfl
@[simp] theorem Dev.modCtl_aux (a : AxisNo) (f : Ctl → Ctl) : (d.modCtl a f).aux = d.aux := rfl
@[simp] theorem Dev.modCtl_fb (a : AxisNo) (f : Ctl → Ctl) : (d.modCtl a f).fb = d.fb := rfl
@[simp] theorem Dev.modCtl_pwm (a : AxisNo) (f : Ctl → Ctl) : (d.modCtl a f).pwm = d.pwm := rfl
@[simp] theorem Dev.modCtl_legs (a : AxisNo) (f : Ctl → Ctl) : (d.modCtl a f).legs = d.legs := rfl
@[simp] theorem Dev.modCtl_gates (a : AxisNo) (f : Ctl → Ctl) : (d.modCtl a f).gates = d.gates := rfl
@[simp] theorem Dev.modCtl_mot (a : AxisNo) (f : Ctl → Ctl) : (d.modCtl a f).mot = d.mot := rfl
@[simp] theorem Dev.modCtl_mu (a : AxisNo) (f : Ctl → Ctl) : (d.modCtl a f).mu = d.mu := rfl
@[simp] theorem Dev.modCtl_cap (a : AxisNo) (f : Ctl → Ctl) : (d.modCtl a f).cap = d.cap := rfl
@[simp] theorem Dev.modCtl_ring (a : AxisNo) (f : Ctl → Ctl) : (d.modCtl a f).ring = d.ring := rfl
@[simp] theorem Dev.modCtl_nt (a : AxisNo) (f : Ctl → Ctl) : (d.modCtl a f).nt = d.nt := rfl
@[simp] theorem Dev.modCtl_can (a : AxisNo) (f : Ctl → Ctl) : (d.modCtl a f).can = d.can := rfl
@[simp] theorem Dev.modCtl_fio (a : AxisNo) (f : Ctl → Ctl) : (d.modCtl a f).fio = d.fio := rfl
@[simp] theorem Dev.modCtl_sf (a : AxisNo) (f : Ctl → Ctl) : (d.modCtl a f).sf = d.sf := rfl
@[simp] theorem Dev.modCtl_sfSeen (a : AxisNo) (f : Ctl → Ctl) : (d.modCtl a f).sfSeen = d.sfSeen := rfl
@[simp] theorem Dev.modCtl_out (a : AxisNo) (f : Ctl → Ctl) : (d.modCtl a f).out = d.out := rfl
@[simp] theorem Dev.modCtl_wr (a : AxisNo) (f : Ctl → Ctl) : (d.modCtl a f).wr = d.wr := rfl

/-! ### Dev.modPwm -/
@[simp] theorem Dev.modPwm_clk (a : AxisNo) (f : AxisPwm → AxisPwm) : (d.modPwm a f).clk = d.clk := rfl
@[simp] theorem Dev.modPwm_free (a : AxisNo) (f : AxisPwm → AxisPwm) : (d.modPwm a f).free = d.free := rfl
@[simp] theorem Dev.modPwm_pw (a : AxisNo) (f : AxisPwm → AxisPwm) : (d.modPwm a f).pw = d.pw := rfl
@[simp] theorem Dev.modPwm_tk (a : AxisNo) (f : AxisPwm → AxisPwm) : (d.modPwm a f).tk = d.tk := rfl
@[simp] theorem Dev.modPwm_hp (a : AxisNo) (f : AxisPwm → AxisPwm) : (d.modPwm a f).hp = d.hp := rfl
@[simp] theorem Dev.modPwm_ft (a : AxisNo) (f : AxisPwm → AxisPwm) : (d.modPwm a f).ft = d.ft := rfl
@[simp] theorem Dev.modPwm_sv (a : AxisNo) (f : AxisPwm → AxisPwm) : (d.modPwm a f).sv = d.sv := rfl
@[simp] theorem Dev.modPwm_axf (a : AxisNo) (f : AxisPwm → AxisPwm) : (d.modPwm a f).axf = d.axf := rfl
@[simp] theorem Dev.modPwm_plots (a : AxisNo) (f : AxisPwm → AxisPwm) : (d.modPwm a f).plots = d.plots := rfl
@[simp] theorem Dev.modPwm_lanes (a : AxisNo) (f : AxisPwm → AxisPwm) : (d.modPwm a f).lanes = d.lanes := rfl
@[simp] theorem Dev.modPwm_loops (a : AxisNo) (f : AxisPwm → AxisPwm) : (d.modPwm a f).loops = d.loops := rfl
@[simp] theorem Dev.modPwm_progs (a : AxisNo) (f : AxisPwm → AxisPwm) : (d.modPwm a f).progs = d.progs := rfl
@[simp] theorem Dev.modPwm_ctl (a : AxisNo) (f : AxisPwm → AxisPwm) : (d.modPwm a f).ctl = d.ctl := rfl
@[simp] theorem Dev.modPwm_saved (a : AxisNo) (f : AxisPwm → AxisPwm) : (d.modPwm a f).saved = d.saved := rfl
@[simp] theorem Dev.modPwm_slots (a : AxisNo) (f : AxisPwm → AxisPwm) : (d.modPwm a f).slots = d.slots := rfl
@[simp] theorem Dev.modPwm_aux (a : AxisNo) (f : AxisPwm → AxisPwm) : (d.modPwm a f).aux = d.aux := rfl
@[simp] theorem Dev.modPwm_fb (a : AxisNo) (f : AxisPwm → AxisPwm) : (d.modPwm a f).fb = d.fb := rfl
@[simp] theorem Dev.modPwm_pwm (a : AxisNo) (f : AxisPwm → AxisPwm) : (d.modPwm a f).pwm = vmod d.pwm a f := rfl
@[simp] theorem Dev.modPwm_legs (a : AxisNo) (f : AxisPwm → AxisPwm) : (d.modPwm a f).legs = d.legs := rfl
@[simp] theorem Dev.modPwm_gates (a : AxisNo) (f : AxisPwm → AxisPwm) : (d.modPwm a f).gates = d.gates := rfl
@[simp] theorem Dev.modPwm_mot (a : AxisNo) (f : AxisPwm → AxisPwm) : (d.modPwm a f).mot = d.mot := rfl
@[simp] theorem Dev.modPwm_mu (a : AxisNo) (f : AxisPwm → AxisPwm) : (d.modPwm a f).mu = d.mu := rfl
@[simp] theorem Dev.modPwm_cap (a : AxisNo) (f : AxisPwm → AxisPwm) : (d.modPwm a f).cap = d.cap := rfl
@[simp] theorem Dev.modPwm_ring (a : AxisNo) (f : AxisPwm → AxisPwm) : (d.modPwm a f).ring = d.ring := rfl
@[simp] theorem Dev.modPwm_nt (a : AxisNo) (f : AxisPwm → AxisPwm) : (d.modPwm a f).nt = d.nt := rfl
@[simp] theorem Dev.modPwm_can (a : AxisNo) (f : AxisPwm → AxisPwm) : (d.modPwm a f).can = d.can := rfl
@[simp] theorem Dev.modPwm_fio (a : AxisNo) (f : AxisPwm → AxisPwm) : (d.modPwm a f).fio = d.fio := rfl
@[simp] theorem Dev.modPwm_sf (a : AxisNo) (f : AxisPwm → AxisPwm) : (d.modPwm a f).sf = d.sf := rfl
@[simp] theorem Dev.modPwm_sfSeen (a : AxisNo) (f : AxisPwm → AxisPwm) : (d.modPwm a f).sfSeen = d.sfSeen := rfl
@[simp] theorem Dev.modPwm_out (a : AxisNo) (f : AxisPwm → AxisPwm) : (d.modPwm a f).out = d.out := rfl
@[simp] theorem Dev.modPwm_wr (a : AxisNo) (f : AxisPwm → AxisPwm) : (d.modPwm a f).wr = d.wr := rfl

/-! ### Dev.modLeg -/
@[simp] theorem Dev.modLeg_clk (l : LegNo) (f : Leg → Leg) : (d.modLeg l f).clk = d.clk := rfl
@[simp] theorem Dev.modLeg_free (l : LegNo) (f : Leg → Leg) : (d.modLeg l f).free = d.free := rfl
@[simp] theorem Dev.modLeg_pw (l : LegNo) (f : Leg → Leg) : (d.modLeg l f).pw = d.pw := rfl
@[simp] theorem Dev.modLeg_tk (l : LegNo) (f : Leg → Leg) : (d.modLeg l f).tk = d.tk := rfl
@[simp] theorem Dev.modLeg_hp (l : LegNo) (f : Leg → Leg) : (d.modLeg l f).hp = d.hp := rfl
@[simp] theorem Dev.modLeg_ft (l : LegNo) (f : Leg → Leg) : (d.modLeg l f).ft = d.ft := rfl
@[simp] theorem Dev.modLeg_sv (l : LegNo) (f : Leg → Leg) : (d.modLeg l f).sv = d.sv := rfl
@[simp] theorem Dev.modLeg_axf (l : LegNo) (f : Leg → Leg) : (d.modLeg l f).axf = d.axf := rfl
@[simp] theorem Dev.modLeg_plots (l : LegNo) (f : Leg → Leg) : (d.modLeg l f).plots = d.plots := rfl
@[simp] theorem Dev.modLeg_lanes (l : LegNo) (f : Leg → Leg) : (d.modLeg l f).lanes = d.lanes := rfl
@[simp] theorem Dev.modLeg_loops (l : LegNo) (f : Leg → Leg) : (d.modLeg l f).loops = d.loops := rfl
@[simp] theorem Dev.modLeg_progs (l : LegNo) (f : Leg → Leg) : (d.modLeg l f).progs = d.progs := rfl
@[simp] theorem Dev.modLeg_ctl (l : LegNo) (f : Leg → Leg) : (d.modLeg l f).ctl = d.ctl := rfl
@[simp] theorem Dev.modLeg_saved (l : LegNo) (f : Leg → Leg) : (d.modLeg l f).saved = d.saved := rfl
@[simp] theorem Dev.modLeg_slots (l : LegNo) (f : Leg → Leg) : (d.modLeg l f).slots = d.slots := rfl
@[simp] theorem Dev.modLeg_aux (l : LegNo) (f : Leg → Leg) : (d.modLeg l f).aux = d.aux := rfl
@[simp] theorem Dev.modLeg_fb (l : LegNo) (f : Leg → Leg) : (d.modLeg l f).fb = d.fb := rfl
@[simp] theorem Dev.modLeg_pwm (l : LegNo) (f : Leg → Leg) : (d.modLeg l f).pwm = d.pwm := rfl
@[simp] theorem Dev.modLeg_legs (l : LegNo) (f : Leg → Leg) : (d.modLeg l f).legs = vmod d.legs l f := rfl
@[simp] theorem Dev.modLeg_gates (l : LegNo) (f : Leg → Leg) : (d.modLeg l f).gates = d.gates := rfl
@[simp] theorem Dev.modLeg_mot (l : LegNo) (f : Leg → Leg) : (d.modLeg l f).mot = d.mot := rfl
@[simp] theorem Dev.modLeg_mu (l : LegNo) (f : Leg → Leg) : (d.modLeg l f).mu = d.mu := rfl
@[simp] theorem Dev.modLeg_cap (l : LegNo) (f : Leg → Leg) : (d.modLeg l f).cap = d.cap := rfl
@[simp] theorem Dev.modLeg_ring (l : LegNo) (f : Leg → Leg) : (d.modLeg l f).ring = d.ring := rfl
@[simp] theorem Dev.modLeg_nt (l : LegNo) (f : Leg → Leg) : (d.modLeg l f).nt = d.nt := rfl
@[simp] theorem Dev.modLeg_can (l : LegNo) (f : Leg → Leg) : (d.modLeg l f).can = d.can := rfl
@[simp] theorem Dev.modLeg_fio (l : LegNo) (f : Leg → Leg) : (d.modLeg l f).fio = d.fio := rfl
@[simp] theorem Dev.modLeg_sf (l : LegNo) (f : Leg → Leg) : (d.modLeg l f).sf = d.sf := rfl
@[simp] theorem Dev.modLeg_sfSeen (l : LegNo) (f : Leg → Leg) : (d.modLeg l f).sfSeen = d.sfSeen := rfl
@[simp] theorem Dev.modLeg_out (l : LegNo) (f : Leg → Leg) : (d.modLeg l f).out = d.out := rfl
@[simp] theorem Dev.modLeg_wr (l : LegNo) (f : Leg → Leg) : (d.modLeg l f).wr = d.wr := rfl

/-! ### Dev.modMot -/
@[simp] theorem Dev.modMot_clk (a : AxisNo) (f : Motion → Motion) : (d.modMot a f).clk = d.clk := rfl
@[simp] theorem Dev.modMot_free (a : AxisNo) (f : Motion → Motion) : (d.modMot a f).free = d.free := rfl
@[simp] theorem Dev.modMot_pw (a : AxisNo) (f : Motion → Motion) : (d.modMot a f).pw = d.pw := rfl
@[simp] theorem Dev.modMot_tk (a : AxisNo) (f : Motion → Motion) : (d.modMot a f).tk = d.tk := rfl
@[simp] theorem Dev.modMot_hp (a : AxisNo) (f : Motion → Motion) : (d.modMot a f).hp = d.hp := rfl
@[simp] theorem Dev.modMot_ft (a : AxisNo) (f : Motion → Motion) : (d.modMot a f).ft = d.ft := rfl
@[simp] theorem Dev.modMot_sv (a : AxisNo) (f : Motion → Motion) : (d.modMot a f).sv = d.sv := rfl
@[simp] theorem Dev.modMot_axf (a : AxisNo) (f : Motion → Motion) : (d.modMot a f).axf = d.axf := rfl
@[simp] theorem Dev.modMot_plots (a : AxisNo) (f : Motion → Motion) : (d.modMot a f).plots = d.plots := rfl
@[simp] theorem Dev.modMot_lanes (a : AxisNo) (f : Motion → Motion) : (d.modMot a f).lanes = d.lanes := rfl
@[simp] theorem Dev.modMot_loops (a : AxisNo) (f : Motion → Motion) : (d.modMot a f).loops = d.loops := rfl
@[simp] theorem Dev.modMot_progs (a : AxisNo) (f : Motion → Motion) : (d.modMot a f).progs = d.progs := rfl
@[simp] theorem Dev.modMot_ctl (a : AxisNo) (f : Motion → Motion) : (d.modMot a f).ctl = d.ctl := rfl
@[simp] theorem Dev.modMot_saved (a : AxisNo) (f : Motion → Motion) : (d.modMot a f).saved = d.saved := rfl
@[simp] theorem Dev.modMot_slots (a : AxisNo) (f : Motion → Motion) : (d.modMot a f).slots = d.slots := rfl
@[simp] theorem Dev.modMot_aux (a : AxisNo) (f : Motion → Motion) : (d.modMot a f).aux = d.aux := rfl
@[simp] theorem Dev.modMot_fb (a : AxisNo) (f : Motion → Motion) : (d.modMot a f).fb = d.fb := rfl
@[simp] theorem Dev.modMot_pwm (a : AxisNo) (f : Motion → Motion) : (d.modMot a f).pwm = d.pwm := rfl
@[simp] theorem Dev.modMot_legs (a : AxisNo) (f : Motion → Motion) : (d.modMot a f).legs = d.legs := rfl
@[simp] theorem Dev.modMot_gates (a : AxisNo) (f : Motion → Motion) : (d.modMot a f).gates = d.gates := rfl
@[simp] theorem Dev.modMot_mot (a : AxisNo) (f : Motion → Motion) : (d.modMot a f).mot = vmod d.mot a f := rfl
@[simp] theorem Dev.modMot_mu (a : AxisNo) (f : Motion → Motion) : (d.modMot a f).mu = d.mu := rfl
@[simp] theorem Dev.modMot_cap (a : AxisNo) (f : Motion → Motion) : (d.modMot a f).cap = d.cap := rfl
@[simp] theorem Dev.modMot_ring (a : AxisNo) (f : Motion → Motion) : (d.modMot a f).ring = d.ring := rfl
@[simp] theorem Dev.modMot_nt (a : AxisNo) (f : Motion → Motion) : (d.modMot a f).nt = d.nt := rfl
@[simp] theorem Dev.modMot_can (a : AxisNo) (f : Motion → Motion) : (d.modMot a f).can = d.can := rfl
@[simp] theorem Dev.modMot_fio (a : AxisNo) (f : Motion → Motion) : (d.modMot a f).fio = d.fio := rfl
@[simp] theorem Dev.modMot_sf (a : AxisNo) (f : Motion → Motion) : (d.modMot a f).sf = d.sf := rfl
@[simp] theorem Dev.modMot_sfSeen (a : AxisNo) (f : Motion → Motion) : (d.modMot a f).sfSeen = d.sfSeen := rfl
@[simp] theorem Dev.modMot_out (a : AxisNo) (f : Motion → Motion) : (d.modMot a f).out = d.out := rfl
@[simp] theorem Dev.modMot_wr (a : AxisNo) (f : Motion → Motion) : (d.modMot a f).wr = d.wr := rfl

/-! ### Dev.modGate -/
@[simp] theorem Dev.modGate_clk (g : Fin 2) (f : GateDie → GateDie) : (d.modGate g f).clk = d.clk := rfl
@[simp] theorem Dev.modGate_free (g : Fin 2) (f : GateDie → GateDie) : (d.modGate g f).free = d.free := rfl
@[simp] theorem Dev.modGate_pw (g : Fin 2) (f : GateDie → GateDie) : (d.modGate g f).pw = d.pw := rfl
@[simp] theorem Dev.modGate_tk (g : Fin 2) (f : GateDie → GateDie) : (d.modGate g f).tk = d.tk := rfl
@[simp] theorem Dev.modGate_hp (g : Fin 2) (f : GateDie → GateDie) : (d.modGate g f).hp = d.hp := rfl
@[simp] theorem Dev.modGate_ft (g : Fin 2) (f : GateDie → GateDie) : (d.modGate g f).ft = d.ft := rfl
@[simp] theorem Dev.modGate_sv (g : Fin 2) (f : GateDie → GateDie) : (d.modGate g f).sv = d.sv := rfl
@[simp] theorem Dev.modGate_axf (g : Fin 2) (f : GateDie → GateDie) : (d.modGate g f).axf = d.axf := rfl
@[simp] theorem Dev.modGate_plots (g : Fin 2) (f : GateDie → GateDie) : (d.modGate g f).plots = d.plots := rfl
@[simp] theorem Dev.modGate_lanes (g : Fin 2) (f : GateDie → GateDie) : (d.modGate g f).lanes = d.lanes := rfl
@[simp] theorem Dev.modGate_loops (g : Fin 2) (f : GateDie → GateDie) : (d.modGate g f).loops = d.loops := rfl
@[simp] theorem Dev.modGate_progs (g : Fin 2) (f : GateDie → GateDie) : (d.modGate g f).progs = d.progs := rfl
@[simp] theorem Dev.modGate_ctl (g : Fin 2) (f : GateDie → GateDie) : (d.modGate g f).ctl = d.ctl := rfl
@[simp] theorem Dev.modGate_saved (g : Fin 2) (f : GateDie → GateDie) : (d.modGate g f).saved = d.saved := rfl
@[simp] theorem Dev.modGate_slots (g : Fin 2) (f : GateDie → GateDie) : (d.modGate g f).slots = d.slots := rfl
@[simp] theorem Dev.modGate_aux (g : Fin 2) (f : GateDie → GateDie) : (d.modGate g f).aux = d.aux := rfl
@[simp] theorem Dev.modGate_fb (g : Fin 2) (f : GateDie → GateDie) : (d.modGate g f).fb = d.fb := rfl
@[simp] theorem Dev.modGate_pwm (g : Fin 2) (f : GateDie → GateDie) : (d.modGate g f).pwm = d.pwm := rfl
@[simp] theorem Dev.modGate_legs (g : Fin 2) (f : GateDie → GateDie) : (d.modGate g f).legs = d.legs := rfl
@[simp] theorem Dev.modGate_gates (g : Fin 2) (f : GateDie → GateDie) : (d.modGate g f).gates = vmod d.gates g f := rfl
@[simp] theorem Dev.modGate_mot (g : Fin 2) (f : GateDie → GateDie) : (d.modGate g f).mot = d.mot := rfl
@[simp] theorem Dev.modGate_mu (g : Fin 2) (f : GateDie → GateDie) : (d.modGate g f).mu = d.mu := rfl
@[simp] theorem Dev.modGate_cap (g : Fin 2) (f : GateDie → GateDie) : (d.modGate g f).cap = d.cap := rfl
@[simp] theorem Dev.modGate_ring (g : Fin 2) (f : GateDie → GateDie) : (d.modGate g f).ring = d.ring := rfl
@[simp] theorem Dev.modGate_nt (g : Fin 2) (f : GateDie → GateDie) : (d.modGate g f).nt = d.nt := rfl
@[simp] theorem Dev.modGate_can (g : Fin 2) (f : GateDie → GateDie) : (d.modGate g f).can = d.can := rfl
@[simp] theorem Dev.modGate_fio (g : Fin 2) (f : GateDie → GateDie) : (d.modGate g f).fio = d.fio := rfl
@[simp] theorem Dev.modGate_sf (g : Fin 2) (f : GateDie → GateDie) : (d.modGate g f).sf = d.sf := rfl
@[simp] theorem Dev.modGate_sfSeen (g : Fin 2) (f : GateDie → GateDie) : (d.modGate g f).sfSeen = d.sfSeen := rfl
@[simp] theorem Dev.modGate_out (g : Fin 2) (f : GateDie → GateDie) : (d.modGate g f).out = d.out := rfl
@[simp] theorem Dev.modGate_wr (g : Fin 2) (f : GateDie → GateDie) : (d.modGate g f).wr = d.wr := rfl

/-! ### Dev.modStall -/
@[simp] theorem Dev.modStall_clk (st : Stall) (f : StallState → StallState) : (d.modStall st f).clk = d.clk := rfl
@[simp] theorem Dev.modStall_free (st : Stall) (f : StallState → StallState) : (d.modStall st f).free = d.free := rfl
@[simp] theorem Dev.modStall_pw (st : Stall) (f : StallState → StallState) : (d.modStall st f).pw = d.pw := rfl
@[simp] theorem Dev.modStall_tk (st : Stall) (f : StallState → StallState) : (d.modStall st f).tk = d.tk := rfl
@[simp] theorem Dev.modStall_hp (st : Stall) (f : StallState → StallState) :
    (d.modStall st f).hp = { d.hp with stalls := vmod d.hp.stalls st f } := rfl
@[simp] theorem Dev.modStall_ft (st : Stall) (f : StallState → StallState) : (d.modStall st f).ft = d.ft := rfl
@[simp] theorem Dev.modStall_sv (st : Stall) (f : StallState → StallState) : (d.modStall st f).sv = d.sv := rfl
@[simp] theorem Dev.modStall_axf (st : Stall) (f : StallState → StallState) : (d.modStall st f).axf = d.axf := rfl
@[simp] theorem Dev.modStall_plots (st : Stall) (f : StallState → StallState) : (d.modStall st f).plots = d.plots := rfl
@[simp] theorem Dev.modStall_lanes (st : Stall) (f : StallState → StallState) : (d.modStall st f).lanes = d.lanes := rfl
@[simp] theorem Dev.modStall_loops (st : Stall) (f : StallState → StallState) : (d.modStall st f).loops = d.loops := rfl
@[simp] theorem Dev.modStall_progs (st : Stall) (f : StallState → StallState) : (d.modStall st f).progs = d.progs := rfl
@[simp] theorem Dev.modStall_ctl (st : Stall) (f : StallState → StallState) : (d.modStall st f).ctl = d.ctl := rfl
@[simp] theorem Dev.modStall_saved (st : Stall) (f : StallState → StallState) : (d.modStall st f).saved = d.saved := rfl
@[simp] theorem Dev.modStall_slots (st : Stall) (f : StallState → StallState) : (d.modStall st f).slots = d.slots := rfl
@[simp] theorem Dev.modStall_aux (st : Stall) (f : StallState → StallState) : (d.modStall st f).aux = d.aux := rfl
@[simp] theorem Dev.modStall_fb (st : Stall) (f : StallState → StallState) : (d.modStall st f).fb = d.fb := rfl
@[simp] theorem Dev.modStall_pwm (st : Stall) (f : StallState → StallState) : (d.modStall st f).pwm = d.pwm := rfl
@[simp] theorem Dev.modStall_legs (st : Stall) (f : StallState → StallState) : (d.modStall st f).legs = d.legs := rfl
@[simp] theorem Dev.modStall_gates (st : Stall) (f : StallState → StallState) : (d.modStall st f).gates = d.gates := rfl
@[simp] theorem Dev.modStall_mot (st : Stall) (f : StallState → StallState) : (d.modStall st f).mot = d.mot := rfl
@[simp] theorem Dev.modStall_mu (st : Stall) (f : StallState → StallState) : (d.modStall st f).mu = d.mu := rfl
@[simp] theorem Dev.modStall_cap (st : Stall) (f : StallState → StallState) : (d.modStall st f).cap = d.cap := rfl
@[simp] theorem Dev.modStall_ring (st : Stall) (f : StallState → StallState) : (d.modStall st f).ring = d.ring := rfl
@[simp] theorem Dev.modStall_nt (st : Stall) (f : StallState → StallState) : (d.modStall st f).nt = d.nt := rfl
@[simp] theorem Dev.modStall_can (st : Stall) (f : StallState → StallState) : (d.modStall st f).can = d.can := rfl
@[simp] theorem Dev.modStall_fio (st : Stall) (f : StallState → StallState) : (d.modStall st f).fio = d.fio := rfl
@[simp] theorem Dev.modStall_sf (st : Stall) (f : StallState → StallState) : (d.modStall st f).sf = d.sf := rfl
@[simp] theorem Dev.modStall_sfSeen (st : Stall) (f : StallState → StallState) :
    (d.modStall st f).sfSeen = d.sfSeen := rfl
@[simp] theorem Dev.modStall_out (st : Stall) (f : StallState → StallState) : (d.modStall st f).out = d.out := rfl
@[simp] theorem Dev.modStall_wr (st : Stall) (f : StallState → StallState) : (d.modStall st f).wr = d.wr := rfl

/-! ### Dev.modCmd -/
@[simp] theorem Dev.modCmd_clk (st : Stall) (tag : BitVec 8) (f : Cmd → Cmd) : (d.modCmd st tag f).clk = d.clk := rfl
@[simp] theorem Dev.modCmd_free (st : Stall) (tag : BitVec 8) (f : Cmd → Cmd) : (d.modCmd st tag f).free = d.free := rfl
@[simp] theorem Dev.modCmd_pw (st : Stall) (tag : BitVec 8) (f : Cmd → Cmd) : (d.modCmd st tag f).pw = d.pw := rfl
@[simp] theorem Dev.modCmd_tk (st : Stall) (tag : BitVec 8) (f : Cmd → Cmd) : (d.modCmd st tag f).tk = d.tk := rfl
@[simp] theorem Dev.modCmd_hp (st : Stall) (tag : BitVec 8) (f : Cmd → Cmd) :
    (d.modCmd st tag f).hp = { d.hp with inFlight := d.hp.inFlight.map (fun c => if c.is st tag then f c else c) } := rfl
@[simp] theorem Dev.modCmd_ft (st : Stall) (tag : BitVec 8) (f : Cmd → Cmd) : (d.modCmd st tag f).ft = d.ft := rfl
@[simp] theorem Dev.modCmd_sv (st : Stall) (tag : BitVec 8) (f : Cmd → Cmd) : (d.modCmd st tag f).sv = d.sv := rfl
@[simp] theorem Dev.modCmd_axf (st : Stall) (tag : BitVec 8) (f : Cmd → Cmd) : (d.modCmd st tag f).axf = d.axf := rfl
@[simp] theorem Dev.modCmd_plots (st : Stall) (tag : BitVec 8) (f : Cmd → Cmd) :
    (d.modCmd st tag f).plots = d.plots := rfl
@[simp] theorem Dev.modCmd_lanes (st : Stall) (tag : BitVec 8) (f : Cmd → Cmd) :
    (d.modCmd st tag f).lanes = d.lanes := rfl
@[simp] theorem Dev.modCmd_loops (st : Stall) (tag : BitVec 8) (f : Cmd → Cmd) :
    (d.modCmd st tag f).loops = d.loops := rfl
@[simp] theorem Dev.modCmd_progs (st : Stall) (tag : BitVec 8) (f : Cmd → Cmd) :
    (d.modCmd st tag f).progs = d.progs := rfl
@[simp] theorem Dev.modCmd_ctl (st : Stall) (tag : BitVec 8) (f : Cmd → Cmd) : (d.modCmd st tag f).ctl = d.ctl := rfl
@[simp] theorem Dev.modCmd_saved (st : Stall) (tag : BitVec 8) (f : Cmd → Cmd) :
    (d.modCmd st tag f).saved = d.saved := rfl
@[simp] theorem Dev.modCmd_slots (st : Stall) (tag : BitVec 8) (f : Cmd → Cmd) :
    (d.modCmd st tag f).slots = d.slots := rfl
@[simp] theorem Dev.modCmd_aux (st : Stall) (tag : BitVec 8) (f : Cmd → Cmd) : (d.modCmd st tag f).aux = d.aux := rfl
@[simp] theorem Dev.modCmd_fb (st : Stall) (tag : BitVec 8) (f : Cmd → Cmd) : (d.modCmd st tag f).fb = d.fb := rfl
@[simp] theorem Dev.modCmd_pwm (st : Stall) (tag : BitVec 8) (f : Cmd → Cmd) : (d.modCmd st tag f).pwm = d.pwm := rfl
@[simp] theorem Dev.modCmd_legs (st : Stall) (tag : BitVec 8) (f : Cmd → Cmd) : (d.modCmd st tag f).legs = d.legs := rfl
@[simp] theorem Dev.modCmd_gates (st : Stall) (tag : BitVec 8) (f : Cmd → Cmd) :
    (d.modCmd st tag f).gates = d.gates := rfl
@[simp] theorem Dev.modCmd_mot (st : Stall) (tag : BitVec 8) (f : Cmd → Cmd) : (d.modCmd st tag f).mot = d.mot := rfl
@[simp] theorem Dev.modCmd_mu (st : Stall) (tag : BitVec 8) (f : Cmd → Cmd) : (d.modCmd st tag f).mu = d.mu := rfl
@[simp] theorem Dev.modCmd_cap (st : Stall) (tag : BitVec 8) (f : Cmd → Cmd) : (d.modCmd st tag f).cap = d.cap := rfl
@[simp] theorem Dev.modCmd_ring (st : Stall) (tag : BitVec 8) (f : Cmd → Cmd) : (d.modCmd st tag f).ring = d.ring := rfl
@[simp] theorem Dev.modCmd_nt (st : Stall) (tag : BitVec 8) (f : Cmd → Cmd) : (d.modCmd st tag f).nt = d.nt := rfl
@[simp] theorem Dev.modCmd_can (st : Stall) (tag : BitVec 8) (f : Cmd → Cmd) : (d.modCmd st tag f).can = d.can := rfl
@[simp] theorem Dev.modCmd_fio (st : Stall) (tag : BitVec 8) (f : Cmd → Cmd) : (d.modCmd st tag f).fio = d.fio := rfl
@[simp] theorem Dev.modCmd_sf (st : Stall) (tag : BitVec 8) (f : Cmd → Cmd) : (d.modCmd st tag f).sf = d.sf := rfl
@[simp] theorem Dev.modCmd_sfSeen (st : Stall) (tag : BitVec 8) (f : Cmd → Cmd) :
    (d.modCmd st tag f).sfSeen = d.sfSeen := rfl
@[simp] theorem Dev.modCmd_out (st : Stall) (tag : BitVec 8) (f : Cmd → Cmd) : (d.modCmd st tag f).out = d.out := rfl
@[simp] theorem Dev.modCmd_wr (st : Stall) (tag : BitVec 8) (f : Cmd → Cmd) : (d.modCmd st tag f).wr = d.wr := rfl

/-! ### Dev.modOwn -/
@[simp] theorem Dev.modOwn_clk (f : Ownership → Ownership) : (d.modOwn f).clk = d.clk := rfl
@[simp] theorem Dev.modOwn_free (f : Ownership → Ownership) : (d.modOwn f).free = d.free := rfl
@[simp] theorem Dev.modOwn_pw (f : Ownership → Ownership) : (d.modOwn f).pw = d.pw := rfl
@[simp] theorem Dev.modOwn_tk (f : Ownership → Ownership) : (d.modOwn f).tk = d.tk := rfl
@[simp] theorem Dev.modOwn_hp (f : Ownership → Ownership) : (d.modOwn f).hp = { d.hp with own := f d.hp.own } := rfl
@[simp] theorem Dev.modOwn_ft (f : Ownership → Ownership) : (d.modOwn f).ft = d.ft := rfl
@[simp] theorem Dev.modOwn_sv (f : Ownership → Ownership) : (d.modOwn f).sv = d.sv := rfl
@[simp] theorem Dev.modOwn_axf (f : Ownership → Ownership) : (d.modOwn f).axf = d.axf := rfl
@[simp] theorem Dev.modOwn_plots (f : Ownership → Ownership) : (d.modOwn f).plots = d.plots := rfl
@[simp] theorem Dev.modOwn_lanes (f : Ownership → Ownership) : (d.modOwn f).lanes = d.lanes := rfl
@[simp] theorem Dev.modOwn_loops (f : Ownership → Ownership) : (d.modOwn f).loops = d.loops := rfl
@[simp] theorem Dev.modOwn_progs (f : Ownership → Ownership) : (d.modOwn f).progs = d.progs := rfl
@[simp] theorem Dev.modOwn_ctl (f : Ownership → Ownership) : (d.modOwn f).ctl = d.ctl := rfl
@[simp] theorem Dev.modOwn_saved (f : Ownership → Ownership) : (d.modOwn f).saved = d.saved := rfl
@[simp] theorem Dev.modOwn_slots (f : Ownership → Ownership) : (d.modOwn f).slots = d.slots := rfl
@[simp] theorem Dev.modOwn_aux (f : Ownership → Ownership) : (d.modOwn f).aux = d.aux := rfl
@[simp] theorem Dev.modOwn_fb (f : Ownership → Ownership) : (d.modOwn f).fb = d.fb := rfl
@[simp] theorem Dev.modOwn_pwm (f : Ownership → Ownership) : (d.modOwn f).pwm = d.pwm := rfl
@[simp] theorem Dev.modOwn_legs (f : Ownership → Ownership) : (d.modOwn f).legs = d.legs := rfl
@[simp] theorem Dev.modOwn_gates (f : Ownership → Ownership) : (d.modOwn f).gates = d.gates := rfl
@[simp] theorem Dev.modOwn_mot (f : Ownership → Ownership) : (d.modOwn f).mot = d.mot := rfl
@[simp] theorem Dev.modOwn_mu (f : Ownership → Ownership) : (d.modOwn f).mu = d.mu := rfl
@[simp] theorem Dev.modOwn_cap (f : Ownership → Ownership) : (d.modOwn f).cap = d.cap := rfl
@[simp] theorem Dev.modOwn_ring (f : Ownership → Ownership) : (d.modOwn f).ring = d.ring := rfl
@[simp] theorem Dev.modOwn_nt (f : Ownership → Ownership) : (d.modOwn f).nt = d.nt := rfl
@[simp] theorem Dev.modOwn_can (f : Ownership → Ownership) : (d.modOwn f).can = d.can := rfl
@[simp] theorem Dev.modOwn_fio (f : Ownership → Ownership) : (d.modOwn f).fio = d.fio := rfl
@[simp] theorem Dev.modOwn_sf (f : Ownership → Ownership) : (d.modOwn f).sf = d.sf := rfl
@[simp] theorem Dev.modOwn_sfSeen (f : Ownership → Ownership) : (d.modOwn f).sfSeen = d.sfSeen := rfl
@[simp] theorem Dev.modOwn_out (f : Ownership → Ownership) : (d.modOwn f).out = d.out := rfl
@[simp] theorem Dev.modOwn_wr (f : Ownership → Ownership) : (d.modOwn f).wr = d.wr := rfl

/-! ### Dev.modSrc -/
@[simp] theorem Dev.modSrc_clk (i : Fin 32) (f : FbSource → FbSource) : (d.modSrc i f).clk = d.clk := rfl
@[simp] theorem Dev.modSrc_free (i : Fin 32) (f : FbSource → FbSource) : (d.modSrc i f).free = d.free := rfl
@[simp] theorem Dev.modSrc_pw (i : Fin 32) (f : FbSource → FbSource) : (d.modSrc i f).pw = d.pw := rfl
@[simp] theorem Dev.modSrc_tk (i : Fin 32) (f : FbSource → FbSource) : (d.modSrc i f).tk = d.tk := rfl
@[simp] theorem Dev.modSrc_hp (i : Fin 32) (f : FbSource → FbSource) : (d.modSrc i f).hp = d.hp := rfl
@[simp] theorem Dev.modSrc_ft (i : Fin 32) (f : FbSource → FbSource) : (d.modSrc i f).ft = d.ft := rfl
@[simp] theorem Dev.modSrc_sv (i : Fin 32) (f : FbSource → FbSource) : (d.modSrc i f).sv = d.sv := rfl
@[simp] theorem Dev.modSrc_axf (i : Fin 32) (f : FbSource → FbSource) : (d.modSrc i f).axf = d.axf := rfl
@[simp] theorem Dev.modSrc_plots (i : Fin 32) (f : FbSource → FbSource) : (d.modSrc i f).plots = d.plots := rfl
@[simp] theorem Dev.modSrc_lanes (i : Fin 32) (f : FbSource → FbSource) : (d.modSrc i f).lanes = d.lanes := rfl
@[simp] theorem Dev.modSrc_loops (i : Fin 32) (f : FbSource → FbSource) : (d.modSrc i f).loops = d.loops := rfl
@[simp] theorem Dev.modSrc_progs (i : Fin 32) (f : FbSource → FbSource) : (d.modSrc i f).progs = d.progs := rfl
@[simp] theorem Dev.modSrc_ctl (i : Fin 32) (f : FbSource → FbSource) : (d.modSrc i f).ctl = d.ctl := rfl
@[simp] theorem Dev.modSrc_saved (i : Fin 32) (f : FbSource → FbSource) : (d.modSrc i f).saved = d.saved := rfl
@[simp] theorem Dev.modSrc_slots (i : Fin 32) (f : FbSource → FbSource) : (d.modSrc i f).slots = d.slots := rfl
@[simp] theorem Dev.modSrc_aux (i : Fin 32) (f : FbSource → FbSource) : (d.modSrc i f).aux = d.aux := rfl
@[simp] theorem Dev.modSrc_fb (i : Fin 32) (f : FbSource → FbSource) :
    (d.modSrc i f).fb = { d.fb with src := vmod d.fb.src i f } := rfl
@[simp] theorem Dev.modSrc_pwm (i : Fin 32) (f : FbSource → FbSource) : (d.modSrc i f).pwm = d.pwm := rfl
@[simp] theorem Dev.modSrc_legs (i : Fin 32) (f : FbSource → FbSource) : (d.modSrc i f).legs = d.legs := rfl
@[simp] theorem Dev.modSrc_gates (i : Fin 32) (f : FbSource → FbSource) : (d.modSrc i f).gates = d.gates := rfl
@[simp] theorem Dev.modSrc_mot (i : Fin 32) (f : FbSource → FbSource) : (d.modSrc i f).mot = d.mot := rfl
@[simp] theorem Dev.modSrc_mu (i : Fin 32) (f : FbSource → FbSource) : (d.modSrc i f).mu = d.mu := rfl
@[simp] theorem Dev.modSrc_cap (i : Fin 32) (f : FbSource → FbSource) : (d.modSrc i f).cap = d.cap := rfl
@[simp] theorem Dev.modSrc_ring (i : Fin 32) (f : FbSource → FbSource) : (d.modSrc i f).ring = d.ring := rfl
@[simp] theorem Dev.modSrc_nt (i : Fin 32) (f : FbSource → FbSource) : (d.modSrc i f).nt = d.nt := rfl
@[simp] theorem Dev.modSrc_can (i : Fin 32) (f : FbSource → FbSource) : (d.modSrc i f).can = d.can := rfl
@[simp] theorem Dev.modSrc_fio (i : Fin 32) (f : FbSource → FbSource) : (d.modSrc i f).fio = d.fio := rfl
@[simp] theorem Dev.modSrc_sf (i : Fin 32) (f : FbSource → FbSource) : (d.modSrc i f).sf = d.sf := rfl
@[simp] theorem Dev.modSrc_sfSeen (i : Fin 32) (f : FbSource → FbSource) : (d.modSrc i f).sfSeen = d.sfSeen := rfl
@[simp] theorem Dev.modSrc_out (i : Fin 32) (f : FbSource → FbSource) : (d.modSrc i f).out = d.out := rfl
@[simp] theorem Dev.modSrc_wr (i : Fin 32) (f : FbSource → FbSource) : (d.modSrc i f).wr = d.wr := rfl

/-! ### Dev.modProbe -/
@[simp] theorem Dev.modProbe_clk (p : Fin 16) (f : Probe → Probe) : (d.modProbe p f).clk = d.clk := rfl
@[simp] theorem Dev.modProbe_free (p : Fin 16) (f : Probe → Probe) : (d.modProbe p f).free = d.free := rfl
@[simp] theorem Dev.modProbe_pw (p : Fin 16) (f : Probe → Probe) : (d.modProbe p f).pw = d.pw := rfl
@[simp] theorem Dev.modProbe_tk (p : Fin 16) (f : Probe → Probe) : (d.modProbe p f).tk = d.tk := rfl
@[simp] theorem Dev.modProbe_hp (p : Fin 16) (f : Probe → Probe) : (d.modProbe p f).hp = d.hp := rfl
@[simp] theorem Dev.modProbe_ft (p : Fin 16) (f : Probe → Probe) : (d.modProbe p f).ft = d.ft := rfl
@[simp] theorem Dev.modProbe_sv (p : Fin 16) (f : Probe → Probe) : (d.modProbe p f).sv = d.sv := rfl
@[simp] theorem Dev.modProbe_axf (p : Fin 16) (f : Probe → Probe) : (d.modProbe p f).axf = d.axf := rfl
@[simp] theorem Dev.modProbe_plots (p : Fin 16) (f : Probe → Probe) : (d.modProbe p f).plots = d.plots := rfl
@[simp] theorem Dev.modProbe_lanes (p : Fin 16) (f : Probe → Probe) : (d.modProbe p f).lanes = d.lanes := rfl
@[simp] theorem Dev.modProbe_loops (p : Fin 16) (f : Probe → Probe) : (d.modProbe p f).loops = d.loops := rfl
@[simp] theorem Dev.modProbe_progs (p : Fin 16) (f : Probe → Probe) : (d.modProbe p f).progs = d.progs := rfl
@[simp] theorem Dev.modProbe_ctl (p : Fin 16) (f : Probe → Probe) : (d.modProbe p f).ctl = d.ctl := rfl
@[simp] theorem Dev.modProbe_saved (p : Fin 16) (f : Probe → Probe) : (d.modProbe p f).saved = d.saved := rfl
@[simp] theorem Dev.modProbe_slots (p : Fin 16) (f : Probe → Probe) : (d.modProbe p f).slots = d.slots := rfl
@[simp] theorem Dev.modProbe_aux (p : Fin 16) (f : Probe → Probe) : (d.modProbe p f).aux = d.aux := rfl
@[simp] theorem Dev.modProbe_fb (p : Fin 16) (f : Probe → Probe) :
    (d.modProbe p f).fb = { d.fb with probes := vmod d.fb.probes p f } := rfl
@[simp] theorem Dev.modProbe_pwm (p : Fin 16) (f : Probe → Probe) : (d.modProbe p f).pwm = d.pwm := rfl
@[simp] theorem Dev.modProbe_legs (p : Fin 16) (f : Probe → Probe) : (d.modProbe p f).legs = d.legs := rfl
@[simp] theorem Dev.modProbe_gates (p : Fin 16) (f : Probe → Probe) : (d.modProbe p f).gates = d.gates := rfl
@[simp] theorem Dev.modProbe_mot (p : Fin 16) (f : Probe → Probe) : (d.modProbe p f).mot = d.mot := rfl
@[simp] theorem Dev.modProbe_mu (p : Fin 16) (f : Probe → Probe) : (d.modProbe p f).mu = d.mu := rfl
@[simp] theorem Dev.modProbe_cap (p : Fin 16) (f : Probe → Probe) : (d.modProbe p f).cap = d.cap := rfl
@[simp] theorem Dev.modProbe_ring (p : Fin 16) (f : Probe → Probe) : (d.modProbe p f).ring = d.ring := rfl
@[simp] theorem Dev.modProbe_nt (p : Fin 16) (f : Probe → Probe) : (d.modProbe p f).nt = d.nt := rfl
@[simp] theorem Dev.modProbe_can (p : Fin 16) (f : Probe → Probe) : (d.modProbe p f).can = d.can := rfl
@[simp] theorem Dev.modProbe_fio (p : Fin 16) (f : Probe → Probe) : (d.modProbe p f).fio = d.fio := rfl
@[simp] theorem Dev.modProbe_sf (p : Fin 16) (f : Probe → Probe) : (d.modProbe p f).sf = d.sf := rfl
@[simp] theorem Dev.modProbe_sfSeen (p : Fin 16) (f : Probe → Probe) : (d.modProbe p f).sfSeen = d.sfSeen := rfl
@[simp] theorem Dev.modProbe_out (p : Fin 16) (f : Probe → Probe) : (d.modProbe p f).out = d.out := rfl
@[simp] theorem Dev.modProbe_wr (p : Fin 16) (f : Probe → Probe) : (d.modProbe p f).wr = d.wr := rfl

/-! ### Dev.modUnit -/
@[simp] theorem Dev.modUnit_clk (u : Fin 8) (f : CapUnit → CapUnit) : (d.modUnit u f).clk = d.clk := rfl
@[simp] theorem Dev.modUnit_free (u : Fin 8) (f : CapUnit → CapUnit) : (d.modUnit u f).free = d.free := rfl
@[simp] theorem Dev.modUnit_pw (u : Fin 8) (f : CapUnit → CapUnit) : (d.modUnit u f).pw = d.pw := rfl
@[simp] theorem Dev.modUnit_tk (u : Fin 8) (f : CapUnit → CapUnit) : (d.modUnit u f).tk = d.tk := rfl
@[simp] theorem Dev.modUnit_hp (u : Fin 8) (f : CapUnit → CapUnit) : (d.modUnit u f).hp = d.hp := rfl
@[simp] theorem Dev.modUnit_ft (u : Fin 8) (f : CapUnit → CapUnit) : (d.modUnit u f).ft = d.ft := rfl
@[simp] theorem Dev.modUnit_sv (u : Fin 8) (f : CapUnit → CapUnit) : (d.modUnit u f).sv = d.sv := rfl
@[simp] theorem Dev.modUnit_axf (u : Fin 8) (f : CapUnit → CapUnit) : (d.modUnit u f).axf = d.axf := rfl
@[simp] theorem Dev.modUnit_plots (u : Fin 8) (f : CapUnit → CapUnit) : (d.modUnit u f).plots = d.plots := rfl
@[simp] theorem Dev.modUnit_lanes (u : Fin 8) (f : CapUnit → CapUnit) : (d.modUnit u f).lanes = d.lanes := rfl
@[simp] theorem Dev.modUnit_loops (u : Fin 8) (f : CapUnit → CapUnit) : (d.modUnit u f).loops = d.loops := rfl
@[simp] theorem Dev.modUnit_progs (u : Fin 8) (f : CapUnit → CapUnit) : (d.modUnit u f).progs = d.progs := rfl
@[simp] theorem Dev.modUnit_ctl (u : Fin 8) (f : CapUnit → CapUnit) : (d.modUnit u f).ctl = d.ctl := rfl
@[simp] theorem Dev.modUnit_saved (u : Fin 8) (f : CapUnit → CapUnit) : (d.modUnit u f).saved = d.saved := rfl
@[simp] theorem Dev.modUnit_slots (u : Fin 8) (f : CapUnit → CapUnit) : (d.modUnit u f).slots = d.slots := rfl
@[simp] theorem Dev.modUnit_aux (u : Fin 8) (f : CapUnit → CapUnit) : (d.modUnit u f).aux = d.aux := rfl
@[simp] theorem Dev.modUnit_fb (u : Fin 8) (f : CapUnit → CapUnit) : (d.modUnit u f).fb = d.fb := rfl
@[simp] theorem Dev.modUnit_pwm (u : Fin 8) (f : CapUnit → CapUnit) : (d.modUnit u f).pwm = d.pwm := rfl
@[simp] theorem Dev.modUnit_legs (u : Fin 8) (f : CapUnit → CapUnit) : (d.modUnit u f).legs = d.legs := rfl
@[simp] theorem Dev.modUnit_gates (u : Fin 8) (f : CapUnit → CapUnit) : (d.modUnit u f).gates = d.gates := rfl
@[simp] theorem Dev.modUnit_mot (u : Fin 8) (f : CapUnit → CapUnit) : (d.modUnit u f).mot = d.mot := rfl
@[simp] theorem Dev.modUnit_mu (u : Fin 8) (f : CapUnit → CapUnit) : (d.modUnit u f).mu = d.mu := rfl
@[simp] theorem Dev.modUnit_cap (u : Fin 8) (f : CapUnit → CapUnit) :
    (d.modUnit u f).cap = { d.cap with units := vmod d.cap.units u f } := rfl
@[simp] theorem Dev.modUnit_ring (u : Fin 8) (f : CapUnit → CapUnit) : (d.modUnit u f).ring = d.ring := rfl
@[simp] theorem Dev.modUnit_nt (u : Fin 8) (f : CapUnit → CapUnit) : (d.modUnit u f).nt = d.nt := rfl
@[simp] theorem Dev.modUnit_can (u : Fin 8) (f : CapUnit → CapUnit) : (d.modUnit u f).can = d.can := rfl
@[simp] theorem Dev.modUnit_fio (u : Fin 8) (f : CapUnit → CapUnit) : (d.modUnit u f).fio = d.fio := rfl
@[simp] theorem Dev.modUnit_sf (u : Fin 8) (f : CapUnit → CapUnit) : (d.modUnit u f).sf = d.sf := rfl
@[simp] theorem Dev.modUnit_sfSeen (u : Fin 8) (f : CapUnit → CapUnit) : (d.modUnit u f).sfSeen = d.sfSeen := rfl
@[simp] theorem Dev.modUnit_out (u : Fin 8) (f : CapUnit → CapUnit) : (d.modUnit u f).out = d.out := rfl
@[simp] theorem Dev.modUnit_wr (u : Fin 8) (f : CapUnit → CapUnit) : (d.modUnit u f).wr = d.wr := rfl

/-! ### Dev.modDma -/
@[simp] theorem Dev.modDma_clk (c : Fin 8) (f : DmaChan → DmaChan) : (d.modDma c f).clk = d.clk := rfl
@[simp] theorem Dev.modDma_free (c : Fin 8) (f : DmaChan → DmaChan) : (d.modDma c f).free = d.free := rfl
@[simp] theorem Dev.modDma_pw (c : Fin 8) (f : DmaChan → DmaChan) : (d.modDma c f).pw = d.pw := rfl
@[simp] theorem Dev.modDma_tk (c : Fin 8) (f : DmaChan → DmaChan) : (d.modDma c f).tk = d.tk := rfl
@[simp] theorem Dev.modDma_hp (c : Fin 8) (f : DmaChan → DmaChan) : (d.modDma c f).hp = d.hp := rfl
@[simp] theorem Dev.modDma_ft (c : Fin 8) (f : DmaChan → DmaChan) : (d.modDma c f).ft = d.ft := rfl
@[simp] theorem Dev.modDma_sv (c : Fin 8) (f : DmaChan → DmaChan) : (d.modDma c f).sv = d.sv := rfl
@[simp] theorem Dev.modDma_axf (c : Fin 8) (f : DmaChan → DmaChan) : (d.modDma c f).axf = d.axf := rfl
@[simp] theorem Dev.modDma_plots (c : Fin 8) (f : DmaChan → DmaChan) : (d.modDma c f).plots = d.plots := rfl
@[simp] theorem Dev.modDma_lanes (c : Fin 8) (f : DmaChan → DmaChan) : (d.modDma c f).lanes = d.lanes := rfl
@[simp] theorem Dev.modDma_loops (c : Fin 8) (f : DmaChan → DmaChan) : (d.modDma c f).loops = d.loops := rfl
@[simp] theorem Dev.modDma_progs (c : Fin 8) (f : DmaChan → DmaChan) : (d.modDma c f).progs = d.progs := rfl
@[simp] theorem Dev.modDma_ctl (c : Fin 8) (f : DmaChan → DmaChan) : (d.modDma c f).ctl = d.ctl := rfl
@[simp] theorem Dev.modDma_saved (c : Fin 8) (f : DmaChan → DmaChan) : (d.modDma c f).saved = d.saved := rfl
@[simp] theorem Dev.modDma_slots (c : Fin 8) (f : DmaChan → DmaChan) : (d.modDma c f).slots = d.slots := rfl
@[simp] theorem Dev.modDma_aux (c : Fin 8) (f : DmaChan → DmaChan) : (d.modDma c f).aux = d.aux := rfl
@[simp] theorem Dev.modDma_fb (c : Fin 8) (f : DmaChan → DmaChan) : (d.modDma c f).fb = d.fb := rfl
@[simp] theorem Dev.modDma_pwm (c : Fin 8) (f : DmaChan → DmaChan) : (d.modDma c f).pwm = d.pwm := rfl
@[simp] theorem Dev.modDma_legs (c : Fin 8) (f : DmaChan → DmaChan) : (d.modDma c f).legs = d.legs := rfl
@[simp] theorem Dev.modDma_gates (c : Fin 8) (f : DmaChan → DmaChan) : (d.modDma c f).gates = d.gates := rfl
@[simp] theorem Dev.modDma_mot (c : Fin 8) (f : DmaChan → DmaChan) : (d.modDma c f).mot = d.mot := rfl
@[simp] theorem Dev.modDma_mu (c : Fin 8) (f : DmaChan → DmaChan) : (d.modDma c f).mu = d.mu := rfl
@[simp] theorem Dev.modDma_cap (c : Fin 8) (f : DmaChan → DmaChan) :
    (d.modDma c f).cap = { d.cap with dma := vmod d.cap.dma c f } := rfl
@[simp] theorem Dev.modDma_ring (c : Fin 8) (f : DmaChan → DmaChan) : (d.modDma c f).ring = d.ring := rfl
@[simp] theorem Dev.modDma_nt (c : Fin 8) (f : DmaChan → DmaChan) : (d.modDma c f).nt = d.nt := rfl
@[simp] theorem Dev.modDma_can (c : Fin 8) (f : DmaChan → DmaChan) : (d.modDma c f).can = d.can := rfl
@[simp] theorem Dev.modDma_fio (c : Fin 8) (f : DmaChan → DmaChan) : (d.modDma c f).fio = d.fio := rfl
@[simp] theorem Dev.modDma_sf (c : Fin 8) (f : DmaChan → DmaChan) : (d.modDma c f).sf = d.sf := rfl
@[simp] theorem Dev.modDma_sfSeen (c : Fin 8) (f : DmaChan → DmaChan) : (d.modDma c f).sfSeen = d.sfSeen := rfl
@[simp] theorem Dev.modDma_out (c : Fin 8) (f : DmaChan → DmaChan) : (d.modDma c f).out = d.out := rfl
@[simp] theorem Dev.modDma_wr (c : Fin 8) (f : DmaChan → DmaChan) : (d.modDma c f).wr = d.wr := rfl

/-! ### Dev.modRemote -/
@[simp] theorem Dev.modRemote_clk (i : Fin 4) (f : RemoteStall → RemoteStall) : (d.modRemote i f).clk = d.clk := rfl
@[simp] theorem Dev.modRemote_free (i : Fin 4) (f : RemoteStall → RemoteStall) : (d.modRemote i f).free = d.free := rfl
@[simp] theorem Dev.modRemote_pw (i : Fin 4) (f : RemoteStall → RemoteStall) : (d.modRemote i f).pw = d.pw := rfl
@[simp] theorem Dev.modRemote_tk (i : Fin 4) (f : RemoteStall → RemoteStall) : (d.modRemote i f).tk = d.tk := rfl
@[simp] theorem Dev.modRemote_hp (i : Fin 4) (f : RemoteStall → RemoteStall) : (d.modRemote i f).hp = d.hp := rfl
@[simp] theorem Dev.modRemote_ft (i : Fin 4) (f : RemoteStall → RemoteStall) : (d.modRemote i f).ft = d.ft := rfl
@[simp] theorem Dev.modRemote_sv (i : Fin 4) (f : RemoteStall → RemoteStall) : (d.modRemote i f).sv = d.sv := rfl
@[simp] theorem Dev.modRemote_axf (i : Fin 4) (f : RemoteStall → RemoteStall) : (d.modRemote i f).axf = d.axf := rfl
@[simp] theorem Dev.modRemote_plots (i : Fin 4) (f : RemoteStall → RemoteStall) :
    (d.modRemote i f).plots = d.plots := rfl
@[simp] theorem Dev.modRemote_lanes (i : Fin 4) (f : RemoteStall → RemoteStall) :
    (d.modRemote i f).lanes = d.lanes := rfl
@[simp] theorem Dev.modRemote_loops (i : Fin 4) (f : RemoteStall → RemoteStall) :
    (d.modRemote i f).loops = d.loops := rfl
@[simp] theorem Dev.modRemote_progs (i : Fin 4) (f : RemoteStall → RemoteStall) :
    (d.modRemote i f).progs = d.progs := rfl
@[simp] theorem Dev.modRemote_ctl (i : Fin 4) (f : RemoteStall → RemoteStall) : (d.modRemote i f).ctl = d.ctl := rfl
@[simp] theorem Dev.modRemote_saved (i : Fin 4) (f : RemoteStall → RemoteStall) :
    (d.modRemote i f).saved = d.saved := rfl
@[simp] theorem Dev.modRemote_slots (i : Fin 4) (f : RemoteStall → RemoteStall) :
    (d.modRemote i f).slots = d.slots := rfl
@[simp] theorem Dev.modRemote_aux (i : Fin 4) (f : RemoteStall → RemoteStall) : (d.modRemote i f).aux = d.aux := rfl
@[simp] theorem Dev.modRemote_fb (i : Fin 4) (f : RemoteStall → RemoteStall) : (d.modRemote i f).fb = d.fb := rfl
@[simp] theorem Dev.modRemote_pwm (i : Fin 4) (f : RemoteStall → RemoteStall) : (d.modRemote i f).pwm = d.pwm := rfl
@[simp] theorem Dev.modRemote_legs (i : Fin 4) (f : RemoteStall → RemoteStall) : (d.modRemote i f).legs = d.legs := rfl
@[simp] theorem Dev.modRemote_gates (i : Fin 4) (f : RemoteStall → RemoteStall) :
    (d.modRemote i f).gates = d.gates := rfl
@[simp] theorem Dev.modRemote_mot (i : Fin 4) (f : RemoteStall → RemoteStall) : (d.modRemote i f).mot = d.mot := rfl
@[simp] theorem Dev.modRemote_mu (i : Fin 4) (f : RemoteStall → RemoteStall) : (d.modRemote i f).mu = d.mu := rfl
@[simp] theorem Dev.modRemote_cap (i : Fin 4) (f : RemoteStall → RemoteStall) : (d.modRemote i f).cap = d.cap := rfl
@[simp] theorem Dev.modRemote_ring (i : Fin 4) (f : RemoteStall → RemoteStall) :
    (d.modRemote i f).ring = { d.ring with remote := vmod d.ring.remote i f } := rfl
@[simp] theorem Dev.modRemote_nt (i : Fin 4) (f : RemoteStall → RemoteStall) : (d.modRemote i f).nt = d.nt := rfl
@[simp] theorem Dev.modRemote_can (i : Fin 4) (f : RemoteStall → RemoteStall) : (d.modRemote i f).can = d.can := rfl
@[simp] theorem Dev.modRemote_fio (i : Fin 4) (f : RemoteStall → RemoteStall) : (d.modRemote i f).fio = d.fio := rfl
@[simp] theorem Dev.modRemote_sf (i : Fin 4) (f : RemoteStall → RemoteStall) : (d.modRemote i f).sf = d.sf := rfl
@[simp] theorem Dev.modRemote_sfSeen (i : Fin 4) (f : RemoteStall → RemoteStall) :
    (d.modRemote i f).sfSeen = d.sfSeen := rfl
@[simp] theorem Dev.modRemote_out (i : Fin 4) (f : RemoteStall → RemoteStall) : (d.modRemote i f).out = d.out := rfl
@[simp] theorem Dev.modRemote_wr (i : Fin 4) (f : RemoteStall → RemoteStall) : (d.modRemote i f).wr = d.wr := rfl

/-! ### Dev.modRing -/
@[simp] theorem Dev.modRing_clk (f : Ring → Ring) : (d.modRing f).clk = d.clk := rfl
@[simp] theorem Dev.modRing_free (f : Ring → Ring) : (d.modRing f).free = d.free := rfl
@[simp] theorem Dev.modRing_pw (f : Ring → Ring) : (d.modRing f).pw = d.pw := rfl
@[simp] theorem Dev.modRing_tk (f : Ring → Ring) : (d.modRing f).tk = d.tk := rfl
@[simp] theorem Dev.modRing_hp (f : Ring → Ring) : (d.modRing f).hp = d.hp := rfl
@[simp] theorem Dev.modRing_ft (f : Ring → Ring) : (d.modRing f).ft = d.ft := rfl
@[simp] theorem Dev.modRing_sv (f : Ring → Ring) : (d.modRing f).sv = d.sv := rfl
@[simp] theorem Dev.modRing_axf (f : Ring → Ring) : (d.modRing f).axf = d.axf := rfl
@[simp] theorem Dev.modRing_plots (f : Ring → Ring) : (d.modRing f).plots = d.plots := rfl
@[simp] theorem Dev.modRing_lanes (f : Ring → Ring) : (d.modRing f).lanes = d.lanes := rfl
@[simp] theorem Dev.modRing_loops (f : Ring → Ring) : (d.modRing f).loops = d.loops := rfl
@[simp] theorem Dev.modRing_progs (f : Ring → Ring) : (d.modRing f).progs = d.progs := rfl
@[simp] theorem Dev.modRing_ctl (f : Ring → Ring) : (d.modRing f).ctl = d.ctl := rfl
@[simp] theorem Dev.modRing_saved (f : Ring → Ring) : (d.modRing f).saved = d.saved := rfl
@[simp] theorem Dev.modRing_slots (f : Ring → Ring) : (d.modRing f).slots = d.slots := rfl
@[simp] theorem Dev.modRing_aux (f : Ring → Ring) : (d.modRing f).aux = d.aux := rfl
@[simp] theorem Dev.modRing_fb (f : Ring → Ring) : (d.modRing f).fb = d.fb := rfl
@[simp] theorem Dev.modRing_pwm (f : Ring → Ring) : (d.modRing f).pwm = d.pwm := rfl
@[simp] theorem Dev.modRing_legs (f : Ring → Ring) : (d.modRing f).legs = d.legs := rfl
@[simp] theorem Dev.modRing_gates (f : Ring → Ring) : (d.modRing f).gates = d.gates := rfl
@[simp] theorem Dev.modRing_mot (f : Ring → Ring) : (d.modRing f).mot = d.mot := rfl
@[simp] theorem Dev.modRing_mu (f : Ring → Ring) : (d.modRing f).mu = d.mu := rfl
@[simp] theorem Dev.modRing_cap (f : Ring → Ring) : (d.modRing f).cap = d.cap := rfl
@[simp] theorem Dev.modRing_ring (f : Ring → Ring) : (d.modRing f).ring = f d.ring := rfl
@[simp] theorem Dev.modRing_nt (f : Ring → Ring) : (d.modRing f).nt = d.nt := rfl
@[simp] theorem Dev.modRing_can (f : Ring → Ring) : (d.modRing f).can = d.can := rfl
@[simp] theorem Dev.modRing_fio (f : Ring → Ring) : (d.modRing f).fio = d.fio := rfl
@[simp] theorem Dev.modRing_sf (f : Ring → Ring) : (d.modRing f).sf = d.sf := rfl
@[simp] theorem Dev.modRing_sfSeen (f : Ring → Ring) : (d.modRing f).sfSeen = d.sfSeen := rfl
@[simp] theorem Dev.modRing_out (f : Ring → Ring) : (d.modRing f).out = d.out := rfl
@[simp] theorem Dev.modRing_wr (f : Ring → Ring) : (d.modRing f).wr = d.wr := rfl

/-! ### Dev.modCan -/
@[simp] theorem Dev.modCan_clk (c : Fin 2) (f : CanCtl → CanCtl) : (d.modCan c f).clk = d.clk := rfl
@[simp] theorem Dev.modCan_free (c : Fin 2) (f : CanCtl → CanCtl) : (d.modCan c f).free = d.free := rfl
@[simp] theorem Dev.modCan_pw (c : Fin 2) (f : CanCtl → CanCtl) : (d.modCan c f).pw = d.pw := rfl
@[simp] theorem Dev.modCan_tk (c : Fin 2) (f : CanCtl → CanCtl) : (d.modCan c f).tk = d.tk := rfl
@[simp] theorem Dev.modCan_hp (c : Fin 2) (f : CanCtl → CanCtl) : (d.modCan c f).hp = d.hp := rfl
@[simp] theorem Dev.modCan_ft (c : Fin 2) (f : CanCtl → CanCtl) : (d.modCan c f).ft = d.ft := rfl
@[simp] theorem Dev.modCan_sv (c : Fin 2) (f : CanCtl → CanCtl) : (d.modCan c f).sv = d.sv := rfl
@[simp] theorem Dev.modCan_axf (c : Fin 2) (f : CanCtl → CanCtl) : (d.modCan c f).axf = d.axf := rfl
@[simp] theorem Dev.modCan_plots (c : Fin 2) (f : CanCtl → CanCtl) : (d.modCan c f).plots = d.plots := rfl
@[simp] theorem Dev.modCan_lanes (c : Fin 2) (f : CanCtl → CanCtl) : (d.modCan c f).lanes = d.lanes := rfl
@[simp] theorem Dev.modCan_loops (c : Fin 2) (f : CanCtl → CanCtl) : (d.modCan c f).loops = d.loops := rfl
@[simp] theorem Dev.modCan_progs (c : Fin 2) (f : CanCtl → CanCtl) : (d.modCan c f).progs = d.progs := rfl
@[simp] theorem Dev.modCan_ctl (c : Fin 2) (f : CanCtl → CanCtl) : (d.modCan c f).ctl = d.ctl := rfl
@[simp] theorem Dev.modCan_saved (c : Fin 2) (f : CanCtl → CanCtl) : (d.modCan c f).saved = d.saved := rfl
@[simp] theorem Dev.modCan_slots (c : Fin 2) (f : CanCtl → CanCtl) : (d.modCan c f).slots = d.slots := rfl
@[simp] theorem Dev.modCan_aux (c : Fin 2) (f : CanCtl → CanCtl) : (d.modCan c f).aux = d.aux := rfl
@[simp] theorem Dev.modCan_fb (c : Fin 2) (f : CanCtl → CanCtl) : (d.modCan c f).fb = d.fb := rfl
@[simp] theorem Dev.modCan_pwm (c : Fin 2) (f : CanCtl → CanCtl) : (d.modCan c f).pwm = d.pwm := rfl
@[simp] theorem Dev.modCan_legs (c : Fin 2) (f : CanCtl → CanCtl) : (d.modCan c f).legs = d.legs := rfl
@[simp] theorem Dev.modCan_gates (c : Fin 2) (f : CanCtl → CanCtl) : (d.modCan c f).gates = d.gates := rfl
@[simp] theorem Dev.modCan_mot (c : Fin 2) (f : CanCtl → CanCtl) : (d.modCan c f).mot = d.mot := rfl
@[simp] theorem Dev.modCan_mu (c : Fin 2) (f : CanCtl → CanCtl) : (d.modCan c f).mu = d.mu := rfl
@[simp] theorem Dev.modCan_cap (c : Fin 2) (f : CanCtl → CanCtl) : (d.modCan c f).cap = d.cap := rfl
@[simp] theorem Dev.modCan_ring (c : Fin 2) (f : CanCtl → CanCtl) : (d.modCan c f).ring = d.ring := rfl
@[simp] theorem Dev.modCan_nt (c : Fin 2) (f : CanCtl → CanCtl) : (d.modCan c f).nt = d.nt := rfl
@[simp] theorem Dev.modCan_can (c : Fin 2) (f : CanCtl → CanCtl) :
    (d.modCan c f).can = { d.can with ctl := vmod d.can.ctl c f } := rfl
@[simp] theorem Dev.modCan_fio (c : Fin 2) (f : CanCtl → CanCtl) : (d.modCan c f).fio = d.fio := rfl
@[simp] theorem Dev.modCan_sf (c : Fin 2) (f : CanCtl → CanCtl) : (d.modCan c f).sf = d.sf := rfl
@[simp] theorem Dev.modCan_sfSeen (c : Fin 2) (f : CanCtl → CanCtl) : (d.modCan c f).sfSeen = d.sfSeen := rfl
@[simp] theorem Dev.modCan_out (c : Fin 2) (f : CanCtl → CanCtl) : (d.modCan c f).out = d.out := rfl
@[simp] theorem Dev.modCan_wr (c : Fin 2) (f : CanCtl → CanCtl) : (d.modCan c f).wr = d.wr := rfl

/-! ### Dev.modGw -/
@[simp] theorem Dev.modGw_clk (f : Gateway → Gateway) : (d.modGw f).clk = d.clk := rfl
@[simp] theorem Dev.modGw_free (f : Gateway → Gateway) : (d.modGw f).free = d.free := rfl
@[simp] theorem Dev.modGw_pw (f : Gateway → Gateway) : (d.modGw f).pw = d.pw := rfl
@[simp] theorem Dev.modGw_tk (f : Gateway → Gateway) : (d.modGw f).tk = d.tk := rfl
@[simp] theorem Dev.modGw_hp (f : Gateway → Gateway) : (d.modGw f).hp = d.hp := rfl
@[simp] theorem Dev.modGw_ft (f : Gateway → Gateway) : (d.modGw f).ft = d.ft := rfl
@[simp] theorem Dev.modGw_sv (f : Gateway → Gateway) : (d.modGw f).sv = d.sv := rfl
@[simp] theorem Dev.modGw_axf (f : Gateway → Gateway) : (d.modGw f).axf = d.axf := rfl
@[simp] theorem Dev.modGw_plots (f : Gateway → Gateway) : (d.modGw f).plots = d.plots := rfl
@[simp] theorem Dev.modGw_lanes (f : Gateway → Gateway) : (d.modGw f).lanes = d.lanes := rfl
@[simp] theorem Dev.modGw_loops (f : Gateway → Gateway) : (d.modGw f).loops = d.loops := rfl
@[simp] theorem Dev.modGw_progs (f : Gateway → Gateway) : (d.modGw f).progs = d.progs := rfl
@[simp] theorem Dev.modGw_ctl (f : Gateway → Gateway) : (d.modGw f).ctl = d.ctl := rfl
@[simp] theorem Dev.modGw_saved (f : Gateway → Gateway) : (d.modGw f).saved = d.saved := rfl
@[simp] theorem Dev.modGw_slots (f : Gateway → Gateway) : (d.modGw f).slots = d.slots := rfl
@[simp] theorem Dev.modGw_aux (f : Gateway → Gateway) : (d.modGw f).aux = d.aux := rfl
@[simp] theorem Dev.modGw_fb (f : Gateway → Gateway) : (d.modGw f).fb = d.fb := rfl
@[simp] theorem Dev.modGw_pwm (f : Gateway → Gateway) : (d.modGw f).pwm = d.pwm := rfl
@[simp] theorem Dev.modGw_legs (f : Gateway → Gateway) : (d.modGw f).legs = d.legs := rfl
@[simp] theorem Dev.modGw_gates (f : Gateway → Gateway) : (d.modGw f).gates = d.gates := rfl
@[simp] theorem Dev.modGw_mot (f : Gateway → Gateway) : (d.modGw f).mot = d.mot := rfl
@[simp] theorem Dev.modGw_mu (f : Gateway → Gateway) : (d.modGw f).mu = d.mu := rfl
@[simp] theorem Dev.modGw_cap (f : Gateway → Gateway) : (d.modGw f).cap = d.cap := rfl
@[simp] theorem Dev.modGw_ring (f : Gateway → Gateway) : (d.modGw f).ring = d.ring := rfl
@[simp] theorem Dev.modGw_nt (f : Gateway → Gateway) : (d.modGw f).nt = d.nt := rfl
@[simp] theorem Dev.modGw_can (f : Gateway → Gateway) : (d.modGw f).can = { d.can with gw := f d.can.gw } := rfl
@[simp] theorem Dev.modGw_fio (f : Gateway → Gateway) : (d.modGw f).fio = d.fio := rfl
@[simp] theorem Dev.modGw_sf (f : Gateway → Gateway) : (d.modGw f).sf = d.sf := rfl
@[simp] theorem Dev.modGw_sfSeen (f : Gateway → Gateway) : (d.modGw f).sfSeen = d.sfSeen := rfl
@[simp] theorem Dev.modGw_out (f : Gateway → Gateway) : (d.modGw f).out = d.out := rfl
@[simp] theorem Dev.modGw_wr (f : Gateway → Gateway) : (d.modGw f).wr = d.wr := rfl

/-! ### Dev.modPw -/
@[simp] theorem Dev.modPw_clk (f : Power → Power) : (d.modPw f).clk = d.clk := rfl
@[simp] theorem Dev.modPw_free (f : Power → Power) : (d.modPw f).free = d.free := rfl
@[simp] theorem Dev.modPw_pw (f : Power → Power) : (d.modPw f).pw = f d.pw := rfl
@[simp] theorem Dev.modPw_tk (f : Power → Power) : (d.modPw f).tk = d.tk := rfl
@[simp] theorem Dev.modPw_hp (f : Power → Power) : (d.modPw f).hp = d.hp := rfl
@[simp] theorem Dev.modPw_ft (f : Power → Power) : (d.modPw f).ft = d.ft := rfl
@[simp] theorem Dev.modPw_sv (f : Power → Power) : (d.modPw f).sv = d.sv := rfl
@[simp] theorem Dev.modPw_axf (f : Power → Power) : (d.modPw f).axf = d.axf := rfl
@[simp] theorem Dev.modPw_plots (f : Power → Power) : (d.modPw f).plots = d.plots := rfl
@[simp] theorem Dev.modPw_lanes (f : Power → Power) : (d.modPw f).lanes = d.lanes := rfl
@[simp] theorem Dev.modPw_loops (f : Power → Power) : (d.modPw f).loops = d.loops := rfl
@[simp] theorem Dev.modPw_progs (f : Power → Power) : (d.modPw f).progs = d.progs := rfl
@[simp] theorem Dev.modPw_ctl (f : Power → Power) : (d.modPw f).ctl = d.ctl := rfl
@[simp] theorem Dev.modPw_saved (f : Power → Power) : (d.modPw f).saved = d.saved := rfl
@[simp] theorem Dev.modPw_slots (f : Power → Power) : (d.modPw f).slots = d.slots := rfl
@[simp] theorem Dev.modPw_aux (f : Power → Power) : (d.modPw f).aux = d.aux := rfl
@[simp] theorem Dev.modPw_fb (f : Power → Power) : (d.modPw f).fb = d.fb := rfl
@[simp] theorem Dev.modPw_pwm (f : Power → Power) : (d.modPw f).pwm = d.pwm := rfl
@[simp] theorem Dev.modPw_legs (f : Power → Power) : (d.modPw f).legs = d.legs := rfl
@[simp] theorem Dev.modPw_gates (f : Power → Power) : (d.modPw f).gates = d.gates := rfl
@[simp] theorem Dev.modPw_mot (f : Power → Power) : (d.modPw f).mot = d.mot := rfl
@[simp] theorem Dev.modPw_mu (f : Power → Power) : (d.modPw f).mu = d.mu := rfl
@[simp] theorem Dev.modPw_cap (f : Power → Power) : (d.modPw f).cap = d.cap := rfl
@[simp] theorem Dev.modPw_ring (f : Power → Power) : (d.modPw f).ring = d.ring := rfl
@[simp] theorem Dev.modPw_nt (f : Power → Power) : (d.modPw f).nt = d.nt := rfl
@[simp] theorem Dev.modPw_can (f : Power → Power) : (d.modPw f).can = d.can := rfl
@[simp] theorem Dev.modPw_fio (f : Power → Power) : (d.modPw f).fio = d.fio := rfl
@[simp] theorem Dev.modPw_sf (f : Power → Power) : (d.modPw f).sf = d.sf := rfl
@[simp] theorem Dev.modPw_sfSeen (f : Power → Power) : (d.modPw f).sfSeen = d.sfSeen := rfl
@[simp] theorem Dev.modPw_out (f : Power → Power) : (d.modPw f).out = d.out := rfl
@[simp] theorem Dev.modPw_wr (f : Power → Power) : (d.modPw f).wr = d.wr := rfl

/-! ### Dev.modTk -/
@[simp] theorem Dev.modTk_clk (f : TickUnit → TickUnit) : (d.modTk f).clk = d.clk := rfl
@[simp] theorem Dev.modTk_free (f : TickUnit → TickUnit) : (d.modTk f).free = d.free := rfl
@[simp] theorem Dev.modTk_pw (f : TickUnit → TickUnit) : (d.modTk f).pw = d.pw := rfl
@[simp] theorem Dev.modTk_tk (f : TickUnit → TickUnit) : (d.modTk f).tk = f d.tk := rfl
@[simp] theorem Dev.modTk_hp (f : TickUnit → TickUnit) : (d.modTk f).hp = d.hp := rfl
@[simp] theorem Dev.modTk_ft (f : TickUnit → TickUnit) : (d.modTk f).ft = d.ft := rfl
@[simp] theorem Dev.modTk_sv (f : TickUnit → TickUnit) : (d.modTk f).sv = d.sv := rfl
@[simp] theorem Dev.modTk_axf (f : TickUnit → TickUnit) : (d.modTk f).axf = d.axf := rfl
@[simp] theorem Dev.modTk_plots (f : TickUnit → TickUnit) : (d.modTk f).plots = d.plots := rfl
@[simp] theorem Dev.modTk_lanes (f : TickUnit → TickUnit) : (d.modTk f).lanes = d.lanes := rfl
@[simp] theorem Dev.modTk_loops (f : TickUnit → TickUnit) : (d.modTk f).loops = d.loops := rfl
@[simp] theorem Dev.modTk_progs (f : TickUnit → TickUnit) : (d.modTk f).progs = d.progs := rfl
@[simp] theorem Dev.modTk_ctl (f : TickUnit → TickUnit) : (d.modTk f).ctl = d.ctl := rfl
@[simp] theorem Dev.modTk_saved (f : TickUnit → TickUnit) : (d.modTk f).saved = d.saved := rfl
@[simp] theorem Dev.modTk_slots (f : TickUnit → TickUnit) : (d.modTk f).slots = d.slots := rfl
@[simp] theorem Dev.modTk_aux (f : TickUnit → TickUnit) : (d.modTk f).aux = d.aux := rfl
@[simp] theorem Dev.modTk_fb (f : TickUnit → TickUnit) : (d.modTk f).fb = d.fb := rfl
@[simp] theorem Dev.modTk_pwm (f : TickUnit → TickUnit) : (d.modTk f).pwm = d.pwm := rfl
@[simp] theorem Dev.modTk_legs (f : TickUnit → TickUnit) : (d.modTk f).legs = d.legs := rfl
@[simp] theorem Dev.modTk_gates (f : TickUnit → TickUnit) : (d.modTk f).gates = d.gates := rfl
@[simp] theorem Dev.modTk_mot (f : TickUnit → TickUnit) : (d.modTk f).mot = d.mot := rfl
@[simp] theorem Dev.modTk_mu (f : TickUnit → TickUnit) : (d.modTk f).mu = d.mu := rfl
@[simp] theorem Dev.modTk_cap (f : TickUnit → TickUnit) : (d.modTk f).cap = d.cap := rfl
@[simp] theorem Dev.modTk_ring (f : TickUnit → TickUnit) : (d.modTk f).ring = d.ring := rfl
@[simp] theorem Dev.modTk_nt (f : TickUnit → TickUnit) : (d.modTk f).nt = d.nt := rfl
@[simp] theorem Dev.modTk_can (f : TickUnit → TickUnit) : (d.modTk f).can = d.can := rfl
@[simp] theorem Dev.modTk_fio (f : TickUnit → TickUnit) : (d.modTk f).fio = d.fio := rfl
@[simp] theorem Dev.modTk_sf (f : TickUnit → TickUnit) : (d.modTk f).sf = d.sf := rfl
@[simp] theorem Dev.modTk_sfSeen (f : TickUnit → TickUnit) : (d.modTk f).sfSeen = d.sfSeen := rfl
@[simp] theorem Dev.modTk_out (f : TickUnit → TickUnit) : (d.modTk f).out = d.out := rfl
@[simp] theorem Dev.modTk_wr (f : TickUnit → TickUnit) : (d.modTk f).wr = d.wr := rfl

/-! ### Dev.modNt -/
@[simp] theorem Dev.modNt_clk (f : TimeUnit → TimeUnit) : (d.modNt f).clk = d.clk := rfl
@[simp] theorem Dev.modNt_free (f : TimeUnit → TimeUnit) : (d.modNt f).free = d.free := rfl
@[simp] theorem Dev.modNt_pw (f : TimeUnit → TimeUnit) : (d.modNt f).pw = d.pw := rfl
@[simp] theorem Dev.modNt_tk (f : TimeUnit → TimeUnit) : (d.modNt f).tk = d.tk := rfl
@[simp] theorem Dev.modNt_hp (f : TimeUnit → TimeUnit) : (d.modNt f).hp = d.hp := rfl
@[simp] theorem Dev.modNt_ft (f : TimeUnit → TimeUnit) : (d.modNt f).ft = d.ft := rfl
@[simp] theorem Dev.modNt_sv (f : TimeUnit → TimeUnit) : (d.modNt f).sv = d.sv := rfl
@[simp] theorem Dev.modNt_axf (f : TimeUnit → TimeUnit) : (d.modNt f).axf = d.axf := rfl
@[simp] theorem Dev.modNt_plots (f : TimeUnit → TimeUnit) : (d.modNt f).plots = d.plots := rfl
@[simp] theorem Dev.modNt_lanes (f : TimeUnit → TimeUnit) : (d.modNt f).lanes = d.lanes := rfl
@[simp] theorem Dev.modNt_loops (f : TimeUnit → TimeUnit) : (d.modNt f).loops = d.loops := rfl
@[simp] theorem Dev.modNt_progs (f : TimeUnit → TimeUnit) : (d.modNt f).progs = d.progs := rfl
@[simp] theorem Dev.modNt_ctl (f : TimeUnit → TimeUnit) : (d.modNt f).ctl = d.ctl := rfl
@[simp] theorem Dev.modNt_saved (f : TimeUnit → TimeUnit) : (d.modNt f).saved = d.saved := rfl
@[simp] theorem Dev.modNt_slots (f : TimeUnit → TimeUnit) : (d.modNt f).slots = d.slots := rfl
@[simp] theorem Dev.modNt_aux (f : TimeUnit → TimeUnit) : (d.modNt f).aux = d.aux := rfl
@[simp] theorem Dev.modNt_fb (f : TimeUnit → TimeUnit) : (d.modNt f).fb = d.fb := rfl
@[simp] theorem Dev.modNt_pwm (f : TimeUnit → TimeUnit) : (d.modNt f).pwm = d.pwm := rfl
@[simp] theorem Dev.modNt_legs (f : TimeUnit → TimeUnit) : (d.modNt f).legs = d.legs := rfl
@[simp] theorem Dev.modNt_gates (f : TimeUnit → TimeUnit) : (d.modNt f).gates = d.gates := rfl
@[simp] theorem Dev.modNt_mot (f : TimeUnit → TimeUnit) : (d.modNt f).mot = d.mot := rfl
@[simp] theorem Dev.modNt_mu (f : TimeUnit → TimeUnit) : (d.modNt f).mu = d.mu := rfl
@[simp] theorem Dev.modNt_cap (f : TimeUnit → TimeUnit) : (d.modNt f).cap = d.cap := rfl
@[simp] theorem Dev.modNt_ring (f : TimeUnit → TimeUnit) : (d.modNt f).ring = d.ring := rfl
@[simp] theorem Dev.modNt_nt (f : TimeUnit → TimeUnit) : (d.modNt f).nt = f d.nt := rfl
@[simp] theorem Dev.modNt_can (f : TimeUnit → TimeUnit) : (d.modNt f).can = d.can := rfl
@[simp] theorem Dev.modNt_fio (f : TimeUnit → TimeUnit) : (d.modNt f).fio = d.fio := rfl
@[simp] theorem Dev.modNt_sf (f : TimeUnit → TimeUnit) : (d.modNt f).sf = d.sf := rfl
@[simp] theorem Dev.modNt_sfSeen (f : TimeUnit → TimeUnit) : (d.modNt f).sfSeen = d.sfSeen := rfl
@[simp] theorem Dev.modNt_out (f : TimeUnit → TimeUnit) : (d.modNt f).out = d.out := rfl
@[simp] theorem Dev.modNt_wr (f : TimeUnit → TimeUnit) : (d.modNt f).wr = d.wr := rfl

/-! ### Dev.modSv -/
@[simp] theorem Dev.modSv_clk (f : Service → Service) : (d.modSv f).clk = d.clk := rfl
@[simp] theorem Dev.modSv_free (f : Service → Service) : (d.modSv f).free = d.free := rfl
@[simp] theorem Dev.modSv_pw (f : Service → Service) : (d.modSv f).pw = d.pw := rfl
@[simp] theorem Dev.modSv_tk (f : Service → Service) : (d.modSv f).tk = d.tk := rfl
@[simp] theorem Dev.modSv_hp (f : Service → Service) : (d.modSv f).hp = d.hp := rfl
@[simp] theorem Dev.modSv_ft (f : Service → Service) : (d.modSv f).ft = d.ft := rfl
@[simp] theorem Dev.modSv_sv (f : Service → Service) : (d.modSv f).sv = f d.sv := rfl
@[simp] theorem Dev.modSv_axf (f : Service → Service) : (d.modSv f).axf = d.axf := rfl
@[simp] theorem Dev.modSv_plots (f : Service → Service) : (d.modSv f).plots = d.plots := rfl
@[simp] theorem Dev.modSv_lanes (f : Service → Service) : (d.modSv f).lanes = d.lanes := rfl
@[simp] theorem Dev.modSv_loops (f : Service → Service) : (d.modSv f).loops = d.loops := rfl
@[simp] theorem Dev.modSv_progs (f : Service → Service) : (d.modSv f).progs = d.progs := rfl
@[simp] theorem Dev.modSv_ctl (f : Service → Service) : (d.modSv f).ctl = d.ctl := rfl
@[simp] theorem Dev.modSv_saved (f : Service → Service) : (d.modSv f).saved = d.saved := rfl
@[simp] theorem Dev.modSv_slots (f : Service → Service) : (d.modSv f).slots = d.slots := rfl
@[simp] theorem Dev.modSv_aux (f : Service → Service) : (d.modSv f).aux = d.aux := rfl
@[simp] theorem Dev.modSv_fb (f : Service → Service) : (d.modSv f).fb = d.fb := rfl
@[simp] theorem Dev.modSv_pwm (f : Service → Service) : (d.modSv f).pwm = d.pwm := rfl
@[simp] theorem Dev.modSv_legs (f : Service → Service) : (d.modSv f).legs = d.legs := rfl
@[simp] theorem Dev.modSv_gates (f : Service → Service) : (d.modSv f).gates = d.gates := rfl
@[simp] theorem Dev.modSv_mot (f : Service → Service) : (d.modSv f).mot = d.mot := rfl
@[simp] theorem Dev.modSv_mu (f : Service → Service) : (d.modSv f).mu = d.mu := rfl
@[simp] theorem Dev.modSv_cap (f : Service → Service) : (d.modSv f).cap = d.cap := rfl
@[simp] theorem Dev.modSv_ring (f : Service → Service) : (d.modSv f).ring = d.ring := rfl
@[simp] theorem Dev.modSv_nt (f : Service → Service) : (d.modSv f).nt = d.nt := rfl
@[simp] theorem Dev.modSv_can (f : Service → Service) : (d.modSv f).can = d.can := rfl
@[simp] theorem Dev.modSv_fio (f : Service → Service) : (d.modSv f).fio = d.fio := rfl
@[simp] theorem Dev.modSv_sf (f : Service → Service) : (d.modSv f).sf = d.sf := rfl
@[simp] theorem Dev.modSv_sfSeen (f : Service → Service) : (d.modSv f).sfSeen = d.sfSeen := rfl
@[simp] theorem Dev.modSv_out (f : Service → Service) : (d.modSv f).out = d.out := rfl
@[simp] theorem Dev.modSv_wr (f : Service → Service) : (d.modSv f).wr = d.wr := rfl

/-! ### Dev.modGroup -/
@[simp] theorem Dev.modGroup_clk (g : Fin 8) (f : PathGroup → PathGroup) : (d.modGroup g f).clk = d.clk := rfl
@[simp] theorem Dev.modGroup_free (g : Fin 8) (f : PathGroup → PathGroup) : (d.modGroup g f).free = d.free := rfl
@[simp] theorem Dev.modGroup_pw (g : Fin 8) (f : PathGroup → PathGroup) : (d.modGroup g f).pw = d.pw := rfl
@[simp] theorem Dev.modGroup_tk (g : Fin 8) (f : PathGroup → PathGroup) : (d.modGroup g f).tk = d.tk := rfl
@[simp] theorem Dev.modGroup_hp (g : Fin 8) (f : PathGroup → PathGroup) : (d.modGroup g f).hp = d.hp := rfl
@[simp] theorem Dev.modGroup_ft (g : Fin 8) (f : PathGroup → PathGroup) : (d.modGroup g f).ft = d.ft := rfl
@[simp] theorem Dev.modGroup_sv (g : Fin 8) (f : PathGroup → PathGroup) : (d.modGroup g f).sv = d.sv := rfl
@[simp] theorem Dev.modGroup_axf (g : Fin 8) (f : PathGroup → PathGroup) : (d.modGroup g f).axf = d.axf := rfl
@[simp] theorem Dev.modGroup_plots (g : Fin 8) (f : PathGroup → PathGroup) : (d.modGroup g f).plots = d.plots := rfl
@[simp] theorem Dev.modGroup_lanes (g : Fin 8) (f : PathGroup → PathGroup) : (d.modGroup g f).lanes = d.lanes := rfl
@[simp] theorem Dev.modGroup_loops (g : Fin 8) (f : PathGroup → PathGroup) : (d.modGroup g f).loops = d.loops := rfl
@[simp] theorem Dev.modGroup_progs (g : Fin 8) (f : PathGroup → PathGroup) : (d.modGroup g f).progs = d.progs := rfl
@[simp] theorem Dev.modGroup_ctl (g : Fin 8) (f : PathGroup → PathGroup) : (d.modGroup g f).ctl = d.ctl := rfl
@[simp] theorem Dev.modGroup_saved (g : Fin 8) (f : PathGroup → PathGroup) : (d.modGroup g f).saved = d.saved := rfl
@[simp] theorem Dev.modGroup_slots (g : Fin 8) (f : PathGroup → PathGroup) : (d.modGroup g f).slots = d.slots := rfl
@[simp] theorem Dev.modGroup_aux (g : Fin 8) (f : PathGroup → PathGroup) : (d.modGroup g f).aux = d.aux := rfl
@[simp] theorem Dev.modGroup_fb (g : Fin 8) (f : PathGroup → PathGroup) : (d.modGroup g f).fb = d.fb := rfl
@[simp] theorem Dev.modGroup_pwm (g : Fin 8) (f : PathGroup → PathGroup) : (d.modGroup g f).pwm = d.pwm := rfl
@[simp] theorem Dev.modGroup_legs (g : Fin 8) (f : PathGroup → PathGroup) : (d.modGroup g f).legs = d.legs := rfl
@[simp] theorem Dev.modGroup_gates (g : Fin 8) (f : PathGroup → PathGroup) : (d.modGroup g f).gates = d.gates := rfl
@[simp] theorem Dev.modGroup_mot (g : Fin 8) (f : PathGroup → PathGroup) : (d.modGroup g f).mot = d.mot := rfl
@[simp] theorem Dev.modGroup_mu (g : Fin 8) (f : PathGroup → PathGroup) :
    (d.modGroup g f).mu = { d.mu with groups := vmod d.mu.groups g f } := rfl
@[simp] theorem Dev.modGroup_cap (g : Fin 8) (f : PathGroup → PathGroup) : (d.modGroup g f).cap = d.cap := rfl
@[simp] theorem Dev.modGroup_ring (g : Fin 8) (f : PathGroup → PathGroup) : (d.modGroup g f).ring = d.ring := rfl
@[simp] theorem Dev.modGroup_nt (g : Fin 8) (f : PathGroup → PathGroup) : (d.modGroup g f).nt = d.nt := rfl
@[simp] theorem Dev.modGroup_can (g : Fin 8) (f : PathGroup → PathGroup) : (d.modGroup g f).can = d.can := rfl
@[simp] theorem Dev.modGroup_fio (g : Fin 8) (f : PathGroup → PathGroup) : (d.modGroup g f).fio = d.fio := rfl
@[simp] theorem Dev.modGroup_sf (g : Fin 8) (f : PathGroup → PathGroup) : (d.modGroup g f).sf = d.sf := rfl
@[simp] theorem Dev.modGroup_sfSeen (g : Fin 8) (f : PathGroup → PathGroup) : (d.modGroup g f).sfSeen = d.sfSeen := rfl
@[simp] theorem Dev.modGroup_out (g : Fin 8) (f : PathGroup → PathGroup) : (d.modGroup g f).out = d.out := rfl
@[simp] theorem Dev.modGroup_wr (g : Fin 8) (f : PathGroup → PathGroup) : (d.modGroup g f).wr = d.wr := rfl

/-! ### Dev.modFio -/
@[simp] theorem Dev.modFio_clk (f : FieldIo → FieldIo) : (d.modFio f).clk = d.clk := rfl
@[simp] theorem Dev.modFio_free (f : FieldIo → FieldIo) : (d.modFio f).free = d.free := rfl
@[simp] theorem Dev.modFio_pw (f : FieldIo → FieldIo) : (d.modFio f).pw = d.pw := rfl
@[simp] theorem Dev.modFio_tk (f : FieldIo → FieldIo) : (d.modFio f).tk = d.tk := rfl
@[simp] theorem Dev.modFio_hp (f : FieldIo → FieldIo) : (d.modFio f).hp = d.hp := rfl
@[simp] theorem Dev.modFio_ft (f : FieldIo → FieldIo) : (d.modFio f).ft = d.ft := rfl
@[simp] theorem Dev.modFio_sv (f : FieldIo → FieldIo) : (d.modFio f).sv = d.sv := rfl
@[simp] theorem Dev.modFio_axf (f : FieldIo → FieldIo) : (d.modFio f).axf = d.axf := rfl
@[simp] theorem Dev.modFio_plots (f : FieldIo → FieldIo) : (d.modFio f).plots = d.plots := rfl
@[simp] theorem Dev.modFio_lanes (f : FieldIo → FieldIo) : (d.modFio f).lanes = d.lanes := rfl
@[simp] theorem Dev.modFio_loops (f : FieldIo → FieldIo) : (d.modFio f).loops = d.loops := rfl
@[simp] theorem Dev.modFio_progs (f : FieldIo → FieldIo) : (d.modFio f).progs = d.progs := rfl
@[simp] theorem Dev.modFio_ctl (f : FieldIo → FieldIo) : (d.modFio f).ctl = d.ctl := rfl
@[simp] theorem Dev.modFio_saved (f : FieldIo → FieldIo) : (d.modFio f).saved = d.saved := rfl
@[simp] theorem Dev.modFio_slots (f : FieldIo → FieldIo) : (d.modFio f).slots = d.slots := rfl
@[simp] theorem Dev.modFio_aux (f : FieldIo → FieldIo) : (d.modFio f).aux = d.aux := rfl
@[simp] theorem Dev.modFio_fb (f : FieldIo → FieldIo) : (d.modFio f).fb = d.fb := rfl
@[simp] theorem Dev.modFio_pwm (f : FieldIo → FieldIo) : (d.modFio f).pwm = d.pwm := rfl
@[simp] theorem Dev.modFio_legs (f : FieldIo → FieldIo) : (d.modFio f).legs = d.legs := rfl
@[simp] theorem Dev.modFio_gates (f : FieldIo → FieldIo) : (d.modFio f).gates = d.gates := rfl
@[simp] theorem Dev.modFio_mot (f : FieldIo → FieldIo) : (d.modFio f).mot = d.mot := rfl
@[simp] theorem Dev.modFio_mu (f : FieldIo → FieldIo) : (d.modFio f).mu = d.mu := rfl
@[simp] theorem Dev.modFio_cap (f : FieldIo → FieldIo) : (d.modFio f).cap = d.cap := rfl
@[simp] theorem Dev.modFio_ring (f : FieldIo → FieldIo) : (d.modFio f).ring = d.ring := rfl
@[simp] theorem Dev.modFio_nt (f : FieldIo → FieldIo) : (d.modFio f).nt = d.nt := rfl
@[simp] theorem Dev.modFio_can (f : FieldIo → FieldIo) : (d.modFio f).can = d.can := rfl
@[simp] theorem Dev.modFio_fio (f : FieldIo → FieldIo) : (d.modFio f).fio = f d.fio := rfl
@[simp] theorem Dev.modFio_sf (f : FieldIo → FieldIo) : (d.modFio f).sf = d.sf := rfl
@[simp] theorem Dev.modFio_sfSeen (f : FieldIo → FieldIo) : (d.modFio f).sfSeen = d.sfSeen := rfl
@[simp] theorem Dev.modFio_out (f : FieldIo → FieldIo) : (d.modFio f).out = d.out := rfl
@[simp] theorem Dev.modFio_wr (f : FieldIo → FieldIo) : (d.modFio f).wr = d.wr := rfl

/-! ### Dev.modSafe -/
@[simp] theorem Dev.modSafe_clk (f : Safety → Safety) : (d.modSafe f).clk = d.clk := rfl
@[simp] theorem Dev.modSafe_free (f : Safety → Safety) : (d.modSafe f).free = d.free := rfl
@[simp] theorem Dev.modSafe_pw (f : Safety → Safety) : (d.modSafe f).pw = d.pw := rfl
@[simp] theorem Dev.modSafe_tk (f : Safety → Safety) : (d.modSafe f).tk = d.tk := rfl
@[simp] theorem Dev.modSafe_hp (f : Safety → Safety) : (d.modSafe f).hp = d.hp := rfl
@[simp] theorem Dev.modSafe_ft (f : Safety → Safety) : (d.modSafe f).ft = d.ft := rfl
@[simp] theorem Dev.modSafe_sv (f : Safety → Safety) : (d.modSafe f).sv = d.sv := rfl
@[simp] theorem Dev.modSafe_axf (f : Safety → Safety) : (d.modSafe f).axf = d.axf := rfl
@[simp] theorem Dev.modSafe_plots (f : Safety → Safety) : (d.modSafe f).plots = d.plots := rfl
@[simp] theorem Dev.modSafe_lanes (f : Safety → Safety) : (d.modSafe f).lanes = d.lanes := rfl
@[simp] theorem Dev.modSafe_loops (f : Safety → Safety) : (d.modSafe f).loops = d.loops := rfl
@[simp] theorem Dev.modSafe_progs (f : Safety → Safety) : (d.modSafe f).progs = d.progs := rfl
@[simp] theorem Dev.modSafe_ctl (f : Safety → Safety) : (d.modSafe f).ctl = d.ctl := rfl
@[simp] theorem Dev.modSafe_saved (f : Safety → Safety) : (d.modSafe f).saved = d.saved := rfl
@[simp] theorem Dev.modSafe_slots (f : Safety → Safety) : (d.modSafe f).slots = d.slots := rfl
@[simp] theorem Dev.modSafe_aux (f : Safety → Safety) : (d.modSafe f).aux = d.aux := rfl
@[simp] theorem Dev.modSafe_fb (f : Safety → Safety) : (d.modSafe f).fb = d.fb := rfl
@[simp] theorem Dev.modSafe_pwm (f : Safety → Safety) : (d.modSafe f).pwm = d.pwm := rfl
@[simp] theorem Dev.modSafe_legs (f : Safety → Safety) : (d.modSafe f).legs = d.legs := rfl
@[simp] theorem Dev.modSafe_gates (f : Safety → Safety) : (d.modSafe f).gates = d.gates := rfl
@[simp] theorem Dev.modSafe_mot (f : Safety → Safety) : (d.modSafe f).mot = d.mot := rfl
@[simp] theorem Dev.modSafe_mu (f : Safety → Safety) : (d.modSafe f).mu = d.mu := rfl
@[simp] theorem Dev.modSafe_cap (f : Safety → Safety) : (d.modSafe f).cap = d.cap := rfl
@[simp] theorem Dev.modSafe_ring (f : Safety → Safety) : (d.modSafe f).ring = d.ring := rfl
@[simp] theorem Dev.modSafe_nt (f : Safety → Safety) : (d.modSafe f).nt = d.nt := rfl
@[simp] theorem Dev.modSafe_can (f : Safety → Safety) : (d.modSafe f).can = d.can := rfl
@[simp] theorem Dev.modSafe_fio (f : Safety → Safety) : (d.modSafe f).fio = d.fio := rfl
@[simp] theorem Dev.modSafe_sf (f : Safety → Safety) : (d.modSafe f).sf = f d.sf := rfl
@[simp] theorem Dev.modSafe_sfSeen (f : Safety → Safety) : (d.modSafe f).sfSeen = d.sfSeen := rfl
@[simp] theorem Dev.modSafe_out (f : Safety → Safety) : (d.modSafe f).out = d.out := rfl
@[simp] theorem Dev.modSafe_wr (f : Safety → Safety) : (d.modSafe f).wr = d.wr := rfl

/-! ### Dev.emit -/
@[simp] theorem Dev.emit_clk (m : OutMsg) : (d.emit m).clk = d.clk := rfl
@[simp] theorem Dev.emit_free (m : OutMsg) : (d.emit m).free = d.free := rfl
@[simp] theorem Dev.emit_pw (m : OutMsg) : (d.emit m).pw = d.pw := rfl
@[simp] theorem Dev.emit_tk (m : OutMsg) : (d.emit m).tk = d.tk := rfl
@[simp] theorem Dev.emit_hp (m : OutMsg) : (d.emit m).hp = d.hp := rfl
@[simp] theorem Dev.emit_ft (m : OutMsg) : (d.emit m).ft = d.ft := rfl
@[simp] theorem Dev.emit_sv (m : OutMsg) : (d.emit m).sv = d.sv := rfl
@[simp] theorem Dev.emit_axf (m : OutMsg) : (d.emit m).axf = d.axf := rfl
@[simp] theorem Dev.emit_plots (m : OutMsg) : (d.emit m).plots = d.plots := rfl
@[simp] theorem Dev.emit_lanes (m : OutMsg) : (d.emit m).lanes = d.lanes := rfl
@[simp] theorem Dev.emit_loops (m : OutMsg) : (d.emit m).loops = d.loops := rfl
@[simp] theorem Dev.emit_progs (m : OutMsg) : (d.emit m).progs = d.progs := rfl
@[simp] theorem Dev.emit_ctl (m : OutMsg) : (d.emit m).ctl = d.ctl := rfl
@[simp] theorem Dev.emit_saved (m : OutMsg) : (d.emit m).saved = d.saved := rfl
@[simp] theorem Dev.emit_slots (m : OutMsg) : (d.emit m).slots = d.slots := rfl
@[simp] theorem Dev.emit_aux (m : OutMsg) : (d.emit m).aux = d.aux := rfl
@[simp] theorem Dev.emit_fb (m : OutMsg) : (d.emit m).fb = d.fb := rfl
@[simp] theorem Dev.emit_pwm (m : OutMsg) : (d.emit m).pwm = d.pwm := rfl
@[simp] theorem Dev.emit_legs (m : OutMsg) : (d.emit m).legs = d.legs := rfl
@[simp] theorem Dev.emit_gates (m : OutMsg) : (d.emit m).gates = d.gates := rfl
@[simp] theorem Dev.emit_mot (m : OutMsg) : (d.emit m).mot = d.mot := rfl
@[simp] theorem Dev.emit_mu (m : OutMsg) : (d.emit m).mu = d.mu := rfl
@[simp] theorem Dev.emit_cap (m : OutMsg) : (d.emit m).cap = d.cap := rfl
@[simp] theorem Dev.emit_ring (m : OutMsg) : (d.emit m).ring = d.ring := rfl
@[simp] theorem Dev.emit_nt (m : OutMsg) : (d.emit m).nt = d.nt := rfl
@[simp] theorem Dev.emit_can (m : OutMsg) : (d.emit m).can = d.can := rfl
@[simp] theorem Dev.emit_fio (m : OutMsg) : (d.emit m).fio = d.fio := rfl
@[simp] theorem Dev.emit_sf (m : OutMsg) : (d.emit m).sf = d.sf := rfl
@[simp] theorem Dev.emit_sfSeen (m : OutMsg) : (d.emit m).sfSeen = d.sfSeen := rfl
@[simp] theorem Dev.emit_out (m : OutMsg) : (d.emit m).out = d.out ++ [m] := rfl
@[simp] theorem Dev.emit_wr (m : OutMsg) : (d.emit m).wr = d.wr := rfl

/-! ### Dev.put -/
@[simp] theorem Dev.put_clk (a : Nat) (bs : List Byte) : (d.put a bs).clk = d.clk := rfl
@[simp] theorem Dev.put_free (a : Nat) (bs : List Byte) : (d.put a bs).free = d.free := rfl
@[simp] theorem Dev.put_pw (a : Nat) (bs : List Byte) : (d.put a bs).pw = d.pw := rfl
@[simp] theorem Dev.put_tk (a : Nat) (bs : List Byte) : (d.put a bs).tk = d.tk := rfl
@[simp] theorem Dev.put_hp (a : Nat) (bs : List Byte) : (d.put a bs).hp = d.hp := rfl
@[simp] theorem Dev.put_ft (a : Nat) (bs : List Byte) : (d.put a bs).ft = d.ft := rfl
@[simp] theorem Dev.put_sv (a : Nat) (bs : List Byte) : (d.put a bs).sv = d.sv := rfl
@[simp] theorem Dev.put_axf (a : Nat) (bs : List Byte) : (d.put a bs).axf = d.axf := rfl
@[simp] theorem Dev.put_plots (a : Nat) (bs : List Byte) : (d.put a bs).plots = d.plots := rfl
@[simp] theorem Dev.put_lanes (a : Nat) (bs : List Byte) : (d.put a bs).lanes = d.lanes := rfl
@[simp] theorem Dev.put_loops (a : Nat) (bs : List Byte) : (d.put a bs).loops = d.loops := rfl
@[simp] theorem Dev.put_progs (a : Nat) (bs : List Byte) : (d.put a bs).progs = d.progs := rfl
@[simp] theorem Dev.put_ctl (a : Nat) (bs : List Byte) : (d.put a bs).ctl = d.ctl := rfl
@[simp] theorem Dev.put_saved (a : Nat) (bs : List Byte) : (d.put a bs).saved = d.saved := rfl
@[simp] theorem Dev.put_slots (a : Nat) (bs : List Byte) : (d.put a bs).slots = d.slots := rfl
@[simp] theorem Dev.put_aux (a : Nat) (bs : List Byte) : (d.put a bs).aux = d.aux := rfl
@[simp] theorem Dev.put_fb (a : Nat) (bs : List Byte) : (d.put a bs).fb = d.fb := rfl
@[simp] theorem Dev.put_pwm (a : Nat) (bs : List Byte) : (d.put a bs).pwm = d.pwm := rfl
@[simp] theorem Dev.put_legs (a : Nat) (bs : List Byte) : (d.put a bs).legs = d.legs := rfl
@[simp] theorem Dev.put_gates (a : Nat) (bs : List Byte) : (d.put a bs).gates = d.gates := rfl
@[simp] theorem Dev.put_mot (a : Nat) (bs : List Byte) : (d.put a bs).mot = d.mot := rfl
@[simp] theorem Dev.put_mu (a : Nat) (bs : List Byte) : (d.put a bs).mu = d.mu := rfl
@[simp] theorem Dev.put_cap (a : Nat) (bs : List Byte) : (d.put a bs).cap = d.cap := rfl
@[simp] theorem Dev.put_ring (a : Nat) (bs : List Byte) : (d.put a bs).ring = d.ring := rfl
@[simp] theorem Dev.put_nt (a : Nat) (bs : List Byte) : (d.put a bs).nt = d.nt := rfl
@[simp] theorem Dev.put_can (a : Nat) (bs : List Byte) : (d.put a bs).can = d.can := rfl
@[simp] theorem Dev.put_fio (a : Nat) (bs : List Byte) : (d.put a bs).fio = d.fio := rfl
@[simp] theorem Dev.put_sf (a : Nat) (bs : List Byte) : (d.put a bs).sf = d.sf := rfl
@[simp] theorem Dev.put_sfSeen (a : Nat) (bs : List Byte) : (d.put a bs).sfSeen = d.sfSeen := rfl
@[simp] theorem Dev.put_out (a : Nat) (bs : List Byte) : (d.put a bs).out = d.out := rfl
@[simp] theorem Dev.put_wr (a : Nat) (bs : List Byte) : (d.put a bs).wr = d.wr ++ [(a, bs)] := rfl

end Sys2Proof.Machine
end

