-- ==== Sys2Proof/Machine/Pins.lean ====
section
/-! DEFINITION. The levels of the pins as functions of the state: the reset and unpowered states of Table 1.3, and what drives
each output once it is configured (spec 01 R20, R23, R25). No command reads them. -/
namespace Sys2Proof.Machine
open Sys2Proof

/-- What holds the pins: nothing but their pulls and clamps, the reset states, or the configured device (R20). -/
inductive PinHold where
  | unpowered | reset | configured
  deriving DecidableEq, Repr

/-- The signal groups of Table 1.3, each signal by its number. -/
inductive Pin where
  | gateHigh (l : LegNo) | gateLow (l : LegNo)
  /-- SWk, BSTk, VDSk, ISPk, ISNk, VBUSx, EGgg, AUXn, ESPgg_RX, PRBgg and the other inputs that are high-impedance always. -/
  | analogIn
  | exc (n : Fin 4)
  | espTx (n : Fin 16) | espDe (n : Fin 16)
  | emuA (n : Fin 4) | emuB (n : Fin 4) | emuZ (n : Fin 4)
  | step (n : Fin 8) | dir (n : Fin 8)
  | ring
  | pcie
  | canTx (n : Fin 2)
  | sphSdo
  | spmSck (p : Fin 2) | spmSdo (p : Fin 2) | spmCs (p : Fin 2) (s : Fin 4)
  | ppsOut
  | irqaN | irqbN
  | tdo
  /-- TCK, TMS and TDI; TRST_N. -/
  | jtagIn | trstN
  | porstN | hrstN | kaWakeN
  /-- IN00 to IN31, SIN00 to SIN15 and SRESET. -/
  | fieldIn
  | out (n : Fin 16)
  | testPulse (n : Fin 4)
  | ossd (n : Fin 4) (b : Bool)
  deriving DecidableEq, Repr

/-- The state of a pin. -/
inductive PinState where
  /-- A logic level, driven; open drain low is low. -/
  | low | high
  | highZ | released
  /-- Pulled by 47 kΩ or 1 MΩ. -/
  | pulledDown | pulledUp
  /-- 10 kΩ to the source and the self-biased clamp. -/
  | clamp
  /-- Field outputs: switched on, off, and off with a pull to 0V24. -/
  | on | off | offPulled
  | sink
  | bypass
  | electricalIdle
  /-- A waveform or the signal of a protocol, which the rows and messages carry. -/
  | signal
  deriving DecidableEq, Repr

/-- What holds the pins now: unpowered once the rails of the power-down are off, in standby, and while VMAIN has not reached
its threshold; in reset until internal reset is released (R20, R29, R34). -/
def Dev.pinHold (d : Dev) : PinHold :=
  match d.pw.phase with
  | .standby => .unpowered
  | .off => if d.pw.vmainOk then .reset else .unpowered
  | .powerDown => if d.pw.railsUp then .configured else .unpowered
  | .rising | .inReset => .reset
  | .booting | .running => .configured

/-- A gate with its supply: GHk and GLk go from the clamp to active low when their supply is up (R27), and back with the STO
switches open (08 R291) or without VSAFE (R25). -/
def Dev.gatePowered (d : Dev) (l : LegNo) : Bool :=
  (if dieOf l = 0 then d.pw.vgdaOk else d.pw.vgdbOk) && d.pw.vsafeUp && !d.gates[dieOf l].sto

/-- Does a switch hold its gate up: from the start of its turn-on to the start of its turn-off? -/
def SwitchState.gateUp : SwitchState → Bool
  | .on1 | .on2 | .on3 => true
  | .off | .pending | .off1 | .off2 | .soft => false

/-- The gate of a switch of a leg. -/
def Dev.gatePin (d : Dev) (l : LegNo) (x : SwitchState) : PinState :=
  if !d.gatePowered l then .clamp else if x.gateUp && d.pinHold == .configured then .high else .low

/-- Is an output of the field bank on: commanded, not held off, V24A present and the bank not in thermal shutdown (R23, 13
R491, R495, R497, R498)? -/
def Dev.outOn (d : Dev) (n : Fin 16) : Bool :=
  let x := d.fio.outs[n]
  x.cmd && !x.latched && !x.held && d.pw.v24aOk && !d.fio.bankHot

/-- IRQA_N is low while S1's interrupt is active, IRQB_N while that of the routed stall is (03 R104). -/
def Dev.irqaLow (d : Dev) : Bool := d.irqActive 1 != 0
def Dev.irqbLow (d : Dev) : Bool := d.hp.own.irqbEn && d.irqActive d.hp.own.irqbStall != 0

/-- DE of a serial port: high in mode 8, and in mode 9 while the request goes out, whose exchange carries it (07 R247,
R248). -/
def Dev.deState (d : Dev) (n : Fin 16) : PinState :=
  let x := d.fb.src[Fin.ofNat 32 (16 + n.val)]
  if x.mode = 8 then .high else if x.mode = 9 ∧ x.exchange then .signal else .low

/-- A pin of a configured device, t clocks into the present tick. -/
def Dev.pinConfigured (d : Dev) (t : Nat) (pin : Pin) : PinState :=
  let level (b : Bool) : PinState := if b then .high else .low
  let fine : Nat := d.tick % max 1 d.tk.conf.frameTicks.toNat * d.tickClks + t
  let emu (n : Fin 4) : Option (Bool × Bool × Bool) :=
    let x := d.fb.emu[n]
    if x.driven then some (x.levels (x.countAt d.tk.len t)) else none
  match pin with
  | .gateHigh l => d.gatePin l d.legs[l].hi
  | .gateLow l => d.gatePin l d.legs[l].lo
  | .analogIn => .highZ
  | .exc n => if d.fb.exc[n].en && !d.fb.exc[n].overloaded then .signal else .highZ
  | .espTx n => if d.fb.src[Fin.ofNat 32 (16 + n.val)].mode = 8 ∨ d.fb.src[Fin.ofNat 32 (16 + n.val)].mode = 9 then .signal else .highZ
  | .espDe n => d.deState n
  | .emuA n => ((emu n).map (fun x => level x.1)).getD .pulledDown
  | .emuB n => ((emu n).map (fun x => level x.2.1)).getD .pulledDown
  | .emuZ n => ((emu n).map (fun x => level x.2.2)).getD .pulledDown
  | .step n => if d.mu.sd[n].driven then level (d.mu.sd[n].levels fine).1 else .pulledDown
  | .dir n => if d.mu.sd[n].driven then level (d.mu.sd[n].levels fine).2 else .pulledDown
  | .ring => if d.pw.bypassClosed then .bypass else .signal
  | .pcie => if d.pw.pcie == .down then .electricalIdle else .signal
  | .canTx n => if d.can.ctl[n].state == .off || d.can.ctl[n].mode ≥ 2 then .high else .signal
  | .sphSdo => .highZ
  | .spmSck p => match d.fio.spm[p].sck with
    | some b => level b
    | none => .highZ
  | .spmSdo p => if d.fio.spm[p].sck.isSome then .signal else .highZ
  | .spmCs p s => if d.fio.spm[p].selects[s].isNone then .highZ else level (d.fio.spm[p].held != some s)
  | .ppsOut => level d.nt.ppsOut
  | .irqaN => if d.irqaLow then .low else .released
  | .irqbN => if d.irqbLow then .low else .released
  | .tdo => .highZ
  | .jtagIn => .pulledUp
  | .trstN => .pulledDown
  | .porstN | .hrstN => .highZ
  | .kaWakeN => .pulledUp
  | .fieldIn => .sink
  | .out n => if d.outOn n then .on else .off
  | .testPulse _ => if d.pw.v24bOk then .signal else .off
  | .ossd n b =>
    let o := d.sf.ossd[Fin.ofNat 8 (2 * n.val + if b then 1 else 0)]
    if !d.pw.v24bOk then .off else if d.sf.ossdOn n.val && !o.pulsing then .on else .offPulled

/-- A pin in reset, and unpowered (Table 1.3). The gates take the clamp until their supply is up. -/
def Dev.pinReset (d : Dev) : Pin → PinState
  | .gateHigh l | .gateLow l => if d.gatePowered l then .low else .clamp
  | .analogIn | .exc _ | .espTx _ | .sphSdo | .spmSck _ | .spmSdo _ | .spmCs _ _ | .tdo | .porstN | .hrstN => .highZ
  | .espDe _ | .ppsOut => .low
  | .emuA _ | .emuB _ | .emuZ _ | .step _ | .dir _ | .trstN => .pulledDown
  | .ring => .bypass
  | .pcie => .electricalIdle
  | .canTx _ => .high
  | .irqaN | .irqbN => .released
  | .jtagIn | .kaWakeN => .pulledUp
  | .fieldIn => .sink
  | .out _ => .off
  | .testPulse _ | .ossd _ _ => .offPulled
def pinUnpowered : Pin → PinState
  | .gateHigh _ | .gateLow _ => .clamp
  | .analogIn | .exc _ | .espTx _ | .sphSdo | .spmSck _ | .spmSdo _ | .spmCs _ _ | .tdo | .porstN | .hrstN | .pcie | .canTx _ |
    .ppsOut | .irqaN | .irqbN | .jtagIn => .highZ
  | .espDe _ | .emuA _ | .emuB _ | .emuZ _ | .step _ | .dir _ | .trstN => .pulledDown
  | .ring => .bypass
  | .kaWakeN => .pulledUp
  | .fieldIn => .sink
  | .out _ | .testPulse _ | .ossd _ _ => .off

/-- The state of a pin, t clocks into the present tick (R20). -/
def Dev.pin (d : Dev) (t : Nat) (p : Pin) : PinState :=
  match d.pinHold with
  | .configured => d.pinConfigured t p
  | .reset => d.pinReset p
  | .unpowered => pinUnpowered p

end Sys2Proof.Machine
end

