-- ==== Sys2Proof/Tests/Slice0.lean ====
section
/-! SUPPORT. Tests of the model: the checks of WellFormed, one step of commands of each family with results taken from the
spec, and for each statement a witness that its hypotheses can be met together. -/
namespace Sys2Proof.Tests
open Sys2Proof Sys2Proof.Machine
set_option Elab.async false

/-! ## Devices that the tests start from -/

/-- A state with no commands waiting and empty DRAM. -/
def st0 (d : Dev) : State := ⟨[], [], d⟩
/-- A command of stall 0 with tag 1. -/
def cmd (code : BitVec 12) (p : List W32) : Cmd := ⟨0, code, 1, p, false, 0, none, .waiting, 0, false⟩
/-- A device with that command in flight. -/
def busy (d : Dev) (code : BitVec 12) (p : List W32) : Dev := { d with hp := { d.hp with inFlight := [cmd code p] } }
/-- A device that runs, with the PCI Express link up and stall 0 as owner. -/
def up : Dev :=
  { Dev.reset with
    pw := { Power.reset with phase := .running, rails := allRails, railsUp := true, vgdaOk := true, vgdbOk := true, pcie := .up }
    hp := { HostPort.reset with devReady := true, own := { Ownership.reset with valid := true, intervalMs := 1000 }
                                pcie := { Pcie.reset with linkUp := true, busMaster := true, memSpace := true } } }
/-- An axis of a type with laws on legs 0, 1 and so on: 2,000 µΩ, source 0, no SD pair. -/
def plot (t n laws : Nat) : Nat → W32 := fun k => [nW t, nW n, 0x07D00000, 0x3F3F00, 0xF, nW laws, 1000, 0, 0, 0, 0, 0].getD k 0
/-- Axis 0 a permanent-magnet motor with velocity, position, set-point and learning laws. -/
def pm : Dev := up.assign 0 (plot 1 0x3F020100 0x2F)
/-- The same with its bridge on. -/
def pmOn : Dev := pm.modPwm 0 (fun p => { p with bridgeOn := true })
/-- Axis 0 a stepper motor on legs 0 to 3. -/
def sm : Dev := up.assign 0 (plot 3 0x03020100 0x7)
/-- Lane 0 at hook F of its tick. -/
def lane0 : Lane := { Lane.reset .inService 0 with phase := .atHook 0 }
/-- A device with lane 0 at its hook. -/
def hooked : Dev := up.modLane 0 (fun _ => lane0)
/-- A program of one instruction, END, staged as program 1. -/
def staged : Dev := { up with progs := { ProgStore.reset with staging := some ⟨1, [(0, some 0xFC00000000)]⟩ } }
/-- That program, loaded. -/
def prog1 : Program := ⟨0, 0, 1, 3, 3, 0, 4217362064, [0xFC00000000]⟩
/-- Axis 0, and the program loaded. -/
def withProg : Dev := { pm with progs := { ProgStore.reset with progs := [(1, some prog1)] } }
/-- The device with source 0 changed. -/
def src (f : FbSource → FbSource) (d : Dev) : Dev := d.modSrc 0 f
/-- Axis 0 with its bridge on and its die released. -/
def live : Dev :=
  { (pmOn.modPw (fun p => { p with vsafeUp := true })) with gates := Vector.replicate 2 ⟨false, false, false, false, false, true, 0⟩ }
/-- A move of axis 0. -/
def move : Move := ⟨.absolute, 5, false, 0, 0, 1, 1, 1, 0, 0⟩
/-- A word is not its successor. -/
theorem crc_ne (x : W32) : x ≠ x + 1 := by
  intro h
  have := congrArg BitVec.toNat h
  simp at this
  omega
/-- Does an outcome go on? -/
def goesOn : Host.Outcome State Machine.Fault Refusal → Bool
  | .next _ => true
  | _ => false
/-- The state an outcome goes on with. -/
def goesTo (s : State) : Host.Outcome State Machine.Fault Refusal → State
  | .next t => t
  | _ => s
/-- An outcome that goes on is the next state it goes on with. -/
theorem next_of {s : State} {o : Host.Outcome State Machine.Fault Refusal} (h : goesOn o = true) : o = .next (goesTo s o) := by
  cases o <;> simp_all [goesOn, goesTo]

theorem witness_stepRunsTheFrontCommand :
  (∃ s : State, ∃ i : Instr, ∃ rest : List Instr, s.pending = i :: rest) ∧
  (∃ s : State, s.pending = []) := by
  refine ⟨⟨⟨[.busMasterEnable], [], up⟩, .busMasterEnable, [], ?_⟩, ⟨st0 (up), ?_⟩⟩ <;>
  decide +kernel

theorem witness_supplyEventsComplete :
  (∃ s : State, (let d : Dev := s.dev; d.pw.phase = .off ∧ d.pw.vmainOk = true ∧ d.pw.vddrOk = true ∧ d.pw.porstN = true)) ∧
  (∃ s : State, (let d : Dev := s.dev; d.up = true ∧ d.pw.vmainWarn = false)) ∧
  (∃ s : State, (let d : Dev := s.dev; d.up = true ∧ d.pw.vmainOver = false)) ∧
  (∃ s : State, (let d : Dev := s.dev; d.up = true ∧ d.pw.v24aOk = true)) ∧
  (∃ s : State, (let d : Dev := s.dev; d.pw.phase = .running ∧ d.pw.vddrOk = true)) ∧
  (∃ s : State, (let d : Dev := s.dev; d.up = true ∧ d.pw.railsOk = true)) ∧
  (∃ s : State, ∃ r : Rail, (let d : Dev := s.dev; d.pw.railsUp = true ∧ ((∀ q ∈ allRails, railOrder q < railOrder r → q ∈ d.pw.rails)) ∧ r ∉ d.pw.rails)) ∧
  (∃ s : State, (let d : Dev := s.dev; d.up = true ∧ d.pw.vmainOk = true ∧ d.pw.vbatOk = true)) ∧
  (∃ s : State, (let d : Dev := s.dev; d.pw.vmainOk = true)) ∧
  (∃ s : State, (let d : Dev := s.dev; d.pw.vmainOk = true ∧ d.pw.phase = .running)) ∧
  (∃ s : State, (let d : Dev := s.dev; d.pw.phase = .powerDown)) ∧
  (∃ s : State, ∃ r : List W32, (let d : Dev := s.dev; d.pw.mramDue = true ∧ d.pw.lossRecord = some r)) ∧
  (∃ s : State, (let d : Dev := s.dev; d.pw.railsDue = true)) ∧
  (∃ s : State, (let d : Dev := s.dev; d.pw.vmainOk = false)) ∧
  (∃ s : State, (let d : Dev := s.dev; d.pw.safetyBDue = true)) := by
  refine ⟨⟨st0 (Dev.reset), ?_⟩, ⟨st0 (up), ?_⟩, ⟨st0 (up), ?_⟩, ⟨st0 (up), ?_⟩, ⟨st0 (up), ?_⟩, ⟨st0 (up), ?_⟩, ⟨st0 ((up).modPw (fun p => { p with rails := [.vhk] })), .vio33, ?_⟩, ⟨st0 (up), ?_⟩, ⟨st0 (up), ?_⟩, ⟨st0 (up), ?_⟩, ⟨st0 ((up).modPw (fun p => { p with phase := .powerDown })), ?_⟩, ⟨st0 ((up).modPw (fun p => { p with mramDue := true, lossRecord := some [] })), [], ?_⟩, ⟨st0 ((up).modPw (fun p => { p with phase := .powerDown, railsOffDue := true })), ?_⟩, ⟨st0 ((up).modPw (fun p => { p with vmainOk := false })), ?_⟩, ⟨st0 ((up).modPw (fun p => { p with safetyBDue := true })), ?_⟩⟩ <;>
  first | decide +kernel | (dsimp only; decide +kernel)

theorem witness_resetAndStandbyRowsComplete :
  (∃ s : State, (let d : Dev := s.dev; d.pw.phase = .rising ∧ d.pw.vmainOk = true ∧ d.pw.vddrOk = true ∧ d.pw.porstN = true)) ∧
  (∃ s : State, (let d : Dev := s.dev; d.pw.phase = .booting ∧ d.sv.noImage = false)) ∧
  (∃ s : State, ∃ ms : Nat, (let d : Dev := s.dev; d.pw.pcie ≠ .down ∧ ms < 100)) ∧
  (∃ s : State, ∃ ms : Nat, (let d : Dev := s.dev; d.pw.pcie ≠ .down ∧ 100 ≤ ms)) ∧
  (∃ s : State, (let d : Dev := s.dev; d.pw.phase = .running)) ∧
  (∃ s : State, (let d : Dev := s.dev; d.pw.porstN = false ∧ d.pw.phase = .inReset)) ∧
  (∃ s : State, (let d : Dev := s.dev; d.up = true ∧ d.pw.pcie = .down)) ∧
  (∃ s : State, (let d : Dev := s.dev; d.pw.standbyReq = true ∧ d.up = true)) ∧
  (∃ s : State, (let d : Dev := s.dev; d.pw.vmainOk = false)) ∧
  (∃ s : State, (let d : Dev := s.dev; d.pw.vmainOk = true ∧ d.pw.wakePinEn = true)) ∧
  (∃ s : State, (let d : Dev := s.dev; d.pw.vmainOk = true ∧ d.pw.alarmEn = true)) ∧
  (∃ s : State, (let d : Dev := s.dev; d.pw.devResetReq = true ∧ d.up = true)) ∧
  (∃ s : State, ∃ st : Stall, ∃ tag : BitVec 8, ∃ c : Cmd, (let d : Dev := s.dev; (let w := wd c.payload 0; d.runs st tag 0x040 c = true ∧ Passes [(!d.liveAxes.isEmpty || d.pw.standbyReq || d.pw.devResetReq, stState), (badLen c 2 || rsv w 0xFFFFFFFC || (bitOf w 1 && wd c.payload 1 == 0), stParam)]))) ∧
  (∃ s : State, ∃ st : Stall, ∃ tag : BitVec 8, ∃ c : Cmd, (let d : Dev := s.dev; d.runs st tag 0x041 c = true)) ∧
  (∃ c : Cmd, c.code.toNat = 0x041 ∧ (let w := wd c.payload 0; Passes [(badLen c 2 || rsv w 0xFFFFFFF0, stParam)])) ∧
  (∃ s : State, ∃ st : Stall, ∃ tag : BitVec 8, ∃ c : Cmd, (let d : Dev := s.dev; d.runs st tag 0x042 c = true ∧ Passes [(badLen c 1 || wd c.payload 0 != 0x5EED, stParam), (d.pw.standbyReq || d.pw.devResetReq, stState)])) := by
  refine ⟨⟨st0 ((up).modPw (fun p => { p with phase := .rising })), ?_⟩, ⟨st0 ((up).modPw (fun p => { p with phase := .booting })), ?_⟩, ⟨st0 (up), 0, ?_⟩, ⟨st0 (up), 100, ?_⟩, ⟨st0 (up), ?_⟩, ⟨st0 ((up).modPw (fun p => { p with phase := .inReset, porstN := false })), ?_⟩, ⟨st0 ((up).modPw (fun p => { p with pcie := .down })), ?_⟩, ⟨st0 ((up).modPw (fun p => { p with standbyReq := true })), ?_⟩, ⟨st0 ((up).modPw (fun p => { p with vmainOk := false })), ?_⟩, ⟨st0 ((up).modPw (fun p => { p with wakePinEn := true })), ?_⟩, ⟨st0 ((up).modPw (fun p => { p with alarmEn := true })), ?_⟩, ⟨st0 ((up).modPw (fun p => { p with devResetReq := true })), ?_⟩, ⟨st0 (busy (up) 0x040 [2, 5]), 0, 1, cmd 0x040 [2, 5], ?_⟩, ⟨st0 (busy (up) 0x041 [0, 0]), 0, 1, cmd 0x041 [0, 0], ?_⟩, ⟨cmd 0x041 [0, 0], ?_⟩, ⟨st0 (busy (up) 0x042 [0x5EED]), 0, 1, cmd 0x042 [0x5EED], ?_⟩⟩ <;>
  first | decide +kernel | (unfold Passes; decide +kernel) | (unfold Passes; dsimp only; decide +kernel)

theorem witness_mailboxRowsComplete :
  (∃ s : State, ∃ st : Stall, (let d : Dev := s.dev; d.present st = true ∧ d.hp.stalls[st].mbxReset = false ∧ d.holdsDoorbells = false ∧ d.hp.stalls[st].held = [])) ∧
  (∃ s : State, ∃ st : Stall, ∃ h : W32, (let d : Dev := s.dev; d.present st = true ∧ d.hp.stalls[st].mbxReset = false ∧ d.holdsDoorbells = false ∧ d.hp.stalls[st].held = [] ∧ commandCodes.contains (fld h 31 20) = false)) ∧
  (∃ s : State, ∃ st : Stall, (let d : Dev := s.dev; d.present st = true ∧ d.hp.stalls[st].mbxReset = false ∧ d.hp.devReady = false ∧ d.hp.stalls[st].held.length < 32)) ∧
  (∃ s : State, ∃ st : Stall, ∃ v : W32, (let d : Dev := s.dev; d.present st = true ∧ rsv v 0xFFFFF800 = false ∧ (BitVec.ofNat 11 v.toNat - d.hp.stalls[st].rspRdPtr).toNat ≤ rspUsed d.hp.stalls[st])) ∧
  (∃ s : State, ∃ st : Stall, (let d : Dev := s.dev; d.present st = true)) ∧
  (∃ s : State, ∃ st : Stall, (let d : Dev := s.dev; d.hp.stalls[st].mbxReset = true ∧ d.hp.inFlight.any (fun c => c.stall == st) = false)) ∧
  (∃ s : State, ∃ st : Stall, ∃ tag : BitVec 8, ∃ c : Cmd, ∃ limit : Nat, (let d : Dev := s.dev; d.cmd? st tag = some c ∧ c.stall = st ∧ c.tag = tag ∧ d.hp.own.handover = none ∧ c.deadline = some limit ∧ limit < d.age ∧ d.sv.mpChange = .none)) := by
  refine ⟨⟨st0 (up), 0, ?_⟩, ⟨st0 (up), 0, 0xC0000000, ?_⟩, ⟨st0 ({ (up) with hp := { (up).hp with devReady := false } }), 0, ?_⟩, ⟨st0 (up), 0, 0, ?_⟩, ⟨st0 (up), 0, ?_⟩, ⟨st0 ((up).modStall 0 (fun x => { x with mbxReset := true })), 0, ?_⟩, ⟨st0 (({ (up) with hp := { (up).hp with inFlight := [{ cmd 0x300 [] with deadline := some 5 }] } }).modTk (fun t => { t with age := 9 })), 0, 1, { cmd 0x300 [] with deadline := some 5 }, 5, ?_⟩⟩ <;>
  first | decide +kernel | (dsimp only; decide +kernel)

theorem witness_ownershipRowsComplete :
  (∃ s : State, ∃ st : Stall, ∃ tag : BitVec 8, ∃ c : Cmd, (let d : Dev := s.dev; d.runs st tag 0x000 c = true ∧ Passes [(c.payload.length > 64, stParam)])) ∧
  (∃ s : State, ∃ st : Stall, ∃ tag : BitVec 8, ∃ c : Cmd, (let d : Dev := s.dev; d.runs st tag 0x004 c = true ∧ Passes [(badLen c 0, stParam)])) ∧
  (∃ s : State, ∃ st : Stall, ∃ tag : BitVec 8, ∃ c : Cmd, (let d : Dev := s.dev; d.runs st tag 0x006 c = true)) ∧
  (∃ c : Cmd, c.code.toNat = 0x006 ∧ (let w := wd c.payload 0; Passes [(badLen c 1 || rsv w 0xFFFFFFF0, stParam)])) ∧
  (∃ d : Dev, ∃ c : Cmd, c.code.toNat = 0x001 ∧ badLen c 1 = false ∧ rsv (wd c.payload 0) 0xFFFFC000 = false ∧ badInterval (fld (wd c.payload 0) 13 0) = false ∧ d.hp.own.handover = none ∧ d.isOwner c.stall = true) ∧
  (∃ d : Dev, ∃ c : Cmd, c.code.toNat = 0x001 ∧ badLen c 1 = false ∧ rsv (wd c.payload 0) 0xFFFFC000 = false ∧ badInterval (fld (wd c.payload 0) 13 0) = false ∧ d.hp.own.handover = none ∧ d.hp.own.valid = false) ∧
  (∃ d : Dev, ∃ c : Cmd, d.hp.own.handover = none ∧ c.code = 0x002 ∧ badLen c 0 = false) ∧
  (∃ d : Dev, ∃ c : Cmd, d.hp.own.handover = none ∧ c.code = 0x003 ∧ badLen c 1 = false ∧ rsv (wd c.payload 0) 0xC000FFF8 = false ∧ badInterval (fld (wd c.payload 0) 29 16) = false ∧ (Fin.ofNat 8 (fld (wd c.payload 0) 2 0) == c.stall) = false ∧ d.present (Fin.ofNat 8 (fld (wd c.payload 0) 2 0)) = true) ∧
  (∃ s : State, ∃ st : Stall, ∃ tag : BitVec 8, ∃ c : Cmd, (let d : Dev := s.dev; c.aux = 0 ∧ d.runs st tag 0x001 c = true ∧ d.hp.own.claims.any (fun x => x.stall == st && x.tag == tag) = false)) ∧
  (∃ s : State, ∃ st : Stall, ∃ tag : BitVec 8, ∃ c : Cmd, (let d : Dev := s.dev; c.aux = 0 ∧ d.runs st tag 0x001 c = true ∧ d.hp.own.claims.any (fun x => x.stall == st && x.tag == tag) = true)) ∧
  (∃ s : State, ∃ st : Stall, ∃ tag : BitVec 8, ∃ c : Cmd, (let d : Dev := s.dev; c.aux = 0 ∧ d.runs st tag 0x002 c = true)) ∧
  (∃ s : State, ∃ st : Stall, ∃ tag : BitVec 8, ∃ c : Cmd, (let d : Dev := s.dev; c.aux = 0 ∧ d.runs st tag 0x003 c = true)) ∧
  (∃ s : State, ∃ h : HandOver, (let d : Dev := s.dev; d.hp.own.handover = some h ∧ h.deadline < d.age)) ∧
  (∃ d : Dev, ∃ h : HandOver, d.hp.own.handover = some h ∧ d.age ≤ h.deadline ∧ d.oldPending h = false) ∧
  (∃ s : State, (let d : Dev := s.dev; d.hp.own.valid = true ∧ d.hp.own.warned = false ∧ d.hbTicks ≤ 2 * (d.age - d.hp.own.since))) ∧
  (∃ s : State, (let d : Dev := s.dev; d.hp.own.valid = true ∧ d.hp.own.since + d.hbTicks < d.age)) := by
  refine ⟨⟨st0 (busy (up) 0x000 [7]), 0, 1, cmd 0x000 [7], ?_⟩, ⟨st0 (busy (up) 0x004 []), 0, 1, cmd 0x004 [], ?_⟩, ⟨st0 (busy (up) 0x006 [8]), 0, 1, cmd 0x006 [8], ?_⟩, ⟨cmd 0x006 [8], ?_⟩, ⟨{ (up) with hp := { (up).hp with own := { (up).hp.own with valid := true } } }, cmd 0x001 [100], ?_⟩, ⟨{ (up) with hp := { (up).hp with own := { (up).hp.own with valid := false } } }, cmd 0x001 [100], ?_⟩, ⟨up, cmd 0x002 [], ?_⟩, ⟨{ (up) with hp := { (up).hp with debugSel := true } }, cmd 0x003 [0x00640007], ?_⟩, ⟨st0 (busy (up) 0x001 [100]), 0, 1, cmd 0x001 [100], ?_⟩, ⟨st0 (busy ({ (up) with hp := { (up).hp with own := { (up).hp.own with claims := [⟨0, 1, 5⟩] } } }) 0x001 [100]), 0, 1, cmd 0x001 [100], ?_⟩, ⟨st0 (busy (up) 0x002 []), 0, 1, cmd 0x002 [], ?_⟩, ⟨st0 (busy (up) 0x003 [0x00640007]), 0, 1, cmd 0x003 [0x00640007], ?_⟩, ⟨st0 (({ (up) with hp := { (up).hp with own := { (up).hp.own with handover := some ⟨true, 0, 0, 1, 0, 5⟩ } } }).modTk (fun t => { t with age := 9 })), ⟨true, 0, 0, 1, 0, 5⟩, ?_⟩, ⟨{ (up) with hp := { (up).hp with own := { (up).hp.own with handover := some ⟨true, 0, 0, 1, 0, 5⟩ } } }, ⟨true, 0, 0, 1, 0, 5⟩, ?_⟩, ⟨st0 ((up).modTk (fun t => { t with age := 1000000 })), ?_⟩, ⟨st0 ((up).modTk (fun t => { t with age := 1000000 })), ?_⟩⟩ <;>
  first | decide +kernel | (unfold Passes; decide +kernel) | (unfold Passes; dsimp only; decide +kernel)

theorem witness_hostAccessRowsComplete :
  (∃ s : State, ∃ st : Stall, ∃ off : BitVec 26, (let d : Dev := s.dev; d.present st = true ∧ off.toNat % 4 = 0)) ∧
  (∃ s : State, ∃ addr : Nat, ∃ bs : List Byte, (let d : Dev := s.dev; d.present 0 = true ∧ addr + bs.length ≤ 2 ^ 33)) ∧
  (∃ s : State, ∃ addr : Nat, ∃ n : Nat, (let d : Dev := s.dev; d.present 0 = true ∧ d.sownDram addr n = false ∧ addr + n ≤ 2 ^ 33)) ∧
  (∃ s : State, ∃ st : Stall, ∃ addr : Nat, (let d : Dev := s.dev; d.present st = true ∧ inDramWin addr = false)) ∧
  (∃ s : State, (let d : Dev := s.dev; d.present 0 = true)) ∧
  (∃ s : State, (let d : Dev := s.dev; d.pw.pcie ≠ .down)) ∧
  (∃ s : State, ∃ header : W32, ∃ mosi : List W32, (let d : Dev := s.dev; d.hp.sphUp = true ∧ bitOf header 31 = false ∧ mosi.length ≤ fld header 30 24 + 1)) ∧
  (∃ s : State, ∃ st : Stall, (let d : Dev := s.dev; d.present st = true)) ∧
  (∃ s : State, ∃ st : Stall, ∃ a : AxisNo, ∃ f : Freeze, (let d : Dev := s.dev; d.hp.windows[a].freeze[st] = some f ∧ 2 ≤ f.frames)) ∧
  (∃ s : State, ∃ st : Stall, (let d : Dev := s.dev; d.present st = true ∧ st ≠ 0)) ∧
  (∃ s : State, ∃ st : Stall, (let d : Dev := s.dev; d.present st = true ∧ st = 0)) := by
  refine ⟨⟨st0 (up), 0, 0, ?_⟩, ⟨st0 (up), 0x40000000, [7], ?_⟩, ⟨st0 (up), 0, 4, ?_⟩, ⟨st0 (up), 0, 0, ?_⟩, ⟨st0 (up), ?_⟩, ⟨st0 (up), ?_⟩, ⟨st0 ({ (up) with hp := { (up).hp with sphUp := true } }), 0, [], ?_⟩, ⟨st0 (up), 0, ?_⟩, ⟨st0 ({ (up) with hp := { (up).hp with windows := vset up.hp.windows 0 ⟨0, [], vset (Vector.replicate 8 none) 0 (some ⟨[], 2, false⟩)⟩ } }), 0, 0, ⟨[], 2, false⟩, ?_⟩, ⟨st0 ({ (up) with hp := { (up).hp with sphUp := true } }), 1, ?_⟩, ⟨st0 (up), 0, ?_⟩⟩ <;>
  first | decide +kernel | (dsimp only; decide +kernel)

theorem witness_tickRowsComplete :
  (∃ s : State, (let d : Dev := s.dev; d.ticks = true ∧ d.tk.ended = false)) ∧
  (∃ s : State, (let d : Dev := s.dev; d.tk.sync = .acquire ∧ 16 ≤ d.tk.goodCycles)) ∧
  (∃ s : State, (let d : Dev := s.dev; d.tk.sync = .holdover ∧ 10000 * clksPerMs < d.tk.holdoverClks)) ∧
  (∃ s : State, (let d : Dev := s.dev; d.ticks = true ∧ d.lastTick = true ∧ d.tk.ended = false)) ∧
  (∃ s : State, ∃ ln : LaneNo, (let d : Dev := s.dev; d.lanes[ln].role = .inService ∧ d.lanes[ln].phase = .ready)) ∧
  (∃ s : State, ∃ ln : LaneNo, (let d0 : Dev := s.dev; d0.lanes[ln].phase = .ready ∧ d0.lanes[ln].role = .inService ∧ d0.lanes[ln].aerr = false)) ∧
  (∃ s : State, ∃ ln : LaneNo, (let d : Dev := s.dev; d.lanes[ln].phase = .ready)) ∧
  (∃ s : State, ∃ st : Stall, ∃ tag : BitVec 8, ∃ c : Cmd, (let d : Dev := s.dev; (let l := limitOf (fld (wd c.payload 0) 14 0); d.runs st tag 0x210 c = true ∧ badLen c 4 = false ∧ d.liveAxes = [] ∧ d.tickSetBad c = false ∧ overBudget l l d.costs = none))) ∧
  (∃ s : State, ∃ st : Stall, ∃ tag : BitVec 8, ∃ c : Cmd, (let d : Dev := s.dev; (let w := wd c.payload 0; (let t := fld w 14 0; d.runs st tag 0x211 c = true ∧ Passes [(noWord c, stParam), (bitOf w 15 && !d.isOwner st, stNotOwner), (badLen c 1 || rsv w 0xFFFF0000 || (t != 0 && !validTick t), stParam)])))) := by
  refine ⟨⟨st0 (up), ?_⟩, ⟨st0 ((up).modTk (fun t => { t with sync := .acquire, goodCycles := 16 })), ?_⟩, ⟨st0 ((up).modTk (fun t => { t with sync := .holdover, holdoverClks := 5120000001 })), ?_⟩, ⟨st0 ((up).modTk (fun t => { t with pendingSet := some ⟨⟨4000, 4, 8⟩, .zero⟩ })), ?_⟩, ⟨st0 (up.modLane 0 (fun l => { l with phase := .ready })), 0, ?_⟩, ⟨st0 (up.modLane 0 (fun l => { l with phase := .ready })), 0, ?_⟩, ⟨st0 (up.modLane 0 (fun l => { l with phase := .ready })), 0, ?_⟩, ⟨st0 (busy (up) 0x210 [0x08040FA0, 0, 0, 0]), 0, 1, cmd 0x210 [0x08040FA0, 0, 0, 0], ?_⟩, ⟨st0 (busy (up) 0x211 [0]), 0, 1, cmd 0x211 [0], ?_⟩⟩ <;>
  first | decide +kernel | (unfold Passes; decide +kernel) | (unfold Passes; dsimp only; decide +kernel)

theorem witness_laneMovesExecute :
  (∃ s : State, ∃ ln : LaneNo, ∃ h : Fin 3, ∃ l : Lane, s.atHook ln h l) ∧
  (∃ s : State, ∃ ln : LaneNo, ∃ h : Fin 3, ∃ l : Lane, ∃ k : Fin 8, s.atHook ln h l ∧ l.a[k].toNat < 0x1000 ∧ mayWrite h l.a[k].toNat = true) ∧
  (∃ s : State, ∃ ln : LaneNo, ∃ h : Fin 3, ∃ l : Lane, ∃ k : Fin 8, s.atHook ln h l ∧ mayWrite h l.a[k].toNat = false) ∧
  (∃ s : State, ∃ ln : LaneNo, ∃ h : Fin 3, ∃ l : Lane, ∃ k : Fin 8, ∃ ofs : BitVec 16, s.atHook ln h l ∧ (l.a[k] + ofs).toNat < 0x1000 ∧ mayWrite h (l.a[k] + ofs).toNat = true) ∧
  (∃ s : State, ∃ ln : LaneNo, ∃ h : Fin 3, ∃ l : Lane, ∃ addr : BitVec 12, s.atHook ln h l ∧ mayWrite h addr.toNat = true) ∧
  (∃ s : State, ∃ ln : LaneNo, ∃ h : Fin 3, ∃ l : Lane, ∃ k : Fin 8, ∃ ofs : BitVec 16, s.atHook ln h l ∧ (l.a[k] + ofs).toNat ≤ 0x3FFF ∧ l.far = []) ∧
  (∃ s : State, ∃ ln : LaneNo, ∃ h : Fin 3, ∃ l : Lane, ∃ k : Fin 8, ∃ ofs : BitVec 16, s.atHook ln h l ∧ (l.a[k] + ofs).toNat ≤ 0x3FFF) := by
  refine ⟨⟨st0 (hooked), 0, 0, lane0, ?_⟩, ⟨st0 (hooked.modLane 0 (fun _ => { lane0 with a := vset lane0.a 0 0x180 })), 0, 0, { lane0 with a := vset lane0.a 0 0x180 }, 0, ?_⟩, ⟨st0 (hooked), 0, 0, lane0, 0, ?_⟩, ⟨st0 (hooked), 0, 0, lane0, 0, 0x180, ?_⟩, ⟨st0 (hooked), 0, 0, lane0, 0x1FF, ?_⟩, ⟨st0 (hooked), 0, 0, lane0, 0, 0, ?_⟩, ⟨st0 (hooked), 0, 0, lane0, 0, 0, ?_⟩⟩ <;>
  first | (unfold State.atHook; decide +kernel) | decide +kernel

theorem witness_laneArithmeticExecutes :
  (∃ s : State, ∃ ln : LaneNo, ∃ h : Fin 3, ∃ l : Lane, s.atHook ln h l) ∧
  (∃ s : State, ∃ ln : LaneNo, ∃ h : Fin 3, ∃ l : Lane, ∃ n : Fin 32, s.atHook ln h l ∧ n.val ≤ 19) ∧
  (∃ s : State, ∃ ln : LaneNo, ∃ h : Fin 3, ∃ l : Lane, ∃ cc : Fin 16, s.atHook ln h l ∧ ccOk cc = true) ∧
  (∃ s : State, ∃ ln : LaneNo, ∃ h : Fin 3, ∃ l : Lane, ∃ rd : Fin 16, s.atHook ln h l ∧ pairOk rd = true) := by
  refine ⟨⟨st0 (hooked), 0, 0, lane0, ?_⟩, ⟨st0 (hooked), 0, 0, lane0, 19, ?_⟩, ⟨st0 (hooked), 0, 0, lane0, 9, ?_⟩, ⟨st0 (hooked), 0, 0, lane0, 2, ?_⟩⟩ <;>
  first | (unfold State.atHook; decide +kernel) | decide +kernel

theorem witness_laneAccumulatorsExecute :
  (∃ s : State, ∃ ln : LaneNo, ∃ h : Fin 3, ∃ l : Lane, ∃ lx : ParLoad, ∃ ly : ParLoad, s.atHook ln h l ∧ loadsOk lx ly = true) ∧
  (∃ s : State, ∃ ln : LaneNo, ∃ h : Fin 3, ∃ l : Lane, ∃ dx : Fin 16, ∃ dy : Fin 16, ∃ lx : ParLoad, ∃ ly : ParLoad, s.atHook ln h l ∧ pairOk dx = true ∧ pairOk dy = true ∧ loadsOk lx ly = true) ∧
  (∃ s : State, ∃ ln : LaneNo, ∃ h : Fin 3, ∃ l : Lane, s.atHook ln h l) ∧
  (∃ s : State, ∃ ln : LaneNo, ∃ h : Fin 3, ∃ l : Lane, ∃ sh : BitVec 6, s.atHook ln h l ∧ sacShiftOk sh = true) := by
  refine ⟨⟨st0 (hooked), 0, 0, lane0, ⟨true, 2, 0, 1⟩, ⟨true, 3, 1, 2⟩, ?_⟩, ⟨st0 (hooked), 0, 0, lane0, 2, 14, ⟨true, 2, 0, 1⟩, ⟨false, 3, 1, 2⟩, ?_⟩, ⟨st0 (hooked), 0, 0, lane0, ?_⟩, ⟨st0 (hooked), 0, 0, lane0, 63, ?_⟩⟩ <;>
  first | (unfold State.atHook; decide +kernel) | decide +kernel

theorem witness_laneControlExecutes :
  (∃ s : State, ∃ ln : LaneNo, ∃ h : Fin 3, ∃ l : Lane, ∃ t : BitVec 11, s.atHook ln h l ∧ l.slots = 0 ∧ l.pc + 2 < t.toNat) ∧
  (∃ s : State, ∃ ln : LaneNo, ∃ h : Fin 3, ∃ l : Lane, ∃ cc : Fin 16, ∃ t : BitVec 11, s.atHook ln h l ∧ l.slots = 0 ∧ ccOk cc = true ∧ l.pc + 2 < t.toNat) ∧
  (∃ s : State, ∃ ln : LaneNo, ∃ h : Fin 3, ∃ l : Lane, ∃ n : BitVec 11, s.atHook ln h l ∧ l.slots = 0 ∧ 1 ≤ n.toNat ∧ n.toNat ≤ 1024) ∧
  (∃ s : State, ∃ ln : LaneNo, ∃ h : Fin 3, ∃ l : Lane, s.atHook ln h l ∧ l.slots = 0) := by
  refine ⟨⟨st0 (hooked), 0, 0, lane0, 3, ?_⟩, ⟨st0 (hooked), 0, 0, lane0, 9, 2047, ?_⟩, ⟨st0 (hooked), 0, 0, lane0, 1024, ?_⟩, ⟨st0 (hooked), 0, 0, lane0, ?_⟩⟩ <;>
  first | (unfold State.atHook; decide +kernel) | decide +kernel

theorem witness_plotCommandsComplete :
  (∃ s : State, ∃ st : Stall, ∃ tag : BitVec 8, ∃ c : Cmd, (let d : Dev := s.dev; d.runs st tag 0x100 c = true ∧ Passes [(badLen c 0, stParam)])) ∧
  (∃ s : State, ∃ st : Stall, ∃ tag : BitVec 8, ∃ c : Cmd, (let d : Dev := s.dev; d.runs st tag 0x104 c = true ∧ Passes [(badLen c 1 || rsv (wd c.payload 0) 0xFFFFFFF0, stParam)])) ∧
  (∃ s : State, ∃ st : Stall, ∃ tag : BitVec 8, ∃ c : Cmd, (let d : Dev := s.dev; d.runs st tag 0x101 c = true ∧ Passes [(noWord c, stParam)])) ∧
  (∃ s : State, ∃ st : Stall, ∃ tag : BitVec 8, ∃ c : Cmd, (let d : Dev := s.dev; d.runs st tag 0x102 c = true ∧ Passes [(noWord c, stParam)])) ∧
  (∃ s : State, ∃ st : Stall, ∃ tag : BitVec 8, ∃ c : Cmd, (let d : Dev := s.dev; d.runs st tag 0x103 c = true ∧ Passes [(noWord c, stParam)])) ∧
  (∃ d : Dev, ∃ c : Cmd, c.code.toNat = 0x101 ∧ Passes (d.plotChecks false c) ∧ d.failsBudget [((axisOf c).val, d.costOfPlot (recWord c))] = none) ∧
  (∃ d : Dev, ∃ c : Cmd, c.code.toNat = 0x103 ∧ Passes (d.plotChecks true c) ∧ d.failsBudget [((axisOf c).val, d.costOfPlot (recWord c))] = none) ∧
  (∃ d : Dev, ∃ c : Cmd, c.code.toNat = 0x102 ∧ Passes (d.releaseChecks c)) := by
  refine ⟨⟨st0 (busy (up) 0x100 []), 0, 1, cmd 0x100 [], ?_⟩, ⟨st0 (busy (up) 0x104 [3]), 0, 1, cmd 0x104 [3], ?_⟩, ⟨st0 (busy (up) 0x101 [0, 1, 0x3F020100, 0x07D00000, 0x3F3F00, 0xF, 0x2F, 1000, 0, 0, 0, 0, 0, 0, 0]), 0, 1, cmd 0x101 [0, 1, 0x3F020100, 0x07D00000, 0x3F3F00, 0xF, 0x2F, 1000, 0, 0, 0, 0, 0, 0, 0], ?_⟩, ⟨st0 (busy (up) 0x102 [0]), 0, 1, cmd 0x102 [0], ?_⟩, ⟨st0 (busy (up) 0x103 [0, 1, 0x3F020100, 0x07D00000, 0x3F3F00, 0xF, 0x2F, 1000, 0, 0, 0, 0, 0, 0, 0]), 0, 1, cmd 0x103 [0, 1, 0x3F020100, 0x07D00000, 0x3F3F00, 0xF, 0x2F, 1000, 0, 0, 0, 0, 0, 0, 0], ?_⟩, ⟨up, cmd 0x101 [0, 1, 0x3F020100, 0x07D00000, 0x3F3F00, 0xF, 0x2F, 1000, 0, 0, 0, 0, 0, 0, 0], ?_⟩, ⟨pm, cmd 0x103 [0, 1, 0x3F020100, 0x07D00000, 0x3F3F00, 0xF, 0x2F, 1000, 0, 0, 0, 0, 0, 0, 0], ?_⟩, ⟨pm, cmd 0x102 [0], ?_⟩⟩ <;>
  first | decide +kernel | (unfold Passes; decide +kernel) | (unfold Passes; dsimp only; decide +kernel)

theorem witness_lawCommandsComplete :
  (∃ s : State, ∃ st : Stall, ∃ tag : BitVec 8, ∃ c : Cmd, (let d : Dev := s.dev; d.runs st tag 0x220 c = true)) ∧
  (∃ d : Dev, ∃ c : Cmd, c.code.toNat = 0x220 ∧ Passes (d.loadChecks c)) ∧
  (∃ s : State, ∃ st : Stall, ∃ tag : BitVec 8, ∃ c : Cmd, (let d : Dev := s.dev; d.runs st tag 0x221 c = true)) ∧
  (∃ d0 : Dev, ∃ c : Cmd, ∃ b : Nat, ∃ ho : Nat, ∃ f : Nat, ∃ start : Nat, (let d := { d0 with progs := { d0.progs with staging := none } }; (let w := wd c.payload 0; (let n := progOf c; (let len := fld (wd c.payload 1) 11 0; (let hook : Fin 3 := Fin.ofNat 3 (fld w 9 8); (let image := (d0.progs.staging.map (·.words)).getD []; c.code.toNat = 0x221 ∧ Passes [(noWord c, stParam), (!d0.stagedFor n || d0.loaded n, stState), (badLen c 3 || rsv w 0xFFFFFC00 || rsv (wd c.payload 1) 0xFFFFF000 || fld w 9 8 == 3, stParam)] ∧ verifyImage image len (wd c.payload 2) hook = .passes b ho f ∧ d.progs.place len = some start))))))) ∧
  (∃ s : State, ∃ st : Stall, ∃ tag : BitVec 8, ∃ c : Cmd, (let d : Dev := s.dev; d.runs st tag 0x222 c = true)) ∧
  (∃ d : Dev, ∃ c : Cmd, c.code.toNat = 0x222 ∧ (let n := progOf c; Passes [(badLen c 1 || rsv (wd c.payload 0) 0xFFFFFF00 || badProg n || !d.loaded n, stParam), (!(d.axesOfProg n).isEmpty || d.attaching c n, stState)])) ∧
  (∃ s : State, ∃ st : Stall, ∃ tag : BitVec 8, ∃ c : Cmd, (let d : Dev := s.dev; (let n := progOf c; d.runs st tag 0x223 c = true ∧ Passes [(badLen c 1 || rsv (wd c.payload 0) 0xFFFFFF00 || badProg n, stParam)]))) ∧
  (∃ s : State, ∃ st : Stall, ∃ tag : BitVec 8, ∃ c : Cmd, (let d : Dev := s.dev; (let a := axisOf c; d.runs st tag 0x224 c = true ∧ Passes [(noWord c, stParam), (!(d.before c 0x224 a).isEmpty || (bitOf (wd c.payload 0) 16 && d.loops[a].swap.isSome), stState)]))) ∧
  (∃ s : State, ∃ st : Stall, ∃ tag : BitVec 8, ∃ c : Cmd, (let d : Dev := s.dev; d.runs st tag 0x225 c = true ∧ Passes [(badLen c 1 || rsv (wd c.payload 0) 0xFFFF0000 || fld (wd c.payload 0) 15 0 == 0, stParam)])) ∧
  (∃ s : State, ∃ st : Stall, ∃ tag : BitVec 8, ∃ c : Cmd, (let d : Dev := s.dev; d.runs st tag 0x230 c = true)) ∧
  (∃ d : Dev, ∃ c : Cmd, c.code.toNat = 0x230 ∧ Passes (d.coefChecks c)) ∧
  (∃ s : State, ∃ st : Stall, ∃ tag : BitVec 8, ∃ c : Cmd, (let d : Dev := s.dev; (let a := axisOf c; (let hold := d.loops[a].copying || !(d.earlier c 0x230 a).isEmpty; d.runs st tag 0x231 c = true ∧ Passes [(noWord c, stParam), (d.axisUnfit a || d.loops[a].swap.isSome || d.attachSwaps c a, stState), (badLen c 3 || rsv (wd c.payload 0) 0xFFFFFFC0 || (!hold && d.swapTooNear c), stParam)])))) ∧
  (∃ s : State, ∃ st : Stall, ∃ tag : BitVec 8, ∃ c : Cmd, (let d : Dev := s.dev; (let w := wd c.payload 0; (let w1 := wd c.payload 1; (let a := axisOf c; (let k := fld w 25 16; (let n := fld w1 10 0; d.runs st tag 0x232 c = true ∧ Passes [(noWord c, stParam), (!d.assigned a, stState), (badLen c 2 || rsv w 0xFC00FFE0 || rsv w1 0xFFFFF800 || notIn n 1 1022 || decide (k + n > 1024), stParam)]))))))) ∧
  (∃ s : State, ∃ a : AxisNo, (let d : Dev := s.dev; d.loops[a].copying = true)) ∧
  (∃ c : Cmd, c.code.toNat = 0x225) ∧
  (∃ d : Dev, ∃ c : Cmd, c.code.toNat = 0x224 ∧ Passes (d.attachChecks c) ∧ (let a := axisOf c; (let w5 := d.attachWord a (fld (wd c.payload 0) 15 8); d.failsBudget [(a.val, d.costOfPlot (fun k => if k = 5 then w5 else d.plotW a k))] = none ∧ bitOf (wd c.payload 0) 16 = false))) := by
  refine ⟨⟨st0 (busy (up) 0x220 [0x101, 0x10000, 0, 0xFC]), 0, 1, cmd 0x220 [0x101, 0x10000, 0, 0xFC], ?_⟩, ⟨up, cmd 0x220 [0x101, 0x10000, 0, 0xFC], ?_⟩, ⟨st0 (busy (staged) 0x221 [1, 1, 4217362064]), 0, 1, cmd 0x221 [1, 1, 4217362064], ?_⟩, ⟨staged, cmd 0x221 [1, 1, 4217362064], 3, 3, 0, 0, ?_⟩, ⟨st0 (busy (withProg) 0x222 [1]), 0, 1, cmd 0x222 [1], ?_⟩, ⟨withProg, cmd 0x222 [1], ?_⟩, ⟨st0 (busy (up) 0x223 [64]), 0, 1, cmd 0x223 [64], ?_⟩, ⟨st0 (busy (withProg) 0x224 [0x100]), 0, 1, cmd 0x224 [0x100], ?_⟩, ⟨st0 (busy (up) 0x225 [0xFFFF]), 0, 1, cmd 0x225 [0xFFFF], ?_⟩, ⟨st0 (busy (pm) 0x230 [0x3000000, 1, 7]), 0, 1, cmd 0x230 [0x3000000, 1, 7], ?_⟩, ⟨pm, cmd 0x230 [0x3000000, 1, 7], ?_⟩, ⟨st0 (busy (pm) 0x231 [0, 0, 0]), 0, 1, cmd 0x231 [0, 0, 0], ?_⟩, ⟨st0 (busy (pm) 0x232 [0x3000000, 1]), 0, 1, cmd 0x232 [0x3000000, 1], ?_⟩, ⟨st0 ((pm).modLoop 0 (fun x => { x with copying := true })), 0, ?_⟩, ⟨cmd 0x225 [1], ?_⟩, ⟨withProg, cmd 0x224 [0x100], ?_⟩⟩ <;>
  first | decide +kernel | (unfold Passes; decide +kernel) | (unfold Passes; dsimp only; decide +kernel)

theorem witness_controlCommandsComplete :
  (∃ s : State, ∃ st : Stall, ∃ tag : BitVec 8, ∃ c : Cmd, (let d : Dev := s.dev; d.runs st tag 0x240 c = true ∧ Passes (d.scaleChecks c))) ∧
  (∃ s : State, ∃ st : Stall, ∃ tag : BitVec 8, ∃ c : Cmd, (let d : Dev := s.dev; d.runs st tag 0x241 c = true ∧ Passes (d.modeChecks c))) ∧
  (∃ s : State, ∃ st : Stall, ∃ tag : BitVec 8, ∃ c : Cmd, (let d : Dev := s.dev; d.runs st tag 0x250 c = true ∧ Passes (d.repChecks c))) ∧
  (∃ s : State, ∃ st : Stall, ∃ tag : BitVec 8, ∃ c : Cmd, (let d : Dev := s.dev; d.runs st tag 0x251 c = true ∧ Passes (d.repControlChecks c))) ∧
  (∃ s : State, ∃ st : Stall, ∃ tag : BitVec 8, ∃ c : Cmd, (let d : Dev := s.dev; d.runs st tag 0x260 c = true ∧ Passes (d.exciteChecks c))) ∧
  (∃ s : State, ∃ st : Stall, ∃ tag : BitVec 8, ∃ c : Cmd, (let d : Dev := s.dev; d.runs st tag 0x261 c = true ∧ Passes (d.identifyChecks c))) ∧
  (∃ s : State, ∃ st : Stall, ∃ tag : BitVec 8, ∃ c : Cmd, (let d : Dev := s.dev; d.runs st tag 0x252 c = true ∧ Passes (d.storeChecks c))) ∧
  (∃ d : Dev, ∃ c : Cmd, c.code.toNat = 0x240 ∧ Passes (d.scaleChecks c)) ∧
  (∃ d : Dev, ∃ c : Cmd, c.code.toNat = 0x241 ∧ Passes (d.modeChecks c) ∧ bitOf (wd c.payload 0) 7 = false) ∧
  (∃ d : Dev, ∃ c : Cmd, c.code.toNat = 0x251 ∧ Passes (d.repControlChecks c) ∧ fld (wd c.payload 0) 5 4 = 1) ∧
  (∃ d : Dev, ∃ c : Cmd, c.code.toNat = 0x252 ∧ Passes (d.storeChecks c) ∧ storeOp c = 2) ∧
  (∃ d : Dev, ∃ c : Cmd, c.code.toNat = 0x260 ∧ Passes (d.exciteChecks c) ∧ bitOf (wd c.payload 0) 8 = true) ∧
  (∃ d : Dev, ∃ c : Cmd, c.code.toNat = 0x261 ∧ Passes (d.identifyChecks c)) := by
  refine ⟨⟨st0 (busy (pm) 0x240 [0x01CC0400, 0]), 0, 1, cmd 0x240 [0x01CC0400, 0], ?_⟩, ⟨st0 (busy (pm) 0x241 [0x30, 0]), 0, 1, cmd 0x241 [0x30, 0], ?_⟩, ⟨st0 (busy (pm) 0x250 [0, 0x1000, 0, 0, 0, 0]), 0, 1, cmd 0x250 [0, 0x1000, 0, 0, 0, 0], ?_⟩, ⟨st0 (busy (pm) 0x251 [0x10]), 0, 1, cmd 0x251 [0x10], ?_⟩, ⟨st0 (busy (pmOn) 0x260 [0, 1, 100, 0x00010000]), 0, 1, cmd 0x260 [0, 1, 100, 0x00010000], ?_⟩, ⟨st0 (busy (pmOn) 0x261 [0, 100, 1000]), 0, 1, cmd 0x261 [0, 100, 1000], ?_⟩, ⟨st0 (busy (pm) 0x252 [0x20, 0]), 0, 1, cmd 0x252 [0x20, 0], ?_⟩, ⟨pm, cmd 0x240 [0x01CC0400, 0], ?_⟩, ⟨pm, cmd 0x241 [0x30, 0], ?_⟩, ⟨pm, cmd 0x251 [0x10], ?_⟩, ⟨pm, cmd 0x252 [0x20, 0], ?_⟩, ⟨(pmOn).modCtl 0 (fun x => { x with excite := some ⟨0, 0, 1, 100, 0, 1, 0, 0, 0⟩ }), cmd 0x260 [0x100, 0, 0, 0], ?_⟩, ⟨pmOn, cmd 0x261 [0, 100, 1000], ?_⟩⟩ <;>
  first | decide +kernel | (unfold Passes; decide +kernel) | (unfold Passes; dsimp only; decide +kernel)

theorem witness_controlEventsComplete :
  (∃ s : State, ∃ a : AxisNo, (let d : Dev := s.dev; (let r := d.ctl[a].rep; d.lawOn a 5 = true ∧ bitOf r.conf[5] 22 = true ∧ fld r.conf[5] 15 0 ≠ 0 ∧ d.passedMs r.lastSave (1000 * fld r.conf[5] 15 0) = true ∧ r.frozen = false ∧ r.storing = none))) ∧
  (∃ s : State, ∃ a : AxisNo, ∃ slot : Nat, (let d : Dev := s.dev; d.ctl[a].rep.storing = some (slot, none) ∧ d.pw.mramShut = false)) ∧
  (∃ s : State, ∃ a : AxisNo, ∃ x : Excitation, (let d : Dev := s.dev; d.ctl[a].excite = some x ∧ d.passedMs x.startClk x.durMs = true)) ∧
  (∃ s : State, ∃ a : AxisNo, ∃ x : Identify, (let d : Dev := s.dev; d.ctl[a].identify = some x ∧ x.stage = 4 ∧ x.result ≠ 0)) ∧
  (∃ s : State, ∃ a : AxisNo, ∃ x : Identify, (let d : Dev := s.dev; d.ctl[a].identify = some x ∧ x.stage = 4 ∧ x.result = 0)) ∧
  (∃ s : State, ∃ a : AxisNo, (let d : Dev := s.dev; d.ctl[a].uLimDue = true)) ∧
  (∃ s : State, ∃ a : AxisNo, (let d : Dev := s.dev; d.ctl[a].overDue = true)) ∧
  (∃ s : State, ∃ a : AxisNo, ∃ k : Fin 4, (let d : Dev := s.dev; d.ctl[a].plaus[k].due = true)) := by
  refine ⟨⟨st0 ({ ((pm).modCtl 0 (fun x => { x with rep := { Rep.reset with conf := vset Rep.reset.conf 5 0x0040000A } })) with clk := 5120000000 }), 0, ?_⟩, ⟨st0 ((pm).modCtl 0 (fun x => { x with rep := { Rep.reset with storing := some (3, none) } })), 0, 3, ?_⟩, ⟨st0 ({ ((pmOn).modCtl 0 (fun x => { x with excite := some ⟨0, 0, 1, 100, 0, 1, 0, 0, 0⟩ })) with clk := 512000 }), 0, ⟨0, 0, 1, 100, 0, 1, 0, 0, 0⟩, ?_⟩, ⟨st0 ((pm).modCtl 0 (fun x => { x with identify := some { Identify.begin 5 100 0 1 0 with stage := 4, u1 := 5, u2 := 9, uStep := 5, i1 := 3, iClks := 4000, result := 5 } })), 0, { Identify.begin 5 100 0 1 0 with stage := 4, u1 := 5, u2 := 9, uStep := 5, i1 := 3, iClks := 4000, result := 5 }, ?_⟩, ⟨st0 ((pm).modCtl 0 (fun x => { x with identify := some { Identify.begin 5 100 0 1 0 with stage := 4, u1 := 5, u2 := 9, uStep := 5, i1 := 3, iClks := 4000, result := 0 } })), 0, { Identify.begin 5 100 0 1 0 with stage := 4, u1 := 5, u2 := 9, uStep := 5, i1 := 3, iClks := 4000, result := 0 }, ?_⟩, ⟨st0 ((pm).modCtl 0 (fun x => { x with uLimDue := true })), 0, ?_⟩, ⟨st0 ((pm).modCtl 0 (fun x => { x with overDue := true })), 0, ?_⟩, ⟨st0 ((pm).modCtl 0 (fun x => { x with plaus := vset x.plaus 0 ⟨3, true⟩ })), 0, 0, ?_⟩⟩ <;>
  first | decide +kernel | (dsimp only; decide +kernel)

theorem witness_feedbackCommandsComplete :
  (∃ s : State, ∃ st : Stall, ∃ tag : BitVec 8, ∃ c : Cmd, (let d : Dev := s.dev; d.runs st tag 0x300 c = true ∧ Passes [(noWord c, stParam), (d.srcLive (srcNo c).val || d.namesFault c, stState), (d.badFb c, stParam)])) ∧
  (∃ s : State, ∃ st : Stall, ∃ tag : BitVec 8, ∃ c : Cmd, (let d : Dev := s.dev; (let w := wd c.payload 0; (let f := wd c.payload 1; (let e : Fin 4 := Fin.ofNat 4 (fld w 1 0); d.runs st tag 0x301 c = true ∧ Passes [(noWord c, stParam), ((d.excUsers e).any (fun i => d.srcLive i.val), stState), (badLen c 2 || rsv w 0xFFFFFC00 || rsv f 0xFFFF8000 || decide (fld w 9 3 < 10) || decide (fld w 9 3 > 70) || decide (fld f 14 0 < 2000) || decide (fld f 14 0 > 20000), stParam)]))))) ∧
  (∃ s : State, ∃ st : Stall, ∃ tag : BitVec 8, ∃ c : Cmd, (let d : Dev := s.dev; d.runs st tag 0x302 c = true ∧ Passes [(noWord c, stParam), (d.fb.src[srcNo c].mode == 0 || d.srcLive (srcNo c).val || d.namesFault c, stState), (badLen c 3 || rsv (wd c.payload 0) 0xFFFFFFE0 || !inR11 (s64 (wd c.payload 1) (wd c.payload 2)), stParam)])) ∧
  (∃ s : State, ∃ st : Stall, ∃ tag : BitVec 8, ∃ c : Cmd, (let d : Dev := s.dev; d.runs st tag 0x303 c = true ∧ Passes [(badLen c 1 || wd c.payload 0 == 0, stParam)])) ∧
  (∃ s : State, ∃ st : Stall, ∃ tag : BitVec 8, ∃ c : Cmd, (let d : Dev := s.dev; (let w := wd c.payload 0; d.runs st tag 0x310 c = true ∧ Passes [(badLen c 1 || rsv w 0xFE00C0C0 || (decide (fld w 13 8 > 31) && fld w 13 8 != 63), stParam)]))) ∧
  (∃ s : State, ∃ st : Stall, ∃ tag : BitVec 8, ∃ c : Cmd, (let d : Dev := s.dev; (let w := wd c.payload 0; d.runs st tag 0x311 c = true ∧ Passes [(badLen c 1 || rsv w 0xFFFFFF80 || fld w 6 4 == 0 || decide (fld w 6 4 > 4), stParam)]))) ∧
  (∃ s : State, ∃ st : Stall, ∃ tag : BitVec 8, ∃ c : Cmd, (let d : Dev := s.dev; (let p := c.payload; d.runs st tag 0x320 c = true ∧ Passes [(badLen c 3 || rsv (wd p 0) 0xFFFFFFE0 || rsv (wd p 1) 0xFF000000 || decide ((wd p 1).toNat < 4) || rsv (wd p 2) 0xF0000000 || fld (wd p 2) 27 20 == 0 || decide (fld (wd p 2) 27 20 > 64), stParam)]))) ∧
  (∃ d : Dev, ∃ c : Cmd, c.code.toNat = 0x302 ∧ d.fb.src[srcNo c].mode ≠ 0 ∧ d.srcLive (srcNo c).val = false) ∧
  (∃ c : Cmd, c.code.toNat = 0x303) ∧
  (∃ c : Cmd, c.code.toNat = 0x310) := by
  refine ⟨⟨st0 (busy (pm) 0x300 [0x100, 4000, 0, 0x010000, 1]), 0, 1, cmd 0x300 [0x100, 4000, 0, 0x010000, 1], ?_⟩, ⟨st0 (busy (up) 0x301 [0x50, 10000]), 0, 1, cmd 0x301 [0x50, 10000], ?_⟩, ⟨st0 (busy (src (fun x => { x with conf := vset (vset x.conf 0 0x100) 1 4000 }) (pm)) 0x302 [0, 5, 0]), 0, 1, cmd 0x302 [0, 5, 0], ?_⟩, ⟨st0 (busy (up) 0x303 [1]), 0, 1, cmd 0x303 [1], ?_⟩, ⟨st0 (busy (up) 0x310 [0x00003F00]), 0, 1, cmd 0x310 [0x00003F00], ?_⟩, ⟨st0 (busy (up) 0x311 [0x40]), 0, 1, cmd 0x311 [0x40], ?_⟩, ⟨st0 (busy (up) 0x320 [0, 4, 0x00100000]), 0, 1, cmd 0x320 [0, 4, 0x00100000], ?_⟩, ⟨src (fun x => { x with conf := vset (vset x.conf 0 0x100) 1 4000 }) (pm), cmd 0x302 [0, 5, 0], ?_⟩, ⟨cmd 0x303 [1], ?_⟩, ⟨cmd 0x310 [0], ?_⟩⟩ <;>
  first | decide +kernel | (unfold Passes; decide +kernel) | (unfold Passes; dsimp only; decide +kernel)

theorem witness_feedbackPinsComplete :
  (∃ s : State, ∃ e : Fin 4, ∃ f : BitVec 15, ∃ a : BitVec 7, (let d : Dev := s.dev; d.fb.exc[e].pending = some (f, a))) ∧
  (∃ s : State, ∃ g : Fin 16, ∃ a : Bool, ∃ b : Bool, ∃ k : Nat, (let d : Dev := s.dev; (let x : FbSource := d.fb.src[egSrc g]; (let step := (quadIndex a b + 4 - quadIndex x.lineA x.lineB) % 4; x.accepts k = true ∧ x.mode = 1 ∧ step = 1 ∨ step = 3)))) ∧
  (∃ s : State, ∃ g : Fin 16, ∃ a : Bool, ∃ b : Bool, ∃ k : Nat, ∃ n : Nat, (let d : Dev := s.dev; (let x : FbSource := d.fb.src[egSrc g]; x.accepts k = true ∧ x.mode = 1 ∧ (quadIndex a b + 4 - quadIndex x.lineA x.lineB) % 4 = 2 ∧ x.doubleOk (d.clk + 2 * n) = false))) ∧
  (∃ s : State, ∃ g : Fin 16, ∃ k : Nat, (let d : Dev := s.dev; (let x : FbSource := d.fb.src[egSrc g]; x.accepts k = true ∧ x.mode = 1 ∧ bitOf x.conf[1] 24 = false ∧ x.firstIdx = none))) ∧
  (∃ s : State, ∃ g : Fin 16, ∃ code : Fin 8, ∃ k : Nat, (let d : Dev := s.dev; (let x : FbSource := d.fb.src[egSrc g]; x.accepts k = true ∧ x.mode = 2 ∧ 5 < x.sectorOf code.val))) ∧
  (∃ s : State, ∃ g : Fin 16, ∃ code : Fin 8, ∃ k : Nat, (let d : Dev := s.dev; (let x : FbSource := d.fb.src[egSrc g]; x.accepts k = true ∧ x.mode = 2 ∧ x.sectorOf code.val ≤ 5 ∧ x.hallSector ≤ 5 ∧ (x.hallPlace (x.sectorOf code.val) + 6 - x.hallPlace x.hallSector) % 6 = 1))) ∧
  (∃ s : State, ∃ g : Fin 16, ∃ k : Nat, (let d : Dev := s.dev; (let x : FbSource := d.fb.src[egSrc g]; x.accepts k = true ∧ x.mode = 3 ∧ fld x.conf[1] 13 12 = 0 ∧ x.refNext = false ∧ x.sync ≠ .synced))) ∧
  (∃ s : State, ∃ g : Fin 16, ∃ w : AnalogData, ∃ k : Nat, ∃ p : Int × Int, (let d : Dev := s.dev; (let x : FbSource := d.fb.src[egSrc g]; (let r := x.read (some w); x.accepts k = true ∧ x.mode = 4 ∧ bitOf x.conf[1] 21 = true ∧ r.pair = some p)))) ∧
  (∃ s : State, ∃ i : Fin 32, (let d : Dev := s.dev; (let x : FbSource := d.fb.src[i]; x.isEdge = true ∧ x.still = false ∧ x.lastEdge + x.stillTicks * d.tickClks ≤ d.clk + d.tickClks))) ∧
  (∃ s : State, ∃ g : Fin 16, ∃ k : Nat, (let d : Dev := s.dev; d.fb.src[egSrc g].accepts k = true)) ∧
  (∃ s : State, ∃ g : Fin 16, ∃ k : Nat, (let d : Dev := s.dev; d.fb.src[egSrc g].accepts k = false)) ∧
  (∃ s : State, ∃ e : Fin 4, (let d : Dev := s.dev; d.fb.exc[e].en = true)) := by
  refine ⟨⟨st0 ({ up with fb := { up.fb with exc := vset up.fb.exc 0 ⟨0, 0, false, some (1, 2), false⟩ } }), 0, 1, 2, ?_⟩, ⟨st0 (src (fun x => { x with conf := vset (vset x.conf 0 0x100) 1 4000 }) (pm)), 0, true, false, 1, ?_⟩, ⟨st0 (src (fun x => { x with conf := vset (vset x.conf 0 0x100) 1 4000 }) (pm)), 0, true, true, 1, 0, ?_⟩, ⟨st0 (src (fun x => { x with conf := vset (vset x.conf 0 0x100) 1 4000 }) (pm)), 0, 1, ?_⟩, ⟨st0 (src (fun x => { x with conf := vset (vset x.conf 0 0x200) 2 7 }) (pm)), 0, 0, 1, ?_⟩, ⟨st0 (src (fun x => { x with conf := vset (vset x.conf 0 0x200) 2 8, hallSector := 0 }) (pm)), 0, 1, 1, ?_⟩, ⟨st0 (src (fun x => { x with conf := vset x.conf 0 0x300 }) (pm)), 0, 1, ?_⟩, ⟨st0 (src (fun x => { x with conf := vset (vset x.conf 0 0x400) 1 0x200000 }) (pm)), 0, .pairs [(0x1000, 0x0500)] (0x1000, 0x0500) 0, 1, (268435456, 83886080), ?_⟩, ⟨st0 (src (fun x => { x with conf := vset (vset x.conf 0 0x100) 1 4000, still := false }) (pm)), 0, ?_⟩, ⟨st0 (up), 0, 1, ?_⟩, ⟨st0 (src (fun x => { x with conf := vset x.conf 0 0x80100 }) (pm)), 0, 0, ?_⟩, ⟨st0 ({ up with fb := { up.fb with exc := vset up.fb.exc 0 ⟨0, 0, true, none, false⟩ } }), 0, ?_⟩⟩ <;>
  first | decide +kernel | (dsimp only; decide +kernel)

theorem witness_serialAndProbeEventsComplete :
  (∃ s : State, ∃ p : Fin 16, (let d : Dev := s.dev; (let x : FbSource := d.fb.src[espSrc p]; x.isSerial = true ∧ (bitOf x.conf[2] 19 && (d.sampleAt x).2 % max 1 d.tk.conf.frameTicks.toNat != 0) = false ∧ x.reply = none ∧ x.exchange = false))) ∧
  (∃ s : State, ∃ p : Fin 16, (let d : Dev := s.dev; (let x : FbSource := d.fb.src[espSrc p]; x.mode = 8 ∧ x.exchange = true))) ∧
  (∃ s : State, ∃ p : Fin 16, (let d : Dev := s.dev; d.fb.src[espSrc p].isSerial = true ∧ d.fb.src[espSrc p].exchange = true)) ∧
  (∃ s : State, ∃ p : Fin 16, ∃ rising : Bool, ∃ k : Nat, (let d : Dev := s.dev; (let x : Probe := d.fb.probes[p]; filtered x.filt.toNat k = true ∧ x.edge.getLsbD (if rising then 0 else 1) = true ∧ x.entries.length < 4))) ∧
  (∃ s : State, ∃ p : Fin 16, ∃ rising : Bool, ∃ k : Nat, (let d : Dev := s.dev; (let x : Probe := d.fb.probes[p]; filtered x.filt.toNat k = true ∧ x.edge.getLsbD (if rising then 0 else 1) = true ∧ 4 ≤ x.entries.length))) := by
  refine ⟨⟨st0 (up.modSrc 16 (fun x => { x with conf := vset x.conf 0 0x800 })), 0, ?_⟩, ⟨st0 (up.modSrc 16 (fun x => { x with conf := vset x.conf 0 0x800, exchange := true })), 0, ?_⟩, ⟨st0 (up.modSrc 16 (fun x => { x with conf := vset x.conf 0 0x800, exchange := true })), 0, ?_⟩, ⟨st0 (up.modProbe 0 (fun x => { x with edge := 3 })), 0, true, 1, ?_⟩, ⟨st0 (up.modProbe 0 (fun x => { x with edge := 3, entries := List.replicate 4 ⟨.zero, 0, true, 0, 0, true, true, true⟩ })), 0, true, 1, ?_⟩⟩ <;>
  first | decide +kernel | (dsimp only; decide +kernel)

theorem witness_bridgeCommandsComplete :
  (∃ s : State, ∃ st : Stall, ∃ tag : BitVec 8, ∃ c : Cmd, (let d : Dev := s.dev; d.runs st tag 0x400 c = true ∧ Passes (d.pwmBad c))) ∧
  (∃ s : State, ∃ st : Stall, ∃ tag : BitVec 8, ∃ c : Cmd, (let d : Dev := s.dev; d.runs st tag 0x401 c = true ∧ Passes (d.pwmBad c))) ∧
  (∃ s : State, ∃ st : Stall, ∃ tag : BitVec 8, ∃ c : Cmd, (let d : Dev := s.dev; d.runs st tag 0x402 c = true ∧ Passes (d.pwmBad c))) ∧
  (∃ s : State, ∃ st : Stall, ∃ tag : BitVec 8, ∃ c : Cmd, (let d : Dev := s.dev; d.runs st tag 0x411 c = true ∧ Passes (d.pwmBad c))) ∧
  (∃ s : State, ∃ st : Stall, ∃ tag : BitVec 8, ∃ c : Cmd, (let d : Dev := s.dev; d.runs st tag 0x412 c = true ∧ Passes [(badLen c 2 || (wd c.payload 0 == 0 && wd c.payload 1 == 0), stParam)])) ∧
  (∃ s : State, ∃ st : Stall, ∃ tag : BitVec 8, ∃ c : Cmd, (let d : Dev := s.dev; (let a := axisOf c; d.runs st tag 0x413 c = true ∧ Passes [(noWord c, stParam), (!d.assigned a, stState), (badLen c 1 || d.noPwm a || rsv (wd c.payload 0) 0xFFFFFFF0, stParam)]))) ∧
  (∃ s : State, ∃ st : Stall, ∃ tag : BitVec 8, ∃ c : Cmd, (let d : Dev := s.dev; (let w := wd c.payload 0; d.runs st tag 0x410 c = true ∧ badLen c 1 = false ∧ bitOf w 16 = true))) ∧
  (∃ s : State, ∃ st : Stall, ∃ tag : BitVec 8, ∃ c : Cmd, (let d : Dev := s.dev; (let w := wd c.payload 0; d.runs st tag 0x410 c = true ∧ badLen c 1 = false ∧ bitOf w 16 = false ∧ rsv w 0xFFFE0000 = false ∧ bitsOf 16 (fld w 15 0) ≠ [] ∧ ((bitsOf 16 (fld w 15 0)).map ax).any d.noPwm = false))) ∧
  (∃ d : Dev, ∃ c : Cmd, c.code.toNat = 0x400 ∧ Passes (d.pwmBad c)) ∧
  (∃ d : Dev, ∃ c : Cmd, c.code.toNat = 0x401 ∧ d.axisUnfit (axisOf c) = false) ∧
  (∃ d : Dev, ∃ c : Cmd, c.code.toNat = 0x402 ∧ d.axisUnfit (axisOf c) = false) ∧
  (∃ c : Cmd, c.code.toNat = 0x410 ∧ bitOf (wd c.payload 0) 16 = false) := by
  refine ⟨⟨st0 (busy (pm) 0x400 [0x00010000, 0x0334019A, 0x41500A32]), 0, 1, cmd 0x400 [0x00010000, 0x0334019A, 0x41500A32], ?_⟩, ⟨st0 (busy (pm) 0x401 [0x0013F3F0, 0x550F461E, 0x1464320A]), 0, 1, cmd 0x401 [0x0013F3F0, 0x550F461E, 0x1464320A], ?_⟩, ⟨st0 (busy (pm) 0x402 [0x040640F0, 0x7FFFF, 0x003F3214]), 0, 1, cmd 0x402 [0x040640F0, 0x7FFFF, 0x003F3214], ?_⟩, ⟨st0 (busy (pm) 0x411 [0x10, 0, 0, 0, 0]), 0, 1, cmd 0x411 [0x10, 0, 0, 0, 0], ?_⟩, ⟨st0 (busy (up) 0x412 [1, 0]), 0, 1, cmd 0x412 [1, 0], ?_⟩, ⟨st0 (busy (pm) 0x413 [0]), 0, 1, cmd 0x413 [0], ?_⟩, ⟨st0 (busy (pm) 0x410 [0x10001]), 0, 1, cmd 0x410 [0x10001], ?_⟩, ⟨st0 (busy (pm) 0x410 [1]), 0, 1, cmd 0x410 [1], ?_⟩, ⟨pm, cmd 0x400 [0x00010000, 0x0334019A, 0x41500A32], ?_⟩, ⟨pm, cmd 0x401 [0x0013F3F0, 0x550F461E, 0x1464320A], ?_⟩, ⟨pm, cmd 0x402 [0x040640F0, 0x7FFFF, 0x003F3214], ?_⟩, ⟨cmd 0x410 [1], ?_⟩⟩ <;>
  first | decide +kernel | (unfold Passes; decide +kernel) | (unfold Passes; dsimp only; decide +kernel)

theorem witness_legEventsComplete :
  (∃ s : State, ∃ l : LegNo, ∃ a : AxisNo, ∃ n : Nat, (let d : Dev := s.dev; (let x : Leg := d.legs[l]; d.legAxis l = some a ∧ d.pwm[a].bridgeOn = true ∧ d.mayTurnOn a l = true ∧ x.inPulse (d.fine n) = false ∧ x.side ≠ .high ∧ d.highAt a l (d.fine n) = true ∧ x.ocLow = false ∧ (d.edgeInstants a l).contains (d.fine n) = true))) ∧
  (∃ s : State, ∃ l : LegNo, ∃ a : AxisNo, ∃ n : Nat, (let d : Dev := s.dev; (let x : Leg := d.legs[l]; d.legAxis l = some a ∧ d.pwm[a].bridgeOn = true ∧ d.mayTurnOn a l = true ∧ x.inPulse (d.fine n) = false ∧ x.side ≠ .low ∧ d.highAt a l (d.fine n) = false ∧ x.refresh = .none ∧ (d.edgeInstants a l).contains (d.fine n) = true))) ∧
  (∃ s : State, ∃ l : LegNo, ∃ a : AxisNo, ∃ n : Nat, (let d : Dev := s.dev; (let x : Leg := d.legs[l]; (let p : AxisPwm := d.pwm[a]; d.legAxis l = some a ∧ p.bridgeOn = true ∧ d.mayTurnOn a l = true ∧ x.refresh = .due ∧ x.side = .high ∧ d.fine n = p.start.getD 0 + p.len / 2 - refreshLen p.pwm / 2)))) ∧
  (∃ s : State, ∃ l : LegNo, ∃ a : AxisNo, ∃ n : Nat, (let d : Dev := s.dev; (let x : Leg := d.legs[l]; d.legAxis l = some a ∧ x.hi = .pending ∧ x.lo = .off ∧ d.stoActive (dieOf l) = false ∧ x.edgeAt + fld d.pwm[a].pwm[1] 11 0 ≤ d.fine n ∧ d.fine n ≤ x.edgeAt + 4096))) ∧
  (∃ s : State, ∃ l : LegNo, ∃ a : AxisNo, ∃ n : Nat, (let d : Dev := s.dev; (let x : Leg := d.legs[l]; d.legAxis l = some a ∧ x.lo = .pending ∧ x.hi = .off ∧ d.stoActive (dieOf l) = false ∧ x.pulseEnd = none ∧ x.edgeAt + fld d.pwm[a].pwm[1] 11 0 ≤ d.fine n ∧ d.fine n ≤ x.edgeAt + 4096))) ∧
  (∃ s : State, ∃ l : LegNo, ∃ high : Bool, ∃ n : Nat, (let d : Dev := s.dev; d.legs[l].sw high = .pending ∧ d.legs[l].edgeAt + 4096 ≤ d.fine n ∧ d.legs[l].refresh ≠ .running)) ∧
  (∃ s : State, ∃ l : LegNo, (let d : Dev := s.dev; (let x : Leg := d.legs[l]; x.refresh ≠ .wanted))) ∧
  (∃ s : State, ∃ l : LegNo, ∃ high : Bool, (let d : Dev := s.dev; d.legExt l = false ∧ (d.legs[l].sw high).isOn = true)) ∧
  (∃ s : State, ∃ l : LegNo, ∃ high : Bool, ∃ a : AxisNo, (let d : Dev := s.dev; d.legExt l = true ∧ d.legAxis l = some a ∧ d.bridgeBusy a = true ∧ d.legs[l].tripped = false ∧ d.legs[l].sw high ≠ .pending)) ∧
  (∃ s : State, ∃ l : LegNo, ∃ a : AxisNo, ∃ mv : BitVec 16, (let d : Dev := s.dev; (let x : Leg := d.legs[l]; d.legAxis l = some a ∧ d.extDriver a = false ∧ mv.toNat < bstWarnMv d.pwm[a].pwm[2] ∧ d.pwm[a].bridgeOn = true ∧ d.mayTurnOn a l = true ∧ x.hi.isOn = true ∧ x.side = .high))) ∧
  (∃ s : State, ∃ l : LegNo, ∃ a : AxisNo, (let d : Dev := s.dev; d.legAxis l = some a ∧ d.extDriver a = false ∧ d.pwm[a].bridgeOn = true ∧ d.mayTurnOn a l = true)) := by
  refine ⟨⟨st0 ((live).modLeg 0 (fun x => { x with emit := 9, riseEmit := 9, period := 9 })), 0, 0, 0, ?_⟩, ⟨st0 ((live).modLeg 0 (fun x => { x with side := .high, period := 9 })), 0, 0, 0, ?_⟩, ⟨st0 ((live).modLeg 0 (fun x => { x with side := .high, refresh := .due })), 0, 0, 0, ?_⟩, ⟨st0 ((live).modLeg 0 (fun x => { x with hi := .pending })), 0, 0, 4096, ?_⟩, ⟨st0 ((live).modLeg 0 (fun x => { x with lo := .pending })), 0, 0, 4096, ?_⟩, ⟨st0 ((live).modLeg 0 (fun x => { x with hi := .pending })), 0, true, 4096, ?_⟩, ⟨st0 (up), 0, ?_⟩, ⟨st0 ((live).modLeg 0 (fun x => { x with hi := .on1 })), 0, true, ?_⟩, ⟨st0 ({ pmOn with plots := vmod pmOn.plots 0 (fun p => vset p 2 0x07D00001) }), 0, true, 0, ?_⟩, ⟨st0 ((live).modLeg 0 (fun x => { x with hi := .on3, side := .high })), 0, 0, 0, ?_⟩, ⟨st0 (live), 0, 0, ?_⟩⟩ <;>
  first | decide +kernel | (dsimp only; decide +kernel)

theorem witness_bridgeEventsComplete :
  (∃ s : State, ∃ a : AxisNo, (let d : Dev := s.dev; d.pwm[a].charging = true ∧ d.pwm[a].sampled = false ∧ d.extDriver a = true)) ∧
  (∃ s : State, ∃ a : AxisNo, ∃ n : Nat, ∃ k : Nat, (let d : Dev := s.dev; d.assigned a = true ∧ d.noBridge a = false ∧ d.pwm[a].start ≠ some (d.fine n) ∧ d.periodAt a n = some k)) ∧
  (∃ s : State, ∃ a : AxisNo, ∃ n : Nat, ∃ b : Nat, (let d : Dev := s.dev; d.assigned a = true ∧ d.noBridge a = false ∧ (let p : AxisPwm := d.pwm[a]; d.periodAt a n = none ∧ p.start = some b ∧ b ≠ d.fine n ∧ d.fine n = b + p.len / 2 ∧ p.midDone = false ∧ p.bridgeOn = true ∧ p.fresh = true ∧ bitOf p.pwm[0] 9 = true ∧ d.mtype a ≠ 3))) ∧
  (∃ s : State, ∃ a : AxisNo, ∃ n : Nat, ∃ li : LegNo, ∃ lj : LegNo, ∃ rest : List LegNo, (let d : Dev := s.dev; (let p : AxisPwm := d.pwm[a]; p.bridgeOn = true ∧ d.chops a = true ∧ 0 < p.applied.chopA ∧ p.decayA = false ∧ p.start.getD 0 + tenNs (fld p.prot[2] 15 8) ≤ d.fine n ∧ d.axisLegs a = li :: lj :: rest ∧ d.decayMode a = 0))) ∧
  (∃ s : State, ∃ l : LegNo, ∃ a : AxisNo, ∃ n : Nat, (let d : Dev := s.dev; d.legAxis l = some a ∧ d.bridgeBusy a = true ∧ d.legs[l].tripped = false ∧ d.stoActive (dieOf l) = false ∧ max d.legs[l].hiOn d.legs[l].loOn + tenNs (fld d.pwm[a].prot[2] 7 0) ≤ d.fine n ∧ bitOf d.pwm[a].prot[0] 21 = false)) ∧
  (∃ s : State, ∃ a : AxisNo, (let d : Dev := s.dev; (let w : W32 := d.pwm[a].prot[2]; d.assigned a = true ∧ d.noBridge a = false ∧ fld w 21 16 ≤ 15 ∧ d.fb.probes[Fin.ofNat 16 (fld w 21 16)].level ≠ bitOf w 22))) ∧
  (∃ s : State, ∃ die : Fin 2, (let d : Dev := s.dev; d.stoActive die = true)) ∧
  (∃ s : State, ∃ die : Fin 2, (let d : Dev := s.dev; d.stoActive die = true ∧ d.gates[die].switchesOpen = true)) ∧
  (∃ s : State, ∃ die : Fin 2, (let d : Dev := s.dev; d.stoActive die = false ∧ d.gates[die].switchesOpen = false ∧ (if die = 0 then d.pw.vgdaOk else d.pw.vgdbOk) = true)) := by
  refine ⟨⟨st0 (({ pmOn with plots := vmod pmOn.plots 0 (fun p => vset p 2 0x07D00001) }).modPwm 0 (fun p => { p with bridgeOn := false, charging := true })), 0, ?_⟩, ⟨st0 (pm), 0, 0, 0, ?_⟩, ⟨st0 ((pmOn).modPwm 0 (fun p => { p with fresh := true, start := some 0, len := 10, pwm := vset p.pwm 0 0x00010200 })), 0, 5, 0, ?_⟩, ⟨st0 ((sm).modPwm 0 (fun p => { p with bridgeOn := true, applied := { OutSet.zero with strong := true, chopA := 5 } })), 0, 20000, 0, 1, [2, 3], ?_⟩, ⟨st0 (live), 0, 0, 20000, ?_⟩, ⟨st0 ((pm).modPwm 0 (fun p => { p with prot := vset p.prot 2 0x00403214 })), 0, ?_⟩, ⟨st0 (up), 0, ?_⟩, ⟨st0 ({ up with gates := Vector.replicate 2 ⟨true, true, false, false, true, true, 0⟩ }), 0, ?_⟩, ⟨st0 (live), 0, ?_⟩⟩ <;>
  first | decide +kernel | (dsimp only; decide +kernel)

theorem witness_motionExpressComplete :
  (∃ s : State, ∃ st : Stall, ∃ tag : BitVec 8, ∃ c : Cmd, (let d : Dev := s.dev; d.motParam c = false ∧ d.motState false c = false ∧ d.runs st tag 0x500 c = true)) ∧
  (∃ s : State, ∃ st : Stall, ∃ tag : BitVec 8, ∃ c : Cmd, ∃ y : Dev, (let d : Dev := s.dev; d.motParam c = false ∧ d.motState false c = false ∧ d.runs st tag 0x500 c = true ∧ y.motState true c = false)) ∧
  (∃ s : State, ∃ st : Stall, ∃ tag : BitVec 8, ∃ c : Cmd, (let d : Dev := s.dev; d.motParam c = false ∧ d.motState false c = false ∧ d.runs st tag 0x501 c = true)) ∧
  (∃ s : State, ∃ st : Stall, ∃ tag : BitVec 8, ∃ c : Cmd, ∃ y : Dev, (let d : Dev := s.dev; d.motParam c = false ∧ d.motState false c = false ∧ d.runs st tag 0x501 c = true ∧ y.motState true c = false)) ∧
  (∃ s : State, ∃ st : Stall, ∃ tag : BitVec 8, ∃ c : Cmd, (let d : Dev := s.dev; d.motParam c = false ∧ d.motState false c = false ∧ d.runs st tag 0x502 c = true)) ∧
  (∃ s : State, ∃ st : Stall, ∃ tag : BitVec 8, ∃ c : Cmd, ∃ y : Dev, (let d : Dev := s.dev; d.motParam c = false ∧ d.motState false c = false ∧ d.runs st tag 0x502 c = true ∧ y.motState true c = false)) ∧
  (∃ s : State, ∃ st : Stall, ∃ tag : BitVec 8, ∃ c : Cmd, (let d : Dev := s.dev; d.motParam c = false ∧ d.motState false c = false ∧ d.runs st tag 0x503 c = true)) ∧
  (∃ s : State, ∃ st : Stall, ∃ tag : BitVec 8, ∃ c : Cmd, ∃ y : Dev, (let d : Dev := s.dev; d.motParam c = false ∧ d.motState false c = false ∧ d.runs st tag 0x503 c = true ∧ y.motState true c = false)) ∧
  (∃ s : State, ∃ st : Stall, ∃ tag : BitVec 8, ∃ c : Cmd, (let d : Dev := s.dev; d.motParam c = false ∧ d.motState false c = false ∧ d.runs st tag 0x504 c = true)) ∧
  (∃ s : State, ∃ st : Stall, ∃ tag : BitVec 8, ∃ c : Cmd, ∃ y : Dev, (let d : Dev := s.dev; d.motParam c = false ∧ d.motState false c = false ∧ d.runs st tag 0x504 c = true ∧ y.motState true c = false)) ∧
  (∃ s : State, ∃ st : Stall, ∃ tag : BitVec 8, ∃ c : Cmd, (let d : Dev := s.dev; d.runs st tag 0x505 c = true ∧ Passes (d.motChecks c))) := by
  refine ⟨⟨st0 (busy (pmOn) 0x500 [0, 5, 0, 0, 0, 0]), 0, 1, cmd 0x500 [0, 5, 0, 0, 0, 0], ?_⟩, ⟨st0 (busy (pmOn) 0x500 [0, 5, 0, 0, 0, 0]), 0, 1, cmd 0x500 [0, 5, 0, 0, 0, 0], pmOn, ?_⟩, ⟨st0 (busy (pmOn) 0x501 [0x20000001]), 0, 1, cmd 0x501 [0x20000001], ?_⟩, ⟨st0 (busy (pmOn) 0x501 [0x20000001]), 0, 1, cmd 0x501 [0x20000001], pmOn, ?_⟩, ⟨st0 (busy ((pmOn).modMot 0 (fun m => { m with follow := .locked })) 0x502 [0, 1, 1]), 0, 1, cmd 0x502 [0, 1, 1], ?_⟩, ⟨st0 (busy ((pmOn).modMot 0 (fun m => { m with follow := .locked })) 0x502 [0, 1, 1]), 0, 1, cmd 0x502 [0, 1, 1], (pmOn).modMot 0 (fun m => { m with follow := .locked }), ?_⟩, ⟨st0 (busy (pmOn) 0x503 [0, 0]), 0, 1, cmd 0x503 [0, 0], ?_⟩, ⟨st0 (busy (pmOn) 0x503 [0, 0]), 0, 1, cmd 0x503 [0, 0], pmOn, ?_⟩, ⟨st0 (busy (pmOn) 0x504 [1]), 0, 1, cmd 0x504 [1], ?_⟩, ⟨st0 (busy (pmOn) 0x504 [1]), 0, 1, cmd 0x504 [1], pmOn, ?_⟩, ⟨st0 (busy (pmOn) 0x505 [0]), 0, 1, cmd 0x505 [0], ?_⟩⟩ <;>
  first | decide +kernel | (unfold Passes; decide +kernel) | (unfold Passes; dsimp only; decide +kernel)

theorem witness_motionQueueAndHomingComplete :
  (∃ s : State, ∃ st : Stall, ∃ tag : BitVec 8, ∃ c : Cmd, (let d : Dev := s.dev; d.motParam c = false ∧ d.motState false c = false ∧ d.runs st tag 0x510 c = true)) ∧
  (∃ s : State, ∃ st : Stall, ∃ tag : BitVec 8, ∃ c : Cmd, ∃ y : Dev, (let d : Dev := s.dev; d.motParam c = false ∧ d.motState false c = false ∧ d.runs st tag 0x510 c = true ∧ y.motState true c = false)) ∧
  (∃ s : State, ∃ st : Stall, ∃ tag : BitVec 8, ∃ c : Cmd, (let d : Dev := s.dev; d.motParam c = false ∧ d.motState false c = false ∧ d.runs st tag 0x511 c = true)) ∧
  (∃ s : State, ∃ st : Stall, ∃ tag : BitVec 8, ∃ c : Cmd, ∃ y : Dev, (let d : Dev := s.dev; d.motParam c = false ∧ d.motState false c = false ∧ d.runs st tag 0x511 c = true ∧ y.motState true c = false)) ∧
  (∃ s : State, ∃ st : Stall, ∃ tag : BitVec 8, ∃ c : Cmd, (let d : Dev := s.dev; (let m := d.mot[axisOf c]; (let id := BitVec.ofNat 16 (fld (wd c.payload 0) 31 16); (let runs := (match m.cur with | some e => e.move.id == id | none => false) || m.queue.any (fun q => q.id == id); (let ended := m.ends.find? (fun e => e.1 == id); d.runs st tag 0x512 c = true ∧ Passes (d.motChecks c ++ [(!runs && ended.isNone, stParam)]))))))) ∧
  (∃ s : State, ∃ a : AxisNo, ∃ t : Nat, (let d : Dev := s.dev; d.mot[a].dwellUntil = some t ∧ t ≤ d.clk + d.tickClks)) ∧
  (∃ s : State, ∃ st : Stall, ∃ tag : BitVec 8, ∃ c : Cmd, (let d : Dev := s.dev; d.motParam c = false ∧ d.motState false c = false ∧ d.runs st tag 0x520 c = true)) ∧
  (∃ s : State, ∃ st : Stall, ∃ tag : BitVec 8, ∃ c : Cmd, ∃ y : Dev, (let d : Dev := s.dev; d.motParam c = false ∧ d.motState false c = false ∧ d.runs st tag 0x520 c = true ∧ y.motState true c = false)) ∧
  (∃ s : State, ∃ st : Stall, ∃ tag : BitVec 8, ∃ c : Cmd, (let d : Dev := s.dev; d.motParam c = false ∧ d.motState false c = false ∧ d.runs st tag 0x521 c = true)) ∧
  (∃ s : State, ∃ st : Stall, ∃ tag : BitVec 8, ∃ c : Cmd, ∃ y : Dev, (let d : Dev := s.dev; d.motParam c = false ∧ d.motState false c = false ∧ d.runs st tag 0x521 c = true ∧ y.motState true c = false)) ∧
  (∃ s : State, ∃ a : AxisNo, ∃ r : HomeRun, ∃ t : Nat, (let d : Dev := s.dev; d.mot[a].home = some r ∧ r.phase = .hard ∧ r.hsSince = some t ∧ t + d.mot[a].homeConf[6].toNat * clksPerMs ≤ d.clk + d.tickClks)) ∧
  (∃ s : State, ∃ a : AxisNo, (let d : Dev := s.dev; d.mtype a = 3 ∧ d.mot[a].stillSince + d.mot[a].stillDelay.toNat * clksPerMs ≤ d.clk + d.tickClks)) := by
  refine ⟨⟨st0 (busy (pmOn) 0x510 [0, 1, 1, 1, 1, 1, 1, 1]), 0, 1, cmd 0x510 [0, 1, 1, 1, 1, 1, 1, 1], ?_⟩, ⟨st0 (busy (pmOn) 0x510 [0, 1, 1, 1, 1, 1, 1, 1]), 0, 1, cmd 0x510 [0, 1, 1, 1, 1, 1, 1, 1], pmOn, ?_⟩, ⟨st0 (busy (pmOn) 0x511 [0x10, 5, 0, 0, 1, 1, 1, 0, 0]), 0, 1, cmd 0x511 [0x10, 5, 0, 0, 1, 1, 1, 0, 0], ?_⟩, ⟨st0 (busy (pmOn) 0x511 [0x10, 5, 0, 0, 1, 1, 1, 0, 0]), 0, 1, cmd 0x511 [0x10, 5, 0, 0, 1, 1, 1, 0, 0], pmOn, ?_⟩, ⟨st0 (busy ((pmOn).modMot 0 (fun m => { m with ends := [(5, .done)] })) 0x512 [0x00050000, 1]), 0, 1, cmd 0x512 [0x00050000, 1], ?_⟩, ⟨st0 ((pmOn).modMot 0 (fun m => { m with dwellUntil := some 0 })), 0, 0, ?_⟩, ⟨st0 (busy (pmOn) 0x520 [0, 0x3F3F3F, 1, 1, 0, 0, 1, 1, 1, 1]), 0, 1, cmd 0x520 [0, 0x3F3F3F, 1, 1, 0, 0, 1, 1, 1, 1], ?_⟩, ⟨st0 (busy (pmOn) 0x520 [0, 0x3F3F3F, 1, 1, 0, 0, 1, 1, 1, 1]), 0, 1, cmd 0x520 [0, 0x3F3F3F, 1, 1, 0, 0, 1, 1, 1, 1], pmOn, ?_⟩, ⟨st0 (busy (pmOn) 0x521 [0]), 0, 1, cmd 0x521 [0], ?_⟩, ⟨st0 (busy (pmOn) 0x521 [0]), 0, 1, cmd 0x521 [0], pmOn, ?_⟩, ⟨st0 ((pmOn).modMot 0 (fun m => { m with home := some ⟨0, 1, .hard, false, false, 0, none, false, some 0, [], []⟩ })), 0, ⟨0, 1, .hard, false, false, 0, none, false, some 0, [], []⟩, 0, ?_⟩, ⟨st0 ((sm).modMot 0 (fun m => { m with stillDelay := 0 })), 0, ?_⟩⟩ <;>
  first | decide +kernel | (unfold Passes; decide +kernel) | (unfold Passes; dsimp only; decide +kernel)

theorem witness_followersAndPathsComplete :
  (∃ s : State, ∃ st : Stall, ∃ tag : BitVec 8, ∃ c : Cmd, (let d : Dev := s.dev; d.motParam c = false ∧ d.motState false c = false ∧ d.runs st tag 0x530 c = true)) ∧
  (∃ s : State, ∃ st : Stall, ∃ tag : BitVec 8, ∃ c : Cmd, ∃ y : Dev, (let d : Dev := s.dev; d.motParam c = false ∧ d.motState false c = false ∧ d.runs st tag 0x530 c = true ∧ y.motState true c = false)) ∧
  (∃ s : State, ∃ st : Stall, ∃ tag : BitVec 8, ∃ c : Cmd, (let d : Dev := s.dev; d.motParam c = false ∧ d.motState false c = false ∧ d.runs st tag 0x531 c = true)) ∧
  (∃ s : State, ∃ st : Stall, ∃ tag : BitVec 8, ∃ c : Cmd, ∃ y : Dev, (let d : Dev := s.dev; d.motParam c = false ∧ d.motState false c = false ∧ d.runs st tag 0x531 c = true ∧ y.motState true c = false)) ∧
  (∃ s : State, ∃ st : Stall, ∃ tag : BitVec 8, ∃ c : Cmd, (let d : Dev := s.dev; d.motParam c = false ∧ d.motState false c = false ∧ d.runs st tag 0x532 c = true)) ∧
  (∃ s : State, ∃ st : Stall, ∃ tag : BitVec 8, ∃ c : Cmd, ∃ y : Dev, (let d : Dev := s.dev; d.motParam c = false ∧ d.motState false c = false ∧ d.runs st tag 0x532 c = true ∧ y.motState true c = false)) ∧
  (∃ s : State, ∃ st : Stall, ∃ tag : BitVec 8, ∃ c : Cmd, (let d : Dev := s.dev; d.motParam c = false ∧ d.motState false c = false ∧ d.runs st tag 0x533 c = true)) ∧
  (∃ s : State, ∃ st : Stall, ∃ tag : BitVec 8, ∃ c : Cmd, ∃ y : Dev, (let d : Dev := s.dev; d.motParam c = false ∧ d.motState false c = false ∧ d.runs st tag 0x533 c = true ∧ y.motState true c = false)) ∧
  (∃ s : State, ∃ st : Stall, ∃ tag : BitVec 8, ∃ c : Cmd, (let d : Dev := s.dev; d.motParam c = false ∧ d.motState false c = false ∧ d.runs st tag 0x534 c = true)) ∧
  (∃ s : State, ∃ st : Stall, ∃ tag : BitVec 8, ∃ c : Cmd, ∃ y : Dev, (let d : Dev := s.dev; d.motParam c = false ∧ d.motState false c = false ∧ d.runs st tag 0x534 c = true ∧ y.motState true c = false)) ∧
  (∃ s : State, ∃ st : Stall, ∃ tag : BitVec 8, ∃ c : Cmd, (let d : Dev := s.dev; d.motParam c = false ∧ d.motState false c = false ∧ d.runs st tag 0x540 c = true)) ∧
  (∃ s : State, ∃ st : Stall, ∃ tag : BitVec 8, ∃ c : Cmd, ∃ y : Dev, (let d : Dev := s.dev; d.motParam c = false ∧ d.motState false c = false ∧ d.runs st tag 0x540 c = true ∧ y.motState true c = false)) ∧
  (∃ s : State, ∃ st : Stall, ∃ tag : BitVec 8, ∃ c : Cmd, (let d : Dev := s.dev; d.motParam c = false ∧ d.motState false c = false ∧ d.runs st tag 0x541 c = true)) ∧
  (∃ s : State, ∃ st : Stall, ∃ tag : BitVec 8, ∃ c : Cmd, ∃ y : Dev, (let d : Dev := s.dev; d.motParam c = false ∧ d.motState false c = false ∧ d.runs st tag 0x541 c = true ∧ y.motState true c = false)) ∧
  (∃ s : State, ∃ st : Stall, ∃ tag : BitVec 8, ∃ c : Cmd, (let d : Dev := s.dev; d.motParam c = false ∧ d.motState false c = false ∧ d.runs st tag 0x542 c = true)) ∧
  (∃ s : State, ∃ st : Stall, ∃ tag : BitVec 8, ∃ c : Cmd, ∃ y : Dev, (let d : Dev := s.dev; d.motParam c = false ∧ d.motState false c = false ∧ d.runs st tag 0x542 c = true ∧ y.motState true c = false)) ∧
  (∃ s : State, ∃ st : Stall, ∃ tag : BitVec 8, ∃ c : Cmd, (let d : Dev := s.dev; d.motParam c = false ∧ d.motState false c = false ∧ d.runs st tag 0x550 c = true)) ∧
  (∃ s : State, ∃ st : Stall, ∃ tag : BitVec 8, ∃ c : Cmd, ∃ y : Dev, (let d : Dev := s.dev; d.motParam c = false ∧ d.motState false c = false ∧ d.runs st tag 0x550 c = true ∧ y.motState true c = false)) ∧
  (∃ s : State, ∃ st : Stall, ∃ tag : BitVec 8, ∃ c : Cmd, (let d : Dev := s.dev; d.motParam c = false ∧ d.motState false c = false ∧ d.runs st tag 0x551 c = true)) ∧
  (∃ s : State, ∃ st : Stall, ∃ tag : BitVec 8, ∃ c : Cmd, ∃ y : Dev, (let d : Dev := s.dev; d.motParam c = false ∧ d.motState false c = false ∧ d.runs st tag 0x551 c = true ∧ y.motState true c = false)) := by
  refine ⟨⟨st0 (busy (pmOn) 0x530 [0x100, 1, 1, 0, 0, 0, 0]), 0, 1, cmd 0x530 [0x100, 1, 1, 0, 0, 0, 0], ?_⟩, ⟨st0 (busy (pmOn) 0x530 [0x100, 1, 1, 0, 0, 0, 0]), 0, 1, cmd 0x530 [0x100, 1, 1, 0, 0, 0, 0], pmOn, ?_⟩, ⟨st0 (busy ((pmOn).modMot 0 (fun m => { m with follow := .locked })) 0x531 [0, 0, 0, 0, 0]), 0, 1, cmd 0x531 [0, 0, 0, 0, 0], ?_⟩, ⟨st0 (busy ((pmOn).modMot 0 (fun m => { m with follow := .locked })) 0x531 [0, 0, 0, 0, 0]), 0, 1, cmd 0x531 [0, 0, 0, 0, 0], (pmOn).modMot 0 (fun m => { m with follow := .locked }), ?_⟩, ⟨st0 (busy (pmOn) 0x532 [0x10, 1, 0, 0]), 0, 1, cmd 0x532 [0x10, 1, 0, 0], ?_⟩, ⟨st0 (busy (pmOn) 0x532 [0x10, 1, 0, 0]), 0, 1, cmd 0x532 [0x10, 1, 0, 0], pmOn, ?_⟩, ⟨st0 (busy (pmOn) 0x533 [0x00020000]), 0, 1, cmd 0x533 [0x00020000], ?_⟩, ⟨st0 (busy (pmOn) 0x533 [0x00020000]), 0, 1, cmd 0x533 [0x00020000], pmOn, ?_⟩, ⟨st0 (busy (pmOn) 0x534 [0]), 0, 1, cmd 0x534 [0], ?_⟩, ⟨st0 (busy (pmOn) 0x534 [0]), 0, 1, cmd 0x534 [0], pmOn, ?_⟩, ⟨st0 (busy (pmOn) 0x540 [8, 0, 0, 0, 0]), 0, 1, cmd 0x540 [8, 0, 0, 0, 0], ?_⟩, ⟨st0 (busy (pmOn) 0x540 [8, 0, 0, 0, 0]), 0, 1, cmd 0x540 [8, 0, 0, 0, 0], pmOn, ?_⟩, ⟨st0 (busy (pmOn.modGroup 0 (fun g => { g with members := 1 })) 0x541 [0x100, 0]), 0, 1, cmd 0x541 [0x100, 0], ?_⟩, ⟨st0 (busy (pmOn.modGroup 0 (fun g => { g with members := 1 })) 0x541 [0x100, 0]), 0, 1, cmd 0x541 [0x100, 0], pmOn.modGroup 0 (fun g => { g with members := 1 }), ?_⟩, ⟨st0 (busy (pmOn.modGroup 0 (fun g => { g with members := 1 })) 0x542 [0x10]), 0, 1, cmd 0x542 [0x10], ?_⟩, ⟨st0 (busy (pmOn.modGroup 0 (fun g => { g with members := 1 })) 0x542 [0x10]), 0, 1, cmd 0x542 [0x10], pmOn.modGroup 0 (fun g => { g with members := 1 }), ?_⟩, ⟨st0 (busy (pmOn) 0x550 [0, 1, 0x00010101]), 0, 1, cmd 0x550 [0, 1, 0x00010101], ?_⟩, ⟨st0 (busy (pmOn) 0x550 [0, 1, 0x00010101]), 0, 1, cmd 0x550 [0, 1, 0x00010101], pmOn, ?_⟩, ⟨st0 (busy (sm) 0x551 [0, 1, 0x00010001]), 0, 1, cmd 0x551 [0, 1, 0x00010001], ?_⟩, ⟨st0 (busy (sm) 0x551 [0, 1, 0x00010001]), 0, 1, cmd 0x551 [0, 1, 0x00010001], sm, ?_⟩⟩ <;>
  first | decide +kernel | (dsimp only; decide +kernel)

theorem witness_motionCommandsApply :
  (∃ d : Dev, ∃ c : Cmd, d.motState true c = false ∧ c.code.toNat = 0x501) ∧
  (∃ d : Dev, ∃ c : Cmd, d.motState true c = false ∧ c.code.toNat = 0x502) ∧
  (∃ d : Dev, ∃ c : Cmd, d.motState true c = false ∧ c.code.toNat = 0x503) ∧
  (∃ d : Dev, ∃ c : Cmd, d.motState true c = false ∧ c.code.toNat = 0x504) ∧
  (∃ d : Dev, ∃ c : Cmd, d.motState true c = false ∧ c.code.toNat = 0x511 ∧ d.mot[axisOf c].queue.length + fld (wd c.payload 0) 7 4 ≤ 64) ∧
  (∃ d : Dev, ∃ c : Cmd, d.motState true c = false ∧ c.code.toNat = 0x511 ∧ 64 < d.mot[axisOf c].queue.length + fld (wd c.payload 0) 7 4) ∧
  (∃ d : Dev, ∃ c : Cmd, d.motState true c = false ∧ c.code.toNat = 0x530) ∧
  (∃ d : Dev, ∃ c : Cmd, d.motState true c = false ∧ c.code.toNat = 0x534 ∧ d.ring.fn = .off) ∧
  (∃ d : Dev, ∃ c : Cmd, d.motState true c = false ∧ c.code.toNat = 0x540 ∧ bitOf (wd c.payload 0) 3 = true) ∧
  (∃ d : Dev, ∃ c : Cmd, d.motState true c = false ∧ c.code.toNat = 0x551) := by
  refine ⟨⟨pmOn, cmd 0x501 [0x20000001], ?_⟩, ⟨(pmOn).modMot 0 (fun m => { m with follow := .locked }), cmd 0x502 [0, 1, 1], ?_⟩, ⟨pmOn, cmd 0x503 [0, 0], ?_⟩, ⟨pmOn, cmd 0x504 [1], ?_⟩, ⟨pmOn, cmd 0x511 [0x10, 5, 0, 0, 1, 1, 1, 0, 0], ?_⟩, ⟨(pmOn).modMot 0 (fun m => { m with queue := List.replicate 64 move }), cmd 0x511 [0x10, 5, 0, 0, 1, 1, 1, 0, 0], ?_⟩, ⟨pmOn, cmd 0x530 [0x100, 1, 1, 0, 0, 0, 0], ?_⟩, ⟨pmOn, cmd 0x534 [0], ?_⟩, ⟨pmOn, cmd 0x540 [8, 0, 0, 0, 0], ?_⟩, ⟨sm, cmd 0x551 [0, 1, 0x00010001], ?_⟩⟩ <;>
  decide +kernel

theorem witness_waitingCommandsApply :
  (∃ d : Dev, ∃ c : Cmd, d.sv.mpChange = .none ∧ c.phase = .atTick) ∧
  (∃ d : Dev, ∃ c : Cmd, d.sv.mpChange = .none ∧ c.phase = .atFrame ∧ d.isFrame = true) ∧
  (∃ d : Dev, d.hp.inFlight.filter d.dueNow = []) ∧
  (∃ d : Dev, ∃ c : Cmd, d.hp.inFlight.filter d.dueNow = [c] ∧ d.cmd? c.stall c.tag = some c ∧ c.code ≠ 0x231 ∧ d.expired c = false) ∧
  (∃ d : Dev, ∃ c : Cmd, d.hp.inFlight.filter d.dueNow = [c] ∧ d.cmd? c.stall c.tag = some c ∧ c.code ≠ 0x231 ∧ d.expired c = true) := by
  refine ⟨⟨up, { cmd 0x006 [8] with phase := .atTick }, ?_⟩, ⟨up, { cmd 0x503 [0] with phase := .atFrame }, ?_⟩, ⟨up, ?_⟩, ⟨{ up with hp := { up.hp with inFlight := [{ cmd 0x006 [8] with phase := .atTick }] } }, { cmd 0x006 [8] with phase := .atTick }, ?_⟩, ⟨({ up with hp := { up.hp with inFlight := [{ cmd 0x006 [8] with phase := .atTick, deadline := some 5 }] } }).modTk (fun t => { t with age := 9 }), { cmd 0x006 [8] with phase := .atTick, deadline := some 5 }, ?_⟩⟩ <;>
  decide +kernel

theorem witness_captureRowsComplete :
  (∃ s : State, ∃ st : Stall, ∃ tag : BitVec 8, ∃ c : Cmd, (let d : Dev := s.dev; d.runs st tag 0x800 c = true)) ∧
  (∃ d : Dev, ∃ c : Cmd, c.code.toNat = 0x800 ∧ (let w := wd c.payload 0; (let u := unitOf c; (let x := d.cap.units[u]; (let rel := bitOf w 4; (let take := bitOf w 5; Passes [(noWord c, stParam), (!rel && !take && x.claimed, stResource), ((rel && x.claimed && x.stall != c.stall) || (take && !d.isOwner c.stall), stNotOwner), (badLen c 1 || rsv w 0xFFFFFFC8 || (rel && take), stParam)])))))) ∧
  (∃ s : State, ∃ st : Stall, ∃ tag : BitVec 8, ∃ c : Cmd, (let d : Dev := s.dev; d.runs st tag 0x801 c = true)) ∧
  (∃ d : Dev, ∃ c : Cmd, c.code.toNat = 0x801 ∧ (let u := unitOf c; (let place := firstFit (d.allotted u) (capBuf c.payload * 2097152); Passes [(noWord c, stParam), (!d.claims u c.stall, stNotOwner), (d.cap.units[u].active, stState), (capConfBad c, stParam), (place.isNone || (bitOf (wd c.payload 0) 14 && d.breaksCycle (d.capRingBytes u)), stResource)]))) ∧
  (∃ s : State, ∃ st : Stall, ∃ tag : BitVec 8, ∃ c : Cmd, (let d : Dev := s.dev; d.runs st tag 0x802 c = true)) ∧
  (∃ d : Dev, ∃ c : Cmd, c.code.toNat = 0x802 ∧ (let u := unitOf c; (let x := d.cap.units[u]; (let sts := stagesOf c.payload; Passes [(noWord c, stParam), (!d.claims u c.stall, stNotOwner), (x.state == .free || x.active, stState), (c.payload.length != 1 + 4 * sts.length || rsv (wd c.payload 0) 0xFFFFFFC8 || sts.any stageBad || sts.any (fun s => decide (fld (wd s 0) 7 4 ≥ capNch x.conf)), stParam)])))) ∧
  (∃ s : State, ∃ st : Stall, ∃ tag : BitVec 8, ∃ c : Cmd, (let d : Dev := s.dev; d.runs st tag 0x803 c = true ∧ Passes (d.capControlChecks c))) ∧
  (∃ s : State, ∃ st : Stall, ∃ tag : BitVec 8, ∃ c : Cmd, (let d : Dev := s.dev; (let w := wd c.payload 0; d.runs st tag 0x810 c = true ∧ Passes [((bitOf w 0 && d.dieBusy 0) || (bitOf w 1 && d.dieBusy 1), stState), (badLen c 1 || rsv w 0xFFFFFFFC || fld w 1 0 == 0, stParam)]))) ∧
  (∃ s : State, ∃ st : Stall, ∃ tag : BitVec 8, ∃ c : Cmd, (let d : Dev := s.dev; d.runs st tag 0x811 c = true ∧ Passes (d.adcChecks c))) ∧
  (∃ s : State, ∃ st : Stall, ∃ u : Fin 8, (let d : Dev := s.dev; d.present st = true ∧ d.claims u st = true ∧ d.cap.units[u].state = .waiting)) ∧
  (∃ s : State, ∃ st : Stall, ∃ u : Fin 8, (let d : Dev := s.dev; d.present st = true ∧ d.claims u st = true ∧ d.cap.units[u].state ≠ .halted)) ∧
  (∃ s : State, ∃ u : Fin 8, ∃ g : List W32, (let d : Dev := s.dev; (let x : CapUnit := d.cap.units[u]; x.trig[x.stage.toNat]? = some g ∧ x.state = .waiting ∧ 0 < (wd g 3).toNat ∧ 0 < x.written ∧ x.stageTick + (wd g 3).toNat ≤ x.lastTick ∧ bitOf (wd g 0) 8 = true))) ∧
  (∃ s : State, ∃ u : Fin 8, ∃ g : List W32, (let d : Dev := s.dev; (let x : CapUnit := d.cap.units[u]; x.trig[x.stage.toNat]? = some g ∧ x.state = .waiting ∧ 0 < (wd g 3).toNat ∧ 0 < x.written ∧ x.stageTick + (wd g 3).toNat ≤ x.lastTick ∧ bitOf (wd g 0) 8 = false))) ∧
  (∃ s : State, ∃ u : Fin 8, (let d : Dev := s.dev; (let x : CapUnit := d.cap.units[u]; capMode x.conf = 2 ∧ x.state = .waiting ∧ x.waitTick + (wd x.conf 4).toNat ≤ d.tick))) ∧
  (∃ s : State, ∃ g : Fin 2, ∃ k : Stall × BitVec 8, (let d : Dev := s.dev; d.cap.skewRun[g] = some k)) ∧
  (∃ s : State, ∃ g : Fin 2, ∃ v : List Int, ∃ k : Stall × BitVec 8, (let d : Dev := s.dev; d.cap.skewRun[g] = some k ∧ ((List.range 48).all (fun i => decide (-256 ≤ v.getD i 0 ∧ v.getD i 0 ≤ 256))) = true)) ∧
  (∃ d : Dev, ∃ i : Fin 96, ∃ v : List Int, d.cap.skewNew[(Fin.ofNat 2 (i.val / 48) : Fin 2)] = some v) ∧
  (∃ d : Dev, ∃ c : Cmd, c.code.toNat = 0x803 ∧ fld (wd c.payload 0) 5 4 = 0 ∧ Passes (d.capControlChecks c)) ∧
  (∃ d : Dev, ∃ c : Cmd, c.code.toNat = 0x811 ∧ Passes (d.adcChecks c)) := by
  refine ⟨⟨st0 (busy (up) 0x800 [0]), 0, 1, cmd 0x800 [0], ?_⟩, ⟨up, cmd 0x800 [0], ?_⟩, ⟨st0 (busy ((up).modUnit 0 (fun x => { x with claimed := true, state := .idle })) 0x801 [0x00100108, 0x10001, 1, 1, 0, 0x60000000]), 0, 1, cmd 0x801 [0x00100108, 0x10001, 1, 1, 0, 0x60000000], ?_⟩, ⟨(up).modUnit 0 (fun x => { x with claimed := true, state := .idle }), cmd 0x801 [0x00100108, 0x10001, 1, 1, 0, 0x60000000], ?_⟩, ⟨st0 (busy ((up).modUnit 0 (fun x => { x with claimed := true, state := .idle, conf := [0x00100108, 0x10001, 1, 1, 0, 0x60000000] })) 0x802 [0, 0x10000, 0, 0, 0]), 0, 1, cmd 0x802 [0, 0x10000, 0, 0, 0], ?_⟩, ⟨(up).modUnit 0 (fun x => { x with claimed := true, state := .idle, conf := [0x00100108, 0x10001, 1, 1, 0, 0x60000000] }), cmd 0x802 [0, 0x10000, 0, 0, 0], ?_⟩, ⟨st0 (busy ((up).modUnit 0 (fun x => { x with claimed := true, state := .idle })) 0x803 [0]), 0, 1, cmd 0x803 [0], ?_⟩, ⟨st0 (busy (up) 0x810 [1]), 0, 1, cmd 0x810 [1], ?_⟩, ⟨st0 (busy (pm) 0x811 [0, 5]), 0, 1, cmd 0x811 [0, 5], ?_⟩, ⟨st0 ((up).modUnit 0 (fun x => { x with claimed := true, state := .waiting })), 0, 0, ?_⟩, ⟨st0 ((up).modUnit 0 (fun x => { x with claimed := true, state := .idle })), 0, 0, ?_⟩, ⟨st0 ((up).modUnit 0 (fun x => { x with claimed := true, state := .waiting, trig := [[0x100100, 0, 0, 5]], written := 1, lastTick := 9 })), 0, [0x100100, 0, 0, 5], ?_⟩, ⟨st0 ((up).modUnit 0 (fun x => { x with claimed := true, state := .waiting, trig := [[0x100000, 0, 0, 5]], written := 1, lastTick := 9 })), 0, [0x100000, 0, 0, 5], ?_⟩, ⟨st0 ((up).modUnit 0 (fun x => { x with claimed := true, state := .waiting, conf := [0x20, 0, 0, 0, 0] })), 0, ?_⟩, ⟨st0 ({ up with cap := { up.cap with skewRun := Vector.replicate 2 (some (0, 1)) } }), 0, (0, 1), ?_⟩, ⟨st0 ({ up with cap := { up.cap with skewRun := Vector.replicate 2 (some (0, 1)) } }), 0, [7], (0, 1), ?_⟩, ⟨{ up with cap := { up.cap with skewNew := Vector.replicate 2 (some [3]) } }, 0, [3], ?_⟩, ⟨(up).modUnit 0 (fun x => { x with claimed := true, state := .idle }), cmd 0x803 [0], ?_⟩, ⟨pm, cmd 0x811 [0, 5], ?_⟩⟩ <;>
  first | decide +kernel | (unfold Passes; decide +kernel) | (unfold Passes; dsimp only; decide +kernel)

theorem witness_dmaRowsComplete :
  (∃ s : State, ∃ st : Stall, ∃ ch : Fin 8, (let d : Dev := s.dev; d.present st = true ∧ d.cap.dma[ch].claimed = false)) ∧
  (∃ s : State, ∃ st : Stall, ∃ ch : Fin 8, (let d : Dev := s.dev; d.present st = true ∧ d.cap.dma[ch].claimed = true ∧ d.cap.dma[ch].stall = st)) ∧
  (∃ s : State, ∃ st : Stall, ∃ ch : Fin 8, (let d : Dev := s.dev; d.present st = true ∧ d.cap.dma[ch].claimed = true ∧ d.cap.dma[ch].stall = st ∧ d.cap.dma[ch].state = .running)) ∧
  (∃ s : State, ∃ st : Stall, ∃ ch : Fin 8, (let d : Dev := s.dev; d.present st = true ∧ d.cap.dma[ch].claimed = true ∧ d.cap.dma[ch].stall = st ∧ d.cap.dma[ch].state ≠ .running)) ∧
  (∃ s : State, ∃ ch : Fin 8, ∃ n : Nat, (let d : Dev := s.dev; (let c : DmaChan := d.cap.dma[ch]; c.state = .running ∧ c.abort = true ∧ preError c.ofS0 c.words = 0 ∧ n < descCount c.words))) ∧
  (∃ s : State, ∃ ch : Fin 8, ∃ o : DmaOutcome, ∃ n : Nat, ∃ bs : List Byte, (let d : Dev := s.dev; (let c : DmaChan := d.cap.dma[ch]; c.state = .running ∧ dmaResult c o = (n, 0, bs) ∧ bitOf (wd c.words 0) 0 = false ∧ descLast c.words = true))) := by
  refine ⟨⟨st0 (up), 0, 0, ?_⟩, ⟨st0 ({ up with cap := { up.cap with dma := vmod up.cap.dma 0 (fun x => { x with claimed := true }) } }), 0, 0, ?_⟩, ⟨st0 ({ up with cap := { up.cap with dma := vmod up.cap.dma 0 (fun x => { x with claimed := true, state := .running }) } }), 0, 0, ?_⟩, ⟨st0 ({ up with cap := { up.cap with dma := vmod up.cap.dma 0 (fun x => { x with claimed := true }) } }), 0, 0, ?_⟩, ⟨st0 ({ up with cap := { up.cap with dma := vmod up.cap.dma 0 (fun x => { x with claimed := true, state := .running, abort := true, words := [2, 4, 0x80000000, 0, 0x40000000, 0] }) } }), 0, 2, ?_⟩, ⟨st0 ({ up with cap := { up.cap with dma := vmod up.cap.dma 0 (fun x => { x with claimed := true, state := .running, words := [2, 4, 0x80000000, 0, 0x40000000, 0] }) } }), 0, .done [], 4, [], ?_⟩⟩ <;>
  first | decide +kernel | (dsimp only; decide +kernel)

theorem witness_ringLinkRowsComplete :
  (∃ s : State, ∃ st : Stall, ∃ tag : BitVec 8, ∃ c : Cmd, (let d : Dev := s.dev; (let w := wd c.payload 0; (let w1 := wd c.payload 1; (let acyc := fld w1 31 16; (let et := fld w1 15 0; (let tmo := (wd c.payload 2).toNat; (let own := plannedBytes (masterCount d.mu.setMask d.mu.actMask) d.ringOutCount (safetyBytes d.safeSet) acyc; d.runs st tag 0x600 c = true ∧ Passes [(badLen c 3 || rsv w 0xFC001FFF || (bitOf w 15 && bitOf w 14) || !(acyc == 0 || (64 ≤ acyc && acyc ≤ 4096 && acyc % 4 == 0)) || et < 0x600 || et == 0x88F7 || tmo < 10 || tmo > 10000, stParam), (acyc > d.ring.stored.acycBytes.toNat && d.breaksCycle own, stResource)])))))))) ∧
  (∃ s : State, ∃ st : Stall, ∃ tag : BitVec 8, ∃ c : Cmd, (let d : Dev := s.dev; d.runs st tag 0x602 c = true)) ∧
  (∃ c : Cmd, c.code.toNat = 0x602 ∧ (let w := wd c.payload 0; (let sel := fld w 2 0; Passes [(badLen c 1 || rsv w 0xFC00FFC0 || sel < 2 || sel > 5, stParam), (sel == c.stall.val, stState)]))) ∧
  (∃ s : State, ∃ st : Stall, ∃ tag : BitVec 8, ∃ c : Cmd, (let d : Dev := s.dev; (let w : W32 := wd c.payload 0; d.runs st tag 0x601 c = true ∧ badLen c 1 = false ∧ rsv w 0xFFFFFFFC = false ∧ fld w 1 0 = 0 ∧ d.ring.fn = .off ∧ d.breaksCycle d.ownBytes = false))) ∧
  (∃ s : State, ∃ st : Stall, ∃ tag : BitVec 8, ∃ c : Cmd, (let d : Dev := s.dev; (let w : W32 := wd c.payload 0; d.runs st tag 0x601 c = true ∧ badLen c 1 = false ∧ rsv w 0xFFFFFFFC = false ∧ fld w 1 0 = 1 ∧ d.ring.fn = .active))) ∧
  (∃ s : State, ∃ st : Stall, ∃ tag : BitVec 8, ∃ c : Cmd, (let d : Dev := s.dev; (let w : W32 := wd c.payload 0; d.runs st tag 0x601 c = true ∧ badLen c 1 = false ∧ rsv w 0xFFFFFFFC = false ∧ fld w 1 0 = 2))) ∧
  (∃ a : Bool, ∃ b : Bool, (a && b) = false) ∧
  (∃ s : State, ∃ a : Bool, ∃ b : Bool, (let d : Dev := s.dev; a = true ∧ b = true ∧ d.ring.fn = .listen ∧ d.hp.devReady = true)) ∧
  (∃ s : State, ∃ a : Bool, ∃ b : Bool, (let d : Dev := s.dev; a = true ∧ b = true ∧ d.ring.fn = .joining ∧ d.ring.opened = true)) ∧
  (∃ s : State, (let d : Dev := s.dev; d.ring.fn = .joining ∧ d.ring.opened = false)) ∧
  (∃ s : State, (let d : Dev := s.dev; d.ring.fn = .joining ∧ d.ring.opened = true ∧ d.past d.ring.joinClk clksPerMs = true)) ∧
  (∃ s : State, (let d : Dev := s.dev; d.ring.fn = .listen ∧ d.hp.devReady = true ∧ max d.ring.listenCycle d.ring.heardCycle + 3 ≤ d.ownCycle)) ∧
  (∃ s : State, (let d : Dev := s.dev; d.ring.fn = .active)) ∧
  (∃ s : State, ∃ f : RingFrame, (let d : Dev := s.dev; d.ring.fn = .active ∧ f.hdr.nonce ≠ d.ring.nonce)) ∧
  (∃ s : State, ∃ f : RingFrame, (let d : Dev := s.dev; d.ring.fn = .active ∧ f.hdr.nonce ≠ d.ring.nonce ∧ f.etherType ≠ d.ring.conf.etherType)) ∧
  (∃ s : State, ∃ b : Bool, ∃ f : RingFrame, (let d : Dev := s.dev; d.ring.fn = .active ∧ f.hdr.nonce ≠ d.ring.nonce ∧ f.etherType = d.ring.conf.etherType ∧ ((d.forward b f).ring.seen.any (fun x => x.1 == (nodeKey f.hdr, f.hdr.cycleNo, f.hdr.fragIdx))) = true)) ∧
  (∃ s : State, ∃ b : Bool, ∃ f : RingFrame, (let d : Dev := s.dev; d.ring.fn = .active ∧ f.hdr.nonce ≠ d.ring.nonce ∧ (let d0 : Dev := d.forward b f; (let d1 : Dev := d0.modRing (fun r => { r with seen := r.seen ++ [((nodeKey f.hdr, f.hdr.cycleNo, f.hdr.fragIdx), d0.ownCycle)] }); (let d2 : Dev := (d1.hearNode f).hearGm b f; (let d3 : Dev := (d2.hearMasters f).hearTriggers s.dram f; f.etherType = d.ring.conf.etherType ∧ (d0.ring.seen.any (fun x => x.1 == (nodeKey f.hdr, f.hdr.cycleNo, f.hdr.fragIdx))) = false ∧ (d1.ring.fn == .active && d1.ring.addrValid && f.hdr.addrValid && f.hdr.origin == d1.ring.addr) = false ∧ d2.ring.fn = .active ∧ d2.ring.tickMismatch = false ∧ f.hdr.addrValid = true ∧ d3.cyclesBehind f.hdr ≠ 1)))))) ∧
  (∃ s : State, ∃ k : BitVec 10, ∃ n : NodeInfo, (let d : Dev := s.dev; Mem.read none d.ring.nodes k.toNat = some n ∧ n.leaving = false ∧ n.missing = false ∧ n.heard + 3 ≤ d.ownCycle)) ∧
  (∃ s : State, ∃ b : Bool, (let d : Dev := s.dev; d.ring.fn = .active ∧ (d.ring.port b).brk = false ∧ d.ring.healed = false)) ∧
  (∃ s : State, ∃ b : Bool, (let d : Dev := s.dev; (d.ring.port b).brk = true ∧ (d.ring.port b).restore = 0)) := by
  refine ⟨⟨st0 (busy (up) 0x600 [0x00002000, 0x010088B5, 100]), 0, 1, cmd 0x600 [0x00002000, 0x010088B5, 100], ?_⟩, ⟨st0 (busy (up) 0x602 [0x22]), 0, 1, cmd 0x602 [0x22], ?_⟩, ⟨cmd 0x602 [0x22], ?_⟩, ⟨st0 (busy (up) 0x601 [0]), 0, 1, cmd 0x601 [0], ?_⟩, ⟨st0 (busy ((up).modRing (fun r => { r with fn := .active })) 0x601 [1]), 0, 1, cmd 0x601 [1], ?_⟩, ⟨st0 (busy ((up).modRing (fun r => { r with fn := .active })) 0x601 [2]), 0, 1, cmd 0x601 [2], ?_⟩, ⟨false, false, ?_⟩, ⟨st0 ((up).modRing (fun r => { r with fn := .listen })), true, true, ?_⟩, ⟨st0 ((up).modRing (fun r => { r with fn := .joining, opened := true })), true, true, ?_⟩, ⟨st0 ((up).modRing (fun r => { r with fn := .joining })), ?_⟩, ⟨st0 ({ ((up).modRing (fun r => { r with fn := .joining, opened := true })) with clk := 100000000 }), ?_⟩, ⟨st0 ({ ((up).modRing (fun r => { r with fn := .listen })) with tk := { ((up).modRing (fun r => { r with fn := .listen })).tk with cycles := 9 } }), ?_⟩, ⟨st0 ((up).modRing (fun r => { r with fn := .active })), ?_⟩, ⟨st0 ((up).modRing (fun r => { r with fn := .active })), ⟨0x88B5, ⟨0, 0, 0, false, 0, false, 0, 0, false, false, false, false, 0, 0, 0, 0, 0, 5⟩, [], [], [], none, [], 0⟩, ?_⟩, ⟨st0 ((up).modRing (fun r => { r with fn := .active })), ⟨0x88B6, ⟨0, 0, 0, false, 0, false, 0, 0, false, false, false, false, 0, 0, 0, 0, 0, 5⟩, [], [], [], none, [], 0⟩, ?_⟩, ⟨st0 ((up).modRing (fun r => { r with fn := .active, seen := [((1029, 0, 0), 0)] })), false, ⟨0x88B5, ⟨0, 0, 0, false, 0, false, 0, 0, false, false, false, false, 0, 0, 0, 0, 0, 5⟩, [], [], [], none, [], 0⟩, ?_⟩, ⟨st0 ((up).modRing (fun r => { r with fn := .active, nonce := 9 })), false, ⟨0x88B5, ⟨0, 0, 0, false, 0, true, 0, 0, false, false, false, false, 0, 0, 0, 0, 0, 5⟩, [], [], [], none, [], 0⟩, ?_⟩, ⟨st0 ({ ((up).modRing (fun r => { r with nodes := [(5, some ⟨0, ⟨0, 0, 0, false, 0, false, 0, 0, false, false, false, false, 0, 0, 0, 0, 0, 5⟩, 0, false, false⟩)] })) with tk := { ((up).modRing (fun r => { r with nodes := [(5, some ⟨0, ⟨0, 0, 0, false, 0, false, 0, 0, false, false, false, false, 0, 0, 0, 0, 0, 5⟩, 0, false, false⟩)] })).tk with cycles := 9 } }), 5, ⟨0, ⟨0, 0, 0, false, 0, false, 0, 0, false, false, false, false, 0, 0, 0, 0, 0, 5⟩, 0, false, false⟩, ?_⟩, ⟨st0 ((up).modRing (fun r => { r with fn := .active })), false, ?_⟩, ⟨st0 ((up).modPort false (fun p => { p with brk := true })), false, ?_⟩⟩ <;>
  first | decide +kernel | (unfold Passes; decide +kernel) | (unfold Passes; dsimp only; decide +kernel)

theorem witness_remoteStallRowsComplete :
  (∃ s : State, ∃ m : AcycMsg, ∃ i : Fin 4, (let d : Dev := s.dev; d.ring.fn = .active ∧ d.ring.conf.acycBytes ≠ 0 ∧ ((∀ k : Fin 4, d.ring.remote[k].of m = false)) ∧ fld (wd m.data 0) 2 0 = i.val + 2 ∧ d.ring.remote[i].admits m = true ∧ d.ring.remote[i].connected = false)) ∧
  (∃ s : State, ∃ m : AcycMsg, ∃ i : Fin 4, (let d : Dev := s.dev; (List.finRange 4).find? (fun k => d.ring.remote[k].of m && d.ring.remote[k].epoch == m.epoch && m.stall.toNat == k.val + 2) = some i)) ∧
  (∃ s : State, ∃ m : AcycMsg, ∃ i : Fin 4, (let d : Dev := s.dev; d.ring.fn = .active ∧ m.stall.toNat = i.val + 2 ∧ d.ring.remote[i].of m = true ∧ d.ring.remote[i].epoch = m.epoch)) ∧
  (∃ s : State, ∃ m : AcycMsg, ∃ i : Fin 4, (let d : Dev := s.dev; (let d1 : Dev := d.heardPeer m; d.ring.fn = .active ∧ m.stall.toNat = i.val + 2 ∧ d.ring.remote[i].of m = true ∧ d.ring.remote[i].epoch = m.epoch ∧ d1.ring.remote[i].trans.find? (fun t => t.trans == m.trans) = none))) ∧
  (∃ s : State, ∃ m : AcycMsg, ∃ i : Fin 4, ∃ t : TransRec, (let d : Dev := s.dev; (let d1 : Dev := d.heardPeer m; d.ring.fn = .active ∧ m.stall.toNat = i.val + 2 ∧ d.ring.remote[i].of m = true ∧ d.ring.remote[i].epoch = m.epoch ∧ d1.ring.remote[i].trans.find? (fun t => t.trans == m.trans) = some t))) ∧
  (∃ s : State, ∃ i : Fin 4, (let d : Dev := s.dev; d.ring.remote[i].connected = true ∧ d.past d.ring.remote[i].lastClk (d.ring.conf.timeoutMs.toNat * clksPerMs) = true)) := by
  refine ⟨⟨st0 ((up).modRing (fun r => { r with fn := .active })), ⟨0, 7, false, false, 0, 0, 0, 3, 0, true, 2, [2]⟩, 0, ?_⟩, ⟨st0 ((up).modRing (fun r => { r with fn := .active, remote := vmod r.remote 0 (fun x => { x with connected := true, peer := 7 }) })), ⟨0, 7, false, false, 0, 0, 0, 3, 0, true, 2, [2]⟩, 0, ?_⟩, ⟨st0 ((up).modRing (fun r => { r with fn := .active, remote := vmod r.remote 0 (fun x => { x with connected := true, peer := 7 }) })), ⟨0, 7, false, false, 0, 0, 0, 3, 0, true, 2, [2]⟩, 0, ?_⟩, ⟨st0 ((up).modRing (fun r => { r with fn := .active, remote := vmod r.remote 0 (fun x => { x with connected := true, peer := 7 }) })), ⟨0, 7, false, false, 0, 0, 0, 3, 0, true, 2, [2]⟩, 0, ?_⟩, ⟨st0 ((up).modRing (fun r => { r with fn := .active, remote := vmod r.remote 0 (fun x => { x with connected := true, peer := 7, trans := [⟨3, none, []⟩] }) })), ⟨0, 7, false, false, 0, 0, 0, 3, 0, true, 2, [2]⟩, 0, ⟨3, none, []⟩, ?_⟩, ⟨st0 ({ ((up).modRing (fun r => { r with fn := .active, remote := vmod r.remote 0 (fun x => { x with connected := true, peer := 7 }) })) with clk := 100000000 }), 0, ?_⟩⟩ <;>
  first | decide +kernel | (dsimp only; decide +kernel)

theorem witness_proxyRowsComplete :
  (∃ s : State, ∃ st : Stall, ∃ tag : BitVec 8, ∃ c : Cmd, (let d : Dev := s.dev; (let w := wd c.payload 0; (let node := BitVec.ofNat 10 (fld w 9 0); (let hop := bitOf w 10; (let want := fld w 13 11; (let n := c.payload.length - 2; (let known := d.proxy? node hop; d.runs st tag 0x620 c = true ∧ Passes [(c.payload.length < 2 || n > 1022 || fld (wd c.payload 1) 11 0 != n || rsv w 0xC000 || fld w 31 16 < 10 || fld w 31 16 > 60000 || want == 1 || want > 5, stParam), (known.isNone && d.ring.proxies.length ≥ 4, stResource), (d.ring.conf.acycBytes == 0, stState)])))))))) ∧
  (∃ s : State, ∃ m : AcycMsg, ∃ p : ProxyConn, (let d : Dev := s.dev; d.proxy? m.src m.srcUnset = some p ∧ p.stall = none)) ∧
  (∃ s : State, ∃ m : AcycMsg, ∃ p : ProxyConn, ∃ c : ProxyCmd, (let d : Dev := s.dev; d.proxy? m.src m.srcUnset = some p ∧ p.stall.isSome = true ∧ p.epoch = m.epoch ∧ p.cmds.find? (fun c => c.trans == m.trans) = some c)) ∧
  (∃ s : State, ∃ m : AcycMsg, ∃ p : ProxyConn, ∃ c : ProxyCmd, (let d : Dev := s.dev; d.proxy? m.src m.srcUnset = some p ∧ p.stall.isSome = true ∧ p.epoch = m.epoch ∧ p.cmds.find? (fun c => c.trans == m.trans) = some c ∧ m.data.length ≤ 1022)) ∧
  (∃ s : State, ∃ m : AcycMsg, ∃ p : ProxyConn, ∃ c : ProxyCmd, (let d : Dev := s.dev; d.proxy? m.src m.srcUnset = some p ∧ p.stall.isSome = true ∧ p.epoch = m.epoch ∧ p.cmds.find? (fun c => c.trans == m.trans) = some c ∧ 1022 < m.data.length)) ∧
  (∃ s : State, ∃ st : Stall, ∃ tag : BitVec 8, ∃ p : ProxyConn, ∃ c : ProxyCmd, ∃ k : Nat, (let d : Dev := s.dev; d.ring.proxies.find? (fun p => p.cmds.any (fun c => c.stall == st && c.tag == tag)) = some p ∧ p.cmds.find? (fun c => c.stall == st && c.tag == tag) = some c ∧ c.sentCycle = some k ∧ c.acked = false ∧ k + 4 ≤ d.ownCycle ∧ c.retries < 3)) ∧
  (∃ s : State, ∃ st : Stall, ∃ tag : BitVec 8, ∃ p : ProxyConn, ∃ c : ProxyCmd, ∃ k : Nat, (let d : Dev := s.dev; d.ring.proxies.find? (fun p => p.cmds.any (fun c => c.stall == st && c.tag == tag)) = some p ∧ p.cmds.find? (fun c => c.stall == st && c.tag == tag) = some c ∧ c.sentCycle = some k ∧ c.acked = false ∧ k + 4 ≤ d.ownCycle ∧ 3 ≤ c.retries)) ∧
  (∃ s : State, ∃ node : BitVec 10, ∃ p : ProxyConn, (let d : Dev := s.dev; d.ring.proxies.find? (fun p => p.node == node && p.stall.isSome && d.past p.lastSent (8 * clksPerMs)) = some p)) ∧
  (∃ s : State, ∃ node : BitVec 10, ∃ p : ProxyConn, (let d : Dev := s.dev; d.ring.proxies.find? (fun p => p.node == node && p.cmds.isEmpty && d.past p.lastUse (1000 * clksPerMs)) = some p)) := by
  refine ⟨⟨st0 (busy (up) 0x620 [0x00641007, 0]), 0, 1, cmd 0x620 [0x00641007, 0], ?_⟩, ⟨st0 ((up).modRing (fun r => { r with fn := .active, proxies := [⟨7, false, 2, none, 0, 0, 0, 0, []⟩] })), ⟨0, 7, false, false, 0, 0, 0, 3, 0, true, 2, [2]⟩, ⟨7, false, 2, none, 0, 0, 0, 0, []⟩, ?_⟩, ⟨st0 ((up).modRing (fun r => { r with fn := .active, proxies := [⟨7, false, 2, some 2, 0, 0, 0, 0, [⟨0, 1, 3, 0x0, [], 0, some 0, false⟩]⟩] })), ⟨0, 7, false, false, 0, 0, 0, 3, 0, true, 2, []⟩, ⟨7, false, 2, some 2, 0, 0, 0, 0, [⟨0, 1, 3, 0x0, [], 0, some 0, false⟩]⟩, ⟨0, 1, 3, 0x0, [], 0, some 0, false⟩, ?_⟩, ⟨st0 ((up).modRing (fun r => { r with fn := .active, proxies := [⟨7, false, 2, some 2, 0, 0, 0, 0, [⟨0, 1, 3, 0x0, [], 0, some 0, false⟩]⟩] })), ⟨0, 7, false, false, 0, 0, 0, 3, 0, true, 2, [0]⟩, ⟨7, false, 2, some 2, 0, 0, 0, 0, [⟨0, 1, 3, 0x0, [], 0, some 0, false⟩]⟩, ⟨0, 1, 3, 0x0, [], 0, some 0, false⟩, ?_⟩, ⟨st0 ((up).modRing (fun r => { r with fn := .active, proxies := [⟨7, false, 2, some 2, 0, 0, 0, 0, [⟨0, 1, 3, 0x0, [], 0, some 0, false⟩]⟩] })), ⟨0, 7, false, false, 0, 0, 0, 3, 0, true, 2, List.replicate 1023 0⟩, ⟨7, false, 2, some 2, 0, 0, 0, 0, [⟨0, 1, 3, 0x0, [], 0, some 0, false⟩]⟩, ⟨0, 1, 3, 0x0, [], 0, some 0, false⟩, ?_⟩, ⟨st0 ({ ((up).modRing (fun r => { r with fn := .active, proxies := [⟨7, false, 2, some 2, 0, 0, 0, 0, [⟨0, 1, 3, 0x0, [], 0, some 0, false⟩]⟩] })) with tk := { ((up).modRing (fun r => { r with fn := .active, proxies := [⟨7, false, 2, some 2, 0, 0, 0, 0, [⟨0, 1, 3, 0x0, [], 0, some 0, false⟩]⟩] })).tk with cycles := 9 } }), 0, 1, ⟨7, false, 2, some 2, 0, 0, 0, 0, [⟨0, 1, 3, 0x0, [], 0, some 0, false⟩]⟩, ⟨0, 1, 3, 0x0, [], 0, some 0, false⟩, 0, ?_⟩, ⟨st0 ({ ((up).modRing (fun r => { r with fn := .active, proxies := [⟨7, false, 2, some 2, 0, 0, 0, 0, [⟨0, 1, 3, 0x0, [], 3, some 0, false⟩]⟩] })) with tk := { ((up).modRing (fun r => { r with fn := .active, proxies := [⟨7, false, 2, some 2, 0, 0, 0, 0, [⟨0, 1, 3, 0x0, [], 3, some 0, false⟩]⟩] })).tk with cycles := 9 } }), 0, 1, ⟨7, false, 2, some 2, 0, 0, 0, 0, [⟨0, 1, 3, 0x0, [], 3, some 0, false⟩]⟩, ⟨0, 1, 3, 0x0, [], 3, some 0, false⟩, 0, ?_⟩, ⟨st0 ({ ((up).modRing (fun r => { r with fn := .active, proxies := [⟨7, false, 2, some 2, 0, 0, 0, 0, []⟩] })) with clk := 1000000000 }), 7, ⟨7, false, 2, some 2, 0, 0, 0, 0, []⟩, ?_⟩, ⟨st0 ({ ((up).modRing (fun r => { r with fn := .active, proxies := [⟨7, false, 2, some 2, 0, 0, 0, 0, []⟩] })) with clk := 1000000000 }), 7, ⟨7, false, 2, some 2, 0, 0, 0, 0, []⟩, ?_⟩⟩ <;>
  first | decide +kernel | (unfold Passes; decide +kernel) | (unfold Passes; dsimp only; decide +kernel)

theorem witness_networkTimeRowsComplete :
  (∃ s : State, ∃ st : Stall, ∃ tag : BitVec 8, ∃ c : Cmd, (let d : Dev := s.dev; (let w := wd c.payload 0; (let w1 := wd c.payload 1; d.runs st tag 0x610 c = true ∧ Passes [(badLen c 2 || rsv w 0xFF80FC00 || rsv w1 0xFFFFE0F0, stParam)])))) ∧
  (∃ s : State, ∃ st : Stall, ∃ tag : BitVec 8, ∃ c : Cmd, (let d : Dev := s.dev; (let ns := fld (wd c.payload 2) 29 0; (let pps := d.nt.conf.ppsSrc; d.runs st tag 0x611 c = true ∧ Passes [(!d.nt.isGm, stState), (badLen c 3 || rsv (wd c.payload 1) 0xFFFF0000 || rsv (wd c.payload 2) 0xC0000000 || ns ≥ 1000000000 || (pps && ns != 0), stParam), (d.nt.timeSet.isSome || d.nt.step.isSome, stState)])))) ∧
  (∃ s : State, (let d : Dev := s.dev; d.nt.isGm = true ∧ d.ring.fn = .active ∧ d.nt.gmCycle < d.ownCycle ∧ (d.ring.port false).brk = false ∧ (d.ring.port true).brk = false)) ∧
  (∃ s : State, ∃ b : Bool, ∃ q : BitVec 7, (let d : Dev := s.dev; d.ring.fn = .active ∧ d.nt.isGm = false ∧ q = d.nt.conf.domain ∧ b ≠ d.nt.syncPort)) ∧
  (∃ s : State, ∃ b : Bool, ∃ q : BitVec 7, ∃ origin : Int, ∃ n : Nat, ∃ res : Nat, (let d : Dev := s.dev; d.ring.fn = .active ∧ d.nt.isGm = false ∧ q = d.nt.conf.domain ∧ (let base : Int := origin + (d.ring.port b).delay; (let d1 : Dev := d.passSync b base res; (let o : Int := d.nt.nt + d.ntStep n - base; b = d.nt.syncPort ∧ d1.missedStep = none ∧ d1.nt.state = .locked ∧ (let d2 : Dev := (d1.modNt (fun t => { t with syncCycle := d1.ownCycle, timeIsSet := true })).servo o n; d2.nt.state = .locked ∧ ¬ (-(20 * nsUnit) ≤ o ∧ o ≤ 20 * nsUnit))))))) ∧
  (∃ s : State, (let d : Dev := s.dev; d.nt.state = .locked ∧ d.nt.syncCycle + 5 ≤ d.ownCycle)) ∧
  (∃ s : State, (let d : Dev := s.dev; d.ring.fn = .active ∧ (d.ring.port false).brk = false ∧ (d.ring.port true).brk = false)) ∧
  (∃ s : State, ∃ b : Bool, (let d : Dev := s.dev; (let p : RingPort := d.ring.port b; d.ring.fn = .active ∧ p.brk = false))) ∧
  (∃ s : State, ∃ b : Bool, ∃ delay : Nat, (let d : Dev := s.dev; (let p : RingPort := d.ring.port b; d.ring.fn = .active ∧ p.brk = false ∧ farDelay p.meas delay = false))) ∧
  (∃ s : State, (let d : Dev := s.dev; (d.nt.isGm && d.nt.conf.ppsSrc) = false)) ∧
  (∃ s : State, (let d : Dev := s.dev; d.nt.conf.ppsOutEn = true ∧ d.ntValid = true ∧ Int.fdiv (d.nt.nt + d.ntStep d.tickClks - 1) secUnit ≠ Int.fdiv (d.nt.nt - 1) secUnit)) ∧
  (∃ s : State, (let d : Dev := s.dev; d.ntValid = true)) := by
  refine ⟨⟨st0 (busy (up) 0x610 [0, 0]), 0, 1, cmd 0x610 [0, 0], ?_⟩, ⟨st0 (busy ((up).modNt (fun t => { t with isGm := true })) 0x611 [5, 0, 0]), 0, 1, cmd 0x611 [5, 0, 0], ?_⟩, ⟨st0 ({ (((up).modRing (fun r => { r with fn := .active })).modNt (fun t => { t with isGm := true })) with tk := { (((up).modRing (fun r => { r with fn := .active })).modNt (fun t => { t with isGm := true })).tk with cycles := 9 } }), ?_⟩, ⟨st0 ((up).modRing (fun r => { r with fn := .active })), true, 0, ?_⟩, ⟨st0 (((up).modRing (fun r => { r with fn := .active })).modNt (fun t => { t with state := .locked, nt := 1000 * nsUnit })), false, 0, 0, 0, 0, ?_⟩, ⟨st0 ({ ((up).modNt (fun t => { t with state := .locked })) with tk := { ((up).modNt (fun t => { t with state := .locked })).tk with cycles := 9 } }), ?_⟩, ⟨st0 ((up).modRing (fun r => { r with fn := .active })), ?_⟩, ⟨st0 ((up).modRing (fun r => { r with fn := .active })), false, ?_⟩, ⟨st0 ((up).modRing (fun r => { r with fn := .active })), false, 0, ?_⟩, ⟨st0 (up), ?_⟩, ⟨st0 ((up).modNt (fun t => { t with state := .locked, nt := 0 })), ?_⟩, ⟨st0 ((up).modNt (fun t => { t with state := .locked })), ?_⟩⟩ <;>
  first | decide +kernel | (unfold Passes; decide +kernel) | (unfold Passes; dsimp only; decide +kernel)

theorem witness_canCommandsComplete :
  (∃ s : State, ∃ st : Stall, ∃ tag : BitVec 8, ∃ c : Cmd, (let d : Dev := s.dev; d.runs st tag 0x700 c = true)) ∧
  (∃ d : Dev, ∃ c : Cmd, c.code.toNat = 0x700 ∧ (let k := ctrlOf c; Passes [(noWord c, stParam), (d.can.ctl[k].state != .off, stState), (badLen c 4 || canConfBad c.payload || (!bitOf (wd c.payload 0) 6 && d.canBound k), stParam)])) ∧
  (∃ s : State, ∃ st : Stall, ∃ tag : BitVec 8, ∃ c : Cmd, (let d : Dev := s.dev; (let w := wd c.payload 0; (let id := wd c.payload 1; d.runs st tag 0x701 c = true ∧ Passes [(badLen c 3 || rsv w 0xFFFCE0FE || rsv id 0xE0000000 || rsv (wd c.payload 2) 0xE0000000 || (!bitOf w 17 && fld id 28 0 > 0x7FF), stParam)])))) ∧
  (∃ s : State, ∃ st : Stall, ∃ tag : BitVec 8, ∃ c : Cmd, (let d : Dev := s.dev; (let k := ctrlOf c; (let x := d.can.ctl[k]; (let p := c.payload; (let w := wd p 0; (let b : Fin 32 := Fin.ofNat 32 (fld w 12 8); (let n := fld (wd p 2) 6 0; d.runs st tag 0x702 c = true ∧ Passes [(noWord c, stParam), (x.state == .off || x.mode == 1 || x.mode == 2, stState), (x.bufs[b].safety.isSome, stResource), (p.length != 4 + cdiv n 4 || rsv w 0xFFE0E0FE || rsv (wd p 1) 0xE0000000 || rsv (wd p 2) 0x0000FF80 || (!bitOf w 16 && fld (wd p 1) 28 0 > 0x7FF) || !canBytesOk (bitOf w 17) n || (bitOf w 17 && !x.fdEn) || (bitOf w 18 && (!bitOf w 17 || !x.brsEn)) || (bitOf w 20 && x.role.role == 0) || (!bitOf w 20 && wd p 3 != 0), stParam)])))))))) ∧
  (∃ s : State, ∃ st : Stall, ∃ tag : BitVec 8, ∃ c : Cmd, (let d : Dev := s.dev; (let w := wd c.payload 0; d.runs st tag 0x703 c = true ∧ Passes [(badLen c 1 || rsv w 0xFFFFFF0E || outside 1 8 (fld w 7 4), stParam)]))) ∧
  (∃ s : State, ∃ st : Stall, ∃ tag : BitVec 8, ∃ c : Cmd, (let d : Dev := s.dev; (let k := ctrlOf c; (let x := d.can.ctl[k]; (let w := wd c.payload 0; (let op := fld w 5 4; d.runs st tag 0x704 c = true ∧ Passes [(noWord c, stParam), ((op == 0 && x.state != .off) || (op == 1 && x.state == .off) || (op == 2 && (x.state != .busOff || x.autoRec)), stState), (badLen c 1 || rsv w 0xFFFFFFCE, stParam)])))))) ∧
  (∃ s : State, ∃ st : Stall, ∃ tag : BitVec 8, ∃ c : Cmd, (let d : Dev := s.dev; (let k := ctrlOf c; (let x := d.can.ctl[k]; (let role := fld (wd c.payload 0) 5 4; (let windows := x.bufs.toList.any (fun b => (b.result == .pending || b.result == .onBus) && (b.tx.any (·.window) || b.next.any (·.window))); d.runs st tag 0x710 c = true ∧ Passes [(noWord c, stParam), (role == 1 && (x.mode == 1 || x.mode == 2), stState), (badLen c 3 || d.roleBad c.payload || (role == 0 && windows), stParam)])))))) ∧
  (∃ s : State, ∃ st : Stall, ∃ tag : BitVec 8, ∃ c : Cmd, (let d : Dev := s.dev; d.runs st tag 0x720 c = true)) ∧
  (∃ d : Dev, ∃ c : Cmd, c.code.toNat = 0x720 ∧ (let k := ctrlOf c; (let x := d.can.ctl[k]; (let p := c.payload; (let w := wd p 0; (let en := bitOf w 1; (let req := BitVec.ofNat 29 (fld (wd p 1) 28 0); (let rsp := BitVec.ofNat 29 (fld (wd p 2) 28 0); (let g := d.can.gw; Passes [(noWord c, stParam), (c.stall == 6 || (g.ctrl.isSome && g.ctrl != some k) || (en && (x.state == .off || x.mode != 0 || !x.fdEn)), stState), (badLen c 4 || rsv w 0xFFFFFFF0 || rsv (wd p 1) 0xE0000000 || rsv (wd p 2) 0xE0000000 || req == rsp || (!bitOf w 2 && (req.toNat > 0x7FF || rsp.toNat > 0x7FF)) || rsv (wd p 3) 0xFFFFF800, stParam)]))))))))) := by
  refine ⟨⟨st0 (busy (up) 0x700 [0, 0x0102050A, 0x01010302, 0x01010100]), 0, 1, cmd 0x700 [0, 0x0102050A, 0x01010302, 0x01010100], ?_⟩, ⟨up, cmd 0x700 [0, 0x0102050A, 0x01010302, 0x01010100], ?_⟩, ⟨st0 (busy (up) 0x701 [1, 5, 5]), 0, 1, cmd 0x701 [1, 5, 5], ?_⟩, ⟨st0 (busy ((up).modCan 0 (fun c => { c with state := .active })) 0x702 [0, 5, 0, 0]), 0, 1, cmd 0x702 [0, 5, 0, 0], ?_⟩, ⟨st0 (busy (up) 0x703 [0x10]), 0, 1, cmd 0x703 [0x10], ?_⟩, ⟨st0 (busy (up) 0x704 [0]), 0, 1, cmd 0x704 [0], ?_⟩, ⟨st0 (busy (up) 0x710 [0, 0, 0]), 0, 1, cmd 0x710 [0, 0, 0], ?_⟩, ⟨st0 (busy ((up).modCan 0 (fun c => { c with state := .active, conf := vset c.conf 0 0x40 })) 0x720 [2, 5, 6, 0]), 0, 1, cmd 0x720 [2, 5, 6, 0], ?_⟩, ⟨(up).modCan 0 (fun c => { c with state := .active, conf := vset c.conf 0 0x40 }), cmd 0x720 [2, 5, 6, 0], ?_⟩⟩ <;>
  first | decide +kernel | (unfold Passes; decide +kernel) | (unfold Passes; dsimp only; decide +kernel)

theorem witness_canEventsComplete :
  (∃ s : State, ∃ k : Fin 2, (let d : Dev := s.dev; d.can.ctl[k].state = .integrating)) ∧
  (∃ s : State, ∃ k : Fin 2, (let d : Dev := s.dev; d.can.ctl[k].state = .active ∧ d.can.ctl[k].mode ≠ 3)) ∧
  (∃ s : State, ∃ k : Fin 2, ∃ n : Nat, ∃ f : CanFrame, (let d : Dev := s.dev; d.can.ctl[k].onBus = some n ∧ d.busFrame k n = some f ∧ d.can.ctl[k].mode ≠ 3)) ∧
  (∃ s : State, ∃ k : Fin 2, ∃ n : Nat, (let d : Dev := s.dev; d.can.ctl[k].onBus = some n ∧ d.can.ctl[k].state = .active)) ∧
  (∃ s : State, ∃ k : Fin 2, ∃ b : Fin 32, ∃ t : CanTx, ∃ e : Nat, (let d : Dev := s.dev; d.can.ctl[k].bufs[b].tx = some t ∧ t.expiry = some e ∧ e < d.clk + max 1 d.tickClks ∧ d.can.ctl[k].bufs[b].result = .pending)) ∧
  (∃ s : State, ∃ k : Fin 2, (let d : Dev := s.dev; d.can.ctl[k].state = .recovering)) ∧
  (∃ s : State, ∃ k : Fin 2, (let d : Dev := s.dev; (let c : CanCtl := d.can.ctl[k]; c.role.role = 2 ∧ c.roleNext = none ∧ c.role.basic ≠ 0 ∧ d.tick % c.role.basic.toNat = 0 ∧ c.basicTick ≠ d.tick))) ∧
  (∃ s : State, ∃ k : Fin 2, (let d : Dev := s.dev; d.can.ctl[k].role.role = 1 ∧ d.toBasic d.can.ctl[k].role ≤ d.tickClks + 512 * d.can.ctl[k].role.guardUs.toNat)) ∧
  (∃ s : State, ∃ k : Fin 2, (let d : Dev := s.dev; d.can.ctl[k].refPending = true ∧ d.can.ctl[k].onBus = none ∧ d.can.ctl[k].basicClk + 512 * d.can.ctl[k].role.windowUs.toNat < d.clk + d.tickClks)) ∧
  (∃ s : State, ∃ k : Fin 2, ∃ b : Fin 32, ∃ t : CanTx, (let d : Dev := s.dev; (let c : CanCtl := d.can.ctl[k]; c.bufs[b].tx = some t ∧ t.window = true ∧ c.role.role ≠ 0 ∧ c.basicClk + 512 * t.winStart.toNat < d.clk + max 1 d.tickClks ∧ d.clk ≤ c.basicClk + 512 * (t.winStart.toNat + t.winLen.toNat)))) ∧
  (∃ s : State, ∃ k : Fin 2, ∃ b : Fin 32, ∃ t : CanTx, (let d : Dev := s.dev; (let c : CanCtl := d.can.ctl[k]; c.bufs[b].tx = some t ∧ t.window = true ∧ c.basicClk + 512 * (t.winStart.toNat + t.winLen.toNat) < d.clk + max 1 d.tickClks))) ∧
  (∃ s : State, ∃ ws : List W32, (let d : Dev := s.dev; d.can.gw.ctrl.isSome = true ∧ gwOp ws = 0)) ∧
  (∃ s : State, ∃ ws : List W32, (let d : Dev := s.dev; d.can.gw.ctrl.isSome = true ∧ gwOp ws = 1)) ∧
  (∃ s : State, ∃ ws : List W32, (let d : Dev := s.dev; d.can.gw.ctrl.isSome = true ∧ gwOp ws = 2 ∧ gwFirst ws = true ∧ gwLast ws = true)) := by
  refine ⟨⟨st0 ((up).modCan 0 (fun c => { c with state := .integrating })), 0, ?_⟩, ⟨st0 ((up).modCan 0 (fun c => { c with state := .active })), 0, ?_⟩, ⟨st0 ((up).modCan 0 (fun c => { c with bufs := vset c.bufs 0 { c.bufs[0] with tx := some ⟨⟨false, 5, false, false, false, false, []⟩, false, false, 0, 0, none⟩, result := .onBus }, onBus := some 0, state := .active })), 0, 0, ⟨false, 5, false, false, false, false, []⟩, ?_⟩, ⟨st0 ((up).modCan 0 (fun c => { c with bufs := vset c.bufs 0 { c.bufs[0] with tx := some ⟨⟨false, 5, false, false, false, false, []⟩, false, false, 0, 0, none⟩, result := .onBus }, onBus := some 0, state := .active })), 0, 0, ?_⟩, ⟨st0 ((up).modCan 0 (fun c => { c with bufs := vset c.bufs 0 { c.bufs[0] with tx := some ⟨⟨false, 5, false, false, false, false, []⟩, false, false, 0, 0, (some 0)⟩, result := .pending } })), 0, 0, ⟨⟨false, 5, false, false, false, false, []⟩, false, false, 0, 0, (some 0)⟩, 0, ?_⟩, ⟨st0 ((up).modCan 0 (fun c => { c with state := .recovering })), 0, ?_⟩, ⟨st0 ((up).modCan 0 (fun c => { c with role := ⟨2, 0, false, 1, 0, 0, 0, 0⟩, basicTick := 9 })), 0, ?_⟩, ⟨st0 ((up).modCan 0 (fun c => { c with role := ⟨1, 0, false, 1, 0, 0, 0, 0⟩ })), 0, ?_⟩, ⟨st0 ((up).modCan 0 (fun c => { c with refPending := true })), 0, ?_⟩, ⟨st0 ((up).modCan 0 (fun c => { c with role := ⟨1, 0, false, 1, 0, 0, 0, 0⟩, bufs := vset c.bufs 0 { c.bufs[0] with tx := some ⟨⟨false, 5, false, false, false, false, []⟩, false, true, 0, 0, none⟩ } })), 0, 0, ⟨⟨false, 5, false, false, false, false, []⟩, false, true, 0, 0, none⟩, ?_⟩, ⟨st0 ((up).modCan 0 (fun c => { c with role := ⟨1, 0, false, 1, 0, 0, 0, 0⟩, bufs := vset c.bufs 0 { c.bufs[0] with tx := some ⟨⟨false, 5, false, false, false, false, []⟩, false, true, 0, 0, none⟩ } })), 0, 0, ⟨⟨false, 5, false, false, false, false, []⟩, false, true, 0, 0, none⟩, ?_⟩, ⟨st0 ({ up with can := { up.can with gw := { up.can.gw with ctrl := some 0 } } }), [0], ?_⟩, ⟨st0 ({ up with can := { up.can with gw := { up.can.gw with ctrl := some 0 } } }), [0x100], ?_⟩, ⟨st0 ({ up with can := { up.can with gw := { up.can.gw with ctrl := some 0 } } }), [0x230], ?_⟩⟩ <;>
  first | decide +kernel | (dsimp only; decide +kernel)

theorem witness_fieldIoRowsComplete :
  (∃ s : State, ∃ st : Stall, ∃ tag : BitVec 8, ∃ c : Cmd, (let d : Dev := s.dev; (let w := wd c.payload 1; d.runs st tag 0x900 c = true ∧ Passes [(badLen c 2 || wd c.payload 0 == 0 || rsv w 0xFFFC0000 || fld w 15 0 < 1 || fld w 15 0 > 50000, stParam)]))) ∧
  (∃ s : State, ∃ st : Stall, ∃ tag : BitVec 8, ∃ c : Cmd, (let d : Dev := s.dev; (let w0 := wd c.payload 0; (let w := wd c.payload 1; d.runs st tag 0x901 c = true ∧ Passes [(badLen c 2 || fld w0 15 0 == 0 || rsv w0 0xFFFC0000 || fld w 15 0 < 1 || fld w 15 0 > 50000 || fld w 31 16 < 10, stParam)])))) ∧
  (∃ s : State, ∃ st : Stall, ∃ tag : BitVec 8, ∃ c : Cmd, (let d : Dev := s.dev; d.runs st tag 0x902 c = true ∧ Passes [(d.outHeld c, stState), (badLen c 1 || fld (wd c.payload 0) 15 0 == 0, stParam)])) ∧
  (∃ s : State, ∃ st : Stall, ∃ tag : BitVec 8, ∃ c : Cmd, (let d : Dev := s.dev; d.runs st tag 0x903 c = true ∧ Passes [(badLen c 1 || rsv (wd c.payload 0) 0xFFFFFFFC || wd c.payload 0 == 0, stParam)])) ∧
  (∃ s : State, ∃ st : Stall, ∃ tag : BitVec 8, ∃ c : Cmd, (let d : Dev := s.dev; d.runs st tag 0x904 c = true ∧ Passes [(badLen c 1 || rsv (wd c.payload 0) 0xFFFFFFE0, stParam)])) ∧
  (∃ s : State, ∃ st : Stall, ∃ tag : BitVec 8, ∃ c : Cmd, (let d : Dev := s.dev; (let ch := fld (wd c.payload 0) 5 0; d.runs st tag 0x905 c = true ∧ Passes [(badLen c 1 || rsv (wd c.payload 0) 0xFFFFFFC0 || ch > 47, stParam)]))) ∧
  (∃ s : State, ∃ n : Fin 32, ∃ k : Nat, (let d : Dev := s.dev; (let x : FieldIn := d.fio.ins[n]; x.level = false ∧ x.debClk + 512 * x.debUs.toNat ≤ d.clk + 2 * k))) ∧
  (∃ s : State, ∃ n : Fin 16, (let d : Dev := s.dev; (let o : FieldOut := d.fio.outs[n]; o.debClk + 512 * o.debUs.toNat ≤ d.clk + d.tickClks))) ∧
  (∃ s : State, ∃ n : Fin 16, (let d : Dev := s.dev; (let o : FieldOut := d.fio.outs[n]; o.read ≠ o.cmd ∧ d.pw.v24aOk = true ∧ o.since + o.settleUs.toNat * 512 ≤ d.clk + d.tickClks))) ∧
  (∃ s : State, (let d : Dev := s.dev; d.fio.bankHot = false ∧ d.fio.bankOt = false)) ∧
  (∃ d : Dev, ∃ c : Cmd, c.code.toNat = 0x902 ∧ d.outHeld c = false) := by
  refine ⟨⟨st0 (busy (up) 0x900 [1, 1]), 0, 1, cmd 0x900 [1, 1], ?_⟩, ⟨st0 (busy (up) 0x901 [1, 0x000A0001]), 0, 1, cmd 0x901 [1, 0x000A0001], ?_⟩, ⟨st0 (busy (up) 0x902 [1]), 0, 1, cmd 0x902 [1], ?_⟩, ⟨st0 (busy (up) 0x903 [1]), 0, 1, cmd 0x903 [1], ?_⟩, ⟨st0 (busy (up) 0x904 [0]), 0, 1, cmd 0x904 [0], ?_⟩, ⟨st0 (busy (up) 0x905 [0]), 0, 1, cmd 0x905 [0], ?_⟩, ⟨st0 ({ up with clk := 1000000000 }), 0, 0, ?_⟩, ⟨st0 ({ up with clk := 1000000000 }), 0, ?_⟩, ⟨st0 ({ up with fio := { up.fio with outs := vset up.fio.outs 0 { up.fio.outs[0] with cmd := true, read := false, settleUs := 0 } } }), 0, ?_⟩, ⟨st0 (up), ?_⟩, ⟨up, cmd 0x902 [1], ?_⟩⟩ <;>
  first | decide +kernel | (unfold Passes; decide +kernel) | (unfold Passes; dsimp only; decide +kernel)

theorem witness_peripheralPortRowsComplete :
  (∃ s : State, ∃ st : Stall, ∃ tag : BitVec 8, ∃ c : Cmd, (let d : Dev := s.dev; d.runs st tag 0x910 c = true)) ∧
  (∃ d : Dev, ∃ c : Cmd, c.code.toNat = 0x910 ∧ (let w := wd c.payload 0; (let p : Fin 2 := Fin.ofNat 2 (fld w 0 0); (let sel : Fin 4 := Fin.ofNat 4 (fld w 2 1); (let x := d.fio.spm[p]; Passes [(noWord c, stParam), (d.mappedSel p.val sel.val, stResource), (x.queue.any (fun t => t.cs == sel) || x.held == some sel, stState), (badLen c 2 || rsv w 0xFF00F800 || fld w 10 6 < 3 || fld (wd c.payload 1) 31 28 == 0, stParam)]))))) ∧
  (∃ s : State, ∃ st : Stall, ∃ tag : BitVec 8, ∃ c : Cmd, (let d : Dev := s.dev; (let w := wd c.payload 0; (let p : Fin 2 := Fin.ofNat 2 (fld w 0 0); (let sel : Fin 4 := Fin.ofNat 4 (fld w 2 1); (let n := fld w 25 16; (let x := d.fio.spm[p]; d.runs st tag 0x911 c = true ∧ Passes [(noWord c, stParam), (x.selects[sel].isNone, stState), (x.queue.length ≥ 16 || d.mappedSel p.val sel.val, stResource), (c.payload.length != 1 + n || rsv w 0xFC00FFC0 || n < 1 || n > 1022, stParam)]))))))) ∧
  (∃ s : State, ∃ st : Stall, ∃ tag : BitVec 8, ∃ c : Cmd, (let d : Dev := s.dev; d.runs st tag 0x912 c = true)) ∧
  (∃ c : Cmd, c.code.toNat = 0x912 ∧ (let w := wd c.payload 0; (let op := fld w 5 4; Passes [(badLen c 1 || rsv w 0xFFFFFFCE || op > 1, stParam)]))) ∧
  (∃ s : State, ∃ st : Stall, ∃ tag : BitVec 8, ∃ c : Cmd, (let d : Dev := s.dev; d.runs st tag 0x920 c = true)) ∧
  (∃ d : Dev, ∃ c : Cmd, c.code.toNat = 0x920 ∧ (let w := wd c.payload 0; (let w1 := wd c.payload 1; (let w2 := wd c.payload 2; (let size := fld w 12 8; (let within (lo hi v : Nat) : Bool := decide (lo ≤ v ∧ v ≤ hi); Passes [(noWord c, stParam), (d.fio.map.op.isSome || d.fio.spm[0].queue.any (fun t => t.cs.val == fld w 2 1), stState), (badLen c 5 || rsv w 0xFE00E0C0 || rsv (wd c.payload 3) 0xFFFFFF00 || !within 16 28 size || !within 4 12 (fld w 19 16) || !within 8 18 (fld w 24 20) || fld w1 23 16 == 0 || fld w1 31 24 > 32 || fld w2 15 0 == 0 || fld w2 31 16 == 0 || (size ≥ 24 && !bitOf w 3) || (bitOf w 0 && !d.mapSelOk (fld w 2 1)), stParam)])))))) ∧
  (∃ s : State, ∃ st : Stall, ∃ tag : BitVec 8, ∃ c : Cmd, (let d : Dev := s.dev; d.runs st tag 0x921 c = true ∧ d.fio.map.en = true ∧ d.fio.map.op = none ∧ d.fio.spm[0].held = none ∧ (badLen c 2 || rsv (wd c.payload 1) 0xFFFFFC00 || fld (wd c.payload 1) 9 0 < 1 || fld (wd c.payload 1) 9 0 > 1022 || d.fio.map.outside (wd c.payload 0).toNat 4 (fld (wd c.payload 1) 9 0)) = false)) ∧
  (∃ s : State, ∃ st : Stall, ∃ tag : BitVec 8, ∃ c : Cmd, (let d : Dev := s.dev; (let m := d.fio.map; (let a := (wd c.payload 0).toNat; (let w := wd c.payload 1; (let n := fld w 9 0; d.runs st tag 0x922 c = true ∧ Passes [(!m.en || !bitOf m.conf[0] 4, stState), (c.payload.length != 2 + n || rsv w 0xFFFFFC00 || n < 1 || n > 1022 || m.outside a 4 n, stParam)])))))) ∧
  (∃ s : State, ∃ st : Stall, ∃ tag : BitVec 8, ∃ c : Cmd, (let d : Dev := s.dev; (let m := d.fio.map; (let a := (wd c.payload 0).toNat; (let w := wd c.payload 1; (let n := fld w 15 0; d.runs st tag 0x923 c = true ∧ Passes [(!m.en || !bitOf m.conf[0] 4, stState), (badLen c 2 || rsv w 0xFFFF0000 || n < 1 || m.outside a m.sector n, stParam)])))))) ∧
  (∃ s : State, ∃ p : Fin 2, ∃ t : SpmXfer, (let d : Dev := s.dev; (let x : SpmPort := d.fio.spm[p]; x.running = some t))) ∧
  (∃ s : State, ∃ p : Fin 2, ∃ k : Fin 4, ∃ cfg : W32 × W32, (let d : Dev := s.dev; (let x : SpmPort := d.fio.spm[p]; x.held = some k ∧ x.selects[k] = some cfg ∧ x.running = none ∧ x.heldSince + fld cfg.2 31 28 * 51200 ≤ d.clk + d.tickClks))) ∧
  (∃ s : State, ∃ status : Byte, ∃ o : MapOp, (let d : Dev := s.dev; (let m : SpmMap := d.fio.map; m.op = some o ∧ d.fio.spm[0].held = none ∧ ((status.toNat &&& fld m.conf[1] 7 0) != 0) = false ∧ ((status.toNat &&& fld m.conf[1] 15 8) != 0) = true))) ∧
  (∃ s : State, ∃ status : Byte, ∃ o : MapOp, (let d : Dev := s.dev; (let m : SpmMap := d.fio.map; m.op = some o ∧ d.fio.spm[0].held = none ∧ ((status.toNat &&& fld m.conf[1] 7 0) != 0) = false ∧ ((status.toNat &&& fld m.conf[1] 15 8) != 0) = false ∧ o.erase = true ∧ o.sectors ≤ 1))) ∧
  (∃ s : State, ∃ status : Byte, ∃ o : MapOp, (let d : Dev := s.dev; (let m : SpmMap := d.fio.map; m.op = some o ∧ d.fio.spm[0].held = none ∧ ((status.toNat &&& fld m.conf[1] 7 0) != 0) = false ∧ ((status.toNat &&& fld m.conf[1] 15 8) != 0) = false ∧ o.erase = true ∧ 1 < o.sectors))) ∧
  (∃ s : State, ∃ status : Byte, ∃ rb : List Byte, ∃ o : MapOp, (let d : Dev := s.dev; (let m : SpmMap := d.fio.map; m.op = some o ∧ d.fio.spm[0].held = none ∧ ((status.toNat &&& fld m.conf[1] 7 0) != 0) = false ∧ ((status.toNat &&& fld m.conf[1] 15 8) != 0) = false ∧ o.erase = false ∧ ((bitOf m.conf[0] 5 = true → rb.take o.piece = o.rest.take o.piece)) ∧ o.rest.length ≤ o.piece))) ∧
  (∃ s : State, ∃ status : Byte, ∃ rb : List Byte, ∃ o : MapOp, (let d : Dev := s.dev; (let m : SpmMap := d.fio.map; m.op = some o ∧ d.fio.spm[0].held = none ∧ ((status.toNat &&& fld m.conf[1] 7 0) != 0) = false ∧ ((status.toNat &&& fld m.conf[1] 15 8) != 0) = false ∧ o.erase = false ∧ ((bitOf m.conf[0] 5 = true → rb.take o.piece = o.rest.take o.piece)) ∧ o.piece < o.rest.length))) ∧
  (∃ s : State, ∃ addr : Nat, (let d : Dev := s.dev; (let m : SpmMap := d.fio.map; m.en = true ∧ m.op = none ∧ d.fio.spm[0].held = none ∧ addr < m.size ∧ Mem.read none m.cache (addr / 64) = none ∧ m.cache.length < 1024))) := by
  refine ⟨⟨st0 (busy (up) 0x910 [0xC0, 0x10000000]), 0, 1, cmd 0x910 [0xC0, 0x10000000], ?_⟩, ⟨up, cmd 0x910 [0xC0, 0x10000000], ?_⟩, ⟨st0 (busy (up.modSpm 0 (fun x => { x with selects := vset x.selects 0 (some (0xC0, 0x10000000)) })) 0x911 [0x00010000, 0]), 0, 1, cmd 0x911 [0x00010000, 0], ?_⟩, ⟨st0 (busy (up) 0x912 [0]), 0, 1, cmd 0x912 [0], ?_⟩, ⟨cmd 0x912 [0], ?_⟩, ⟨st0 (busy (up) 0x920 [0x00841010, 0x00010000, 0x00010001, 0, 0]), 0, 1, cmd 0x920 [0x00841010, 0x00010000, 0x00010001, 0, 0], ?_⟩, ⟨up, cmd 0x920 [0x00841010, 0x00010000, 0x00010001, 0, 0], ?_⟩, ⟨st0 (busy (up.modMap (fun m => { m with en := true, conf := vset m.conf 0 0x1010 })) 0x921 [0, 1]), 0, 1, cmd 0x921 [0, 1], ?_⟩, ⟨st0 (busy (up.modMap (fun m => { m with en := true, conf := vset m.conf 0 0x1010 })) 0x922 [0, 1, 0]), 0, 1, cmd 0x922 [0, 1, 0], ?_⟩, ⟨st0 (busy (up.modMap (fun m => { m with en := true, conf := vset m.conf 0 0x00801010 })) 0x923 [0, 1]), 0, 1, cmd 0x923 [0, 1], ?_⟩, ⟨st0 (up.modSpm 0 (fun x => { x with queue := [⟨0, 1, 0, true, false, false, []⟩] })), 0, ⟨0, 1, 0, true, false, false, []⟩, ?_⟩, ⟨st0 ({ (up.modSpm 0 (fun x => { x with held := some 0, selects := vset x.selects 0 (some (0, 0x10000000)) })) with clk := 1000000 }), 0, 0, (0, 0x10000000), ?_⟩, ⟨st0 (up.modMap (fun m => { m with op := some ⟨0, 1, false, 0, [], 0, 0, 0⟩, conf := vset m.conf 1 0x0100 })), 1, ⟨0, 1, false, 0, [], 0, 0, 0⟩, ?_⟩, ⟨st0 (up.modMap (fun m => { m with op := some ⟨0, 1, true, 0, [], 0, 1, 0⟩ })), 0, ⟨0, 1, true, 0, [], 0, 1, 0⟩, ?_⟩, ⟨st0 (up.modMap (fun m => { m with op := some ⟨0, 1, true, 0, [], 0, 2, 0⟩ })), 0, ⟨0, 1, true, 0, [], 0, 2, 0⟩, ?_⟩, ⟨st0 (up.modMap (fun m => { m with op := some ⟨0, 1, false, 0, [1, 2, 3, 4], 4, 0, 0⟩ })), 0, [], ⟨0, 1, false, 0, [1, 2, 3, 4], 4, 0, 0⟩, ?_⟩, ⟨st0 (up.modMap (fun m => { m with op := some ⟨0, 1, false, 0, [1, 2, 3, 4], 3, 0, 0⟩ })), 0, [], ⟨0, 1, false, 0, [1, 2, 3, 4], 3, 0, 0⟩, ?_⟩, ⟨st0 (up.modMap (fun m => { m with en := true, conf := vset m.conf 0 0x1010 })), 0, ?_⟩⟩ <;>
  first | decide +kernel | (unfold Passes; decide +kernel) | (unfold Passes; dsimp only; decide +kernel)

theorem witness_faultRowsComplete :
  (∃ s : State, ∃ st : Stall, ∃ tag : BitVec 8, ∃ c : Cmd, (let d : Dev := s.dev; d.runs st tag 0xB00 c = true ∧ Passes [(badLen c 2 || badFaultConfig c.payload, stParam)])) ∧
  (∃ s : State, ∃ st : Stall, ∃ tag : BitVec 8, ∃ c : Cmd, (let d : Dev := s.dev; d.runs st tag 0xB01 c = true ∧ Passes [(badLen c 1 || rsv (wd c.payload 0) 0xFFFFFFF8 || fld (wd c.payload 0) 2 0 == 0, stParam)])) ∧
  (∃ s : State, ∃ st : Stall, ∃ tag : BitVec 8, ∃ c : Cmd, (let d : Dev := s.dev; d.runs st tag 0xB02 c = true ∧ Passes (d.recoverChecks c))) ∧
  (∃ s : State, ∃ st : Stall, ∃ tag : BitVec 8, ∃ c : Cmd, (let d : Dev := s.dev; (let w := wd c.payload 0; (let t := fld w 3 0; (let k := fld w 14 8; d.runs st tag 0xB03 c = true ∧ Passes [(badLen c 2 || rsv w 0xFFFF80F0 || decide (t > 7), stParam), (d.sowBlocked t k, stState), (sowRange t k (wd c.payload 1).toNat, stParam)]))))) ∧
  (∃ s : State, ∃ x : Sown, (let d : Dev := s.dev; d.sv.sown = [x] ∧ d.passedMs x.since 100 = true)) ∧
  (∃ s : State, (let d : Dev := s.dev; d.ft.episode = true ∧ d.ft.safeState = false ∧ ((∀ a : AxisNo, d.axf[a].fault = false)) ∧ d.ft.lastSev2 + d.ft.quietMs.toNat * clksPerMs < d.clk)) ∧
  (∃ s : State, ∃ a : AxisNo, (let d : Dev := s.dev; d.axf[a].fault = true ∧ d.axf[a].latched = false ∧ d.ft.safeState = false ∧ d.mayRecover a = true ∧ d.ft.latchN = 0)) ∧
  (∃ s : State, ∃ a : AxisNo, (let d : Dev := s.dev; d.axf[a].fault = true ∧ d.axf[a].latched = false ∧ d.ft.safeState = false ∧ d.mayRecover a = true ∧ d.ft.latchN ≠ 0 ∧ d.ft.latchN.toNat ≤ d.recovWin a + 1)) ∧
  (∃ s : State, ∃ t : Nat, (let d : Dev := s.dev; d.ft.railRestartAt = some t ∧ d.up = true ∧ t ≤ d.clk + d.tickClks ∧ d.ft.safeUntilPower = false)) ∧
  (∃ s : State, ∃ die : Fin 4, ∃ t : Int, (let d : Dev := s.dev; 120 < t ∧ t ≤ 135 ∧ d.sv.dies[die].tempC.toInt ≤ 120)) ∧
  (∃ s : State, ∃ a : Int, ∃ b : Int, ∃ c : Int, ∃ e : Int, (let d : Dev := s.dev; d.up = true ∧ d.ft.thermalRestart = true ∧ a < 115 ∧ b < 115 ∧ c < 115 ∧ e < 115 ∧ d.ft.safeUntilPower = false)) ∧
  (∃ c : Cmd, c.code.toNat = 0xB00 ∧ bitOf (wd c.payload 0) 31 = false) := by
  refine ⟨⟨st0 (busy (up) 0xB00 [0x8005, 0]), 0, 1, cmd 0xB00 [0x8005, 0], ?_⟩, ⟨st0 (busy (up) 0xB01 [1]), 0, 1, cmd 0xB01 [1], ?_⟩, ⟨st0 (busy (up) 0xB02 [0]), 0, 1, cmd 0xB02 [0], ?_⟩, ⟨st0 (busy (up) 0xB03 [6, 0]), 0, 1, cmd 0xB03 [6, 0], ?_⟩, ⟨st0 ({ ((up).modSv (fun x => { x with sown := [⟨0, 0, 0, 0, 0, 1⟩] })) with clk := 1000000000 }), ⟨0, 0, 0, 0, 0, 1⟩, ?_⟩, ⟨st0 ({ ({ up with ft := { up.ft with episode := true } }) with clk := 1000000000 }), ?_⟩, ⟨st0 ({ (({ up with ft := { up.ft with latchN := 0 } }).modAxf 0 (fun x => { x with fault := true })) with clk := 1000000000 }), 0, ?_⟩, ⟨st0 ({ (({ up with ft := { up.ft with latchN := 1 } }).modAxf 0 (fun x => { x with fault := true, recoveries := [0, 0, 0, 0, 0, 0, 0, 0] })) with clk := 1000000000 }), 0, ?_⟩, ⟨st0 ({ up with ft := { up.ft with railRestartAt := some 0 } }), 0, ?_⟩, ⟨st0 (up), 0, 121, ?_⟩, ⟨st0 ({ up with ft := { up.ft with thermalRestart := true } }), 0, 0, 0, 0, ?_⟩, ⟨cmd 0xB00 [0], ?_⟩⟩ <;>
  first | decide +kernel | (unfold Passes; decide +kernel) | (unfold Passes; dsimp only; decide +kernel)

theorem witness_memoryAndProcessorFaultsComplete :
  (∃ n : Nat, 16 < n) ∧
  (∃ s : State, s.dev.sv.standby = .ready) ∧
  (∃ s : State, (let d : Dev := s.dev; d.sv.standby = .starting ∧ d.sv.mpChange = .none ∧ d.sv.fwPhase ≠ 5)) := by
  refine ⟨⟨17, ?_⟩, ⟨st0 (up), ?_⟩, ⟨st0 ((up).modSv (fun x => { x with standby := .starting })), ?_⟩⟩ <;>
  first | decide +kernel | (dsimp only; decide +kernel)

theorem witness_rotationRowsComplete :
  (∃ s : State, ∃ st : Stall, ∃ tag : BitVec 8, ∃ c : Cmd, (let d : Dev := s.dev; (let w := wd c.payload 0; (let op := fld w 1 0; (let l := retireLane c; (let out := d.lanes[l].role == .out; (let pend := d.sv.rot.retire.contains l; d.runs st tag 0xB10 c = true ∧ Passes [(noWord c, stParam), (op == 2 && decide (fld w 12 8 < 18) && !out && !pend && decide (d.capable < d.sv.rot.retire.length + 18), stState), (badLen c 1 || op == 3 || rsv w 0xFFFFE0FC || (op != 2 && rsv w 0x1F00) || (op == 2 && decide (fld w 12 8 ≥ 18)), stParam)]))))))) ∧
  (∃ s : State, ∃ st : Stall, ∃ tag : BitVec 8, ∃ c : Cmd, (let d : Dev := s.dev; (let w := wd c.payload 0; (let t := fld w 3 0; (let k := fld w 14 8; (let lane := d.lanes[(Fin.ofNat 18 k : LaneNo)].role; d.runs st tag 0xB11 c = true ∧ Passes [(noWord c, stParam), ((t == 0 && decide (k < 18) && !(lane == .spare || lane == .out)) || (t == 1 && d.sv.standby != .ready) || (t == 2 && decide (k < 96) && (d.bistSpare k).isNone), stState), (badLen c 1 || rsv w 0xFFFF80F0 || decide (t > 2) || (t == 0 && decide (k ≥ 18)) || (t == 2 && decide (k ≥ 96)), stParam)])))))) ∧
  (∃ s : State, (let d : Dev := s.dev; d.sv.rot.hold = true ∧ d.passedMs d.sv.rot.holdSince 3600000 = true)) ∧
  (∃ s : State, ∃ b : Bist, ∃ rest : List Bist, (let d : Dev := s.dev; d.sv.bist = b :: rest ∧ b.target ≠ 0)) ∧
  (∃ s : State, (let d : Dev := s.dev; (d.tick + 1) % d.rotTicks = 0 ∧ d.sv.rot.retire = [] ∧ d.sv.rot.hold = false ∧ d.sv.rot.errs = [] ∧ d.sv.rot.takeoverTick = none)) ∧
  (∃ s : State, ∃ l : LaneNo, (let d : Dev := s.dev; d.sv.rot.fallow = some l ∧ d.sv.rot.passed = false)) ∧
  (∃ s : State, ∃ l : LaneNo, (let d : Dev := s.dev; d.sv.rot.fallow = some l ∧ d.sv.rot.passed = false ∧ d.sv.rot.worn.contains l = false ∧ d.sv.rot.inPlace = false)) ∧
  (∃ s : State, ∃ l : LaneNo, (let d : Dev := s.dev; d.sv.rot.fallow = some l ∧ d.sv.rot.passed = false ∧ d.sv.rot.worn.contains l = false ∧ d.sv.rot.inPlace = true)) ∧
  (∃ s : State, ∃ l : LaneNo, (let d : Dev := s.dev; d.lanes[l].role = .inService)) ∧
  (∃ s : State, ∃ k : Fin 4, ∃ n : Nat, (let d : Dev := s.dev; d.sv.spares[k].step = .back n)) ∧
  (∃ s : State, ∃ k : Fin 4, ∃ n : Nat, (let d : Dev := s.dev; d.sv.spares[k].step = .overlap n)) ∧
  (∃ s : State, ∃ k : Fin 4, ∃ n : Nat, (let d : Dev := s.dev; d.sv.spares[k].step = .deliver n)) ∧
  (∃ k : Fin 4, k ≠ 2) := by
  refine ⟨⟨st0 (busy (up) 0xB10 [0]), 0, 1, cmd 0xB10 [0], ?_⟩, ⟨st0 (busy ((up).modSv (fun x => { x with standby := .ready })) 0xB11 [1]), 0, 1, cmd 0xB11 [1], ?_⟩, ⟨st0 ({ ((up).modRot (fun r => { r with hold := true })) with clk := 10000000000000 }), ?_⟩, ⟨st0 ((up).modSv (fun x => { x with bist := [⟨1, 0, 0, 1⟩] })), ⟨1, 0, 0, 1⟩, [], ?_⟩, ⟨st0 ({ up with tk := { up.tk with num := BitVec.ofNat 64 (up.rotTicks - 1) } }), ?_⟩, ⟨st0 (up), 17, ?_⟩, ⟨st0 (up), 17, ?_⟩, ⟨st0 ((up).modRot (fun r => { r with inPlace := true })), 17, ?_⟩, ⟨st0 (up), 0, ?_⟩, ⟨st0 ((up).modSv (fun x => { x with spares := vset x.spares 0 { x.spares[0] with step := .back 3 } })), 0, 3, ?_⟩, ⟨st0 ((up).modSv (fun x => { x with spares := vset x.spares 0 { x.spares[0] with step := .overlap 3 } })), 0, 3, ?_⟩, ⟨st0 ((up).modSv (fun x => { x with spares := vset x.spares 0 { x.spares[0] with step := .deliver 3 } })), 0, 3, ?_⟩, ⟨0, ?_⟩⟩ <;>
  first | decide +kernel | (unfold Passes; decide +kernel) | (unfold Passes; dsimp only; decide +kernel)

theorem witness_marginAndFirmwareRowsComplete :
  (∃ s : State, ∃ st : Stall, ∃ tag : BitVec 8, ∃ c : Cmd, (let d : Dev := s.dev; d.runs st tag 0xB20 c = true ∧ Passes (d.measureChecks c))) ∧
  (∃ s : State, ∃ st : Stall, ∃ tag : BitVec 8, ∃ c : Cmd, (let d : Dev := s.dev; d.runs st tag 0xB21 c = true ∧ Passes (d.applyChecks c))) ∧
  (∃ s : State, ∃ st : Stall, ∃ tag : BitVec 8, ∃ c : Cmd, (let d : Dev := s.dev; (let p := c.payload; (let w := wd p 0; (let n := p.length - 1; (let ofs := fld w 21 0; d.runs st tag 0xB30 c = true ∧ Passes [(d.sv.fwPhase.toNat ≥ 3, stState), (p.length < 2 || rsv w 0x7FC00003 || decide (ofs + 4 * n > 2 ^ 22), stParam)])))))) ∧
  (∃ s : State, ∃ st : Stall, ∃ tag : BitVec 8, ∃ c : Cmd, (let d : Dev := s.dev; d.runs st tag 0xB33 c = true ∧ Passes [(d.sv.fwPhase != 4, stState), (badLen c 0, stParam)])) ∧
  (∃ s : State, ∃ st : Stall, ∃ tag : BitVec 8, ∃ c : Cmd, (let d : Dev := s.dev; (let w := wd c.payload 0; (let w1 := wd c.payload 1; d.runs st tag 0xB40 c = true ∧ Passes [(badLen c 2 || rsv w 0xFFFF0000 || rsv w1 0xFFFFFF80 || fld w1 6 0 == 0, stParam)])))) ∧
  (∃ s : State, ∃ a : AxisNo, ∃ r : List LegMeasure, ∃ x : Measuring, (let d : Dev := s.dev; d.assigned a = true ∧ r.length = (d.axisLegs a).length ∧ d.sv.measuring.find? (fun m => m.axis == a) = some x ∧ x.baseline = true ∧ x.apply = false ∧ x.cmd = none ∧ (d.axf[a].measureDue && !d.bridgeBusy a && !d.busLow a) = false ∧ (d.planOf a r).2 = false)) ∧
  (∃ s : State, ∃ st : Stall, ∃ tag : BitVec 8, ∃ c : Cmd, (let d : Dev := s.dev; d.runs st tag 0xB31 c = true ∧ badLen c 2 = false ∧ rsv (wd c.payload 0) 0xFFC00000 = false)) ∧
  (∃ s : State, ∃ st : Stall, ∃ tag : BitVec 8, ∃ c : Cmd, (let d : Dev := s.dev; d.runs st tag 0xB32 c = true ∧ Passes (d.activateChecks c) ∧ fld (wd c.payload 0) 1 0 = 0)) ∧
  (∃ s : State, ∃ st : Stall, ∃ tag : BitVec 8, ∃ c : Cmd, (let d : Dev := s.dev; d.runs st tag 0xB32 c = true ∧ Passes (d.activateChecks c) ∧ fld (wd c.payload 0) 1 0 = 1)) ∧
  (∃ s : State, (let d : Dev := s.dev; d.updating = true ∧ d.sv.standby = .inUpdate ∧ d.sv.mpChange = .none)) ∧
  (∃ s : State, (let d : Dev := s.dev; d.updating = true ∧ d.sv.fwCmd = none ∧ d.sv.standby ≠ .starting ∧ d.sv.mpChange = .none ∧ d.passedMs d.sv.fwSince 1000 = true)) ∧
  (∃ s : State, (let d : Dev := s.dev; d.updating = true ∧ d.sv.fwPhase = 3 ∧ d.sv.fwCmd = none ∧ d.sv.standbyNew = true ∧ d.isFrame = true ∧ d.bestEffortRuns = false ∧ d.sv.mpChange = .none ∧ d.clk ≤ d.sv.fwSince + 1000 * clksPerMs)) ∧
  (∃ s : State, ∃ t : Nat, (let d : Dev := s.dev; d.sv.switchClk = some t ∧ d.sv.fwPhase = 3 ∧ d.passedMs t 400 = true)) ∧
  (∃ s : State, (let d : Dev := s.dev; d.sv.fwPhase = 4 ∧ d.sv.trialEnd ≤ d.clk + d.tickClks)) := by
  refine ⟨⟨st0 (busy ({ pm with aux := [(96, 500000)] }) 0xB20 [0x80, 1]), 0, 1, cmd 0xB20 [0x80, 1], ?_⟩, ⟨st0 (busy ((pm).modSv (fun x => { x with plans := vset x.plans 0 (some ⟨0, 10, 2, 1, 0⟩) })) 0xB21 [0]), 0, 1, cmd 0xB21 [0], ?_⟩, ⟨st0 (busy (up) 0xB30 [0x80000000, 0]), 0, 1, cmd 0xB30 [0x80000000, 0], ?_⟩, ⟨st0 (busy ((up).modSv (fun x => { x with fwPhase := 4 })) 0xB33 []), 0, 1, cmd 0xB33 [], ?_⟩, ⟨st0 (busy (up) 0xB40 [0, 1]), 0, 1, cmd 0xB40 [0, 1], ?_⟩, ⟨st0 ((pm).modSv (fun x => { x with measuring := [⟨0, true, false, none⟩] })), 0, [⟨100, 100, 100, 100, 1000, 1000, 1000, 1, 12000⟩, ⟨100, 100, 100, 100, 1000, 1000, 1000, 1, 12000⟩, ⟨100, 100, 100, 100, 1000, 1000, 1000, 1, 12000⟩], ⟨0, true, false, none⟩, ?_⟩, ⟨st0 (busy (up) 0xB31 [0, 0]), 0, 1, cmd 0xB31 [0, 0], ?_⟩, ⟨st0 (busy ((up).modSv (fun x => { x with images := Vector.replicate 2 ⟨[], 5, true⟩, standby := .ready, liveOk := true, fwPhase := 2 })) 0xB32 [0]), 0, 1, cmd 0xB32 [0], ?_⟩, ⟨st0 (busy ((up).modSv (fun x => { x with images := Vector.replicate 2 ⟨[], 5, true⟩, standby := .ready, liveOk := true, fwPhase := 2 })) 0xB32 [0x000A0001]), 0, 1, cmd 0xB32 [0x000A0001], ?_⟩, ⟨st0 ((up).modSv (fun x => { x with fwPhase := 3, standby := .inUpdate })), ?_⟩, ⟨st0 ({ ((up).modSv (fun x => { x with fwPhase := 3 })) with clk := 1000000000 }), ?_⟩, ⟨st0 ((up).modSv (fun x => { x with fwPhase := 3, standbyNew := true })), ?_⟩, ⟨st0 ({ ((up).modSv (fun x => { x with fwPhase := 3, switchClk := some 0 })) with clk := 1000000000 }), 0, ?_⟩, ⟨st0 ((up).modSv (fun x => { x with fwPhase := 4 })), ?_⟩⟩ <;>
  first | decide +kernel | (unfold Passes; decide +kernel) | (unfold Passes; dsimp only; decide +kernel)

theorem witness_safetyCommandsComplete :
  (∃ s : State, ∃ st : Stall, ∃ tag : BitVec 8, ∃ c : Cmd, (let d0 : Dev := s.dev; (let d : Dev := d0.touch; d0.runs st tag 0xA00 c = true ∧ badLen c 0 = false ∧ d.sf.lockout ≠ 0 ∧ d.sf.armed = true ∧ ((∀ u < 22, d.sf.lockout.getLsbD u = true → d.causePersists u = false)) ∧ d.sf.lockout ≠ unitBit unitParam))) ∧
  (∃ s : State, ∃ st : Stall, ∃ tag : BitVec 8, ∃ c : Cmd, (let d0 : Dev := s.dev; (let w := wd c.payload 0; (let ofs := fld w 8 0; (let n := fld w 24 16; d0.runs st tag 0xA11 c = true ∧ Passes [(!d0.sf.commissioning, stState), (c.payload.length != 1 + n || rsv w 0xFE00FE00 || ofs + n > 383, stParam)]))))) ∧
  (∃ s : State, ∃ st : Stall, ∃ tag : BitVec 8, ∃ c : Cmd, (let d0 : Dev := s.dev; (let w := wd c.payload 0; (let ofs := fld w 8 0; (let n := fld w 24 16; (let staging := bitOf w 31; d0.runs st tag 0xA12 c = true ∧ Passes [(noWord c, stParam), (staging && !d0.sf.commissioning, stState), (badLen c 1 || rsv w 0x7E00FE00 || ofs + n > 384, stParam)])))))) ∧
  (∃ s : State, ∃ st : Stall, ∃ tag : BitVec 8, ∃ c : Cmd, (let d0 : Dev := s.dev; (let d : Dev := d0.touch; (let w : W32 := wd c.payload 0; d0.runs st tag 0xA10 c = true ∧ badLen c 3 = false ∧ rsv w 0xFFFFFFEC = false ∧ bitOf w 4 = false ∧ wd c.payload 2 = 0 ∧ fld w 1 0 = 0 ∧ wd c.payload 1 = d.sf.code ∧ d.sf.codeBlocked = false ∧ d.sf.commissioning = false)))) ∧
  (∃ s : State, ∃ st : Stall, ∃ tag : BitVec 8, ∃ c : Cmd, (let d0 : Dev := s.dev; (let d : Dev := d0.touch; (let w : W32 := wd c.payload 0; d0.runs st tag 0xA10 c = true ∧ badLen c 3 = false ∧ rsv w 0xFFFFFFEC = false ∧ bitOf w 4 = false ∧ wd c.payload 2 = 0 ∧ fld w 1 0 = 0 ∧ wd c.payload 1 ≠ d.sf.code ∧ d.sf.codeBlocked = false ∧ d.sf.commissioning = false)))) ∧
  (∃ s : State, ∃ st : Stall, ∃ tag : BitVec 8, ∃ c : Cmd, (let d0 : Dev := s.dev; (let d : Dev := d0.touch; (let w : W32 := wd c.payload 0; d0.runs st tag 0xA10 c = true ∧ badLen c 3 = false ∧ rsv w 0xFFFFFFEC = false ∧ bitOf w 4 = false ∧ wd c.payload 2 = 0 ∧ fld w 1 0 = 3 ∧ wd c.payload 1 = 0 ∧ d.sf.commissioning = true)))) ∧
  (∃ s : State, (let d : Dev := s.dev; d.sf.commissioning = true ∧ d.sf.commClk + 1800000 * clksPerMs ≤ d.clk)) ∧
  (∃ s : State, ∃ c, (let d : Dev := s.dev; d.sf.commissioning = true ∧ d.sf.confirm = some c ∧ d.past c.since (60000 * clksPerMs) = true)) ∧
  (∃ s : State, (let d : Dev := s.dev; d.sf.codeBlocked = true ∧ d.past d.sf.blockClk (600000 * clksPerMs) = true)) ∧
  (∃ s : State, (let d : Dev := s.dev; d.sf.paramValid = true ∧ paramCrcOf d.sf.chA.params ≠ d.sf.paramCrc)) := by
  refine ⟨⟨st0 (busy ((up).modSafe (fun x => { x with lockout := 1, armed := true })) 0xA00 []), 0, 1, cmd 0xA00 [], ?_⟩, ⟨st0 (busy ((up).modSafe (fun x => { x with commissioning := true })) 0xA11 [0x00010000, 5]), 0, 1, cmd 0xA11 [0x00010000, 5], ?_⟩, ⟨st0 (busy (up) 0xA12 [0x00010000]), 0, 1, cmd 0xA12 [0x00010000], ?_⟩, ⟨st0 (busy (up) 0xA10 [0, up.sf.code, 0]), 0, 1, cmd 0xA10 [0, up.sf.code, 0], ?_⟩, ⟨st0 (busy (up) 0xA10 [0, up.sf.code + 1, 0]), 0, 1, cmd 0xA10 [0, up.sf.code + 1, 0], ?_⟩, ⟨st0 (busy ((up).modSafe (fun x => { x with commissioning := true })) 0xA10 [3, 0, 0]), 0, 1, cmd 0xA10 [3, 0, 0], ?_⟩, ⟨st0 ({ ((up).modSafe (fun x => { x with commissioning := true })) with clk := 1000000000000 }), ?_⟩, ⟨st0 ({ ((up).modSafe (fun x => { x with commissioning := true, confirm := some ⟨0, 1, none, 0, 0⟩ })) with clk := 1000000000000 }), ⟨0, 1, none, 0, 0⟩, ?_⟩, ⟨st0 ({ ((up).modSafe (fun x => { x with codeBlocked := true })) with clk := 1000000000000 }), ?_⟩, ⟨st0 ((up).modSafe (fun x => { x with paramValid := true, paramCrc := paramCrcOf x.chA.params + 1 })), ?_⟩⟩ <;>
  first | decide +kernel | (unfold Passes; decide +kernel) | (unfold Passes; dsimp only; decide +kernel) | exact ⟨rfl, crc_ne _⟩

theorem witness_safetyInputsComplete :
  (∃ s : State, (let d : Dev := s.dev; d.pw.v24bOk = true ∧ d.sf.chB.started = false ∧ d.pw.phase = .running)) ∧
  (∃ s : State, ∃ b : Bool, (let d : Dev := s.dev; (d.chan b).started = true)) ∧
  (∃ s : State, ∃ b : Bool, ∃ n : Fin 16, (let d : Dev := s.dev; (d.chan b).started = true ∧ d.filterHeld n.val = false)) ∧
  (∃ s : State, (let d : Dev := s.dev; d.sf.chB.started = true)) ∧
  (∃ s : State, ∃ n : Fin 4, ∃ seen : BitVec 16, (let d : Dev := s.dev; d.sf.tpOff.getLsbD n.val = true ∧ (let fed : List Nat := (List.range 16).filter (fun i => tpOf d.sf.chB.params i == n.val); (∀ i ∈ fed, seen.getLsbD i = true)))) ∧
  (∃ s : State, ∃ p : Fin 8, ∃ t : Nat, (let d : Dev := s.dev; d.sf.pairs[p].discSince = some t ∧ d.sf.pairs[p].reported = false ∧ t + 4 * ifDisc d.sf.chA.params p.val < d.sf.chA.cycles)) ∧
  (∃ s : State, ∃ ms : Nat, (let d : Dev := s.dev; 250 ≤ ms ∧ ms ≤ 3000 ∧ d.sf.chA.started = true ∧ d.sf.chB.started = true)) ∧
  (∃ ms : Nat, ms < 250) ∧
  (∃ ms : Nat, 3000 < ms) ∧
  (∃ s : State, (let d : Dev := s.dev; d.sf.sresetStuck = false)) ∧
  (∃ s : State, (let d : Dev := s.dev; d.sf.armed = true ∧ d.past d.sf.armedClk (30000 * clksPerMs) = true)) ∧
  (∃ s : State, ∃ p : Fin 8, ∃ t : Nat, (let d : Dev := s.dev; d.sf.chA.funcs[p].firstHand = some t ∧ t + 2000 < d.sf.chA.cycles ∧ d.sf.chA.funcs[p].lapsed = false ∧ ifType d.sf.chA.params p.val = 3)) := by
  refine ⟨⟨st0 ({ up with pw := { up.pw with v24bOk := true } }), ?_⟩, ⟨st0 ((up).modSafe (fun x => { x with chA := { x.chA with started := true } })), false, ?_⟩, ⟨st0 ({ ((up).modSafe (fun x => { x with chA := { x.chA with started := true } })) with clk := 1000000000000 }), false, 0, ?_⟩, ⟨st0 ((up).modSafe (fun x => { x with chB := { x.chB with started := true } })), ?_⟩, ⟨st0 ((up).modSafe (fun x => { x with tpOff := 1 })), 0, 0xFFFF, ?_⟩, ⟨st0 ((up).modSafe (fun x => { x with pairs := vset x.pairs 0 { x.pairs[0] with discSince := some 0 }, chA := { x.chA with cycles := 100000 } })), 0, 0, ?_⟩, ⟨st0 ((up).modSafe (fun x => { x with chA := { x.chA with started := true }, chB := { x.chB with started := true } })), 250, ?_⟩, ⟨0, ?_⟩, ⟨3001, ?_⟩, ⟨st0 (up), ?_⟩, ⟨st0 ({ ((up).modSafe (fun x => { x with armed := true })) with clk := 1000000000000 }), ?_⟩, ⟨st0 ((up).modSafe (fun x => { x with chA := { x.chA with cycles := 3000, funcs := vset x.chA.funcs 0 { x.chA.funcs[0] with firstHand := some 0 }, params := [(4, 3)] } })), 0, 0, ?_⟩⟩ <;>
  first | decide +kernel | (dsimp only; decide +kernel)

theorem witness_safetyOutputsComplete :
  (∃ s : State, ∃ b : Bool, ∃ z : Fin 2, ∃ t : Nat, (let d : Dev := s.dev; (d.chan b).zones[z].ss1 = some t ∧ t ≤ (d.chan b).cycles)) ∧
  (∃ s : State, ∃ i : Fin 8, (let d : Dev := s.dev; d.sf.ossdOn (i.val / 2) = true ∧ d.sf.ossd[i].pulsing = false)) ∧
  (∃ s : State, ∃ i : Fin 8, (let d : Dev := s.dev; d.sf.ossd[i].pulsing = true)) ∧
  (∃ s : State, ∃ i : Fin 8, (let d : Dev := s.dev; d.sf.ossd[i].offCheck = true ∧ d.past d.sf.ossd[i].offClk (5 * clksPerMs / 2) = true)) ∧
  (∃ s : State, ∃ k : Fin 8, (let d : Dev := s.dev; d.sf.sls[k].active = true ∧ d.sf.sls[k].activeSince + 4 * fld (slsWord d.sf.chA.params k.val 3) 31 16 ≤ d.sf.chA.cycles ∧ overLimit d.sf.chA.params k.val d.sf.chA.sls[k].speed = false ∧ overLimit d.sf.chB.params k.val d.sf.chB.sls[k].speed = false)) ∧
  (∃ s : State, ∃ k : Fin 8, (let d : Dev := s.dev; (let x : SlsState := d.sf.sls[k]; x.reported = false ∧ discOver d.sf.chA.params k.val d.sf.chA.cycles x.discSince = true ∧ discOver d.sf.chA.params k.val d.sf.chA.cycles x.bothSince = false))) ∧
  (∃ s : State, ∃ u : Fin 22, (let d : Dev := s.dev; d.sf.degraded.getLsbD u.val = true ∧ d.sf.degEnding.getLsbD u.val = false ∧ Mem.read 0 d.sf.degEnd u.val ≤ d.sf.chA.cycles)) ∧
  (∃ s : State, ∃ g : Fin 2, (let d : Dev := s.dev; d.stoActive g = true ∧ d.gates[g].fb = false ∧ d.past d.gates[g].stoClk clksPerMs = true)) ∧
  (∃ s : State, ∃ i : Fin 64, ∃ bs : List Byte, (let d : Dev := s.dev; bitOf (connWord d.safeSet i.val 0) 0 = true ∧ bitOf (connWord d.safeSet i.val 0) 1 = false ∧ d.connCarried i = true ∧ d.sf.conns[i].state ≠ .off ∧ d.sf.chA.run = true ∧ d.sf.chB.run = true ∧ bs.length < 12 + fld (connWord d.safeSet i.val 0) 9 4)) ∧
  (∃ s : State, ∃ i : Fin 64, ∃ bs : List Byte, (let d : Dev := s.dev; (let m : Mem W32 := d.safeSet; (let len : Nat := fld (connWord m i.val 0) 9 4; bitOf (connWord m i.val 0) 0 = true ∧ bitOf (connWord m i.val 0) 1 = false ∧ d.connCarried i = true ∧ d.sf.conns[i].state ≠ .off ∧ d.sf.chA.run = true ∧ d.sf.chB.run = true ∧ 12 + len ≤ bs.length ∧ (bs.getD 0 0).toNat = (if fld (connWord m i.val 0) 3 2 = 0 then fld (connWord m i.val 0) 15 10 else i.val) ∧ (bs.getD 1 0).toNat = len ∧ beNat ((bs.drop 4).take 2) = fld (connWord m i.val 2) 15 0 ∧ beNat ((bs.drop (8 + len)).take 4) = (telegramCheck (connWord m i.val 1) (bs.take (8 + len))).toNat ∧ d.sf.conns[i].refSet = false)))) ∧
  (∃ s : State, ∃ i : Fin 64, ∃ bs : List Byte, (let d : Dev := s.dev; (let m : Mem W32 := d.safeSet; (let len : Nat := fld (connWord m i.val 0) 9 4; (let seq : BitVec 16 := BitVec.ofNat 16 (beNat ((bs.drop 2).take 2)); bitOf (connWord m i.val 0) 0 = true ∧ bitOf (connWord m i.val 0) 1 = false ∧ d.connCarried i = true ∧ d.sf.conns[i].state ≠ .off ∧ d.sf.chA.run = true ∧ d.sf.chB.run = true ∧ 12 + len ≤ bs.length ∧ (bs.getD 0 0).toNat = (if fld (connWord m i.val 0) 3 2 = 0 then fld (connWord m i.val 0) 15 10 else i.val) ∧ (bs.getD 1 0).toNat = len ∧ beNat ((bs.drop 4).take 2) = fld (connWord m i.val 2) 15 0 ∧ beNat ((bs.drop (8 + len)).take 4) = (telegramCheck (connWord m i.val 1) (bs.take (8 + len))).toNat ∧ d.sf.conns[i].refSet = true ∧ 1 ≤ (seq - d.sf.conns[i].lastSeq).toNat ∧ (seq - d.sf.conns[i].lastSeq).toNat ≤ 1000))))) ∧
  (∃ s : State, ∃ i : Fin 64, (let d : Dev := s.dev; bitOf (connWord d.safeSet i.val 0) 0 = true ∧ bitOf (connWord d.safeSet i.val 0) 1 = true ∧ d.sf.chA.run = true ∧ d.sf.chB.run = true)) ∧
  (∃ s : State, ∃ i : Fin 64, ∃ k : Fin 2, ∃ b : Fin 32, (let d : Dev := s.dev; bitOf (connWord d.safeSet i.val 0) 0 = true ∧ bitOf (connWord d.safeSet i.val 0) 1 = true ∧ d.sf.chA.run = true ∧ d.sf.chB.run = true ∧ d.connCarried i = true ∧ fld (connWord d.safeSet i.val 0) 3 2 = k.val + 1 ∧ (List.finRange 32).find? (fun b => (d.nextSeq i).can.ctl[k].bufs[b].safety == some i) = some b ∧ (List.finRange 32).find? (fun b => d.can.ctl[k].bufs[b].safety == some i) = some b)) ∧
  (∃ s : State, ∃ i : Fin 64, (let d : Dev := s.dev; d.sf.conns[i].state = .valid ∧ bitOf (connWord d.safeSet i.val 0) 1 = false ∧ 4 * fld (connWord d.safeSet i.val 2) 15 0 < d.sf.conns[i].age)) ∧
  (∃ s : State, ∃ b : Bool, (let d : Dev := s.dev; (d.chan b).started = true)) := by
  refine ⟨⟨st0 ((up).modSafe (fun x => { x with chA := { x.chA with zones := vset x.chA.zones 0 { x.chA.zones[0] with ss1 := some 0 } } })), false, 0, 0, ?_⟩, ⟨st0 ((up).modSafe (fun x => { x with chA := { x.chA with ossd := 15 }, chB := { x.chB with ossd := 15 } })), 0, ?_⟩, ⟨st0 ((up).modSafe (fun x => { x with ossd := vset x.ossd 0 { x.ossd[0] with pulsing := true } })), 0, ?_⟩, ⟨st0 ({ ((up).modSafe (fun x => { x with ossd := vset x.ossd 0 { x.ossd[0] with offCheck := true } })) with clk := 1000000000000 }), 0, ?_⟩, ⟨st0 ((up).modSafe (fun x => { x with sls := vset x.sls 0 { x.sls[0] with active := true }, chA := { x.chA with sls := vset x.chA.sls 0 { x.chA.sls[0] with speed := some 0 } }, chB := { x.chB with sls := vset x.chB.sls 0 { x.chB.sls[0] with speed := some 0 } } })), 0, ?_⟩, ⟨st0 ((up).modSafe (fun x => { x with sls := vset x.sls 0 { x.sls[0] with discSince := some 0 }, chA := { x.chA with cycles := 1000000 } })), 0, ?_⟩, ⟨st0 ((up).modSafe (fun x => { x with degraded := 1 })), 0, ?_⟩, ⟨st0 ({ ((up).modSafe (fun x => { x with chA := { x.chA with zones := vset x.chA.zones 0 { x.chA.zones[0] with sto := true } } })) with clk := 1000000000000 }), 0, ?_⟩, ⟨st0 (((up).modCan 0 (fun c => { c with bufs := vset c.bufs 0 { c.bufs[0] with safety := some 0 }, state := .active, conf := vset c.conf 0 0x40 })).modSafe (fun x => { x with conns := vset x.conns 0 { x.conns[0] with state := .valid }, paramValid := true, chA := { x.chA with params := [(80, 5)], run := true }, chB := { x.chB with params := [(80, 5)], run := true } })), 0, [], ?_⟩, ⟨st0 (((up).modCan 0 (fun c => { c with bufs := vset c.bufs 0 { c.bufs[0] with safety := some 0 }, state := .active, conf := vset c.conf 0 0x40 })).modSafe (fun x => { x with conns := vset x.conns 0 { x.conns[0] with state := .valid, refSet := false }, paramValid := true, chA := { x.chA with params := [(80, 5)], run := true }, chB := { x.chB with params := [(80, 5)], run := true } })), 0, [0, 0, 0, 5, 0, 0, 0, 0, 0xf3, 0x34, 0x64, 0x41], ?_⟩, ⟨st0 (((up).modCan 0 (fun c => { c with bufs := vset c.bufs 0 { c.bufs[0] with safety := some 0 }, state := .active, conf := vset c.conf 0 0x40 })).modSafe (fun x => { x with conns := vset x.conns 0 { x.conns[0] with state := .valid, refSet := true }, paramValid := true, chA := { x.chA with params := [(80, 5)], run := true }, chB := { x.chB with params := [(80, 5)], run := true } })), 0, [0, 0, 0, 5, 0, 0, 0, 0, 0xf3, 0x34, 0x64, 0x41], ?_⟩, ⟨st0 ((up).modSafe (fun x => { x with paramValid := true, chA := { x.chA with params := [(80, 7)], run := true }, chB := { x.chB with params := [(80, 7)], run := true } })), 0, ?_⟩, ⟨st0 (((up).modCan 0 (fun c => { c with bufs := vset c.bufs 0 { c.bufs[0] with safety := some 0 }, state := .active, conf := vset c.conf 0 0x40 })).modSafe (fun x => { x with paramValid := true, chA := { x.chA with params := [(80, 7)], run := true }, chB := { x.chB with params := [(80, 7)], run := true } })), 0, 0, 0, ?_⟩, ⟨st0 ((up).modSafe (fun x => { x with conns := vset x.conns 0 { x.conns[0] with state := .valid, age := 1 } })), 0, ?_⟩, ⟨st0 ((up).modSafe (fun x => { x with chA := { x.chA with started := true } })), false, ?_⟩⟩ <;>
  first | decide +kernel | (dsimp only; decide +kernel)

theorem witness_echoReturnsThePayload :
  (∃ s : State, ∃ st : Stall, ∃ tag : BitVec 8, ∃ c : Cmd, (let d : Dev := s.dev; d.runs st tag 0x000 c = true ∧ c.dropped = false ∧ d.hasRoom st 66)) ∧
  (∃ s : State, ∃ st : Stall, ∃ tag : BitVec 8, ∃ c : Cmd, (let d : Dev := s.dev; d.runs st tag 0x000 c = true ∧ c.dropped = false ∧ d.hasRoom st 66 ∧ c.payload.length ≤ 64)) ∧
  (∃ s : State, ∃ st : Stall, ∃ tag : BitVec 8, ∃ c : Cmd, (let d : Dev := s.dev; d.runs st tag 0x000 c = true ∧ c.dropped = false ∧ d.hasRoom st 66 ∧ 65 ≤ c.payload.length)) := by
  refine ⟨⟨st0 (busy (up) 0x000 [5]), 0, 1, cmd 0x000 [5], ?_⟩, ⟨st0 (busy (up) 0x000 [5]), 0, 1, cmd 0x000 [5], ?_⟩, ⟨st0 (busy (up) 0x000 [5, 5, 5, 5, 5, 5, 5, 5, 5, 5, 5, 5, 5, 5, 5, 5, 5, 5, 5, 5, 5, 5, 5, 5, 5, 5, 5, 5, 5, 5, 5, 5, 5, 5, 5, 5, 5, 5, 5, 5, 5, 5, 5, 5, 5, 5, 5, 5, 5, 5, 5, 5, 5, 5, 5, 5, 5, 5, 5, 5, 5, 5, 5, 5, 5]), 0, 1, cmd 0x000 [5, 5, 5, 5, 5, 5, 5, 5, 5, 5, 5, 5, 5, 5, 5, 5, 5, 5, 5, 5, 5, 5, 5, 5, 5, 5, 5, 5, 5, 5, 5, 5, 5, 5, 5, 5, 5, 5, 5, 5, 5, 5, 5, 5, 5, 5, 5, 5, 5, 5, 5, 5, 5, 5, 5, 5, 5, 5, 5, 5, 5, 5, 5, 5, 5], ?_⟩⟩ <;>
  first | (unfold Dev.hasRoom; decide +kernel) | decide +kernel

theorem witness_reservedCodesAnswerUnknown :
  (∃ s : State, ∃ st : Stall, ∃ h : W32, (let d : Dev := s.dev; d.wr = [] ∧ d.present st = true ∧ d.hp.stalls[st].mbxReset = false ∧ d.hp.devReady = true ∧ d.sv.mpChange = .none ∧ d.hp.stalls[st].held = [] ∧ 0xC00 ≤ fld h 31 20 ∧ fld h 11 0 ≤ 1024 ∧ (let tag : BitVec 8 := BitVec.ofNat 8 (fld h 19 12); d.hasRoom st 2 ∧ ((∀ c ∈ d.hp.inFlight, c.stall = st → c.tag ≠ tag)) ∧ (d.hp.inFlight.filter (fun c => c.stall == st)).length < 28))) := by
  refine ⟨st0 (up), 0, 0xC0001000, ?_⟩ <;>
  first | (unfold Dev.hasRoom; decide +kernel) | decide +kernel

theorem witness_queriesChangeOnlyTheMailbox :
    ∃ (s t : State) (st : Stall) (tag : BitVec 8), s.dev.wr = [] ∧ exec (.echo st tag) s = .next t ∧ s.dev.runs st tag 0 (cmd 0 [5]) = true := by
  refine ⟨st0 (busy up 0 [5]), _, 0, 1, rfl, next_of (s := st0 up) ?_, ?_⟩ <;> decide +kernel

theorem witness_failingChecksHaveNoEffect :
  (∃ s : State, ∃ st : Stall, ∃ tag : BitVec 8, ∃ c : Cmd, (let d : Dev := s.dev; d.wr = [] ∧ d.runs st tag 0x241 c = true ∧ ¬ Passes (d.modeChecks c))) ∧
  (∃ s : State, ∃ st : Stall, ∃ tag : BitVec 8, ∃ c : Cmd, (let d : Dev := s.dev; d.wr = [] ∧ d.runs st tag 0x252 c = true ∧ ¬ Passes (d.storeChecks c) ∧ storeOp c ≠ 1 ∧ firstBad (d.storeChecks c) ≠ stResource)) ∧
  (∃ s : State, ∃ st : Stall, ∃ tag : BitVec 8, ∃ c : Cmd, (let d : Dev := s.dev; d.wr = [] ∧ d.runs st tag 0x252 c = true ∧ firstBad (d.storeChecks c) = stResource ∧ storeOp c ≠ 1)) ∧
  (∃ s : State, ∃ st : Stall, ∃ tag : BitVec 8, ∃ c : Cmd, (let d : Dev := s.dev; d.wr = [] ∧ d.runs st tag 0x400 c = true ∧ ¬ Passes (d.pwmBad c))) ∧
  (∃ s : State, ∃ st : Stall, ∃ tag : BitVec 8, ∃ c : Cmd, (let d : Dev := s.dev; d.wr = [] ∧ d.runs st tag 0x503 c = true ∧ d.motState false c = false ∧ d.motParam c = true)) ∧
  (∃ s : State, ∃ st : Stall, ∃ tag : BitVec 8, ∃ c : Cmd, (let d : Dev := s.dev; d.wr = [] ∧ d.runs st tag 0x511 c = true ∧ noWord c = false ∧ d.motState false c = true)) ∧
  (∃ s : State, ∃ st : Stall, ∃ tag : BitVec 8, ∃ c : Cmd, (let d : Dev := s.dev; d.wr = [] ∧ d.runs st tag 0xB02 c = true ∧ ¬ Passes (d.recoverChecks c))) ∧
  (∃ s : State, ∃ st : Stall, ∃ tag : BitVec 8, ∃ c : Cmd, (let d : Dev := s.dev; d.wr = [] ∧ d.runs st tag 0xB20 c = true ∧ ¬ Passes (d.measureChecks c))) ∧
  (∃ s : State, ∃ st : Stall, ∃ tag : BitVec 8, ∃ c : Cmd, (let d : Dev := s.dev; d.wr = [] ∧ d.runs st tag 0xB32 c = true ∧ ¬ Passes (d.activateChecks c))) := by
  refine ⟨⟨st0 (busy (pm) 0x241 []), 0, 1, cmd 0x241 [], ?_⟩, ⟨st0 (busy (pm) 0x252 []), 0, 1, cmd 0x252 [], ?_⟩, ⟨st0 (busy ((pm).modCtl 0 (fun x => { x with rep := { Rep.reset with conf := vset Rep.reset.conf 5 0x00400000 } })) 0x252 [0x20, 0]), 0, 1, cmd 0x252 [0x20, 0], ?_⟩, ⟨st0 (busy (pm) 0x400 [0]), 0, 1, cmd 0x400 [0], ?_⟩, ⟨st0 (busy (pmOn) 0x503 [0x10, 0]), 0, 1, cmd 0x503 [0x10, 0], ?_⟩, ⟨st0 (busy (up) 0x511 [0x10, 5, 0, 0, 1, 1, 1, 0, 0]), 0, 1, cmd 0x511 [0x10, 5, 0, 0, 1, 1, 1, 0, 0], ?_⟩, ⟨st0 (busy (up) 0xB02 [1]), 0, 1, cmd 0xB02 [1], ?_⟩, ⟨st0 (busy (up) 0xB20 []), 0, 1, cmd 0xB20 [], ?_⟩, ⟨st0 (busy (up) 0xB32 [3]), 0, 1, cmd 0xB32 [3], ?_⟩⟩ <;>
  first | decide +kernel | (unfold Passes; decide +kernel) | (unfold Passes; dsimp only; decide +kernel)

theorem witness_invalidTickConfigurationsAnswerParam :
  (∃ s : State, ∃ st : Stall, ∃ tag : BitVec 8, ∃ c : Cmd, (let d : Dev := s.dev; d.runs st tag 0x210 c = true ∧ d.liveAxes = [] ∧ (let clks : Nat := fld (wd c.payload 0) 14 0; (let ft : Nat := fld (wd c.payload 0) 20 16; (let cf : Nat := fld (wd c.payload 0) 30 24; ¬ ((2000 ≤ clks ∧ clks ≤ 32000 ∧ clks % 250 = 0) ∧ (1 ≤ ft ∧ ft ≤ 16 ∧ 1 ≤ cf ∧ cf ≤ 64) ∧ 16000 ≤ clks * ft * cf ∧ clks * ft * cf ≤ 512000)))))) := by
  refine ⟨st0 (busy (up) 0x210 [0x080407CF, 0, 0, 0]), 0, 1, cmd 0x210 [0x080407CF, 0, 0, 0], ?_⟩ <;>
  first | decide +kernel | (dsimp only; decide +kernel)

theorem witness_confirmEndsTheTrial :
  (∃ s : State, ∃ st : Stall, ∃ tag : BitVec 8, ∃ c : Cmd, (let d : Dev := s.dev; d.wr = [] ∧ d.runs st tag 0xB33 c = true ∧ badLen c 0 = false)) ∧
  (∃ s : State, ∃ st : Stall, ∃ tag : BitVec 8, ∃ c : Cmd, (let d : Dev := s.dev; d.wr = [] ∧ d.runs st tag 0xB33 c = true ∧ badLen c 0 = false ∧ d.sv.fwPhase ≠ 4)) ∧
  (∃ s : State, ∃ st : Stall, ∃ tag : BitVec 8, ∃ c : Cmd, (let d : Dev := s.dev; d.wr = [] ∧ d.runs st tag 0xB33 c = true ∧ badLen c 0 = false ∧ d.sv.fwPhase = 4)) := by
  refine ⟨⟨st0 (busy (up) 0xB33 []), 0, 1, cmd 0xB33 [], ?_⟩, ⟨st0 (busy (up) 0xB33 []), 0, 1, cmd 0xB33 [], ?_⟩, ⟨st0 (busy ((up).modSv (fun x => { x with fwPhase := 4 })) 0xB33 []), 0, 1, cmd 0xB33 [], ?_⟩⟩ <;>
  first | decide +kernel | (dsimp only; decide +kernel)

theorem witness_unarmedAckLeavesTheLockOut :
  (∃ s : State, ∃ st : Stall, ∃ tag : BitVec 8, ∃ c : Cmd, (let d : Dev := s.dev; d.runs st tag 0xA00 c = true ∧ d.sf.lockout ≠ 0 ∧ d.sf.armed = false)) := by
  refine ⟨st0 (busy ((up).modSafe (fun x => { x with lockout := 1 })) 0xA00 []), 0, 1, cmd 0xA00 [], ?_⟩ <;>
  first | decide +kernel | (dsimp only; decide +kernel)

theorem witness_neverBothSwitchesOn :
    ∃ s : State, ¬ (s.dev.legs[(0 : LegNo)].hi.isOn = true ∧ s.dev.legs[(0 : LegNo)].lo.isOn = true) ∧
      (∃ t, exec (.commandedEdge 0 ⟨true, 0⟩) s = .next t) ∧ (∃ t, exec (.interlockTurnOn 0 true 4096) s = .next t) ∧
      (∃ t, exec (.gatePhaseEnd 0 ⟨true, 0⟩) s = .next t) ∧ (∃ t, exec (.stoSwitchesOpen 0) s = .next t) := by
  refine ⟨st0 (live.modLeg 0 (fun x => { x with emit := 9, riseEmit := 9, period := 9, hi := .pending })), ?_, ⟨_, next_of (s := st0 up) ?_⟩,
    ⟨_, next_of (s := st0 up) ?_⟩, ⟨_, next_of (s := st0 up) ?_⟩, ⟨_, next_of (s := st0 up) ?_⟩⟩ <;> decide +kernel

theorem witness_instructionsChangeOnlyTheirLane :
    ∃ (i : Instr) (ln : LaneNo) (s t : State) (k : LaneNo), laneOf i = some ln ∧ exec i s = .next t ∧ s.dev.wr = [] ∧ k ≠ ln := by
  refine ⟨.mul 0 false 1 2 3, 0, st0 hooked, _, 1, ?_, next_of (s := st0 up) ?_, ?_, ?_⟩ <;> decide +kernel

theorem witness_illegalFieldsStop :
  (∃ i : Instr, i.wellFormed = false) := by
  refine ⟨.bcc 0 15 0, ?_⟩ <;>
  decide +kernel

theorem witness_laneWordsReadBack :
  (∃ i : Instr, ∃ ln : LaneNo, laneOf i = some ln ∨ i = .endProg ln) ∧
  (∃ i : Instr, ∃ ln : LaneNo, ∃ w : BitVec 40, laneCode i = some (ln, w)) := by
  refine ⟨⟨.endProg 0, 0, ?_⟩, ⟨.add 0 true 1 2 3, 0, 0x4224600000, ?_⟩⟩ <;>
  decide +kernel

/-- The lane of the example of 05 R147: M2 with LEN 12 and STRIDE 5, A2 at 0xC0E. -/
def circular : Lane := { lane0 with a := vset lane0.a 2 0xC0E, m := vset lane0.m 2 0xC005 }

theorem exponent_of_twelve (e : Nat) (h : 12 ≤ 2 ^ e) : 4 ≤ e := by
  apply Decidable.byContradiction
  intro g
  have := Nat.pow_le_pow_right (n := 2) (by decide) (show e ≤ 3 by omega)
  omega

theorem witness_postModification :
    ∃ (s : State) (ln : LaneNo) (h : Fin 3) (l : Lane) (k : Fin 8) (p : Fin 4) (step : Int) (b ak len new : Nat) (ly : ParLoad),
      s.atHook ln h l ∧ l.a[k].toNat = ak ∧ (l.m[k].extractLsb' 12 12).toNat = len ∧
      p = 3 ∧ step = (l.m[k].extractLsb' 0 12).toInt ∧ len ≤ 2 ^ b ∧ (∀ e, len ≤ 2 ^ e → b ≤ e) ∧ len ≠ 0 ∧
      (new : Int) = (ak / 2 ^ b * 2 ^ b : Nat) + ((ak - ak / 2 ^ b * 2 ^ b : Nat) + step) % len ∧ ly.en = false := by
  refine ⟨st0 (up.modLane 0 (fun _ => circular)), 0, 0, circular, 2, 3, 5, 4, 0xC0E, 12, 0xC07, ⟨false, 0, 0, 0⟩,
    ?_, ?_, ?_, ?_, ?_, ?_, exponent_of_twelve, ?_, ?_, ?_⟩ <;> first | decide +kernel | (unfold State.atHook; decide +kernel)

theorem witness_postModification_plain :
    ∃ (s : State) (ln : LaneNo) (h : Fin 3) (l : Lane) (k : Fin 8) (p : Fin 4) (step : Int) (b ak new : Nat),
      s.atHook ln h l ∧ l.a[k].toNat = ak ∧ (l.m[k].extractLsb' 12 12).toNat = 0 ∧ p = 2 ∧ step = -1 ∧ 0 ≤ 2 ^ b ∧
      (∀ e, 0 ≤ 2 ^ e → b ≤ e) ∧ (new : Int) = (ak + step) % 65536 := by
  refine ⟨st0 hooked, 0, 0, lane0, 2, 2, -1, 0, 0, 65535, ?_, ?_, ?_, ?_, ?_, ?_, fun _ _ => Nat.zero_le _, ?_⟩ <;>
    first | decide +kernel | (unfold State.atHook; decide +kernel)

theorem witness_droppedBitsRound :
  (∃ s : State, ∃ ln : LaneNo, ∃ h : Fin 3, ∃ l : Lane, ∃ v : Int, ∃ ra, ∃ rb, s.atHook ln h l ∧ fits 20 v = true ∧ -(2 ^ 19 : Int) < 2 * (v * 2 ^ 19 - l.rd ra * l.rd rb) ∧ 2 * (v * 2 ^ 19 - l.rd ra * l.rd rb) ≤ 2 ^ 19) ∧
  (∃ s : State, ∃ ln : LaneNo, ∃ h : Fin 3, ∃ l : Lane, ∃ v : Int, ∃ ac, ∃ sh : BitVec 6, ∃ n : Nat, s.atHook ln h l ∧ sacShiftOk sh = true ∧ sh.toInt = 19 - n ∧ 0 < n ∧ fits 20 v = true ∧ -(2 ^ n : Int) < 2 * (v * 2 ^ n - l.racc ac) ∧ 2 * (v * 2 ^ n - l.racc ac) ≤ 2 ^ n) ∧
  (∃ s : State, ∃ ln : LaneNo, ∃ h : Fin 3, ∃ l : Lane, ∃ v : Int, ∃ ac, ∃ sh : BitVec 6, ∃ n : Nat, s.atHook ln h l ∧ sh.toInt = -n ∧ 0 < n ∧ fits 52 v = true ∧ -(2 ^ n : Int) < 2 * (v * 2 ^ n - l.racc ac) ∧ 2 * (v * 2 ^ n - l.racc ac) ≤ 2 ^ n) ∧
  (∃ s : State, ∃ ln : LaneNo, ∃ h : Fin 3, ∃ l : Lane, ∃ v : Int, ∃ ra, ∃ n : Fin 32, s.atHook ln h l ∧ shiftOk n = true ∧ v * 2 ^ n.val ≤ l.rd ra ∧ l.rd ra < (v + 1) * 2 ^ n.val) := by
  refine ⟨⟨st0 (up.modLane 0 (fun _ => { lane0 with d := vset (vset lane0.d 0 262144) 1 1, ac := vset lane0.ac 0 1 })), 0, 0, { lane0 with d := vset (vset lane0.d 0 262144) 1 1, ac := vset lane0.ac 0 1 }, 1, 0, 1, ?_⟩, ⟨st0 (up.modLane 0 (fun _ => { lane0 with d := vset (vset lane0.d 0 262144) 1 1, ac := vset lane0.ac 0 1 })), 0, 0, { lane0 with d := vset (vset lane0.d 0 262144) 1 1, ac := vset lane0.ac 0 1 }, 1, 0, 18, 1, ?_⟩, ⟨st0 (up.modLane 0 (fun _ => { lane0 with d := vset (vset lane0.d 0 262144) 1 1, ac := vset lane0.ac 0 1 })), 0, 0, { lane0 with d := vset (vset lane0.d 0 262144) 1 1, ac := vset lane0.ac 0 1 }, 1, 0, 63, 1, ?_⟩, ⟨st0 (up.modLane 0 (fun _ => { lane0 with d := vset (vset lane0.d 0 262144) 1 1, ac := vset lane0.ac 0 1 })), 0, 0, { lane0 with d := vset (vset lane0.d 0 262144) 1 1, ac := vset lane0.ac 0 1 }, 1, 0, 18, ?_⟩⟩ <;>
  first | (unfold State.atHook; decide +kernel) | decide +kernel

theorem witness_hostWritesLandInDram :
  (∃ s : State, ∃ addr : Nat, ∃ bs : List Byte, Memory.wf s.dram = true ∧ s.dev.wr = [] ∧ s.dev.present 0 = true ∧ 0x40000000 ≤ addr ∧ addr + bs.length ≤ 0x80000000) ∧
  (∃ s : State, ∃ addr : Nat, ∃ bs : List Byte, Memory.wf s.dram = true ∧ s.dev.wr = [] ∧ s.dev.present 0 = true ∧ addr + bs.length ≤ 0x40000000 ∨ (0x80000000 ≤ addr ∧ addr + bs.length ≤ 2 ^ 33)) ∧
  (∃ s : State, ∃ addr : Nat, ∃ bs : List Byte, Memory.wf s.dram = true ∧ s.dev.wr = [] ∧ s.dev.present 0 = true ∧ 2 ^ 33 < addr + bs.length) ∧
  (∃ s : State, ∃ addr : Nat, ∃ n : BitVec 11, Memory.wf s.dram = true ∧ s.dev.wr = [] ∧ s.dev.present 0 = true ∧ 2 ^ 33 < addr + n) := by
  refine ⟨⟨st0 (up), 0x40000000, [7, 8], ?_⟩, ⟨st0 (up), 0x3FFFFFFE, [7, 8], ?_⟩, ⟨st0 (up), 0x1FFFFFFFF, [7, 8], ?_⟩, ⟨st0 (up), 0x1FFFFFFFF, 2, ?_⟩⟩ <;>
  decide +kernel

theorem witness_mailboxAreasReadBack :
  (∃ m : Mem W32, ∃ ws : List W32, Mem.wf 0 m = true ∧ ws.length ≤ 1024) ∧
  (∃ m : Mem W32, ∃ p : Nat, ∃ ws : List W32, ∃ q, Mem.wf 0 m = true ∧ ws.length ≤ 1024 ∧ p ≤ q ∧ q < p + 1024 ∧ p + ws.length ≤ q) := by
  refine ⟨⟨[(5, 7)], [1, 2], ?_⟩, ⟨[(5, 7)], 1023, [1, 2], 1025, ?_⟩⟩ <;>
  decide +kernel

theorem witness_stepKeepsDramCanonical : ∃ s t : State, Memory.wf s.dram = true ∧ s.dev.wr = [] ∧ step s = .next t ∧ s.pending ≠ [] := by
  refine ⟨⟨[.dramWrite 0 false 0x40000000 [7]], [], up⟩, _, ?_, ?_, next_of (s := st0 up) ?_, ?_⟩ <;> decide +kernel

/-! ## WellFormed refuses each ill-formed field (05 Tables 5.7, 5.8 and 5.10, R142, R152) -/

theorem test_wellFormed_refuses_condition : (Instr.bcc 0 10 0).wellFormed = false := by decide
theorem test_wellFormed_refuses_selector : (Instr.selcc 0 15 1 2 3).wellFormed = false := by decide
theorem test_wellFormed_refuses_shift : (Instr.shl 0 false 1 2 20).wellFormed = false := by decide
theorem test_wellFormed_refuses_odd_pair : (Instr.sincos 0 3 1).wellFormed = false := by decide
theorem test_wellFormed_refuses_accumulator_shift : (Instr.sac 0 false 1 0 20).wellFormed = false := by decide
theorem test_wellFormed_refuses_count : (Instr.rpt 0 0).wellFormed = false := by decide
theorem test_wellFormed_refuses_same_load : (Instr.mpy 0 false 0 1 2 ⟨true, 4, 0, 0⟩ ⟨true, 4, 1, 0⟩).wellFormed = false := by decide
theorem test_wellFormed_takes_boundaries :
    (Instr.bcc 0 9 0).wellFormed = true ∧ (Instr.shl 0 false 1 2 19).wellFormed = true ∧ (Instr.sac 0 false 1 0 19).wellFormed = true ∧
      (Instr.rpt 0 1024).wellFormed = true := by decide

/-! ## Worked examples of the spec -/

/-- 00, the example after R9: −2.75 turns. -/
theorem test_position_words : s64 0xFFD40000 0xFFFFFFFF = -2883584 := by decide +kernel

/-- 02, the example after R53: tick 128,000 begins one second after the epoch. -/
theorem test_tick_instant : Dev.reset.ntOfTick 128000 = ⟨1, 0, 0⟩ := by decide +kernel

/-- 02 Table 2.4 and 04, the example of AX03: observer, plausibility, two biquads, velocity, position, interpolation and the
repetitive controller on a permanent-magnet motor with sin/cos feedback cost 2,562 lane clocks. -/
theorem test_admitted_cost :
    costOf (fun s => if s = 3 then 4 else 0) (fun _ => 0)
      (fun k => [1, 0x3F0B0A09, 0x07D00110, 0x003F3F03, 0xF, 0x2E7, 0x66666].getD k 0) = 2562 := by decide +kernel

/-- 02, the example after Table 2.4: at 2,750 clocks the limit is 2,475, and AX00 exceeds it by 87. -/
theorem test_excess : overBudget (2750 * 9 / 10) (2750 * 9 / 10) [(0, 2562), (12, 1570)] = some (0, 87, 2475) := by decide +kernel

/-- 04, the example of AX03: the header of its PlotAssign. -/
theorem test_header : headerOf 0x101 0x2C 15 = 0x1012C00F := by decide +kernel

/-- 05, the example of the friction feed-forward: its encoding, 21 instructions. -/
def prog7 : List (BitVec 40) :=
  [0x1520000601, 0x0940000010, 0x1400000613, 0x6133400000, 0xC400000014, 0x1420000500, 0x1440000501, 0x8000800000, 0x14A0000502,
   0x4C84000000, 0x64C0000000, 0x78E5E80000, 0x78E8E40000, 0xA610000000, 0x4310E00000, 0x5D10A00000, 0x1460000629, 0x0000000000,
   0x4267000000, 0x2060000629, 0xFC00000000]

/-- Its BOUND is 23, its HOLDOFF 3 and its FST_MAX 0. -/
theorem test_program_bound :
    staticScan 21 1 0 none none prog7 = none ∧
      (let p := pathScan 21 0 none none prog7 ⟨[(0, 1)], [(0, 1)], 0, 0, 0, none⟩
       p.bad = none ∧ p.bound = 23 ∧ p.holdoff = 3 ∧ p.fstMax = 0) := by decide +kernel

/-- The instructions its listing gives (05, the example of the friction feed-forward): 0, 1, 2, 4, 7, 13 and the END. -/
theorem test_program_words :
    [0, 1, 2, 4, 7, 13, 20].map (fun n => laneInstr 3 (prog7.getD n 0)) =
      [some (.lda 3 9 0x601), some (.ldi 3 10 0x10), some (.lda 3 0 0x613), some (.bcc 3 0 20),
       some (.mpy 3 false 0 0 1 ⟨false, 0, 0, 0⟩ ⟨false, 0, 0, 0⟩), some (.sac 3 true 8 0 0), some (.endProg 3)] := by decide +kernel

/-- Unpowered and in reset the pins stand as 01 Table 1.3 says. -/
theorem test_pins_unpowered :
    ([.canTx 0, .espDe 3, .gateHigh 5, .irqaN, .ring].map (fun p => Dev.pin { Dev.reset with pw := { Power.reset with vmainOk := false } } 0 p) =
      [.highZ, .pulledDown, .clamp, .highZ, .bypass]) ∧
    ([.canTx 0, .espDe 3, .gateHigh 5, .irqaN, .ring].map (fun p => Dev.pin Dev.reset 0 p) =
      [.high, .low, .clamp, .released, .bypass]) := by decide +kernel

/-- An LD through A2 post-modified by STRIDE leaves 0xC07 (05, the example after R147). -/
theorem test_circular_step :
    ((goesTo (st0 up) (exec (.ld 0 1 2 3) (st0 (up.modLane 0 (fun _ => circular))))).dev.lanes[(0 : LaneNo)].a[2]) = 0xC07 := by
  decide +kernel

/-- The same register at 0xC00, stepped by −1, leaves 0xC0B. -/
theorem test_circular_back :
    ((goesTo (st0 up) (exec (.ld 0 1 2 2) (st0 (up.modLane 0 (fun _ =>
      { circular with a := vset circular.a 2 0xC00 }))))).dev.lanes[(0 : LaneNo)].a[2]) = 0xC0B := by
  decide +kernel

/-- DIV by 0 gives the extreme value with the dividend's sign and sets V (05, after Table 5.9). -/
theorem test_divide_by_zero :
    let l := (goesTo (st0 up) (exec (.div 0 false 2 0 1) (st0 (up.modLane 0 (fun _ =>
      { lane0 with d := vset lane0.d 0 5 }))))).dev.lanes[(0 : LaneNo)]
    l.d[2] = 0x7FFFF ∧ l.v = true := by decide +kernel

/-- SQRT of a negative operand gives 0 and sets V (05, after Table 5.9). -/
theorem test_square_root_of_negative :
    let l := (goesTo (st0 up) (exec (.sqrt 0 2 0) (st0 (up.modLane 0 (fun _ =>
      { lane0 with d := vset (vset lane0.d 0 0x80000) 2 9 }))))).dev.lanes[(0 : LaneNo)]
    l.d[2] = 0 ∧ l.v = true := by decide +kernel

/-- 07, the example after R249: the exchange time at 10 and at 16 Mbit/s, 8.5 and 5.5 µs, in 1/64 ns. -/
theorem test_exchange_time :
    exchangeTime 9 (0x8000 + 12 * 256 + 23) (10 * 2 ^ 20) = 8500 * 64 ∧ exchangeTime 9 (0xC000 + 12 * 256 + 23) (10 * 2 ^ 20) = 5500 * 64 := by
  decide +kernel

/-- 08, the example of R271: the first and the sixth period of L10 at a duty of 0.99. -/
theorem test_carried_widths :
    carryRule 820 1640 32000 31680 = (32000, -320) ∧ carryRule 820 1640 32000 (31680 - 1600) = (30080, 0) := by decide +kernel

/-- 09, the example of a move to 10 turns: at 0.06 s the axis has reached 1.5 turns and 50 turn/s, at 0.26 s it stands at 10. -/
theorem test_profile :
    let p := (planTo ⟨0, 0, 0⟩ (10 * 2 ^ 40) (velUnit 12800) (accUnit 16000) (jerkUnit 100000) 0).1
    Int.natAbs ((p.at (1920 * 16000)).p - 3 * 2 ^ 39) < 2 ^ 20 ∧ Int.natAbs ((p.at (1920 * 16000)).v - 50 * 2 ^ 40) < 2 ^ 20 ∧
      p.at (8320 * 16000) = ⟨10 * 2 ^ 40, 0, 0⟩ := by decide +kernel

/-- 09, the example of the electronic gear: 20 turn/s and 200 turn/s² over 32 ticks is 5,249.4 units. -/
theorem test_extrapolation :
    ((extrapolate 0 (20 * 2 ^ 40) (200 * 2 ^ 40) (clkTime 128000)).p * 10 + 2 ^ 19) / 2 ^ 20 = 52494 := by decide +kernel

/-- 10, the example of R374: 62 samples whose sum is 40,300. -/
theorem test_average : avgResult (List.replicate 62 650) = 10400 := by decide +kernel

/-- 10, the example of the ring capture: 12 channels with HDR in 10 MiB of one segment are 201,648 slots. -/
theorem test_slots : capSlots [0x00100C08, 0x00050001] = 201648 := by decide +kernel

/-- 11, the example of R420: 1,024 devices with four records and 256 acyclic bytes each need 547,105.6 ns. -/
theorem test_cycle_rule : 1024 * (1800 + 150) + 1024 * wireBits (plannedBytes 4 0 0 256) + 50000 = 5471056 := by decide +kernel

/-- 12, the example of R456: 500 kbit/s nominal and 4 Mbit/s data. -/
theorem test_can_timing : canConfBad [0xC0, 0x20207F01, 0x05050E01, 0x80600F01] = false := by decide +kernel

/-- 14, the example of R550: the plan of AX03. -/
theorem test_margin_plan :
    (({ pm with plots := vmod pm.plots 0 (fun p => vset (vset p 6 0x66666) 2 0x07D00100) }).planOf 0
      [⟨180, 58, 0, 0, 3100, 0, 920, 85, 9500⟩]).1 = ⟨320, 32, 5, 255, 8⟩ := by decide +kernel

/-- 01 R25: VSAFE is down after reset, and both gate dies are in STO. -/
theorem test_reset_is_off : (List.finRange 2).all (fun g => Dev.reset.stoActive g) = true := by decide +kernel

end Sys2Proof.Tests
end

/-! # Reserved command codes (00 R7)

A doorbell that its stall takes at once goes through `Dev.takeHeader` and `Dev.takeCmd`: the command joins those in flight
and, its code being assigned nowhere, is answered at once. What follows says what each of these does to such a command. -/
section
namespace Sys2Proof.Machine
open Sys2Proof

/-! ## The tables of codes -/

/-- Every assigned command code lies below the reserved range. -/
theorem commandCodes_lt_reserved : ∀ k ∈ commandCodes, k < 0xC00 := by decide

theorem commandCodes_contains_of_reserved {k : Nat} (h : 0xC00 ≤ k) : commandCodes.contains k = false := by
  rw [List.contains_eq_mem, decide_eq_false_iff_not]
  exact fun hk => absurd (commandCodes_lt_reserved k hk) (by omega)

/-- A field of a word fits the bits that it is cut from. -/
theorem toNat_ofNat_fld (w : W32) (hi lo : Nat) : (BitVec.ofNat (hi - lo + 1) (fld w hi lo)).toNat = fld w hi lo := by
  rw [BitVec.toNat_ofNat]
  exact Nat.mod_mod _ _

/-- The answer to a reserved code is the status alone. -/
theorem rspLen_of_reserved {k : Nat} (h : 0xC00 ≤ k) : rspLen k = 1 := by
  have ne : ∀ n < 0xC00, k ≠ n := fun n hn => by omega
  simp [rspLen, ne]

theorem Dev.fixedWords_of_reserved {code : BitVec 12} (h : 0xC00 ≤ code.toNat) (d : Dev) : d.fixedWords code = [] := by
  have ne : ∀ n : BitVec 12, n.toNat < 0xC00 → code ≠ n := fun n hn e => by subst e; omega
  unfold Dev.fixedWords
  rw [if_neg (not_or.mpr ⟨ne 1 (by decide), ne 3 (by decide)⟩)]

theorem rspWords_of_reserved {k : Nat} (h : 0xC00 ≤ k) (status : Nat) : rspWords k status [] = [nW status] := by
  simp [rspWords, rspLen_of_reserved h]

/-- UNKNOWN comes before the other checks made when a command is taken (03 R93). -/
theorem Dev.takeStatus_of_reserved {k : Nat} (h : 0xC00 ≤ k) (st : Stall) (d : Dev) : d.takeStatus st k = stUnknown := by
  simp only [Dev.takeStatus, commandCodes_contains_of_reserved h, Bool.not_false, firstBad, if_true]

/-! ## The commands in flight -/

theorem Dev.inFlight_msix (k : Nat) (d : Dev) : (d.msix k).hp.inFlight = d.hp.inFlight := by
  unfold Dev.msix
  split
  · rfl
  · split <;> rfl

theorem Dev.inFlight_irqTransport (st : Stall) (d : Dev) : (d.irqTransport st).hp.inFlight = d.hp.inFlight := by
  unfold Dev.irqTransport
  split
  · rfl
  · split <;> rfl

theorem Dev.inFlight_setIrq (st : Stall) (k : Nat) (d : Dev) : (d.setIrq st k).hp.inFlight = d.hp.inFlight := by
  unfold Dev.setIrq
  dsimp only
  split
  · split
    · rw [Dev.inFlight_msix]; rfl
    · split
      · rw [Dev.inFlight_irqTransport]; rfl
      · rfl
  · rfl

/-- Writing a response leaves the commands in flight to whoever completes one. -/
theorem Dev.inFlight_writeRsp (st : Stall) (r : Response) (d : Dev) : (d.writeRsp st r).hp.inFlight = d.hp.inFlight :=
  Dev.inFlight_setIrq _ _ _

/-- A command answered with room in the response area leaves flight. -/
theorem Dev.inFlight_respond {st : Stall} {tag : BitVec 8} {status : Nat} {words : List W32} {d : Dev} {c : Cmd}
    (hc : d.cmd? st tag = some c) (hd : c.dropped = false)
    (hr : d.hasRoom st ((rspWords c.code.toNat status words).length + 1)) :
    (d.respond st tag status words).hp.inFlight = d.hp.inFlight.filter (fun x => !x.is st tag) := by
  obtain ⟨empty, room⟩ := hr
  have fits : (d.hp.stalls[st].rspWaiting.isEmpty &&
      rspRoom d.hp.stalls[st] ⟨c.code, tag, rspWords c.code.toNat status words, true⟩) = true := by
    simp only [empty, List.isEmpty_nil, Bool.true_and, rspRoom, decide_eq_true_eq]
    omega
  unfold Dev.respond
  simp only [hc, hd, Bool.false_eq_true, if_false, fits, if_true]
  rw [Dev.inFlight_writeRsp]

/-- The device with one more command in flight, as `Dev.takeCmd` leaves it before the answer. -/
def Dev.withCmd (c : Cmd) (d : Dev) : Dev := { d with hp := { d.hp with inFlight := d.hp.inFlight ++ [c] } }

theorem Dev.withCmd_mailbox (c : Cmd) (d : Dev) : MailboxOnly d (d.withCmd c) := rfl

/-- No command of the stall in flight has the tag (03 R93, BUSY_TAG). -/
def Dev.tagFree (d : Dev) (st : Stall) (tag : BitVec 8) : Prop := ∀ c ∈ d.hp.inFlight, c.stall = st → c.tag ≠ tag

theorem Dev.tagFree.not_is {d : Dev} {st : Stall} {tag : BitVec 8} (h : d.tagFree st tag) :
    ∀ c ∈ d.hp.inFlight, c.is st tag = false := by
  intro c hc
  by_cases e : c.stall = st
  · simp [Cmd.is, h c hc e]
  · simp [Cmd.is, e]

/-- A command that joins under a free tag is the one in flight of that tag. -/
theorem Dev.cmd?_withCmd {d : Dev} {st : Stall} {tag : BitVec 8} {c : Cmd} (h : d.tagFree st tag) (hc : c.is st tag = true) :
    (d.withCmd c).cmd? st tag = some c := by
  have none : d.hp.inFlight.find? (fun x => x.is st tag) = none :=
    List.find?_eq_none.mpr fun x hx => by simp [h.not_is x hx]
  simp [Dev.cmd?, Dev.withCmd, List.find?_append, none, hc]

/-- Without that command those in flight are the ones before it. -/
theorem Dev.filter_withCmd {d : Dev} {st : Stall} {tag : BitVec 8} {c : Cmd} (h : d.tagFree st tag) (hc : c.is st tag = true) :
    (d.withCmd c).hp.inFlight.filter (fun x => !x.is st tag) = d.hp.inFlight := by
  have all : d.hp.inFlight.filter (fun x => !x.is st tag) = d.hp.inFlight :=
    List.filter_eq_self.mpr fun x hx => by simp [h.not_is x hx]
  simp [Dev.withCmd, List.filter_append, all, hc]

/-! ## Taking the doorbell -/

/-- A doorbell that reaches a ready device and finds none held before it is taken at once (03 R92). -/
theorem doDoorbell_takes {d : Dev} {st : Stall} (h : W32) (hp : d.present st = true) (hm : d.hp.stalls[st].mbxReset = false)
    (hh : d.holdsDoorbells = false) (he : d.hp.stalls[st].held = []) : doDoorbell st h d = d.takeHeader st h := by
  unfold doDoorbell Dev.ring_
  rw [if_pos hp]
  simp only [hm, hh, he, Bool.false_eq_true, if_false, Bool.not_false, List.isEmpty_nil, Bool.and_self, if_true]

theorem Dev.holdsDoorbells_of_ready {d : Dev} (hr : d.hp.devReady = true) (hm : d.sv.mpChange = .none) :
    d.holdsDoorbells = false := by
  simp [Dev.holdsDoorbells, hr, hm]

/-- The row of the reserved codes is a doorbell where the code is reserved. -/
theorem doReservedCommandCode_of_reserved {h : W32} (hc : 0xC00 ≤ fld h 31 20) (st : Stall) (d : Dev) :
    doReservedCommandCode st h d = doDoorbell st h d := by
  simp only [doReservedCommandCode, commandCodes_contains_of_reserved hc, Bool.false_eq_true, if_false]

/-- A command of a reserved code that passes BUSY_TAG and RESOURCE joins those in flight and is answered UNKNOWN. -/
theorem Dev.takeCmd_of_reserved {d : Dev} {st : Stall} {code : BitVec 12} {tag : BitVec 8} (payload : List W32)
    (hc : 0xC00 ≤ code.toNat) (ht : d.tagFree st tag) (hn : (d.hp.inFlight.filter (fun c => c.stall == st)).length < 28) :
    ∃ c : Cmd, c.is st tag = true ∧ c.code = code ∧ c.dropped = false ∧
      d.takeCmd st code tag payload = (d.withCmd c).respond st tag stUnknown [] := by
  have free : (d.hp.inFlight.filter (fun c => c.stall == st)).any (fun c => c.tag == tag) = false := by
    rw [List.any_eq_false]
    intro c hmem
    obtain ⟨hin, hst⟩ := List.mem_filter.mp hmem
    simpa using ht c hin (by simpa using hst)
  have few := List.length_filter_le (fun c : Cmd => !c.express) (d.hp.inFlight.filter (fun c => c.stall == st))
  have room : ¬((d.hp.inFlight.filter (fun c => c.stall == st)).length ≥ 32 ∨
      (!expressCodes.contains code.toNat &&
        decide (((d.hp.inFlight.filter (fun c => c.stall == st)).filter (fun c => !c.express)).length ≥ 28)) = true) := by
    rw [not_or, Bool.and_eq_true, decide_eq_true_eq]
    exact ⟨by omega, fun ⟨_, k⟩ => by omega⟩
  unfold Dev.takeCmd
  simp only [free, Bool.false_eq_true, if_false, if_neg room, Dev.takeStatus_of_reserved hc, Dev.fixedWords_of_reserved hc]
  rw [if_neg (by decide)]
  exact ⟨_, by simp [Cmd.is], rfl, rfl, rfl⟩

/-- What the taking of a command with a reserved code leaves: UNKNOWN is posted, no command is left in flight, and only the
mailbox and host side has changed. -/
theorem Dev.takeCmd_reserved_spec {d : Dev} {st : Stall} {code : BitVec 12} {tag : BitVec 8} (payload : List W32)
    (hc : 0xC00 ≤ code.toNat) (hr : d.hasRoom st 2) (ht : d.tagFree st tag)
    (hn : (d.hp.inFlight.filter (fun c => c.stall == st)).length < 28) :
    Posted d (d.takeCmd st code tag payload) st [headerOf code tag 1, nW stUnknown] ∧
      (d.takeCmd st code tag payload).hp.inFlight = d.hp.inFlight ∧ MailboxOnly d (d.takeCmd st code tag payload) := by
  obtain ⟨c, is, rfl, kept, taken⟩ := Dev.takeCmd_of_reserved payload hc ht hn
  have found := Dev.cmd?_withCmd ht is
  have words := rspWords_of_reserved hc stUnknown
  have room : (d.withCmd c).hasRoom st ((rspWords c.code.toNat stUnknown []).length + 1) := by rw [words]; exact hr
  rw [taken]
  refine ⟨?_, ?_, (Dev.withCmd_mailbox c d).trans (Dev.respond_mailbox _ _ _ _ _)⟩
  · have posted := Dev.respond_posted found kept room
    rw [words] at posted
    exact posted
  · rw [Dev.inFlight_respond found kept room, Dev.filter_withCmd ht is]

/-- A change of the stall that keeps its response area and RSP_WR_PTR is not seen in what is posted after it. -/
theorem Posted.of_modStall {d e : Dev} {st : Stall} {f : StallState → StallState} {words : List W32}
    (area : (f d.hp.stalls[st]).rspArea = d.hp.stalls[st].rspArea)
    (ptr : (f d.hp.stalls[st]).rspWrPtr = d.hp.stalls[st].rspWrPtr)
    (h : Posted (d.modStall st f) e st words) : Posted d e st words := by
  unfold Posted at h
  rw [Dev.stall_modStall, if_pos rfl, area, ptr] at h
  exact h

/-- What a doorbell with a reserved code and a LEN in range leaves, once it is taken. -/
theorem Dev.takeHeader_reserved_spec {d : Dev} {st : Stall} {h : W32} (hc : 0xC00 ≤ fld h 31 20) (hl : fld h 11 0 ≤ 1024)
    (hr : d.hasRoom st 2) (ht : d.tagFree st (BitVec.ofNat 8 (fld h 19 12)))
    (hn : (d.hp.inFlight.filter (fun c => c.stall == st)).length < 28) :
    Posted d (d.takeHeader st h) st
        [headerOf (BitVec.ofNat 12 (fld h 31 20)) (BitVec.ofNat 8 (fld h 19 12)) 1, nW stUnknown] ∧
      (d.takeHeader st h).hp.inFlight = d.hp.inFlight ∧ MailboxOnly d (d.takeHeader st h) := by
  have code : 0xC00 ≤ (BitVec.ofNat 12 (fld h 31 20)).toNat := by rwa [toNat_ofNat_fld h 31 20]
  unfold Dev.takeHeader
  rw [if_neg (by omega)]
  dsimp only
  have room : (d.modStall st (fun s =>
      { s with cmdRdPtr := s.cmdRdPtr + BitVec.ofNat 11 (fld h 11 0) })).hasRoom st 2 := by
    unfold Dev.hasRoom
    rw [Dev.stall_modStall, if_pos rfl]
    exact hr
  obtain ⟨posted, flight, mailbox⟩ := Dev.takeCmd_reserved_spec
    (areaRead d.hp.stalls[st].cmdArea d.hp.stalls[st].cmdRdPtr.toNat (fld h 11 0)) code room ht hn
  exact ⟨posted.of_modStall rfl rfl, flight, (Dev.modStall_mailbox st _ d).trans mailbox⟩

/-- The effect of a command on the state depends on what it makes of this device alone. -/
theorem State.on_congr {f g : Dev → Dev} {s : State} (h : f s.dev = g s.dev) : s.on f = s.on g := by
  unfold State.on
  rw [h]

/-- Both rows ring the doorbell of a stall that takes it. -/
theorem exec_reserved_doorbell {s : State} {st : Stall} {h : W32} (hc : 0xC00 ≤ fld h 31 20)
    (taken : doDoorbell st h s.dev = s.dev.takeHeader st h) :
    exec (.doorbell st h) s = .next (s.on (Dev.takeHeader st h)) ∧
      exec (.reservedCommandCode st h) s = .next (s.on (Dev.takeHeader st h)) := by
  have row : doReservedCommandCode st h s.dev = s.dev.takeHeader st h :=
    (doReservedCommandCode_of_reserved hc st s.dev).trans taken
  constructor
  · show Host.Outcome.next (s.on (doDoorbell st h)) = _
    rw [State.on_congr taken]
  · show Host.Outcome.next (s.on (doReservedCommandCode st h)) = _
    rw [State.on_congr row]

/-- Settles O45: the doorbell is taken at once, its command joins those in flight, UNKNOWN is the first check that applies,
and there is room for its answer. -/
theorem reservedCodesAnswerUnknown : Obligations.ReservedCodesAnswerUnknown := by
  unfold Obligations.ReservedCodesAnswerUnknown
  rintro s st h tag d rfl wr present noReset ready noChange noneHeld code len rfl room free few
  have taken := doDoorbell_takes h present noReset (Dev.holdsDoorbells_of_ready ready noChange) noneHeld
  obtain ⟨doorbell, row⟩ := exec_reserved_doorbell code taken
  obtain ⟨posted, flight, mailbox⟩ := Dev.takeHeader_reserved_spec code len room free few
  obtain ⟨only, dram, -⟩ := State.on_mailbox wr mailbox
  exact ⟨_, doorbell, row, posted, flight, only, dram⟩

end Sys2Proof.Machine
end

/-! # Tick configurations out of range (02 R51)

Where no bridge is on, the first check of a TickSet that can fail is that of its configuration, and a failing check is the
whole answer. -/
section
namespace Sys2Proof.Machine
open Sys2Proof

/-- A status other than RESOURCE is never lost: the reply is the plain response (03 R94). -/
theorem Dev.reply_of_ne_resource {status : Nat} (h : status ≠ stResource) (st : Stall) (tag : BitVec 8) (words : List W32)
    (d : Dev) : d.reply st tag status words = d.respond st tag status words := by
  cases found : d.cmd? st tag with
  | none => simp [Dev.reply, Dev.respond, found]
  | some c => simp [Dev.reply, found, h]

/-- A command whose first failing check gives an error status other than RESOURCE is answered with that status. -/
theorem Dev.checked_answers {c : Cmd} {n status : Nat} {checks : List (Bool × Nat)} (go : Dev → Dev) (d : Dev)
    (first : firstBad checks = status) (error : status ≠ 0) (keeps : status ≠ stResource) :
    Dev.checked c n checks go d = d.respondN c.stall c.tag status n := by
  subst first
  rw [Dev.checked_fail go d error, Dev.reply_of_ne_resource keeps]
  rfl

/-- The three conditions of R51 on the tick, the counts and the network cycle. -/
theorem validConf_iff {clks ft cf : Nat} :
    validConf clks ft cf = true ↔ (2000 ≤ clks ∧ clks ≤ 32000 ∧ clks % 250 = 0) ∧ (1 ≤ ft ∧ ft ≤ 16 ∧ 1 ≤ cf ∧ cf ≤ 64) ∧
      16000 ≤ clks * ft * cf ∧ clks * ft * cf ≤ 512000 := by
  simp only [validConf, validTick, Bool.and_eq_true, decide_eq_true_eq, beq_iff_eq, and_assoc]

/-- Whatever its length, its reserved bits and its epoch, a TickSet of an invalid configuration is bad. -/
theorem Dev.tickSetBad_of_not_validConf {c : Cmd}
    (h : validConf (fld (wd c.payload 0) 14 0) (fld (wd c.payload 0) 20 16) (fld (wd c.payload 0) 30 24) = false) (d : Dev) :
    d.tickSetBad c = true := by
  simp [Dev.tickSetBad, h]

/-- A bad TickSet that runs while every bridge is off is answered with PARAM and has no effect. -/
theorem doTickSet_of_bad {d : Dev} {st : Stall} {tag : BitVec 8} {c : Cmd} (runs : d.runs st tag 0x210 c = true)
    (off : d.liveAxes = []) (bad : d.tickSetBad c = true) : doTickSet st tag d = d.respondN c.stall c.tag stParam 1 := by
  have first : firstBad [(!d.liveAxes.isEmpty, stState), (d.tickSetBad c, stParam)] = stParam := by
    simp [firstBad, off, bad]
  unfold doTickSet
  rw [Dev.start_runs _ runs]
  exact Dev.checked_answers _ d first (by decide) (by decide)

/-- Settles O48: an invalid configuration makes the TickSet bad, and with no live axis PARAM is the first check that fails. -/
theorem invalidTickConfigurationsAnswerParam : Obligations.InvalidTickConfigurationsAnswerParam := by
  unfold Obligations.InvalidTickConfigurationsAnswerParam
  rintro s st tag c clks ft cf d rfl runs off rfl rfl rfl invalid
  have bad := Dev.tickSetBad_of_not_validConf (Bool.eq_false_iff.mpr (mt validConf_iff.mp invalid)) s.dev
  exact congrArg Host.Outcome.next (State.on_congr (doTickSet_of_bad runs off bad))

end Sys2Proof.Machine
end

/-! # Echo (03 R106)

Echo fixes no length of its own for its response, so its words stand behind the status as they are; and it is checked for
the length of its payload alone. -/
section
namespace Sys2Proof.Machine
open Sys2Proof

/-- A command that runs is the one in flight of its own stall and tag. -/
theorem Dev.runs_found {d : Dev} {st : Stall} {tag : BitVec 8} {code : Nat} {c : Cmd} (runs : d.runs st tag code c = true) :
    d.cmd? st tag = some c ∧ c.stall = st ∧ c.tag = tag ∧ c.code.toNat = code := by
  simp only [Dev.runs, Bool.and_eq_true, beq_iff_eq] at runs
  obtain ⟨⟨⟨found, code⟩, -⟩, -⟩ := runs
  have is : c.is st tag = true := List.find?_some (p := fun c : Cmd => c.is st tag) found
  simp only [Cmd.is, Bool.and_eq_true, beq_iff_eq] at is
  obtain ⟨⟨stall, tag⟩, -⟩ := is
  exact ⟨found, stall, tag, code⟩

/-- A response whose length no rule fixes above 1 has no words added to it. -/
theorem rspWords_of_rspLen_one {code : Nat} (h : rspLen code = 1) (status : Nat) (words : List W32) :
    rspWords code status words = nW status :: words := by
  simp [rspWords, h]

theorem Dev.hasRoom.mono {d : Dev} {st : Stall} {m n : Nat} (h : d.hasRoom st n) (le : m ≤ n) : d.hasRoom st m := by
  obtain ⟨empty, room⟩ := h
  exact ⟨empty, by omega⟩

/-- What a command that runs posts when it is answered, where no rule fixes its response's length above 1. -/
theorem Dev.runs_respond_posted {d : Dev} {st : Stall} {tag : BitVec 8} {code status : Nat} {words : List W32} {c : Cmd}
    (runs : d.runs st tag code c = true) (kept : c.dropped = false) (one : rspLen code = 1)
    (room : d.hasRoom st (words.length + 2)) :
    Posted d (d.respond c.stall c.tag status words) st
      (headerOf (BitVec.ofNat 12 code) tag (words.length + 1) :: nW status :: words) := by
  obtain ⟨found, rfl, rfl, rfl⟩ := Dev.runs_found runs
  have plain := rspWords_of_rspLen_one one status words
  have posted := Dev.respond_posted (status := status) (words := words) found kept (by rw [plain]; exact room)
  rw [plain] at posted
  rwa [BitVec.ofNat_toNat, BitVec.setWidth_eq]

/-- What the effect of a command posts stands posted in the next state. -/
theorem Posted.on {s : State} {f : Dev → Dev} {st : Stall} {words : List W32} (h : Posted s.dev (f s.dev) st words) :
    Posted s.dev (s.on f).dev st words := h

/-- An Echo of at most 64 words that runs is answered with OK and its payload. -/
theorem doEcho_of_le {d : Dev} {st : Stall} {tag : BitVec 8} {c : Cmd} (runs : d.runs st tag 0x000 c = true)
    (short : c.payload.length ≤ 64) : doEcho st tag d = d.respond c.stall c.tag stOk c.payload := by
  have passes : Passes [(decide (c.payload.length > 64), stParam)] :=
    (passes_cons (by decide)).mpr ⟨decide_eq_false (by omega), passes_nil⟩
  unfold doEcho
  rw [Dev.start_runs _ runs, Dev.checked_pass _ d passes]
  rfl

/-- A longer Echo that runs is answered with PARAM alone. -/
theorem doEcho_of_gt {d : Dev} {st : Stall} {tag : BitVec 8} {c : Cmd} (runs : d.runs st tag 0x000 c = true)
    (long : 65 ≤ c.payload.length) : doEcho st tag d = d.respond c.stall c.tag stParam [] := by
  have first : firstBad [(decide (c.payload.length > 64), stParam)] = stParam :=
    if_pos (decide_eq_true (by omega))
  unfold doEcho
  rw [Dev.start_runs _ runs]
  exact Dev.checked_answers _ d first (by decide) (by decide)

/-- Settles O44: the length of the payload decides the answer, and either answer fits the room that the area has. -/
theorem echoReturnsThePayload : Obligations.EchoReturnsThePayload := by
  unfold Obligations.EchoReturnsThePayload
  rintro s st tag c d rfl runs kept room
  refine ⟨s.on (doEcho st tag), rfl, fun short => ?_, fun long => ?_⟩
  · have posted := Dev.runs_respond_posted (status := stOk) (words := c.payload) runs kept (by decide)
      (room.mono (by omega))
    rw [← doEcho_of_le runs short] at posted
    exact posted.on
  · have posted := Dev.runs_respond_posted (status := stParam) (words := []) runs kept (by decide)
      (room.mono (by decide))
    rw [← doEcho_of_gt runs long] at posted
    exact posted.on

end Sys2Proof.Machine
end

/-! # The lane past an instruction (05 R145, R147, R153)

An instruction of a lane leaves its results waiting, and `Lane.age` writes those that are due. What follows says what then
stands in the register that a result is for, and what keeps waiting. -/
section
namespace Sys2Proof.Machine
open Sys2Proof

/-- The lane put in place is the one that stands there. -/
theorem State.withLane_lane (s : State) (ln : LaneNo) (l : Lane) : (s.withLane ln l).dev.lanes[ln] = l := by
  rw [State.withLane, State.on_dev]
  exact (vget_vset _ _ _ _).trans (if_pos rfl)

@[simp] theorem Lane.advance_a (l : Lane) : l.advance.a = l.a := by unfold Lane.advance; split <;> rfl
@[simp] theorem Lane.advance_d (l : Lane) : l.advance.d = l.d := by unfold Lane.advance; split <;> rfl
@[simp] theorem Lane.advance_pend (l : Lane) : l.advance.pend = l.pend := by unfold Lane.advance; split <;> rfl

/-- What an instruction of legal fields at a quiet hook leaves in the registers A and D and among the waiting results: the
results of its effect, aged once. -/
theorem State.lane_atHook_leaves {s : State} {ln : LaneNo} {h : Fin 3} {l : Lane} (hk : s.atHook ln h l) {i : Instr} (k : Nat)
    (f : Fin 3 → Mem W20 → Lane → Lane) (wf : i.wellFormed = true) :
    ∃ t, s.lane i ln k f = .next t ∧
      t.dev.lanes[ln].a = (f h s.dev.loops[l.axis].userFar l).age.a ∧
      t.dev.lanes[ln].d = (f h s.dev.loops[l.axis].userFar l).age.d ∧
      t.dev.lanes[ln].pend = (f h s.dev.loops[l.axis].userFar l).age.pend :=
  ⟨_, State.lane_atHook hk k f wf, by rw [State.withLane_lane, Lane.advance_a], by rw [State.withLane_lane, Lane.advance_d],
    by rw [State.withLane_lane, Lane.advance_pend]⟩

/-- With nothing waiting, a result that is hidden waits one instruction less. -/
theorem Lane.age_post_succ {l : Lane} (quiet : l.pend = []) (n : Nat) (dest : Dest) (v : Int) :
    (l.post (n + 1) dest v).age.pend = [⟨n, dest, v, false⟩] := by
  simp [Lane.age, Lane.post, quiet]

/-- Where every result is hidden, each waits one instruction less and no register changes. -/
theorem Lane.age_hidden {l : Lane} (hidden : ∀ w ∈ l.pend, w.left ≠ 0) :
    l.age = { l with pend := l.pend.map (fun w => { w with left := w.left - 1 }) } := by
  have due : l.pend.filter (fun w => w.left == 0) = [] := by simpa using hidden
  have rest : l.pend.filter (fun w => w.left != 0) = l.pend := by simpa using hidden
  rw [Lane.age, due, rest]
  rfl

/-- A result that is due after hidden ones is written, and they wait on. -/
theorem Lane.age_post_zero {l : Lane} (hidden : ∀ w ∈ l.pend, w.left ≠ 0) (dest : Dest) (v : Int) :
    (l.post 0 dest v).age = l.age.write ⟨0, dest, v, false⟩ := by
  have due : l.pend.filter (fun w => w.left == 0) = [] := by simpa using hidden
  simp [Lane.age, Lane.post, List.filter_append, due]

/-- A D result that is due stands in its register. -/
theorem Lane.age_post_d {l : Lane} (quiet : l.pend = []) (r : Fin 16) (v : Int) :
    (l.post 0 (.d r) v).age.d[r] = BitVec.ofInt 20 v := by
  rw [Lane.age_post_zero (by simp [quiet])]
  exact (vget_vset _ _ _ _).trans (if_pos rfl)

/-- The address registers of the next instruction after a post-modification (R147) that follows hidden results. -/
theorem Lane.age_postMod {l : Lane} (hidden : ∀ w ∈ l.pend, w.left ≠ 0) (k : Fin 8) (p : Fin 4) :
    (l.postMod k p).age.a = l.postA k p l.a := by
  unfold Lane.postMod Lane.postA
  split
  · rw [Lane.age_hidden hidden]
  · rw [Lane.age_post_zero hidden, Lane.age_hidden hidden]
    rfl

end Sys2Proof.Machine
end

/-! # Post-modification (05 R147) -/
section
namespace Sys2Proof.Machine
open Sys2Proof

/-! ## The new address -/

/-- The exponent of R147 is the least one. -/
theorem log2Up_eq {n b : Nat} (small : n < 2 ^ 12) (le : n ≤ 2 ^ b) (least : ∀ e, n ≤ 2 ^ e → b ≤ e) : log2Up n = b := by
  have hb : b ≤ 12 := least 12 (Nat.le_of_lt small)
  have found : (List.range 13).find? (fun e => decide (n ≤ 2 ^ e)) = some b := by
    rw [List.find?_range_eq_some]
    refine ⟨decide_eq_true le, List.mem_range.mpr (by omega), fun e he => ?_⟩
    simpa using fun holds => Nat.not_lt.mpr (least e holds) he
  rw [log2Up, found, Option.getD_some]

/-- LEN = 0: the step is added mod 2^16. -/
theorem postModify_zero (a : Nat) (step : Int) : postModify a step 0 = (a + step) % 65536 := rfl

/-- LEN ≠ 0: the address moves within LEN words from its value with the low b bits cleared. -/
theorem postModify_circular {len b : Nat} (a : Nat) (step : Int) (pos : len ≠ 0) (small : len < 2 ^ 12) (le : len ≤ 2 ^ b)
    (least : ∀ e, len ≤ 2 ^ e → b ≤ e) :
    postModify a step len = (a / 2 ^ b * 2 ^ b : Nat) + ((a - a / 2 ^ b * 2 ^ b : Nat) + step) % len := by
  rw [postModify, if_neg pos, log2Up_eq small le least]

/-- The LEN words from an address of 16 bits with its low b bits cleared lie within 16 bits. -/
theorem circular_lt {a b len : Nat} (x : Int) (ha : a < 2 ^ 16) (hb : b ≤ 16) (pos : len ≠ 0) (le : len ≤ 2 ^ b) :
    (a / 2 ^ b * 2 ^ b : Nat) + x % len < 2 ^ 16 := by
  have block : (a / 2 ^ b + 1) * 2 ^ b ≤ 2 ^ 16 :=
    calc (a / 2 ^ b + 1) * 2 ^ b ≤ 2 ^ (16 - b) * 2 ^ b := by
          refine Nat.mul_le_mul_right _ (Nat.div_lt_of_lt_mul ?_)
          rwa [← Nat.pow_add, Nat.add_sub_cancel' hb]
      _ = 2 ^ 16 := by rw [← Nat.pow_add, Nat.sub_add_cancel hb]
  have offset : x % len < len := Int.emod_lt_of_pos x (by omega)
  rw [Nat.add_mul, Nat.one_mul] at block
  omega

/-- A post-modified address is one of 16 bits. -/
theorem postModify_lt {a b len : Nat} (step : Int) (ha : a < 2 ^ 16) (small : len < 2 ^ 12) (le : len ≤ 2 ^ b)
    (least : ∀ e, len ≤ 2 ^ e → b ≤ e) : postModify a step len < 2 ^ 16 := by
  by_cases pos : len = 0
  · subst pos
    exact Int.emod_lt_of_pos _ (by decide)
  · rw [postModify_circular a step pos small le least]
    exact circular_lt _ ha (Nat.le_trans (least 12 (Nat.le_of_lt small)) (by decide)) pos le

/-! ## The modifier's fields (R147) -/

/-- LEN is the upper half of the modifier. -/
theorem modifier_len (m : BitVec 24) : m.toNat / 2 ^ 12 = (m.extractLsb' 12 12).toNat := by
  rw [BitVec.extractLsb'_toNat, Nat.shiftRight_eq_div_pow, Nat.mod_eq_of_lt (by omega)]

/-- STRIDE is the lower half of the modifier, signed. -/
theorem modifier_stride (m : BitVec 24) : signedOf 12 (m.toNat % 2 ^ 12) = (m.extractLsb' 0 12).toInt := by
  have low : (m.extractLsb' 0 12).toNat = m.toNat % 2 ^ 12 := by rw [BitVec.extractLsb'_toNat, Nat.shiftRight_zero]
  rw [signedOf, BitVec.toInt_eq_toNat_cond, low]
  omega

/-- The step that each post-modification code selects. -/
theorem Lane.postStep_eq {l : Lane} {k : Fin 8} {p : Fin 4} {step : Int}
    (code : (p = 1 ∧ step = 1) ∨ (p = 2 ∧ step = -1) ∨ (p = 3 ∧ step = (l.m[k].extractLsb' 0 12).toInt)) :
    p ≠ 0 ∧ l.postStep k p = step := by
  rcases code with ⟨rfl, rfl⟩ | ⟨rfl, rfl⟩ | ⟨rfl, rfl⟩
  · exact ⟨by decide, rfl⟩
  · exact ⟨by decide, rfl⟩
  · exact ⟨by decide, modifier_stride _⟩

/-- The address registers and modifiers alone decide a post-modification. -/
theorem Lane.postA_congr {l m : Lane} (ha : m.a = l.a) (hm : m.m = l.m) (k : Fin 8) (p : Fin 4) :
    m.postA k p = l.postA k p := by
  funext a
  rw [Lane.postA, Lane.postA, Lane.postStep, Lane.postStep, ha, hm]

/-- The post-modified register itself, as R147 writes its new value. -/
theorem Lane.postA_toNat {l : Lane} {k : Fin 8} {p : Fin 4} {step : Int} {b len new : Nat}
    (hlen : (l.m[k].extractLsb' 12 12).toNat = len)
    (code : (p = 1 ∧ step = 1) ∨ (p = 2 ∧ step = -1) ∨ (p = 3 ∧ step = (l.m[k].extractLsb' 0 12).toInt))
    (le : len ≤ 2 ^ b) (least : ∀ e, len ≤ 2 ^ e → b ≤ e)
    (plain : len = 0 → (new : Int) = (l.a[k].toNat + step) % 65536)
    (circular : len ≠ 0 → (new : Int) =
      (l.a[k].toNat / 2 ^ b * 2 ^ b : Nat) + ((l.a[k].toNat - l.a[k].toNat / 2 ^ b * 2 ^ b : Nat) + step) % len) :
    ((l.postA k p l.a)[k]).toNat = new := by
  obtain ⟨modifies, rfl⟩ := Lane.postStep_eq code
  have small : len < 2 ^ 12 := hlen ▸ BitVec.isLt _
  have eq_new : postModify l.a[k].toNat (l.postStep k p) len = new := by
    by_cases pos : len = 0
    · rw [plain pos, pos, postModify_zero]
    · rw [circular pos, postModify_circular _ _ pos small le least]
  have new_lt := postModify_lt (l.postStep k p) l.a[k].isLt small le least
  rw [eq_new] at new_lt
  rw [Lane.postA, if_neg modifies, vget_vset, if_pos rfl, modifier_len, hlen, eq_new, BitVec.toNat_ofInt]
  omega

/-! ## The instructions -/

/-- The lane m keeps the address registers and modifiers of l, and hides every result: so it stands before the
post-modification of LD, ST and a parallel load. -/
def Lane.Prepares (l m : Lane) : Prop := m.a = l.a ∧ m.m = l.m ∧ ∀ w ∈ m.pend, w.left ≠ 0

/-- The post-modification after such an effect is that of the lane before it. -/
theorem Lane.Prepares.age_postMod {l m : Lane} (prep : l.Prepares m) (k : Fin 8) (p : Fin 4) :
    (m.postMod k p).age.a = l.postA k p l.a := by
  obtain ⟨ha, hm, hidden⟩ := prep
  rw [Lane.age_postMod hidden, ha, Lane.postA_congr ha hm]

/-- Where nothing waits, the lane itself does. -/
theorem Lane.prepares_refl {l : Lane} (quiet : l.pend = []) : l.Prepares l := ⟨rfl, rfl, by simp [quiet]⟩

theorem Lane.Prepares.store {l m : Lane} (prep : l.Prepares m) (h : Fin 3) (n : Nat) (v : Int) : l.Prepares (m.store h n v) := by
  unfold Lane.store
  split <;> exact prep

theorem Lane.Prepares.loadTo {l m : Lane} (prep : l.Prepares m) (r : Fin 16) (n : Nat) : l.Prepares (m.loadTo r n) := by
  obtain ⟨ha, hm, hidden⟩ := prep
  rw [Lane.loadTo_eq]
  refine ⟨ha, hm, ?_⟩
  simpa [or_imp, forall_and] using hidden

theorem Lane.Prepares.resMac {l m : Lane} (prep : l.Prepares m) (sat : Bool) (rs : List (Fin 4 × Int)) :
    l.Prepares (m.resMac sat rs) := by
  obtain ⟨ha, hm, hidden⟩ := prep
  rw [Lane.resMac_eq]
  refine ⟨ha, hm, fun w hw => ?_⟩
  rcases List.mem_append.mp hw with old | new
  · exact hidden w old
  · obtain ⟨x, -, rfl⟩ := List.mem_map.mp new
    exact Nat.one_ne_zero

section
variable {s : State} {ln : LaneNo} {h : Fin 3} {l : Lane} (hk : s.atHook ln h l)
include hk

/-- Nothing waits in a lane at a quiet hook. -/
theorem State.atHook_quiet : l.pend = [] :=
  have ⟨_, _, quiet, _, _⟩ := hk
  quiet

theorem exec_ld_a (rd : Fin 16) (k : Fin 8) (p : Fin 4) :
    ∃ t, exec (.ld ln rd k p) s = .next t ∧ t.dev.lanes[ln].a = l.postA k p l.a := by
  obtain ⟨t, ran, ha, -, -⟩ := State.lane_atHook_leaves hk (i := .ld ln rd k p) 1
    (fun _ _ l => (l.loadTo rd l.a[k].toNat).postMod k p) rfl
  exact ⟨t, ran, ha.trans (((Lane.prepares_refl (State.atHook_quiet hk)).loadTo _ _).age_postMod k p)⟩

theorem exec_st_a (ra : Fin 16) (k : Fin 8) (p : Fin 4) :
    ∃ t, exec (.st ln ra k p) s = .next t ∧ t.dev.lanes[ln].a = l.postA k p l.a := by
  obtain ⟨t, ran, ha, -, -⟩ := State.lane_atHook_leaves hk (i := .st ln ra k p) 1
    (fun h _ l => (l.store h l.a[k].toNat (l.rd ra)).postMod k p) rfl
  exact ⟨t, ran, ha.trans (((Lane.prepares_refl (State.atHook_quiet hk)).store _ _ _).age_postMod k p)⟩

/-- A MAC whose second load is off: its first load post-modifies. -/
theorem exec_mac_a (sat : Bool) (ac : Fin 4) (dx dy rd : Fin 16) (k : Fin 8) (p : Fin 4) {ly : ParLoad} (off : ly.en = false) :
    ∃ t, exec (.mac ln sat ac dx dy ⟨true, rd, k, p⟩ ly) s = .next t ∧ t.dev.lanes[ln].a = l.postA k p l.a := by
  obtain ⟨t, ran, ha, -, -⟩ := State.lane_atHook_leaves hk (i := .mac ln sat ac dx dy ⟨true, rd, k, p⟩ ly) 1
    (fun _ _ => Lane.macOp sat (fun l => [(ac, l.macBase ac + l.prod dx dy)]) ⟨true, rd, k, p⟩ ly)
    (by simp [Instr.wellFormed, loadsOk, off])
  refine ⟨t, ran, ha.trans ?_⟩
  rw [Lane.macOp, Lane.parLoad, off, Lane.parLoad, if_neg Bool.false_ne_true, if_pos rfl]
  exact (((Lane.prepares_refl (State.atHook_quiet hk)).resMac _ _).loadTo _ _).age_postMod k p

end

/-- Settles O55: each of the three instructions leaves `Lane.postA` in the address registers, and the register it modifies
holds R147's value there. -/
theorem postModification : Obligations.PostModification := by
  unfold Obligations.PostModification
  rintro s ln h l k p step b ak len new hk rfl hlen code le least plain circular
  have modified := Lane.postA_toNat hlen code le least plain circular
  refine ⟨fun rd => ?_, fun ra => ?_, fun sat ac dx dy rd ly off => ?_⟩
  · obtain ⟨t, ran, ha⟩ := exec_ld_a hk rd k p
    exact ⟨t, ran, ha ▸ modified⟩
  · obtain ⟨t, ran, ha⟩ := exec_st_a hk ra k p
    exact ⟨t, ran, ha ▸ modified⟩
  · obtain ⟨t, ran, ha⟩ := exec_mac_a hk sat ac dx dy rd k p off
    exact ⟨t, ran, ha ▸ modified⟩

end Sys2Proof.Machine
end

/-! # Rounding (05 R145) -/
section
namespace Sys2Proof.Machine
open Sys2Proof

/-! ## Quotients by a power of two -/

/-- A power of two as twice the one below. -/
theorem two_pow_eq_double {n : Nat} (pos : 0 < n) : (2 ^ n : Int) = 2 * 2 ^ (n - 1) := by
  rw [← Int.pow_succ', Nat.sub_add_cancel pos]

/-- A power of two is positive. -/
theorem two_pow_pos_int (n : Nat) : (0 : Int) < 2 ^ n := Int.pow_pos (by decide)

/-- A quotient truncated toward −∞ is the multiple below. -/
theorem fdiv_eq_of_between {x v c : Int} (pos : 0 < c) (le : v * c ≤ x) (lt : x < (v + 1) * c) : Int.fdiv x c = v := by
  rw [Int.fdiv_eq_ediv_of_nonneg x (Int.le_of_lt pos)]
  exact (Int.ediv_eq_iff_of_pos pos).mpr ⟨le, by rwa [Int.add_mul, Int.one_mul] at lt⟩

/-- A rounded quotient is the nearest value, and the greater of two that are equally near. -/
theorem rshift_eq_of_nearest {x v : Int} {n : Nat} (pos : 0 < n) (above : -(2 ^ n : Int) < 2 * (v * 2 ^ n - x))
    (below : 2 * (v * 2 ^ n - x) ≤ 2 ^ n) : rshift x n = v := by
  have twice := two_pow_eq_double pos
  rw [rshift, if_neg (Nat.pos_iff_ne_zero.mp pos)]
  refine fdiv_eq_of_between (two_pow_pos_int _) ?_ ?_
  · omega
  · rw [Int.add_mul, Int.one_mul]
    omega

/-- An accumulator shifted right is rounded. -/
theorem accShift_eq_of_nearest {x v k : Int} {n : Nat} (right : k = -n) (pos : 0 < n)
    (above : -(2 ^ n : Int) < 2 * (v * 2 ^ n - x)) (below : 2 * (v * 2 ^ n - x) ≤ 2 ^ n) : accShift x k = v := by
  rw [accShift, if_neg (by omega), right, Int.neg_neg, Int.toNat_natCast]
  exact rshift_eq_of_nearest pos above below

/-! ## Results that fit -/

/-- The values that fit n bits. -/
theorem fits_iff {n : Nat} {v : Int} : fits n v = true ↔ -(2 ^ (n - 1) : Int) ≤ v ∧ v < 2 ^ (n - 1) := by
  have pos := two_pow_pos_int (n - 1)
  rw [fits, decide_eq_true_iff, satS]
  push_cast
  omega

/-- Wrapping to n bits is reading back a word of n bits. -/
theorem wrapS_eq_toInt {n : Nat} (pos : 0 < n) (v : Int) : wrapS n v = (BitVec.ofInt n v).toInt := by
  have halves : 2 ^ (n - 1) + 2 ^ (n - 1) = 2 ^ n := Nat.two_pow_pred_add_two_pow_pred pos
  have word : patOf n v = (BitVec.ofInt n v).toNat := BitVec.toNat_ofInt v |>.symm
  rw [wrapS, signedOf, word, Nat.mod_eq_of_lt (BitVec.isLt _), BitVec.toInt_eq_toNat_cond]
  exact ite_congr (propext (by omega)) (fun _ => rfl) (fun _ => rfl)

/-- A word of n bits holds a value that fits it. -/
theorem toInt_ofInt_of_fits {n : Nat} {v : Int} (pos : 0 < n) (hv : fits n v = true) : (BitVec.ofInt n v).toInt = v := by
  obtain ⟨ge, lt⟩ := fits_iff.mp hv
  exact BitVec.toInt_ofInt_eq_self pos ge lt

/-- A result that fits is left as it is, with S or without. -/
theorem fitTo_of_fits {n : Nat} {v : Int} (pos : 0 < n) (sat : Bool) (hv : fits n v = true) : fitTo n sat v = v := by
  cases sat
  · exact (wrapS_eq_toInt pos v).trans (toInt_ofInt_of_fits pos hv)
  · exact of_decide_eq_true hv

/-- A D register shifted right by truncation still fits. -/
theorem fits_of_le_rd {l : Lane} {ra : Fin 16} {v : Int} {n : Nat} (le : v * 2 ^ n ≤ l.rd ra)
    (lt : l.rd ra < (v + 1) * 2 ^ n) : fits 20 v = true := by
  have pos := two_pow_pos_int n
  have lo : -2 ^ 19 ≤ l.rd ra := BitVec.le_toInt _
  have hi : l.rd ra < 2 ^ 19 := BitVec.toInt_lt
  have ge : (-2 ^ 19 : Int) < v + 1 := Int.lt_of_mul_lt_mul_right (a := 2 ^ n) (by omega) (Int.le_of_lt pos)
  have le' : v < 2 ^ 19 := Int.lt_of_mul_lt_mul_right (a := 2 ^ n) (by omega) (Int.le_of_lt pos)
  exact fits_iff.mpr ⟨Int.lt_add_one_iff.mp ge, le'⟩

/-! ## Results in the lane that fit -/

/-- A D result that is due stands in its register. -/
theorem Lane.age_resZNV_d {l : Lane} (quiet : l.pend = []) (sat : Bool) (r : Fin 16) {v : Int} (hv : fits 20 v = true) :
    ((l.resZNV 0 sat r v).age.d[r]).toInt = v := by
  have quiet' : ((l.setZN v).setV (!fits 20 v)).pend = [] := quiet
  rw [Lane.resZNV, fitTo_of_fits (by decide) sat hv, Lane.age_post_d quiet']
  exact toInt_ofInt_of_fits (by decide) hv

/-- So does one without V. -/
theorem Lane.age_resZN_d {l : Lane} (quiet : l.pend = []) (r : Fin 16) {v : Int} (hv : fits 20 v = true) :
    ((l.resZN r v).age.d[r]).toInt = v := by
  have quiet' : (l.setZN v).pend = [] := quiet
  rw [Lane.resZN, Lane.age_post_d quiet']
  exact toInt_ofInt_of_fits (by decide) hv

/-- A D result that is hidden waits. -/
theorem Lane.age_resZNV_pend {l : Lane} (quiet : l.pend = []) (n : Nat) (sat : Bool) (r : Fin 16) {v : Int}
    (hv : fits 20 v = true) : (l.resZNV (n + 1) sat r v).age.pend = [⟨n, .d r, v, false⟩] := by
  have quiet' : ((l.setZN v).setV (!fits 20 v)).pend = [] := quiet
  rw [Lane.resZNV, fitTo_of_fits (by decide) sat hv, Lane.age_post_succ quiet']

/-- An accumulator result waits. -/
theorem Lane.age_resAcc_pend {l : Lane} (quiet : l.pend = []) (sat : Bool) (r : Fin 4) {v : Int} (hv : fits 52 v = true) :
    (l.resAcc sat r v).age.pend = [⟨0, .ac r, v, false⟩] := by
  have quiet' : (l.setV (!fits 52 v)).pend = [] := quiet
  rw [Lane.resAcc, fitTo_of_fits (by decide) sat hv, Lane.age_post_succ quiet']

/-! ## The instructions -/

section
variable {s : State} {ln : LaneNo} {h : Fin 3} {l : Lane} (hk : s.atHook ln h l)
include hk

/-- MUL leaves the product rounded to Q1.19, where that fits, hidden for one instruction more. -/
theorem exec_mul_pend {v : Int} (sat : Bool) (rd ra rb : Fin 16) (hv : fits 20 v = true)
    (rounds : rshift (l.rd ra * l.rd rb) 19 = v) :
    ∃ t, exec (.mul ln sat rd ra rb) s = .next t ∧ t.dev.lanes[ln].pend = [⟨0, .d rd, v, false⟩] := by
  subst rounds
  obtain ⟨t, ran, -, -, hpend⟩ := State.lane_atHook_leaves hk (i := .mul ln sat rd ra rb) 1
    (fun _ _ l => l.resZNV 1 sat rd (rshift (l.prod ra rb) 19)) rfl
  exact ⟨t, ran, hpend.trans (Lane.age_resZNV_pend (State.atHook_quiet hk) 0 sat rd hv)⟩

/-- SAC leaves the shifted accumulator in its D register, where it fits. -/
theorem exec_sac_d {v : Int} (sat : Bool) (rd : Fin 16) (ac : Fin 4) (sh : BitVec 6) (legal : sacShiftOk sh = true)
    (hv : fits 20 v = true) (rounds : accShift (l.racc ac) (sh.toInt - 19) = v) :
    ∃ t, exec (.sac ln sat rd ac sh) s = .next t ∧ (t.dev.lanes[ln].d[rd]).toInt = v := by
  subst rounds
  obtain ⟨t, ran, -, hd, -⟩ := State.lane_atHook_leaves hk (i := .sac ln sat rd ac sh) 1
    (fun _ _ l => l.resZNV 0 sat rd (accShift (l.racc ac) (sh.toInt - 19))) legal
  exact ⟨t, ran, hd ▸ Lane.age_resZNV_d (State.atHook_quiet hk) sat rd hv⟩

/-- SHA leaves the shifted accumulator, where that fits, hidden for one instruction more. -/
theorem exec_sha_pend {v : Int} (sat : Bool) (ac : Fin 4) (sh : BitVec 6) (hv : fits 52 v = true)
    (rounds : accShift (l.racc ac) sh.toInt = v) :
    ∃ t, exec (.sha ln sat ac sh) s = .next t ∧ t.dev.lanes[ln].pend = [⟨0, .ac ac, v, false⟩] := by
  subst rounds
  obtain ⟨t, ran, -, -, hpend⟩ := State.lane_atHook_leaves hk (i := .sha ln sat ac sh) 1
    (fun _ _ l => l.resAcc sat ac (accShift (l.racc ac) sh.toInt)) rfl
  exact ⟨t, ran, hpend.trans (Lane.age_resAcc_pend (State.atHook_quiet hk) sat ac hv)⟩

/-- SHR leaves the truncated quotient in its D register. -/
theorem exec_shr_d {v : Int} (rd ra : Fin 16) (n : Fin 32) (legal : shiftOk n = true) (hv : fits 20 v = true)
    (truncates : Int.fdiv (l.rd ra) (2 ^ n.val) = v) :
    ∃ t, exec (.shr ln rd ra n) s = .next t ∧ (t.dev.lanes[ln].d[rd]).toInt = v := by
  subst truncates
  obtain ⟨t, ran, -, hd, -⟩ := State.lane_atHook_leaves hk (i := .shr ln rd ra n) 1
    (fun _ _ l => l.resZN rd (Int.fdiv (l.rd ra) (2 ^ n.val))) legal
  exact ⟨t, ran, hd ▸ Lane.age_resZN_d (State.atHook_quiet hk) rd hv⟩

end

/-- Settles O56: `rshift` is the nearest value, ties up, and `Int.fdiv` the one below; each instruction leaves its own. -/
theorem droppedBitsRound : Obligations.DroppedBitsRound := by
  unfold Obligations.DroppedBitsRound
  intro s ln h l v hk
  refine ⟨fun sat rd ra rb hv above below => ?mul, fun sat rd ac sh n legal hsh pos hv above below => ?sac,
    fun sat ac sh n hsh pos hv above below => ?sha, fun rd ra n legal le lt => ?shr⟩
  case mul =>
    obtain ⟨t, ran, hpend⟩ := exec_mul_pend hk sat rd ra rb hv (rshift_eq_of_nearest (by decide) above below)
    exact ⟨t, _, ran, hpend, rfl, rfl⟩
  case sac =>
    have right : sh.toInt - 19 = -n := by omega
    exact exec_sac_d hk sat rd ac sh legal hv (accShift_eq_of_nearest right pos above below)
  case sha =>
    obtain ⟨t, ran, hpend⟩ := exec_sha_pend hk sat ac sh hv (accShift_eq_of_nearest hsh pos above below)
    exact ⟨t, _, ran, hpend, rfl, rfl⟩
  case shr =>
    exact exec_shr_d hk rd ra n legal (fits_of_le_rd le lt) (fdiv_eq_of_between (two_pow_pos_int _) le lt)

end Sys2Proof.Machine
end

/-! # FwConfirm (14 R546, R565)

The first check of an FwConfirm is that a trial runs. Where it does, what the command decides stands in the service state: a
ledger record takes nothing of it back, and the answer goes through the mailbox alone. -/
section
namespace Sys2Proof.Machine
open Sys2Proof

/-! ## The images under a ledger record -/

/-- A ledger record changes none of which image runs, which boots, and how far an update has come. -/
theorem Dev.ledger_images (kind sev source axes : Nat) (w6 w7 : W32) (d : Dev) :
    (d.ledger kind sev source axes w6 w7).sv.fwPhase = d.sv.fwPhase ∧
      (d.ledger kind sev source axes w6 w7).sv.bootImage = d.sv.bootImage ∧
      (d.ledger kind sev source axes w6 w7).sv.running = d.sv.running := by
  unfold Dev.ledger Dev.ledgerPut
  dsimp only
  split <;> exact ⟨rfl, rfl, rfl⟩

/-! ## The two answers -/

/-- Outside a trial an FwConfirm that runs is answered with STATE and has no effect. -/
theorem doFwConfirm_outside_trial {d : Dev} {st : Stall} {tag : BitVec 8} {c : Cmd} (runs : d.runs st tag 0xB33 c = true)
    (outside : d.sv.fwPhase ≠ 4) : doFwConfirm st tag d = d.respondN c.stall c.tag stState 1 := by
  have first : firstBad [(d.sv.fwPhase != 4, stState), (badLen c 0, stParam)] = stState :=
    if_pos (bne_iff_ne.mpr outside)
  unfold doFwConfirm
  rw [Dev.start_runs _ runs]
  exact Dev.checked_answers _ d first (by decide) (by decide)

/-- In a trial an FwConfirm of its length ends the trial, and the image that runs is the boot image. -/
theorem doFwConfirm_in_trial {d : Dev} {st : Stall} {tag : BitVec 8} {c : Cmd} (runs : d.runs st tag 0xB33 c = true)
    (len : badLen c 0 = false) (trial : d.sv.fwPhase = 4) :
    (doFwConfirm st tag d).sv.fwPhase = 0 ∧ (doFwConfirm st tag d).sv.bootImage = d.sv.running ∧
      (doFwConfirm st tag d).sv.running = d.sv.running := by
  have passes : Passes [(d.sv.fwPhase != 4, stState), (badLen c 0, stParam)] :=
    (passes_cons (by decide)).mpr ⟨bne_eq_false_iff_eq.mpr trial, (passes_cons (by decide)).mpr ⟨len, passes_nil⟩⟩
  unfold doFwConfirm
  rw [Dev.start_runs _ runs, Dev.checked_pass _ d passes]
  dsimp only [Dev.ok]
  rw [(Dev.respond_mailbox _ _ _ _ _).sv]
  exact Dev.ledger_images _ _ _ _ _ _ _

/-- Settles O49: outside a trial STATE is the first check that fails, and an answer changes the mailbox side alone; in a trial
every check passes. -/
theorem confirmEndsTheTrial : Obligations.ConfirmEndsTheTrial := by
  unfold Obligations.ConfirmEndsTheTrial
  rintro s st tag c d rfl wr runs len
  refine ⟨s.on (doFwConfirm st tag), rfl, fun outside => ?_, fun trial => doFwConfirm_in_trial runs len trial⟩
  have answer := State.on_congr (g := fun _ => s.dev.respondN c.stall c.tag stState 1) (doFwConfirm_outside_trial runs outside)
  rw [answer]
  exact ⟨rfl, (State.on_mailbox wr (Dev.respond_mailbox _ _ _ _ _)).1⟩

end Sys2Proof.Machine
end


/-! # What every step keeps -/
section
namespace Sys2Proof.Machine
open Sys2Proof

/-- Every state that a command leaves has canonical DRAM, no byte left to write, and the queue it was given. -/
theorem Leaves.keeps {s t : State} (h : Leaves s t) (wf : Memory.wf s.dram = true) (wr : s.dev.wr = []) :
    Memory.wf t.dram = true ∧ t.dev.wr = [] ∧ t.pending = s.pending := by
  cases h with
  | same => exact ⟨wf, wr, rfl⟩
  | on f => exact ⟨State.on_wf f wf, State.on_wr f s, State.on_pending f s⟩
  | lost f => exact ⟨rfl, State.on_wr f s, State.on_pending f s⟩

/-- Settles O59: an idle step keeps the state, and every command leaves one of the states of `Leaves`. -/
theorem stepKeepsDramCanonical : Obligations.StepKeepsDramCanonical := by
  unfold Obligations.StepKeepsDramCanonical
  intro s t wf wr ran
  unfold step at ran
  split at ran
  next idle =>
    injection ran with same
    subst same
    exact ⟨wf, wr, by rw [idle]; rfl⟩
  next i rest front =>
    obtain ⟨wf', wr', queue⟩ := (exec_leaves i ran).keeps wf wr
    exact ⟨wf', wr', by rw [queue, front]; rfl⟩

end Sys2Proof.Machine
end


/-! # The words of the lane instructions (05 R150)

A word is its opcode above bit 34, S at bit 33 and the operands below; only the condition of a Bcc reaches into bit 33.
Reading a field back takes that digit of the number, and the operands' own bounds say that it is theirs. -/
section
namespace Sys2Proof.Machine
open Sys2Proof

/-! ## Fields of a word -/

theorem b2n_le_one (b : Bool) : b2n b ≤ 1 := by cases b <;> decide

theorem b2n_beq_one (b : Bool) : (b2n b == 1) = b := by cases b <;> rfl

theorem opcode_above_lt {op low : Nat} (hop : op < 64) (hlow : low < 2 ^ 34) : op * 2 ^ 34 + low < 2 ^ 40 := by omega

/-- What stands above bit m leaves the digits below it as they are. -/
theorem digit_below {m lo k : Nat} (hk : lo + k ≤ m) (up low : Nat) :
    (up * 2 ^ m + low) / 2 ^ lo % 2 ^ k = low / 2 ^ lo % 2 ^ k := by
  have split : 2 ^ m = 2 ^ (m - (lo + k)) * 2 ^ k * 2 ^ lo := by
    rw [← Nat.pow_add, ← Nat.pow_add]
    congr 1
    omega
  rw [Nat.add_comm, split, ← Nat.mul_assoc, Nat.add_mul_div_right _ _ (Nat.two_pow_pos lo), ← Nat.mul_assoc,
    Nat.add_mul_mod_self_right]

/-- A word's fields are the digits of its number. -/
theorem ifld_word {op low : Nat} (hop : op < 64) (hlow : low < 2 ^ 34) (hi lo : Nat) :
    ifld (BitVec.ofNat 40 (op * 2 ^ 34 + low)) hi lo = (op * 2 ^ 34 + low) / 2 ^ lo % 2 ^ (hi - lo + 1) := by
  rw [ifld, BitVec.toNat_ofNat, Nat.mod_eq_of_lt (opcode_above_lt hop hlow), Nat.shiftRight_eq_div_pow]

theorem laneBits_eq (op : Nat) (sat : Bool) (fields : Nat) :
    laneBits op sat fields = BitVec.ofNat 40 (op * 2 ^ 34 + (b2n sat * 2 ^ 33 + fields)) := by
  rw [laneBits, Nat.add_assoc]

/-- S and the operands stay below the opcode. -/
theorem sat_fields_lt (sat : Bool) {fields : Nat} (hf : fields < 2 ^ 33) : b2n sat * 2 ^ 33 + fields < 2 ^ 34 := by
  have le := b2n_le_one sat
  omega

/-- The opcode of a word. -/
theorem ifld_laneBits_op {op fields : Nat} {sat : Bool} (hop : op < 64) (hf : fields < 2 ^ 33) :
    ifld (laneBits op sat fields) 39 34 = op := by
  have low := sat_fields_lt sat hf
  rw [laneBits_eq, ifld_word hop low]
  omega

/-- S of a word. -/
theorem iBit_laneBits_sat {op fields : Nat} {sat : Bool} (hop : op < 64) (hf : fields < 2 ^ 33) :
    iBit (laneBits op sat fields) 33 = sat := by
  have le := b2n_le_one sat
  have digit : (b2n sat * 2 ^ 33 + fields) / 2 ^ 33 % 2 ^ (33 - 33 + 1) = b2n sat := by omega
  rw [iBit, laneBits_eq, ifld_word hop (sat_fields_lt sat hf), digit_below (by decide), digit, b2n_beq_one]

/-- A field of a word below S is that digit of its operands. -/
theorem ifld_laneBits {op fields hi lo : Nat} {sat : Bool} (hop : op < 64) (hf : fields < 2 ^ 33)
    (below : lo + (hi - lo + 1) ≤ 33) : ifld (laneBits op sat fields) hi lo = fields / 2 ^ lo % 2 ^ (hi - lo + 1) := by
  rw [laneBits_eq, ifld_word hop (sat_fields_lt sat hf), digit_below (by omega), digit_below below]

/-! ## Reading the operands back -/

/-- A Bcc reads back: its condition stands in bits 33 to 30. -/
theorem laneInstr_bcc (ln : LaneNo) (cc : Fin 16) (target : BitVec 11) :
    laneInstr ln (laneBits 0x31 false (cc.val * 2 ^ 30 + target.toNat)) = some (.bcc ln cc target) := by
  have low : cc.val * 2 ^ 30 + target.toNat < 2 ^ 34 := by omega
  have word : laneBits 0x31 false (cc.val * 2 ^ 30 + target.toNat) =
      BitVec.ofNat 40 (0x31 * 2 ^ 34 + (cc.val * 2 ^ 30 + target.toNat)) := by
    rw [laneBits_eq, b2n, if_neg Bool.false_ne_true, Nat.zero_mul, Nat.zero_add]
  have op : (0x31 * 2 ^ 34 + (cc.val * 2 ^ 30 + target.toNat)) / 2 ^ 34 % 2 ^ (39 - 34 + 1) = 0x31 := by omega
  simp only [laneInstr, word, ifld_word (op := 0x31) (by decide) low, op]
  simp [Fin.ext_iff, BitVec.toNat_eq]
  omega

/-! ## Parallel loads (format M) -/

/-- The operands of a format-M word stay below S. -/
theorem formatM_lt (ac : Fin 4) (dx dy : Fin 16) (lx ly : ParLoad) :
    ac.val * 2 ^ 31 + dx.val * 2 ^ 27 + dy.val * 2 ^ 23 + loadBits 22 18 15 13 lx + loadBits 12 8 5 3 ly < 2 ^ 33 := by
  have hx := b2n_le_one lx.en
  have hy := b2n_le_one ly.en
  unfold loadBits
  omega

/-- A parallel load is read back from its digits. -/
theorem loadOf_eq {w : BitVec 40} {en d a p : Nat} {x : ParLoad} (hen : ifld w en en = b2n x.en)
    (hd : ifld w (d + 3) d = x.d.val) (ha : ifld w (a + 2) a = x.a.val) (hp : ifld w (p + 1) p = x.p.val) :
    loadOf w en d a p = x := by
  rw [loadOf, iBit, hen, hd, ha, hp, b2n_beq_one]
  simp only [Fin.ofNat_val_eq_self]

/-- A format-M word reads back its operands. -/
theorem formatM_reads {op : Nat} (hop : op < 64) (sat : Bool) (ac : Fin 4) (dx dy : Fin 16) (lx ly : ParLoad) {w : BitVec 40}
    (h : w = laneBits op sat (ac.val * 2 ^ 31 + dx.val * 2 ^ 27 + dy.val * 2 ^ 23 + loadBits 22 18 15 13 lx +
      loadBits 12 8 5 3 ly)) :
    ifld w 39 34 = op ∧ iBit w 33 = sat ∧ Fin.ofNat 4 (ifld w 32 31) = ac ∧ Fin.ofNat 16 (ifld w 30 27) = dx ∧
      Fin.ofNat 16 (ifld w 26 23) = dy ∧ loadOf w 22 18 15 13 = lx ∧ loadOf w 12 8 5 3 = ly := by
  subst h
  have lt := formatM_lt ac dx dy lx ly
  have hx := b2n_le_one lx.en
  have hy := b2n_le_one ly.en
  refine ⟨ifld_laneBits_op hop lt, iBit_laneBits_sat hop lt, ?ac, ?dx, ?dy, loadOf_eq ?_ ?_ ?_ ?_, loadOf_eq ?_ ?_ ?_ ?_⟩
  case ac | dx | dy =>
    rw [ifld_laneBits hop lt (by decide), Fin.ext_iff, Fin.val_ofNat]
    unfold loadBits
    omega
  all_goals
    rw [ifld_laneBits hop lt (by decide)]
    unfold loadBits
    omega

/-! ## Every instruction -/

/-- The word of an instruction reads back as that instruction: its opcode selects the row of `laneInstr`, and each operand is
the digit of its place. -/
theorem laneInstr_laneCode {i : Instr} {ln : LaneNo} {w : BitVec 40} (h : laneCode i = some (ln, w)) :
    laneInstr ln w = some i := by
  unfold laneCode at h
  split at h
  case h_1 | h_48 => cases h; rfl
  case h_45 => cases h; exact laneInstr_bcc _ _ _
  case h_30 | h_31 | h_32 | h_33 | h_34 | h_35 =>
    obtain ⟨rfl, word⟩ := Prod.mk.inj (Option.some.inj h)
    obtain ⟨hop, hsat, hac, hdx, hdy, hlx, hly⟩ := formatM_reads (by decide) _ _ _ _ _ _ word.symm
    simp only [laneInstr, hop, hsat, hac, hdx, hdy, hlx, hly]
  all_goals cases h
  all_goals
    simp (disch := omega) only [laneInstr, ifld_laneBits_op, iBit_laneBits_sat, ifld_laneBits, Option.some.injEq]
    simp [Fin.ext_iff, BitVec.toNat_eq] <;> omega

/-- Every lane instruction has a word, END too (Table 5.9). -/
theorem laneCode_of_laneOf {i : Instr} {ln : LaneNo} (h : laneOf i = some ln ∨ i = .endProg ln) :
    ∃ w, laneCode i = some (ln, w) := by
  rcases h with lane | rfl
  · unfold laneOf at lane
    split at lane <;> cases lane <;> exact ⟨_, rfl⟩
  · exact ⟨_, rfl⟩

/-- Settles O54: every lane instruction has a word, and reading takes each operand from the digits that writing gave it. -/
theorem laneWordsReadBack : Obligations.LaneWordsReadBack :=
  ⟨fun _ _ h => laneCode_of_laneOf h, fun _ _ _ h => laneInstr_laneCode h⟩

end Sys2Proof.Machine
end


/-! # The lane after an instruction (05 R141 to R155)

At a quiet hook an instruction's effect posts results behind each other, and the aging at its end writes those that are due and
brings the others nearer. Aging goes through the results one by one, so what it leaves is said here for each kind of
result; an instruction then leaves what its results leave together. -/
section
namespace Sys2Proof.Machine
open Sys2Proof

/-! ## Aging, result by result -/

theorem Lane.write_with (l : Lane) (p : List PendWrite) (e : Bool) (w : PendWrite) :
    ({ l with pend := p, aerr := e } : Lane).write w = { l.write w with pend := p, aerr := e } := by
  unfold Lane.write
  split <;> rfl

/-- Results that are written leave those that wait, and AERR. -/
theorem Lane.foldl_write_with (ws : List PendWrite) :
    ∀ (l : Lane) (p : List PendWrite) (e : Bool), ws.foldl (fun l w => l.write w) { l with pend := p, aerr := e } =
      { ws.foldl (fun l w => l.write w) l with pend := p, aerr := e } := by
  induction ws with
  | nil => exact fun _ _ _ => rfl
  | cons w ws ih => exact fun l p e => by rw [List.foldl_cons, List.foldl_cons, Lane.write_with, ih]

/-- Aging a lane with results p: those due are written, the others come one nearer. -/
theorem Lane.age_with (l : Lane) (p : List PendWrite) (e : Bool) :
    ({ l with pend := p, aerr := e } : Lane).age = { (p.filter (fun w => w.left == 0)).foldl (fun l w => l.write w) l with
      pend := (p.filter (fun w => w.left != 0)).map (fun w => { w with left := w.left - 1 }), aerr := e } :=
  Lane.foldl_write_with _ l _ e

/-- A fault leaves the results as they are. -/
theorem Lane.age_withAerr (l : Lane) (e : Bool) : ({ l with aerr := e } : Lane).age = { l.age with aerr := e } := by
  rw [show l.age = _ from Lane.age_with l l.pend l.aerr]
  exact Lane.age_with l l.pend e

/-- A result that is due is written after the results before it. -/
theorem Lane.age_due (l : Lane) (dest : Dest) (v : Int) : (l.post 0 dest v).age = l.age.write ⟨0, dest, v, false⟩ := by
  simp only [Lane.age, Lane.post, List.filter_append]
  simp

/-- A result that is hidden waits behind the results before it. -/
theorem Lane.age_later (l : Lane) (n : Nat) (dest : Dest) (v : Int) :
    (l.post (n + 1) dest v).age = { l.age with pend := l.age.pend ++ [⟨n, dest, v, false⟩] } := by
  rw [show l.age = _ from Lane.age_with l l.pend l.aerr]
  refine (Lane.age_with l _ l.aerr).trans ?_
  simp [List.filter_append]

/-- Where nothing waits, aging changes nothing. -/
theorem Lane.age_quiet {l : Lane} (quiet : l.pend = []) : l.age = l := by
  cases l
  cases quiet
  rfl

/-- A post-modification is written after the results before it. -/
theorem Lane.age_modifies (l : Lane) (k : Fin 8) (p : Fin 4) :
    (l.postMod k p).age = { l.age with a := l.postA k p l.age.a } := by
  unfold Lane.postMod Lane.postA
  split
  · rfl
  · rw [Lane.age_due]
    rfl

theorem Lane.age_aerr (l : Lane) : l.age.aerr = l.aerr := 
  congrArg (fun m => m.aerr) (Lane.age_withAerr l l.aerr)

/-- A load waits one instruction behind the results before it. -/
theorem Lane.age_loadTo (l : Lane) (r : Fin 16) (k : Nat) :
    (l.loadTo r k).age =
      { l.age with pend := l.age.pend ++ [⟨0, .d r, l.word k, false⟩], aerr := l.aerr || decide (0x1000 ≤ k) } := by
  rw [Lane.loadTo_eq]
  refine (Lane.age_later { l with aerr := l.aerr || decide (0x1000 ≤ k) } 0 (.d r) (l.word k)).trans ?_
  rw [Lane.age_withAerr]

/-- A parallel load waits, its post-modification does not. -/
theorem Lane.age_parLoad (l : Lane) (x : ParLoad) :
    (l.parLoad x).age = { l.age with
      pend := l.age.pend ++ l.loads x, a := l.loadA x l.age.a, aerr := l.aerr || l.loadFaults x } := by
  unfold Lane.parLoad Lane.loads Lane.loadA Lane.loadFaults
  cases x.en
  · simp only [Bool.false_and, Bool.or_false, if_false, List.append_nil, Bool.false_eq_true]
    exact Lane.age_withAerr l l.aerr
  · rw [if_pos rfl, Lane.age_modifies, Lane.age_loadTo, Lane.loadTo_eq]
    simp
    rfl

/-- The results of a MAC-class instruction wait, its post-modifications do not (R153, Table 5.10). -/
theorem Lane.age_macOp {l : Lane} (quiet : l.pend = []) (sat : Bool) (rs : Lane → List (Fin 4 × Int)) (lx ly : ParLoad) :
    (l.macOp sat rs lx ly).age = { l.setV ((rs l).any (fun r => !fits 52 r.2)) with
      pend := (rs l).map (fun r => ⟨0, .ac r.1, fitTo 52 sat r.2, true⟩) ++ l.loads lx ++ l.loads ly,
      a := l.loadA ly (l.loadA lx l.a), aerr := l.aerr || l.loadFaults lx || l.loadFaults ly } := by
  have results : (l.resMac sat (rs l)).age = { l.setV ((rs l).any (fun r => !fits 52 r.2)) with
      pend := (rs l).map (fun r => ⟨0, .ac r.1, fitTo 52 sat r.2, true⟩) } := by
    have hidden : ∀ w ∈ (rs l).map (fun r => (⟨1, .ac r.1, fitTo 52 sat r.2, true⟩ : PendWrite)), w.left ≠ 0 := by
      intro w hw
      obtain ⟨r, -, rfl⟩ := List.mem_map.mp hw
      exact Nat.one_ne_zero
    rw [Lane.resMac_eq, quiet, List.nil_append, Lane.age_hidden hidden]
    simp
  rw [Lane.macOp, Lane.age_parLoad, Lane.age_parLoad, results, Lane.parLoad_eq, Lane.resMac_eq]
  rfl

/-! ## Running an instruction -/

/-- Outside a branch the program goes on with the next instruction. -/
theorem Lane.advance_straight {l : Lane} (straight : l.branch = none) :
    l.advance = { l with pc := l.pc + 1, slots := l.slots - 1 } := by
  rw [Lane.advance, straight]

/-- What a lane instruction of legal fields leaves at a quiet hook: the lane that its results leave, past the instruction. -/
theorem State.lane_leaves_aged {s : State} {ln : LaneNo} {h : Fin 3} {l m t : Lane} (hk : s.atHook ln h l) {i : Instr}
    {clocks : Nat} {f : Fin 3 → Mem W20 → Lane → Lane} (legal : i.wellFormed = true)
    (aged : (f h s.dev.loops[l.axis].userFar l).age = m) (straight : m.branch = l.branch)
    (past : t = { m with pc := m.pc + 1, slots := m.slots - 1, cycles := l.cycles + clocks }) :
    s.lane i ln clocks f = .next (s.withLane ln t) := by
  obtain ⟨-, -, -, -, branch⟩ := id hk
  rw [State.lane_atHook hk clocks f legal, aged, past]
  exact congrArg (fun m => Host.Outcome.next (s.withLane ln m))
    (Lane.advance_straight (l := { m with cycles := l.cycles + clocks }) (straight.trans branch))

section
variable {l : Lane} (quiet : l.pend = [])
include quiet

/-- A result that is due stands in the lane. -/
theorem Lane.leaves_due (dest : Dest) (v : Int) : (l.post 0 dest v).age = l.write ⟨0, dest, v, false⟩ := by
  rw [Lane.age_due, Lane.age_quiet quiet]

/-- So does a word that is due in a D register. -/
theorem Lane.leaves_word (r : Fin 16) (w : BitVec 20) : (l.post 0 (.d r) w.toInt).age = { l with d := vset l.d r w } := by
  rw [Lane.leaves_due quiet]
  unfold Lane.write
  dsimp only
  rw [BitVec.ofInt_toInt]

/-- A result that is hidden waits alone. -/
theorem Lane.leaves_waiting (n : Nat) (dest : Dest) (v : Int) :
    (l.post (n + 1) dest v).age = { l with pend := [⟨n, dest, v, false⟩] } := by
  rw [Lane.age_later, Lane.age_quiet quiet, quiet]
  rfl

/-- The result of a load waits alone. -/
theorem Lane.leaves_load (r : Fin 16) (k : Nat) :
    (l.loadTo r k).age = { l with pend := [⟨0, .d r, l.word k, false⟩], aerr := l.aerr || decide (0x1000 ≤ k) } := by
  rw [Lane.age_loadTo, Lane.age_quiet quiet, quiet]
  rfl

/-- A post-modification stands in the lane. -/
theorem Lane.leaves_modified (k : Fin 8) (p : Fin 4) : (l.postMod k p).age = { l with a := l.postA k p l.a } := by
  rw [Lane.age_modifies, Lane.age_quiet quiet]

/-- A D result with Z, N and V that is due stands in the lane. -/
theorem Lane.leaves_resZNV (sat : Bool) (r : Fin 16) (v : Int) :
    (l.resZNV 0 sat r v).age =
      { (l.setZN (fitTo 20 sat v)).setV (!fits 20 v) with d := vset l.d r (BitVec.ofInt 20 (fitTo 20 sat v)) } :=
  Lane.leaves_due (l := (l.setZN (fitTo 20 sat v)).setV (!fits 20 v)) quiet _ _

/-- So does one with Z and N. -/
theorem Lane.leaves_resZN (r : Fin 16) (v : Int) :
    (l.resZN r v).age = { l.setZN v with d := vset l.d r (BitVec.ofInt 20 v) } :=
  Lane.leaves_due (l := l.setZN v) quiet _ _

/-- An accumulator result waits alone. -/
theorem Lane.leaves_resAcc (sat : Bool) (r : Fin 4) (v : Int) :
    (l.resAcc sat r v).age = { l.setV (!fits 52 v) with pend := [⟨0, .ac r, fitTo 52 sat v, false⟩] } :=
  Lane.leaves_waiting (l := l.setV (!fits 52 v)) quiet 0 _ _

end

/-! ## Moves and memory instructions (Table 5.7) -/

/-- A store to a word that the program may write. -/
theorem Lane.store_allowed {h : Fin 3} {k : Nat} {l : Lane} (lt : k < 0x1000) (may : mayWrite h k = true) (r : Fin 16) :
    l.store h k (l.rd r) = { l with lm := Mem.write 0 l.lm k l.d[r] } := by
  rw [Lane.store, if_pos ⟨lt, may⟩, Lane.rd, BitVec.ofInt_toInt]

/-- A store to any other word is dropped, and AERR set (R149). -/
theorem Lane.store_faults {h : Fin 3} {k : Nat} (l : Lane) (v : Int) (may : mayWrite h k = false) :
    l.store h k v = { l with aerr := true } := by
  rw [Lane.store, if_neg (by simp [may])]
  rfl

/-- Settles O8: each effect posts its results onto a lane where none waits, and is aged once. -/
theorem laneMovesExecute : Obligations.LaneMovesExecute := by
  unfold Obligations.LaneMovesExecute
  intro s ln h l hk
  have quiet := State.atHook_quiet hk
  refine ⟨?nop, fun rd ra => ?mov, fun rd imm => ?ldi, fun rd k p => ?ld, fun rd k ofs => ?ldo, fun rd addr => ?lda,
    fun ra k p lt may => ?st, fun ra k p may => ?stFaults, fun ra k ofs lt may => ?sto, fun ra addr may => ?sta,
    fun rd k ofs le none => ?fld, fun ra k ofs le => ?fst, fun k imm => ?lai, fun k len stride => ?lmi, fun k ra => ?mad⟩
  case nop => exact show execNop ln s = _ from State.lane_leaves_aged hk rfl (Lane.age_quiet quiet) rfl rfl
  case mov =>
    exact show execMov ln rd ra s = _ from State.lane_leaves_aged hk rfl (Lane.leaves_word quiet rd l.d[ra]) rfl rfl
  case ldi => exact show execLdi ln rd imm s = _ from State.lane_leaves_aged hk rfl (Lane.leaves_word quiet rd imm) rfl rfl
  case ld =>
    have aged : ((l.loadTo rd l.a[k].toNat).postMod k p).age =
        { l with pend := [⟨0, .d rd, l.word l.a[k].toNat, false⟩], a := l.postA k p l.a,
                 aerr := l.aerr || decide (0x1000 ≤ l.a[k].toNat) } := by
      rw [Lane.age_modifies, Lane.leaves_load quiet, Lane.loadTo_eq]
      rfl
    exact show execLd ln rd k p s = _ from State.lane_leaves_aged hk rfl aged rfl rfl
  case ldo => exact show execLdo ln rd k ofs s = _ from State.lane_leaves_aged hk rfl (Lane.leaves_load quiet rd _) rfl rfl
  case lda =>
    have lt : addr.toNat < 0x1000 := addr.isLt
    have aged : (l.loadTo rd addr.toNat).age = { l with pend := [⟨0, .d rd, (l.lmWord addr.toNat).toInt, false⟩] } := by
      rw [Lane.leaves_load quiet, Lane.word, if_pos lt, decide_eq_false (Nat.not_le.mpr lt), Bool.or_false]
    exact show execLda ln rd addr s = _ from State.lane_leaves_aged hk rfl aged rfl rfl
  case st =>
    have aged : ((l.store h l.a[k].toNat (l.rd ra)).postMod k p).age =
        { l with lm := Mem.write 0 l.lm l.a[k].toNat l.d[ra], a := l.postA k p l.a } := by
      rw [Lane.store_allowed lt may]
      exact Lane.leaves_modified (l := { l with lm := Mem.write 0 l.lm l.a[k].toNat l.d[ra] }) quiet k p
    exact show execSt ln ra k p s = _ from State.lane_leaves_aged hk rfl aged rfl rfl
  case stFaults =>
    have aged : ((l.store h l.a[k].toNat (l.rd ra)).postMod k p).age = { l with aerr := true, a := l.postA k p l.a } := by
      rw [Lane.store_faults l _ may]
      exact Lane.leaves_modified (l := { l with aerr := true }) quiet k p
    exact show execSt ln ra k p s = _ from State.lane_leaves_aged hk rfl aged rfl rfl
  case sto =>
    have aged : (l.store h (l.ofsAddr k ofs) (l.rd ra)).age =
        { l with lm := Mem.write 0 l.lm (l.a[k] + ofs).toNat l.d[ra] } := by
      rw [Lane.ofsAddr, Lane.store_allowed lt may]
      exact Lane.age_quiet quiet
    exact show execSto ln ra k ofs s = _ from State.lane_leaves_aged hk rfl aged rfl rfl
  case sta =>
    have aged : (l.store h addr.toNat (l.rd ra)).age = { l with lm := Mem.write 0 l.lm addr.toNat l.d[ra] } := by
      rw [Lane.store_allowed addr.isLt may]
      exact Lane.age_quiet quiet
    exact show execSta ln ra addr s = _ from State.lane_leaves_aged hk rfl aged rfl rfl
  case fld =>
    have read : l.farRead s.dev.loops[l.axis].userFar (l.ofsAddr k ofs) =
        ((Mem.read 0 s.dev.loops[l.axis].userFar (l.a[k] + ofs).toNat).toInt, l) := by
      rw [Lane.farRead, Lane.ofsAddr, if_neg (Nat.not_lt.mpr le), none]
      rfl
    have aged : ((l.farRead s.dev.loops[l.axis].userFar (l.ofsAddr k ofs)).2.post 0 (.d rd)
        (l.farRead s.dev.loops[l.axis].userFar (l.ofsAddr k ofs)).1).age =
        { l with d := vset l.d rd (Mem.read 0 s.dev.loops[l.axis].userFar (l.a[k] + ofs).toNat) } := by
      rw [read]
      exact Lane.leaves_word quiet rd _
    exact show execFld ln rd k ofs s = _ from State.lane_leaves_aged hk rfl aged rfl rfl
  case fst =>
    have aged : (l.farWrite (l.ofsAddr k ofs) (l.rd ra)).age = { l with far := l.far ++ [((l.a[k] + ofs).toNat, l.d[ra])] } := by
      rw [Lane.farWrite, Lane.ofsAddr, if_neg (Nat.not_lt.mpr le), Lane.rd, BitVec.ofInt_toInt]
      exact Lane.age_quiet quiet
    exact show execFst ln ra k ofs s = _ from State.lane_leaves_aged hk rfl aged rfl rfl
  case lai => exact show execLai ln k imm s = _ from State.lane_leaves_aged hk rfl (Lane.leaves_waiting quiet 0 _ _) rfl rfl
  case lmi =>
    exact show execLmi ln k len stride s = _ from State.lane_leaves_aged hk rfl (Lane.leaves_waiting quiet 0 _ _) rfl rfl
  case mad => exact show execMad ln k ra s = _ from State.lane_leaves_aged hk rfl (Lane.leaves_waiting quiet 0 _ _) rfl rfl

/-! ## Arithmetic and logic (Tables 5.6 and 5.9) -/

/-- Settles O9: each result is fitted, sets its flags and stands in its D register, or waits where the table hides it. -/
theorem laneArithmeticExecutes : Obligations.LaneArithmeticExecutes := by
  unfold Obligations.LaneArithmeticExecutes
  intro s ln h l hk
  have quiet := State.atHook_quiet hk
  refine ⟨fun sat rd ra rb => ?add, fun sat rd ra rb => ?sub, fun sat rd ra imm => ?addi, fun sat rd ra => ?neg,
    fun sat rd ra => ?abs, fun rd ra rb => ?min, fun rd ra rb => ?max, fun rd ra rb => ?lim, fun rd ra rb => ?and,
    fun rd ra rb => ?or, fun rd ra rb => ?xor, fun sat rd ra n le => ?shl, fun rd ra n le => ?shr, fun sat rd ra rb => ?mul,
    fun cc rd ra rb ok => ?selcc, fun sat rd ra rb => ?div, fun rd ra => ?sqrt, fun rd ra even => ?sincos⟩
  case add =>
    exact show execAdd ln sat rd ra rb s = _ from State.lane_leaves_aged hk rfl (Lane.leaves_resZNV quiet sat rd _) rfl rfl
  case sub =>
    exact show execSub ln sat rd ra rb s = _ from State.lane_leaves_aged hk rfl (Lane.leaves_resZNV quiet sat rd _) rfl rfl
  case addi =>
    exact show execAddi ln sat rd ra imm s = _ from State.lane_leaves_aged hk rfl (Lane.leaves_resZNV quiet sat rd _) rfl rfl
  case neg =>
    exact show execNeg ln sat rd ra s = _ from State.lane_leaves_aged hk rfl (Lane.leaves_resZNV quiet sat rd _) rfl rfl
  case abs =>
    exact show execAbs ln sat rd ra s = _ from State.lane_leaves_aged hk rfl (Lane.leaves_resZNV quiet sat rd _) rfl rfl
  case min => exact show execMin ln rd ra rb s = _ from State.lane_leaves_aged hk rfl (Lane.leaves_resZN quiet rd _) rfl rfl
  case max => exact show execMax ln rd ra rb s = _ from State.lane_leaves_aged hk rfl (Lane.leaves_resZN quiet rd _) rfl rfl
  case lim =>
    have aged := Lane.leaves_due (l := { l.setZN (clampI (-limBound (l.rd rb)) (limBound (l.rd rb)) (l.rd ra)) with
      l := decide (clampI (-limBound (l.rd rb)) (limBound (l.rd rb)) (l.rd ra) ≠ l.rd ra) }) quiet (.d rd)
      (clampI (-limBound (l.rd rb)) (limBound (l.rd rb)) (l.rd ra))
    exact show execLim ln rd ra rb s = _ from State.lane_leaves_aged hk rfl aged rfl rfl
  case and => exact show execAnd ln rd ra rb s = _ from State.lane_leaves_aged hk rfl (Lane.leaves_resZN quiet rd _) rfl rfl
  case or => exact show execOr ln rd ra rb s = _ from State.lane_leaves_aged hk rfl (Lane.leaves_resZN quiet rd _) rfl rfl
  case xor => exact show execXor ln rd ra rb s = _ from State.lane_leaves_aged hk rfl (Lane.leaves_resZN quiet rd _) rfl rfl
  case shl =>
    exact show execShl ln sat rd ra n s = _ from
      State.lane_leaves_aged hk (decide_eq_true le) (Lane.leaves_resZNV quiet sat rd _) rfl rfl
  case shr =>
    exact show execShr ln rd ra n s = _ from
      State.lane_leaves_aged hk (decide_eq_true le) (Lane.leaves_resZN quiet rd _) rfl rfl
  case mul =>
    have aged := Lane.leaves_waiting (l := (l.setZN (fitTo 20 sat (rshift (l.prod ra rb) 19))).setV
      (!fits 20 (rshift (l.prod ra rb) 19))) quiet 0 (.d rd) (fitTo 20 sat (rshift (l.prod ra rb) 19))
    exact show execMul ln sat rd ra rb s = _ from State.lane_leaves_aged hk rfl aged rfl rfl
  case selcc =>
    have chosen : (if l.cond cc then l.rd ra else l.rd rb) = (if l.cond cc then l.d[ra] else l.d[rb]).toInt :=
      (apply_ite BitVec.toInt _ _ _).symm
    have aged : (l.post 0 (.d rd) (if l.cond cc then l.rd ra else l.rd rb)).age =
        { l with d := vset l.d rd (if l.cond cc then l.d[ra] else l.d[rb]) } := by
      rw [chosen]
      exact Lane.leaves_word quiet rd _
    exact show execSelcc ln cc rd ra rb s = _ from State.lane_leaves_aged hk ok aged rfl rfl
  case div =>
    have aged := Lane.leaves_due (l := (l.setZN (divQ19 (l.rd ra) (l.rd rb)).1).setV (divQ19 (l.rd ra) (l.rd rb)).2) quiet
      (.d rd) (divQ19 (l.rd ra) (l.rd rb)).1
    exact show execDiv ln sat rd ra rb s = _ from State.lane_leaves_aged hk rfl aged rfl rfl
  case sqrt =>
    have aged := Lane.leaves_due (l := (l.setZN (sqrtQ19 (l.rd ra)).1).setV (sqrtQ19 (l.rd ra)).2) quiet
      (.d rd) (sqrtQ19 (l.rd ra)).1
    exact show execSqrt ln rd ra s = _ from State.lane_leaves_aged hk rfl aged rfl rfl
  case sincos =>
    have aged (v w : Int) : ((l.post 3 (.d rd) v).post 3 (.d (nextReg rd)) w).age =
        { l with pend := [⟨2, .d rd, v, false⟩, ⟨2, .d (nextReg rd), w, false⟩] } := by
      rw [Lane.age_later, Lane.leaves_waiting quiet]
      rfl
    exact show execSincos ln rd ra s = _ from State.lane_leaves_aged hk even (aged _ _) rfl rfl

/-! ## Accumulators (R153 to R155, Table 5.9) -/

/-- A pair of D registers and loads that a double MAC takes. -/
theorem pair_loads_legal {dx dy : Fin 16} {lx ly : ParLoad} (x : pairOk dx = true) (y : pairOk dy = true)
    (ok : loadsOk lx ly = true) : (pairOk dx && pairOk dy && loadsOk lx ly) = true := by
  rw [x, y, ok]
  rfl

/-- Settles O10: the accumulator results and the loads of an instruction wait, and what it accumulates onto is the register,
since no result of the class is due. -/
theorem laneAccumulatorsExecute : Obligations.LaneAccumulatorsExecute := by
  unfold Obligations.LaneAccumulatorsExecute
  intro s ln h l hk
  have quiet := State.atHook_quiet hk
  have base (r : Fin 4) : l.macBase r = l.racc r := Lane.macBase_eq l r quiet
  have aged := Lane.age_macOp quiet
  refine ⟨fun sat ac dx dy lx ly ok => ?mpy, fun sat ac dx dy lx ly ok => ?mac, fun sat ac dx dy lx ly ok => ?msu,
    fun sat ac dx dy lx ly x y ok => ?dmpy, fun sat ac dx dy lx ly x y ok => ?dmac, fun sat ac dx dy lx ly x y ok => ?rot,
    fun ac ra => ?lac, fun sat rd ac sh ok => ?sac, fun sat ac acs => ?adda, fun sat ac sh => ?sha, fun ac => ?clra⟩
  case mpy => exact show execMpy ln sat ac dx dy lx ly s = _ from State.lane_leaves_aged hk ok (aged _ _ _ _) rfl rfl
  case mac =>
    rw [← base]
    exact show execMac ln sat ac dx dy lx ly s = _ from State.lane_leaves_aged hk ok (aged _ _ _ _) rfl rfl
  case msu =>
    rw [← base]
    exact show execMsu ln sat ac dx dy lx ly s = _ from State.lane_leaves_aged hk ok (aged _ _ _ _) rfl rfl
  case dmpy =>
    exact show execDmpy ln sat ac dx dy lx ly s = _ from
      State.lane_leaves_aged hk (pair_loads_legal x y ok) (aged _ _ _ _) rfl rfl
  case dmac =>
    rw [← base, ← base]
    exact show execDmac ln sat ac dx dy lx ly s = _ from
      State.lane_leaves_aged hk (pair_loads_legal x y ok) (aged _ _ _ _) rfl rfl
  case rot =>
    exact show execRot ln sat ac dx dy lx ly s = _ from
      State.lane_leaves_aged hk (pair_loads_legal x y ok) (aged _ _ _ _) rfl rfl
  case lac => exact show execLac ln ac ra s = _ from State.lane_leaves_aged hk rfl (Lane.leaves_waiting quiet 0 _ _) rfl rfl
  case sac =>
    exact show execSac ln sat rd ac sh s = _ from State.lane_leaves_aged hk ok (Lane.leaves_resZNV quiet sat rd _) rfl rfl
  case adda =>
    exact show execAdda ln sat ac acs s = _ from State.lane_leaves_aged hk rfl (Lane.leaves_resAcc quiet sat ac _) rfl rfl
  case sha =>
    exact show execSha ln sat ac sh s = _ from State.lane_leaves_aged hk rfl (Lane.leaves_resAcc quiet sat ac _) rfl rfl
  case clra => exact show execClra ln ac s = _ from State.lane_leaves_aged hk rfl (Lane.leaves_waiting quiet 0 _ _) rfl rfl

/-! ## Control (R156 to R158) -/

/-- A lane at a hook is in that phase. -/
theorem Lane.phase_of_hook {l : Lane} {h : Fin 3} (at' : l.hook? = some h) : l.phase = .atHook h := by
  unfold Lane.hook? at at'
  split at at'
  next phase =>
    split at at' <;> cases at'
    exact phase
  next => cases at'

/-- RPTR's count (Table 5.7). -/
theorem rptr_count (v : Int) (n : Nat) :
    (Min.min (Max.max v 0) (n : Int)).toNat = if v < 0 then 0 else if v ≤ n then v.toNat else n := by
  split
  · omega
  · split <;> omega

/-- Settles O11: outside a delay slot a control instruction runs its effect, with nothing waiting to age; END ends the hook. -/
theorem laneControlExecutes : Obligations.LaneControlExecutes := by
  unfold Obligations.LaneControlExecutes
  intro s ln h l hk slots
  have rest := Lane.age_quiet (State.atHook_quiet hk)
  refine ⟨fun t beyond => ?br, fun cc t ok beyond => ?bcc, fun n pos le => ?rpt, fun rd n pos le => ?rptr, ?endProg⟩
  case br =>
    refine (State.control_atHook hk (i := .br ln t) _ _ slots (decide_eq_true beyond) rfl).trans ?_
    rw [Lane.branchTo, rest, if_pos rfl]
  case bcc =>
    refine (State.control_atHook hk (i := .bcc ln cc t) _ _ slots (decide_eq_true beyond) ok).trans ?_
    rw [Lane.branchTo, rest]
  case rpt =>
    have legal : countOk n = true := by simp [countOk, pos, le]
    refine (State.control_atHook hk (i := .rpt ln n) (fun _ => true) (Lane.repeatNext n.toNat) slots rfl legal).trans ?_
    rw [Lane.repeatNext, rest]
  case rptr =>
    have legal : countOk n = true := by simp [countOk, pos, le]
    refine (State.control_atHook hk (i := .rptr ln rd n) (fun _ => true)
      (fun l => l.repeatNext (Min.min (Max.max (l.rd rd) 0) n.toNat).toNat) slots rfl legal).trans ?_
    rw [Lane.repeatNext, rest, rptr_count]
  case endProg =>
    obtain ⟨here, at', -, rep, -⟩ := hk
    have goes : execEndProg ln s = .next (s.on (Dev.endHook ln)) := by
      unfold execEndProg
      simp only [here, at', rep, slots]
      rfl
    refine goes.trans (congrArg Host.Outcome.next (State.on_congr ?_))
    unfold Dev.endHook
    simp only [here, Lane.phase_of_hook at'] <;> rfl

end Sys2Proof.Machine
end


/-! # Lane instructions: what they keep, and when they stop (05 R137, R141, R150 to R157) -/
section
namespace Sys2Proof.Machine
open Sys2Proof

/-! ## Illegal fields -/

theorem State.lane_illegal {i : Instr} (illegal : i.wellFormed = false) (s : State) (ln : LaneNo) (clocks : Nat)
    (f : Fin 3 → Mem W20 → Lane → Lane) : s.lane i ln clocks f = .refused .illegalInstruction := by
  unfold State.lane
  simp only [illegal, Bool.not_false, Bool.true_or, if_true]

theorem State.control_illegal {i : Instr} (illegal : i.wellFormed = false) (s : State) (ln : LaneNo) (ok : Lane → Bool)
    (f : Lane → Lane) : s.control i ln ok f = .refused .illegalInstruction := by
  unfold State.control
  simp only [illegal, Bool.not_false, Bool.true_or, if_true]

/-- Settles O53: an instruction whose fields can be illegal runs as a lane or a control instruction, which checks them first. -/
theorem illegalFieldsStop : Obligations.IllegalFieldsStop := by
  unfold Obligations.IllegalFieldsStop
  intro i s illegal
  cases i
  case selcc ln cc rd ra rb => exact show execSelcc ln cc rd ra rb s = _ from State.lane_illegal illegal _ _ _ _
  case bcc ln cc t => exact show execBcc ln cc t s = _ from State.control_illegal illegal _ _ _ _
  case shl ln sat rd ra n => exact show execShl ln sat rd ra n s = _ from State.lane_illegal illegal _ _ _ _
  case shr ln rd ra n => exact show execShr ln rd ra n s = _ from State.lane_illegal illegal _ _ _ _
  case mpy ln sat ac dx dy lx ly => exact show execMpy ln sat ac dx dy lx ly s = _ from State.lane_illegal illegal _ _ _ _
  case mac ln sat ac dx dy lx ly => exact show execMac ln sat ac dx dy lx ly s = _ from State.lane_illegal illegal _ _ _ _
  case msu ln sat ac dx dy lx ly => exact show execMsu ln sat ac dx dy lx ly s = _ from State.lane_illegal illegal _ _ _ _
  case dmpy ln sat ac dx dy lx ly => exact show execDmpy ln sat ac dx dy lx ly s = _ from State.lane_illegal illegal _ _ _ _
  case dmac ln sat ac dx dy lx ly => exact show execDmac ln sat ac dx dy lx ly s = _ from State.lane_illegal illegal _ _ _ _
  case rot ln sat ac dx dy lx ly => exact show execRot ln sat ac dx dy lx ly s = _ from State.lane_illegal illegal _ _ _ _
  case sac ln sat rd ac sh => exact show execSac ln sat rd ac sh s = _ from State.lane_illegal illegal _ _ _ _
  case sincos ln rd ra => exact show execSincos ln rd ra s = _ from State.lane_illegal illegal _ _ _ _
  case rpt ln n => exact show execRpt ln n s = _ from State.control_illegal illegal _ _ _ _
  case rptr ln rd n => exact show execRptr ln rd n s = _ from State.control_illegal illegal _ _ _ _
  all_goals cases illegal

/-! ## Only their lane -/

/-- A lane instruction that answers leaves the state, or changes its lane. -/
theorem State.lane_only {i : Instr} {ln : LaneNo} {clocks : Nat} {f : Fin 3 → Mem W20 → Lane → Lane} {s t : State}
    (ran : s.lane i ln clocks f = .next t) : OnlyLane ln s t := by
  unfold State.lane at ran
  dsimp only at ran
  split at ran
  · cases ran
  · split at ran <;> cases ran
    · exact ⟨_, .inl rfl⟩
    · exact ⟨s.dev.lanes[ln], .inr rfl⟩

/-- So does a control instruction. -/
theorem State.control_only {i : Instr} {ln : LaneNo} {ok : Lane → Bool} {f : Lane → Lane} {s t : State}
    (ran : s.control i ln ok f = .next t) : OnlyLane ln s t := by
  unfold State.control at ran
  dsimp only at ran
  split at ran
  · cases ran
  · split at ran <;> cases ran
    · exact ⟨_, .inl rfl⟩
    · exact ⟨s.dev.lanes[ln], .inr rfl⟩

/-- Every instruction of a user law program but END runs as a lane or a control instruction on its own lane. -/
theorem exec_only_lane {i : Instr} {ln : LaneNo} {s t : State} (lane : laneOf i = some ln) (ran : exec i s = .next t) :
    OnlyLane ln s t := by
  unfold laneOf at lane
  split at lane <;> cases lane
  all_goals
    delta exec at ran
    dsimp only at ran
  case h_38 | h_39 | h_40 | h_41 => exact State.control_only ran
  all_goals exact State.lane_only ran

/-- A state that differs in one lane at most keeps the queue, DRAM and every other lane. -/
theorem OnlyLane.keeps {ln : LaneNo} {s t : State} (only : OnlyLane ln s t) :
    t.pending = s.pending ∧ (s.dev.wr = [] → t.dram = s.dram) ∧ (∀ k : LaneNo, k ≠ ln → t.dev.lanes[k] = s.dev.lanes[k]) := by
  obtain ⟨l, rfl | rfl⟩ := only
  · refine ⟨rfl, fun wr => ?_, fun k ne => ?_⟩
    · rw [State.withLane, State.on_dram, wr, dramApply_nil]
    · rw [State.withLane, State.on_dev]
      exact (vget_vset _ _ _ _).trans (if_neg ne)
  · exact ⟨rfl, fun _ => rfl, fun _ _ => rfl⟩

/-- Settles O52: a lane or control instruction changes its lane at most, and everything else follows. -/
theorem instructionsChangeOnlyTheirLane : Obligations.InstructionsChangeOnlyTheirLane := by
  unfold Obligations.InstructionsChangeOnlyTheirLane
  intro i ln s t lane ran
  have only := exec_only_lane lane ran
  exact ⟨only, only.keeps⟩

end Sys2Proof.Machine
end


/-! # Effects of rows

Most rows are the effect of one function on the device, which `State.on` carries out; what such a row leaves is what its
function makes of this device. -/
section
namespace Sys2Proof.Machine
open Sys2Proof

/-- A row's effect, written as what it makes of this device. -/
theorem next_on {f g : Dev → Dev} {s : State} (effect : f s.dev = g s.dev) :
    (Host.Outcome.next (s.on f) : Host.Outcome State Fault Refusal) = .next (s.on g) :=
  congrArg Host.Outcome.next (State.on_congr effect)

/-- The row of a command that runs: what its function makes of the command in flight. -/
theorem next_runs {f : Cmd → Dev → Dev} {g : Dev → Dev} {s : State} {st : Stall} {tag : BitVec 8} {code : Nat} {c : Cmd}
    (runs : s.dev.runs st tag code c = true) (effect : f c s.dev = g s.dev) :
    (Host.Outcome.next (s.on (Dev.start st tag code f)) : Host.Outcome State Fault Refusal) = .next (s.on g) :=
  next_on ((Dev.start_runs f runs).trans effect)

end Sys2Proof.Machine
end


/-! # The mailbox rows (03 R91 to R100) -/
section
namespace Sys2Proof.Machine
open Sys2Proof

/-- The row of the codes no table assigns is a doorbell. -/
theorem doReservedCommandCode_unassigned {h : W32} (code : commandCodes.contains (fld h 31 20) = false) (st : Stall) (d : Dev) :
    doReservedCommandCode st h d = doDoorbell st h d := by
  rw [doReservedCommandCode, code, if_neg Bool.false_ne_true]

/-- Until DEV_READY a doorbell is held behind those before it (R92). -/
theorem doDoorbell_held {d : Dev} {st : Stall} (h : W32) (present : d.present st = true)
    (noReset : d.hp.stalls[st].mbxReset = false) (unready : d.hp.devReady = false) (room : d.hp.stalls[st].held.length < 32) :
    doDoorbell st h d =
      let e := d.modStall st (fun x => { x with held := x.held ++ [h] })
      { e with hp := { e.hp with heldOrder := e.hp.heldOrder ++ [st] } } := by
  have holds : d.holdsDoorbells = true := by rw [Dev.holdsDoorbells, unready]; rfl
  have few : ¬ d.hp.stalls[st].held.length ≥ 32 := Nat.not_le.mpr room
  simp only [doDoorbell, present, Dev.ring_, noReset, holds, few, if_true, if_false, Bool.false_eq_true, Bool.not_true,
    Bool.false_and]

/-- A pointer within the words posted is taken, and what waits may find room (R94). -/
theorem doRspRdPtrWrite_moves {d : Dev} {st : Stall} {v : W32} (present : d.present st = true)
    (reserved : rsv v 0xFFFFF800 = false)
    (within : (BitVec.ofNat 11 v.toNat - d.hp.stalls[st].rspRdPtr).toNat ≤ rspUsed d.hp.stalls[st]) :
    doRspRdPtrWrite st v d = (d.modStall st (fun x => { x with rspRdPtr := BitVec.ofNat 11 v.toNat })).flushRsp st := by
  have past : ¬ (BitVec.ofNat 11 v.toNat - d.hp.stalls[st].rspRdPtr).toNat > rspUsed d.hp.stalls[st] := Nat.not_lt.mpr within
  rw [doRspRdPtrWrite, if_pos present, Dev.setRspRd, reserved, decide_eq_false past]
  rfl

/-- A mailbox reset ends once the stall has no command in flight (R100). -/
theorem doMbxResetDone_ends {d : Dev} {st : Stall} (reset : d.hp.stalls[st].mbxReset = true)
    (none : d.hp.inFlight.any (fun c => c.stall == st) = false) :
    doMbxResetDone st d = d.modStall st (fun x => { x with cmdRdPtr := 0, rspWrPtr := 0, rspRdPtr := 0, mbxReset := false }) := by
  rw [doMbxResetDone, reset, none]
  rfl

/-- A command past its limit ends with TIMEOUT, where no hand-over ends with it (R98). -/
theorem doMailboxTimeout_ends {d : Dev} {st : Stall} {tag : BitVec 8} {c : Cmd} {limit : Nat} (found : d.cmd? st tag = some c)
    (ofStall : c.stall = st) (ofTag : c.tag = tag) (noHandover : d.hp.own.handover = none) (deadline : c.deadline = some limit)
    (passed : limit < d.age) (acts : d.sv.mpChange = .none) :
    doMailboxTimeout st tag d = ((d.abandon c).abandonSpm c).respond st tag stTimeout (d.fixedWords c.code) := by
  have expired : d.expired c = true := by
    rw [Dev.expired, Dev.pairActs, acts, deadline]
    exact decide_eq_true passed
  unfold doMailboxTimeout
  simp only [found, expired, if_true, Dev.timeOut, noHandover, Option.any_none, Bool.false_eq_true, if_false, ofStall, ofTag]

/-- Settles O4: each row is one function on the device, and its hypotheses choose the branch. -/
theorem mailboxRowsComplete : Obligations.MailboxRowsComplete := by
  unfold Obligations.MailboxRowsComplete
  refine ⟨?taken, ?held, ?pointer, ?reset, ?resetDone, ?timeout⟩
  case taken =>
    rintro s st h _ rfl present noReset holds noneHeld
    have taken := doDoorbell_takes h present noReset holds noneHeld
    exact ⟨⟨_, next_on (f := doDoorbell st h) taken, rfl⟩, fun code =>
      next_on (f := doReservedCommandCode st h) ((doReservedCommandCode_unassigned code st s.dev).trans taken)⟩
  case held =>
    rintro s st h _ rfl present noReset unready room
    exact next_on (f := doDoorbell st h) (doDoorbell_held h present noReset unready room)
  case pointer =>
    rintro s st v _ rfl present reserved within
    exact next_on (f := doRspRdPtrWrite st v) (doRspRdPtrWrite_moves present reserved within)
  case reset =>
    rintro s st _ rfl present
    exact next_on (f := doMbxReset st) (if_pos present)
  case resetDone =>
    rintro s st _ rfl reset none
    exact next_on (f := doMbxResetDone st) (doMbxResetDone_ends reset none)
  case timeout =>
    rintro s st tag c limit _ rfl found ofStall ofTag noHandover deadline passed acts
    exact next_on (f := doMailboxTimeout st tag)
      (doMailboxTimeout_ends found ofStall ofTag noHandover deadline passed acts)

end Sys2Proof.Machine
end


/-! # Commands that only ask, and commands that fail a check (03 R93)

Either way the command is answered, and an answer other than RESOURCE changes the mailbox and host side alone. -/
section
namespace Sys2Proof.Machine
open Sys2Proof

/-! ## Queries -/

/-- A command whose checks never answer RESOURCE and whose own effect is an answer changes the mailbox side alone. -/
theorem Dev.checked_ok_mailbox {c : Cmd} {n : Nat} {checks : List (Bool × Nat)} {words : Dev → List W32} (d : Dev)
    (statuses : ∀ x ∈ checks, x.2 ≠ stResource) :
    MailboxOnly d (Dev.checked c n checks (fun d => d.ok c (words d)) d) :=
  Dev.checked_mailbox (Dev.respond_mailbox _ _ _ _ _) (MailboxOnly.refl d) (firstBad_ne_resource statuses)

theorem Dev.motChecks_ne_resource (d : Dev) (c : Cmd) : ∀ x ∈ d.motChecks c, x.2 ≠ stResource := by
  unfold Dev.motChecks
  split <;> simp [stParam, stState, stResource]

theorem doEcho_mailbox (st : Stall) (tag : BitVec 8) (d : Dev) : MailboxOnly d (doEcho st tag d) :=
  Dev.start_mailbox fun _ => Dev.checked_ok_mailbox d (by simp [stParam, stResource])

theorem doPlotQuery_mailbox (st : Stall) (tag : BitVec 8) (d : Dev) : MailboxOnly d (doPlotQuery st tag d) :=
  Dev.start_mailbox fun _ => Dev.checked_ok_mailbox d (by simp [stParam, stResource])

theorem doFieldQuery_mailbox (st : Stall) (tag : BitVec 8) (d : Dev) : MailboxOnly d (doFieldQuery st tag d) :=
  Dev.start_mailbox fun _ => Dev.checked_ok_mailbox d (by simp [stParam, stResource])

theorem doLawQuery_mailbox (st : Stall) (tag : BitVec 8) (d : Dev) : MailboxOnly d (doLawQuery st tag d) :=
  Dev.start_mailbox fun _ => Dev.checked_ok_mailbox d (by simp [stParam, stResource])

theorem doCoefRead_mailbox (st : Stall) (tag : BitVec 8) (d : Dev) : MailboxOnly d (doCoefRead st tag d) :=
  Dev.start_mailbox fun _ => Dev.checked_ok_mailbox d (by simp [stParam, stState, stResource])

theorem doPwmQuery_mailbox (st : Stall) (tag : BitVec 8) (d : Dev) : MailboxOnly d (doPwmQuery st tag d) :=
  Dev.start_mailbox fun _ => Dev.checked_ok_mailbox d (by simp [stParam, stState, stResource])

theorem doReadStatus_mailbox (st : Stall) (tag : BitVec 8) (d : Dev) : MailboxOnly d (doReadStatus st tag d) :=
  Dev.start_mailbox fun c => Dev.checked_ok_mailbox d (d.motChecks_ne_resource c)

theorem doFioStamp_mailbox (st : Stall) (tag : BitVec 8) (d : Dev) : MailboxOnly d (doFioStamp st tag d) :=
  Dev.start_mailbox fun _ => Dev.checked_ok_mailbox d (by simp [stParam, stResource])

theorem doFioQuery_mailbox (st : Stall) (tag : BitVec 8) (d : Dev) : MailboxOnly d (doFioQuery st tag d) := by
  refine Dev.start_mailbox fun c => Dev.checked_mailbox ?_ (MailboxOnly.refl d) (firstBad_ne_resource (by simp [stParam, stResource]))
  split <;> exact Dev.respond_mailbox _ _ _ _ _

theorem doLedgerRead_mailbox (st : Stall) (tag : BitVec 8) (d : Dev) : MailboxOnly d (doLedgerRead st tag d) :=
  Dev.start_mailbox fun _ => Dev.checked_ok_mailbox d (by simp [stParam, stResource])

/-- A row whose function changes the mailbox side alone leaves everything else. -/
theorem next_on_mailbox {f : Dev → Dev} {s t : State} (wr : s.dev.wr = []) (asks : MailboxOnly s.dev (f s.dev))
    (ran : (Host.Outcome.next (s.on f) : Host.Outcome State Fault Refusal) = .next t) :
    MailboxOnly s.dev t.dev ∧ t.dram = s.dram ∧ t.pending = s.pending := by
  injection ran with ran
  subst ran
  exact State.on_mailbox wr asks

/-- Settles O46: each query answers, or is answered for a failing check. -/
theorem queriesChangeOnlyTheMailbox : Obligations.QueriesChangeOnlyTheMailbox := by
  unfold Obligations.QueriesChangeOnlyTheMailbox
  intro s t st tag wr ran
  rcases ran with ran | ran | ran | ran | ran | ran | ran | ran | ran | ran
  · exact next_on_mailbox wr (doEcho_mailbox st tag s.dev) ran
  · exact next_on_mailbox wr (doPlotQuery_mailbox st tag s.dev) ran
  · exact next_on_mailbox wr (doFieldQuery_mailbox st tag s.dev) ran
  · exact next_on_mailbox wr (doLawQuery_mailbox st tag s.dev) ran
  · exact next_on_mailbox wr (doCoefRead_mailbox st tag s.dev) ran
  · exact next_on_mailbox wr (doPwmQuery_mailbox st tag s.dev) ran
  · exact next_on_mailbox wr (doReadStatus_mailbox st tag s.dev) ran
  · exact next_on_mailbox wr (doFioStamp_mailbox st tag s.dev) ran
  · exact next_on_mailbox wr (doFioQuery_mailbox st tag s.dev) ran
  · exact next_on_mailbox wr (doLedgerRead_mailbox st tag s.dev) ran

end Sys2Proof.Machine
end


/-! ## Failing checks -/
section
namespace Sys2Proof.Machine
open Sys2Proof

/-- A row whose function answers a command leaves that answer, and everything but the mailbox side as it was. -/
theorem next_answers {f : Dev → Dev} {s : State} {st : Stall} {tag : BitVec 8} {status n : Nat} (wr : s.dev.wr = [])
    (answers : f s.dev = s.dev.respondN st tag status n) :
    ∃ t, (Host.Outcome.next (s.on f) : Host.Outcome State Fault Refusal) = .next t ∧
      t = s.on (fun _ => s.dev.respondN st tag status n) ∧ MailboxOnly s.dev t.dev :=
  ⟨_, next_on answers, rfl, (State.on_mailbox wr (Dev.respond_mailbox _ _ _ _ _)).1⟩

/-- A command that runs and fails a check, none of which is RESOURCE, is answered with the first that fails. -/
theorem Dev.start_fails {d : Dev} {st : Stall} {tag : BitVec 8} {code n : Nat} {c : Cmd}
    {checks : Dev → Cmd → List (Bool × Nat)} {go : Cmd → Dev → Dev} (runs : d.runs st tag code c = true)
    (fails : ¬ Passes (checks d c)) (statuses : ∀ x ∈ checks d c, x.2 ≠ stResource) :
    Dev.start st tag code (fun c d => Dev.checked c n (checks d c) (go c) d) d =
      d.respondN c.stall c.tag (firstBad (checks d c)) n := by
  rw [Dev.start_runs _ runs]
  exact Dev.checked_answers _ d rfl fails (firstBad_ne_resource statuses)

/-- The checks of a motion command but GearConfig and StepConfig (R350). -/
theorem Dev.motChecks_of_code {c : Cmd} {k : Nat} (code : c.code.toNat = k) (h30 : k ≠ 0x530) (h50 : k ≠ 0x550) (d : Dev) :
    d.motChecks c = [(noWord c, stParam), (d.motState false c, stState), (d.motParam c, stParam)] := by
  have no30 : c.code ≠ 0x530 := fun e => h30 (code ▸ e ▸ rfl)
  have no50 : c.code ≠ 0x550 := fun e => h50 (code ▸ e ▸ rfl)
  rw [Dev.motChecks, if_neg (not_or.mpr ⟨no30, no50⟩)]

/-- A motion command that runs and fails a check is answered with the first that fails. -/
theorem doMotion_fails {d : Dev} {st : Stall} {tag : BitVec 8} {code status : Nat} {c : Cmd}
    (runs : d.runs st tag code c = true) (first : firstBad (d.motChecks c) = status) (error : status ≠ 0) :
    doMotion code st tag d = d.respondN c.stall c.tag status 1 := by
  subst first
  exact Dev.start_fails (checks := Dev.motChecks) runs error (d.motChecks_ne_resource c)

/-- A RepStore that is no restore fires nothing (R209). -/
theorem doRepStore_runs {d : Dev} {st : Stall} {tag : BitVec 8} {c : Cmd} (runs : d.runs st tag 0x252 c = true)
    (noRestore : storeOp c ≠ 1) :
    doRepStore st tag d = Dev.checked c 2 (d.storeChecks c) (fun d => d.await st tag .atFrame) d := by
  have full : d.restoreEmpty c = false := by simp [Dev.restoreEmpty, noRestore]
  unfold doRepStore
  rw [Dev.start_runs _ runs]
  simp only [full, Bool.false_eq_true, if_false]

/-- Settles O47: the first check that fails is the whole effect of each of the commands. -/
theorem failingChecksHaveNoEffect : Obligations.FailingChecksHaveNoEffect := by
  unfold Obligations.FailingChecksHaveNoEffect
  rintro s st tag c _ rfl wr
  refine ⟨fun runs fails => ?lawMode, fun runs fails noRestore keeps => ?repStore, fun runs resource noRestore => ?repStoreLost,
    fun runs fails => ?pwmConfig, fun runs fit bad => ?jog, fun runs word unfit => ?moveQueue,
    fun runs fails => ?faultRecover, fun runs fails => ?marginMeasure, fun runs fails => ?fwActivate⟩
  case lawMode =>
    exact next_answers (f := doLawMode st tag) wr
      (Dev.start_fails (checks := Dev.modeChecks) runs fails (by simp [Dev.modeChecks, stParam, stState, stResource]))
  case repStore =>
    exact next_answers (f := doRepStore st tag) wr
      ((doRepStore_runs runs noRestore).trans (Dev.checked_answers _ _ rfl fails keeps))
  case repStoreLost =>
    refine next_on (f := doRepStore st tag) ((doRepStore_runs runs noRestore).trans ?_)
    rw [Dev.checked_fail _ _ (by rw [Passes, resource]; decide), resource]
    rfl
  case pwmConfig =>
    obtain ⟨-, -, -, code⟩ := Dev.runs_found runs
    exact next_answers (f := doPwmConfig st tag) wr
      (Dev.start_fails (checks := Dev.pwmBad) runs fails (by simp [Dev.pwmBad, code, stParam, stState, stResource]))
  case jog =>
    obtain ⟨-, -, -, code⟩ := Dev.runs_found runs
    have first : firstBad (s.dev.motChecks c) = stParam := by
      rw [Dev.motChecks_of_code code (by decide) (by decide)]
      simp [firstBad, fit, bad]
    exact next_answers (f := doJog st tag) wr (doMotion_fails runs first (by decide))
  case moveQueue =>
    obtain ⟨-, -, -, code⟩ := Dev.runs_found runs
    have first : firstBad (s.dev.motChecks c) = stState := by
      rw [Dev.motChecks_of_code code (by decide) (by decide)]
      simp [firstBad, word, unfit]
    exact next_answers (f := doMoveQueue st tag) wr (doMotion_fails runs first (by decide))
  case faultRecover =>
    exact next_answers (f := doFaultRecover st tag) wr
      (Dev.start_fails (checks := Dev.recoverChecks) runs fails (by simp [Dev.recoverChecks, stParam, stState, stResource]))
  case marginMeasure =>
    exact next_answers (f := doMarginMeasure st tag) wr
      (Dev.start_fails (checks := Dev.measureChecks) runs fails (by simp [Dev.measureChecks, stParam, stState, stResource]))
  case fwActivate =>
    exact next_answers (f := doFwActivate st tag) wr
      (Dev.start_fails (checks := Dev.activateChecks) runs fails (by simp [Dev.activateChecks, stParam, stState, stResource]))

/-! ## SafetyAck without an armed SRESET (15 R609) -/

/-- SAFETY_LOCK is the first check of a SafetyAck. -/
theorem doSafetyAck_unarmed {d : Dev} {st : Stall} {tag : BitVec 8} {c : Cmd} (runs : d.runs st tag 0xA00 c = true)
    (locked : d.sf.lockout ≠ 0) (unarmed : d.sf.armed = false) :
    doSafetyAck st tag d = d.touch.respondN c.stall c.tag stSafetyLock 1 := by
  unfold doSafetyAck
  rw [Dev.start_runs _ runs]
  refine Dev.checked_answers _ d.touch (if_pos ?_) (by decide) (by decide)
  rw [bne_iff_ne.mpr locked, unarmed]
  rfl

/-- Settles O50: the answer is all that happens beyond the idle time of a commissioning. -/
theorem unarmedAckLeavesTheLockOut : Obligations.UnarmedAckLeavesTheLockOut := by
  unfold Obligations.UnarmedAckLeavesTheLockOut
  rintro s st tag c _ rfl runs locked unarmed
  refine ⟨_, next_on (f := doSafetyAck st tag) (doSafetyAck_unarmed runs locked unarmed), rfl, ?_⟩
  have kept := congrArg Safety.lockout (Dev.respond_mailbox c.stall c.tag stSafetyLock [] s.dev.touch).sf
  exact kept

end Sys2Proof.Machine
end


/-! # Switches of a leg (08 R274)

Everything but a turn-on that the interlock lets through leaves no switch on that was not on before; the interlock lets one
through only with the opposite gate off. A fault that an event fires turns switches off at most. -/
section
namespace Sys2Proof.Machine
open Sys2Proof

/-! ## Turning no switch on -/

/-- No switch of the leg is on in y that is not on in x. -/
def Leg.NoMoreOn (x y : Leg) : Prop := (y.hi.isOn = true → x.hi.isOn = true) ∧ (y.lo.isOn = true → x.lo.isOn = true)

/-- What neither a fault nor an event of a leg touches: the time, the supplies, the tick, the plots, the lanes, the programs
and the feedback sources. -/
def Dev.untouched (d : Dev) : Nat × Power × TickUnit × Vector (Vector W32 14) 16 × Vector Lane 18 × ProgStore × Feedback :=
  (d.clk, d.pw, d.tk, d.plots, d.lanes, d.progs, d.fb)

/-- No switch of any leg is on in e that is not on in d, and what a fault does not touch is as in d. -/
structure Dev.NoMoreOn (d e : Dev) : Prop where
  legs : ∀ k : LegNo, d.legs[k].NoMoreOn e.legs[k]
  kept : e.untouched = d.untouched

/-- One switch of a leg is off at least. -/
def Leg.OneOff (x : Leg) : Prop := ¬ (x.hi.isOn = true ∧ x.lo.isOn = true)

theorem Leg.NoMoreOn.oneOff {x y : Leg} (h : x.NoMoreOn y) (off : x.OneOff) : y.OneOff :=
  fun ⟨hi, lo⟩ => off ⟨h.1 hi, h.2 lo⟩

theorem Leg.NoMoreOn.refl (x : Leg) : x.NoMoreOn x := ⟨id, id⟩

theorem Dev.NoMoreOn.of_legs {d e : Dev} (same : e.legs = d.legs) (kept : e.untouched = d.untouched) : d.NoMoreOn e := by
  refine ⟨fun k => ?_, kept⟩
  rw [same]
  exact Leg.NoMoreOn.refl _

theorem Dev.NoMoreOn.of_mailbox {d e : Dev} (only : MailboxOnly d e) : d.NoMoreOn e := by
  have kept := congrArg Dev.untouched (show _ = d from only)
  exact .of_legs only.legs kept

theorem Dev.NoMoreOn.refl (d : Dev) : d.NoMoreOn d := .of_legs rfl rfl

theorem Dev.NoMoreOn.trans {a b c : Dev} (h : a.NoMoreOn b) (g : b.NoMoreOn c) : a.NoMoreOn c :=
  ⟨fun k => ⟨fun on => (h.legs k).1 ((g.legs k).1 on), fun on => (h.legs k).2 ((g.legs k).2 on)⟩, g.kept.trans h.kept⟩

theorem Dev.NoMoreOn.ite {c : Prop} [Decidable c] {d a b : Dev} (h : d.NoMoreOn a) (g : d.NoMoreOn b) :
    d.NoMoreOn (if c then a else b) := by
  split
  · exact h
  · exact g

/-- Steps that turn no switch on turn none on together. -/
theorem Dev.NoMoreOn.foldl {α : Type} {f : Dev → α → Dev} (step : ∀ (d : Dev) (a : α), d.NoMoreOn (f d a)) (as : List α) :
    ∀ d : Dev, d.NoMoreOn (as.foldl f d) := by
  induction as with
  | nil => exact Dev.NoMoreOn.refl
  | cons a as ih => exact fun d => (step d a).trans (ih _)

/-- A leg after a change of some leg. -/
theorem Dev.legs_modLeg (d : Dev) (l k : LegNo) (f : Leg → Leg) :
    (d.modLeg l f).legs[k] = if k = l then f d.legs[l] else d.legs[k] := vget_vmod _ _ _ _

/-- A change of a leg that turns none of its switches on. -/
theorem Dev.NoMoreOn.modLeg {l : LegNo} {f : Leg → Leg} (h : ∀ x : Leg, x.NoMoreOn (f x)) (d : Dev) :
    d.NoMoreOn (d.modLeg l f) := by
  refine ⟨fun k => ?_, rfl⟩
  rw [Dev.legs_modLeg]
  split
  next same => exact same ▸ h _
  next => exact Leg.NoMoreOn.refl _

theorem Dev.NoMoreOn.fb {d e : Dev} (h : d.NoMoreOn e) : e.fb = d.fb := congrArg (fun x => x.2.2.2.2.2.2) h.kept

/-! ## The changes of a leg -/

/-- A switch that turns off is not on. -/
theorem SwitchState.toOff_isOn (ext : Bool) (x : SwitchState) : (x.toOff ext).isOn = false := by
  cases x <;> cases ext <;> rfl

theorem SwitchState.next_isOn (x : SwitchState) : x.next.isOn = x.isOn := by cases x <;> rfl

/-- A switch that waits for its interlock is on only where it was. -/
theorem SwitchState.waiting_isOn (x : SwitchState) (on : (if x.isOn then x else .pending).isOn = true) : x.isOn = true := by
  split at on
  next isOn => exact isOn
  next => exact absurd on Bool.false_ne_true

theorem Leg.lowEnds_hi (t : Option Nat) (x : Leg) : (x.lowEnds t).hi = x.hi := by
  unfold Leg.lowEnds
  split <;> rfl

theorem Leg.allOff_noMoreOn (ext : Bool) (x : Leg) : x.NoMoreOn (x.allOff ext) := by
  unfold Leg.allOff Leg.NoMoreOn
  simp only [SwitchState.toOff_isOn, Bool.false_eq_true, false_implies, and_self]

theorem Leg.edge_noMoreOn (ext high : Bool) (t : Nat) (x : Leg) : x.NoMoreOn (x.edge ext high t) := by
  unfold Leg.edge
  split
  · exact ⟨SwitchState.waiting_isOn x.hi, fun on => absurd on (by simp [SwitchState.toOff_isOn])⟩
  · exact ⟨fun on => absurd on (by simp [SwitchState.toOff_isOn]), SwitchState.waiting_isOn x.lo⟩

theorem Leg.pulse_noMoreOn (ext : Bool) (t on : Nat) (x : Leg) : x.NoMoreOn (x.pulse ext t on) :=
  Leg.edge_noMoreOn ext false t x

/-! ## Bridges and faults -/

theorem Dev.bridgeOff_noMoreOn (a : AxisNo) (d : Dev) : d.NoMoreOn (d.bridgeOff a) := by
  unfold Dev.bridgeOff
  refine (Dev.NoMoreOn.foldl (fun e l => ?_) _ d).trans (.of_legs rfl rfl)
  refine Dev.NoMoreOn.modLeg (fun x => ?_) e
  exact Leg.allOff_noMoreOn (d.extDriver a) x

theorem Dev.endCharge_noMoreOn (mask : Nat) (d : Dev) : d.NoMoreOn (d.endCharge mask) := by
  refine Dev.NoMoreOn.foldl (fun e k => ?_) _ d
  split
  · exact Dev.bridgeOff_noMoreOn _ _
  · exact Dev.NoMoreOn.refl _

theorem Dev.modAxf_noMoreOn (a : AxisNo) (f : AxisFault → AxisFault) (d : Dev) : d.NoMoreOn (d.modAxf a f) := .of_legs rfl rfl
theorem Dev.modMot_noMoreOn (a : AxisNo) (f : Motion → Motion) (d : Dev) : d.NoMoreOn (d.modMot a f) := .of_legs rfl rfl
theorem Dev.modLoop_noMoreOn (a : AxisNo) (f : AxisLoop → AxisLoop) (d : Dev) : d.NoMoreOn (d.modLoop a f) := .of_legs rfl rfl
theorem Dev.modCtl_noMoreOn (a : AxisNo) (f : Ctl → Ctl) (d : Dev) : d.NoMoreOn (d.modCtl a f) := .of_legs rfl rfl

theorem Dev.respond_noMoreOn (st : Stall) (tag : BitVec 8) (status : Nat) (words : List W32) (d : Dev) :
    d.NoMoreOn (d.respond st tag status words) := .of_mailbox (Dev.respond_mailbox st tag status words d)

theorem Dev.abandon_noMoreOn (c : Cmd) (d : Dev) : d.NoMoreOn (d.abandon c) := by
  unfold Dev.abandon
  dsimp only
  split
  case h_5 =>
    split
    · exact Dev.endCharge_noMoreOn _ _
    · exact Dev.NoMoreOn.refl _
  all_goals exact .of_legs rfl rfl

theorem Dev.discard_noMoreOn (mask : Nat) (d : Dev) : d.NoMoreOn (d.discard mask) :=
  Dev.NoMoreOn.foldl (fun _ _ => (Dev.abandon_noMoreOn _ _).trans (Dev.respond_noMoreOn _ _ _ _ _)) _ d

theorem Dev.moveEnd_noMoreOn (a : AxisNo) (id : BitVec 16) (r : MoveResult) (d : Dev) : d.NoMoreOn (d.moveEnd a id r) := by
  unfold Dev.moveEnd
  exact (Dev.modMot_noMoreOn a _ d).trans (Dev.NoMoreOn.foldl (fun _ _ => Dev.respond_noMoreOn _ _ _ _ _) _ _)

theorem Dev.endMoves_noMoreOn (a : AxisNo) (rc rq : MoveResult) (d : Dev) : d.NoMoreOn (d.endMoves a rc rq) := by
  unfold Dev.endMoves
  dsimp only
  refine Dev.NoMoreOn.trans ?_ (Dev.modMot_noMoreOn a _ _)
  refine Dev.NoMoreOn.trans ?_ (Dev.NoMoreOn.foldl (fun _ _ => Dev.moveEnd_noMoreOn _ _ _ _) _ _)
  split
  · exact Dev.moveEnd_noMoreOn _ _ _ _
  · exact Dev.NoMoreOn.refl _

theorem Dev.abortBridgeOn_noMoreOn (a : AxisNo) (d : Dev) : d.NoMoreOn (d.abortBridgeOn a) := by
  refine Dev.NoMoreOn.foldl (fun e c => Dev.NoMoreOn.trans ?_ (Dev.respond_noMoreOn _ _ _ _ _)) _ d
  split
  · exact Dev.endCharge_noMoreOn _ _
  · exact Dev.NoMoreOn.refl _

/-- What a fault discards and ends on an axis. -/
theorem Dev.faultEnds_noMoreOn (a : AxisNo) (f : AxisLoop → AxisLoop) (d : Dev) :
    d.NoMoreOn (((d.discard (2 ^ a.val)).endMoves a .discarded .discarded).modLoop a f) :=
  (Dev.discard_noMoreOn _ d).trans ((Dev.endMoves_noMoreOn _ _ _ _).trans (Dev.modLoop_noMoreOn _ _ _))

/-- A bridge that a fault switches off, with its law's states cleared. -/
theorem Dev.faultOff_noMoreOn (a : AxisNo) (d : Dev) :
    d.NoMoreOn (((d.abortBridgeOn a).bridgeOff a).modCtl a Ctl.clearStates) :=
  (Dev.abortBridgeOn_noMoreOn a d).trans ((Dev.bridgeOff_noMoreOn a _).trans (Dev.modCtl_noMoreOn a _ _))

/-- The reaction of an axis to a fault turns no switch on (14 R523, R524). -/
theorem Dev.react_noMoreOn (src sev : Nat) (a : AxisNo) (d : Dev) : d.NoMoreOn (d.react src sev a) := by
  unfold Dev.react
  dsimp only
  split
  · exact Dev.modAxf_noMoreOn a _ d
  have noted (f g : AxisFault → AxisFault) : d.NoMoreOn ((d.modAxf a f).modAxf a g) :=
    (Dev.modAxf_noMoreOn a f d).trans (Dev.modAxf_noMoreOn a g _)
  split
  · refine Dev.NoMoreOn.trans ?_ (Dev.faultOff_noMoreOn a _)
    exact (noted _ _).trans (Dev.faultEnds_noMoreOn a _ _)
  · exact (noted _ _).trans (Dev.faultEnds_noMoreOn a _ _)

theorem Dev.setIrqAll_mailbox (k : Nat) (d : Dev) : MailboxOnly d (d.setIrqAll k) := by
  refine List.foldlRecOn (motive := fun e : Dev => MailboxOnly d e) allStalls _ (MailboxOnly.refl d) (fun e he st _ => ?_)
  split
  · exact he.trans (Dev.setIrq_mailbox st k e)
  · exact he

theorem Dev.ledger_noMoreOn (kind sev source axes : Nat) (w6 w7 : W32) (d : Dev) :
    d.NoMoreOn (d.ledger kind sev source axes w6 w7) := by
  unfold Dev.ledger Dev.ledgerPut
  dsimp only
  split <;> exact .of_legs rfl rfl

theorem Dev.recordFire_noMoreOn (src sev axes : Nat) (d : Dev) : d.NoMoreOn (d.recordFire src sev axes) := by
  have fresh : d.NoMoreOn (Dev.recordFire.fresh src sev axes d) :=
    (Dev.ledger_noMoreOn _ _ _ _ _ _ d).trans (.of_legs rfl rfl)
  unfold Dev.recordFire
  split
  · split
    · split <;> exact .of_legs rfl rfl
    · exact fresh
  · exact fresh

/-- The entry to device safe state changes no leg. -/
theorem Dev.safeState_noMoreOn (sev src : Nat) (d : Dev) :
    d.NoMoreOn (if sev ≥ 7 then (if sev ≥ 6 then d.failOff else d).enterSafe src else if sev ≥ 6 then d.failOff else d) := by
  have safe (e : Dev) : e.NoMoreOn (e.enterSafe src) := .of_legs rfl rfl
  have off : d.NoMoreOn (if sev ≥ 6 then d.failOff else d) := .ite (.of_legs rfl rfl) (.refl d)
  exact .ite (off.trans (safe _)) off

/-- A fault source that fires turns no switch on (14 R523 to R527). -/
theorem Dev.fire_noMoreOn (src : Nat) (sc : Scope) (d : Dev) : d.NoMoreOn (d.fire src sc) := by
  unfold Dev.fire
  dsimp only
  split
  · exact Dev.NoMoreOn.refl d
  split
  · exact .of_legs rfl rfl
  split
  · refine Dev.NoMoreOn.trans ?_ (Dev.recordFire_noMoreOn _ _ _ _)
    exact .of_legs rfl rfl
  have opened (e : Dev) (u : FaultUnit) : e.NoMoreOn (Dev.setIrqAll irqFault { e with ft := u }) := by
    refine Dev.NoMoreOn.trans ?_ (.of_mailbox (Dev.setIrqAll_mailbox _ _))
    exact .of_legs rfl rfl
  split
  · refine Dev.NoMoreOn.trans (Dev.NoMoreOn.trans ?_ (Dev.recordFire_noMoreOn _ _ _ _)) (opened _ _)
    exact .of_legs rfl rfl
  · refine Dev.NoMoreOn.trans ?_ (Dev.safeState_noMoreOn _ _ _)
    refine Dev.NoMoreOn.trans ?_ (Dev.NoMoreOn.foldl (fun _ _ => Dev.react_noMoreOn _ _ _ _) _ _)
    refine Dev.NoMoreOn.trans (Dev.NoMoreOn.trans ?_ (Dev.recordFire_noMoreOn _ _ _ _)) (opened _ _)
    exact .of_legs rfl rfl

/-! ## The events of a leg -/

theorem doCommandedEdge_noMoreOn (l : LegNo) (high : Bool) (n : Nat) (d : Dev) : d.NoMoreOn (doCommandedEdge l high n d) := by
  have same := Dev.NoMoreOn.refl d
  unfold doCommandedEdge
  split
  · exact same
  · refine .ite same (.ite (.modLeg (Leg.pulse_noMoreOn _ _ _) d) (.ite same (.modLeg (fun x => ?_) d)))
    exact Leg.edge_noMoreOn _ high _ x

/-- The end of a phase leaves a switch on or off as it was. -/
theorem Leg.phaseEnds_noMoreOn (high : Bool) (t : Nat) (x : Leg) :
    x.NoMoreOn (if x.sw high == .on2 then (x.setSw high (x.sw high).next).holds high t else x.setSw high (x.sw high).next) := by
  have hi : x.hi.next.isOn = true → x.hi.isOn = true := fun on => SwitchState.next_isOn x.hi ▸ on
  have lo : x.lo.next.isOn = true → x.lo.isOn = true := fun on => SwitchState.next_isOn x.lo ▸ on
  split <;> cases high
  · exact ⟨id, lo⟩
  · exact ⟨hi, id⟩
  · exact ⟨id, lo⟩
  · exact ⟨hi, id⟩

theorem Dev.warnPulse_noMoreOn (a : AxisNo) (l : LegNo) (t : Nat) (d : Dev) : d.NoMoreOn (d.warnPulse a l t) := by
  refine Dev.NoMoreOn.trans ?_ (Dev.fire_noMoreOn _ _ _)
  refine Dev.NoMoreOn.modLeg (fun x => ?_) d
  exact Leg.pulse_noMoreOn _ t 0 x

theorem doGatePhaseEnd_noMoreOn (l : LegNo) (high : Bool) (n : Nat) (d : Dev) : d.NoMoreOn (doGatePhaseEnd l high n d) := by
  unfold doGatePhaseEnd
  dsimp only
  have ended := Dev.NoMoreOn.modLeg (l := l) (Leg.phaseEnds_noMoreOn high (d.fine n)) d
  split
  · split
    · exact ended.trans (Dev.warnPulse_noMoreOn _ l _ _)
    · exact ended
  · exact ended

theorem doStoSwitchesOpen_noMoreOn (die : Fin 2) (d : Dev) : d.NoMoreOn (doStoSwitchesOpen die d) := by
  have off (x : Leg) : x.NoMoreOn { x.lowEnds none with hi := .off, lo := .off } :=
    ⟨fun on => absurd on Bool.false_ne_true, fun on => absurd on Bool.false_ne_true⟩
  unfold doStoSwitchesOpen
  split
  · exact Dev.NoMoreOn.refl d
  · refine Dev.NoMoreOn.trans ?_ (Dev.NoMoreOn.foldl (fun e _ => Dev.NoMoreOn.modLeg off e) _ _)
    exact .of_legs rfl rfl

/-- A leg whose one switch is off has one off after its other switch turns on, with the time of the turn-on noted. -/
theorem Leg.turnOn_oneOff {x y : Leg} {high : Bool} (off : x.sw (!high) = .off) (kept : y.sw (!high) = x.sw (!high)) :
    y.OneOff := by
  rw [off] at kept
  rintro ⟨hi, lo⟩
  cases high
  · exact absurd (kept ▸ hi : SwitchState.off.isOn = true) Bool.false_ne_true
  · exact absurd (kept ▸ lo : SwitchState.off.isOn = true) Bool.false_ne_true

theorem ite_sw {c : Prop} [Decidable c] {a b : Leg} {high : Bool} {x : SwitchState} (h : a.sw high = x) (g : b.sw high = x) :
    (if c then a else b).sw high = x := by
  split
  · exact h
  · exact g

theorem ite_legs_oneOff {c : Prop} [Decidable c] {d e : Dev} {k : LegNo} (h : d.legs[k].OneOff) (g : ¬ c → e.legs[k].OneOff) :
    (if c then d else e).legs[k].OneOff := by
  split
  · exact h
  next no => exact g no

theorem doInterlockTurnOn_oneOff (l : LegNo) (high : Bool) (n : Nat) (d : Dev) (k : LegNo) (off : d.legs[k].OneOff) :
    (doInterlockTurnOn l high n d).legs[k].OneOff := by
  unfold doInterlockTurnOn
  refine ite_legs_oneOff off (fun lets => ?_)
  simp only [Bool.or_eq_true, not_or, bne_iff_ne, ne_eq, Decidable.not_not] at lets
  obtain ⟨⟨⟨⟨-, opposite⟩, -⟩, -⟩, -⟩ := lets
  rw [Dev.legs_modLeg]
  split
  · refine Leg.turnOn_oneOff opposite ?_
    cases high
    · exact ite_sw rfl rfl
    · exact ite_sw rfl rfl
  · exact off

/-- Settles O51: but for a turn-on that the interlock lets through, which needs the opposite gate off, an event of a leg turns
no switch on. -/
theorem neverBothSwitchesOn : Obligations.NeverBothSwitchesOn := by
  intro s t k off ran
  have kept {f : Dev → Dev} (noMore : s.dev.NoMoreOn (f s.dev))
      (ran : (Host.Outcome.next (s.on f) : Host.Outcome State Fault Refusal) = .next t) : t.dev.legs[k].OneOff := by
    obtain rfl := Host.Outcome.next.inj ran
    exact (noMore.legs k).oneOff off
  rcases ran with ⟨l, high, n, ran⟩ | ⟨l, high, n, ran⟩ | ⟨l, high, n, ran⟩ | ⟨die, ran⟩
  · exact kept (doCommandedEdge_noMoreOn l high n s.dev) ran
  · obtain rfl := Host.Outcome.next.inj ran
    exact doInterlockTurnOn_oneOff l high _ s.dev k off
  · exact kept (doGatePhaseEnd_noMoreOn l high n s.dev) ran
  · exact kept (doStoSwitchesOpen_noMoreOn die s.dev) ran

end Sys2Proof.Machine
end


/-! # Host writes to DRAM (10 R371) and the mailbox's circular areas (03 R91, R94) -/
section
namespace Sys2Proof.Machine
open Sys2Proof

/-! ## Writes through BAR2 -/

theorem Dev.accessErr_mailbox (st : Stall) (d : Dev) : MailboxOnly d (d.accessErr st) := by
  unfold Dev.accessErr
  split
  · exact MailboxOnly.refl d
  · exact (Dev.modStall_mailbox _ _ _).trans (Dev.setIrq_mailbox _ _ _)

/-- A byte of DRAM after one write that ends at 8 GB at most. -/
theorem Memory.byte_dramApply_one {m : Memory} (wf : Memory.wf m = true) {addr : Nat} {bs : List Byte}
    (fits : addr + bs.length ≤ 2 ^ 33) (a : Nat) : Memory.byte (dramApply m [(addr, bs)]) a =
      if addr ≤ a ∧ a < addr + bs.length then bs.getD (a - addr) 0 else Memory.byte m a := by
  have all : bs.take (2 ^ 33 - addr) = bs := List.take_of_length_le (by omega)
  simp only [dramApply, all, Memory.byte]
  split
  next inside =>
    obtain ⟨le, lt⟩ := inside
    obtain ⟨i, rfl⟩ := Nat.exists_eq_add_of_le le
    have bound : i < bs.length := by omega
    rw [Mem.read_writes_inside bs m addr i wf bound, Nat.add_sub_cancel_left, List.getD_eq_getElem?_getD,
      List.getElem?_eq_getElem bound, Option.getD_some]
  next outside => exact Mem.read_writes_outside bs m addr a wf (by omega)

/-- Bytes inside the host-writable region are written whole, with no access error. -/
theorem Dev.dramStore_inside (st : Stall) {addr : Nat} {bs : List Byte} (lo : 0x40000000 ≤ addr)
    (hi : addr + bs.length ≤ 0x80000000) (d : Dev) : d.dramStore st addr bs = if bs = [] then d else d.put addr bs := by
  have least : max addr 0x40000000 = addr := by omega
  have most : min (addr + bs.length) 0x80000000 = addr + bs.length := by omega
  have none : ¬ (addr < 0x40000000 ∨ addr + bs.length > 0x80000000) := by omega
  unfold Dev.dramStore
  simp only [least, most, none, if_false, Nat.sub_self, List.drop_zero, Nat.add_sub_cancel_left, List.take_length,
    Nat.lt_add_right_iff_pos, List.length_pos_iff]
  by_cases empty : bs = [] <;> simp only [empty, ne_eq, not_true, not_false_eq_true, if_true, if_false]

/-- Bytes outside the host-writable region are not written. -/
theorem Dev.dramStore_outside_wr (st : Stall) {addr : Nat} {bs : List Byte}
    (out : addr + bs.length ≤ 0x40000000 ∨ 0x80000000 ≤ addr) (d : Dev) : (d.dramStore st addr bs).wr = d.wr := by
  have none : ¬ max addr 0x40000000 < min (addr + bs.length) 0x80000000 := by omega
  unfold Dev.dramStore
  simp only [none, if_false]
  split
  · exact (Dev.accessErr_mailbox st d).wr
  · rfl

/-- A host write through BAR2 that ends at 8 GB at most runs. -/
theorem exec_dramWrite_bar2 {s : State} {addr : Nat} {bs : List Byte} (present : s.dev.present 0 = true)
    (fits : addr + bs.length ≤ 2 ^ 33) :
    exec (.dramWrite 0 false addr bs) s = .next (s.on (fun d => d.dramStore 0 addr bs)) := by
  have dram : s.noDram 0 true addr bs.length = false := by
    simp only [State.noDram, decide_eq_false (Nat.not_lt.mpr fits), Bool.and_false]
  have whole : doDramWrite 0 false addr bs s.dev = s.dev.dramStore 0 addr bs := by
    simp only [doDramWrite, present, Bool.not_true, Bool.false_eq_true, if_false, if_true]
  exact (if_neg (by rw [Bool.not_false, dram]; exact Bool.false_ne_true)).trans (next_on whole)

/-- At 8 GB and above there is no DRAM. -/
theorem State.noDram_above {s : State} {addr n : Nat} (present : s.dev.present 0 = true) (above : 2 ^ 33 < addr + n) :
    s.noDram 0 true addr n = true := by
  simp only [State.noDram, present, decide_eq_true above, Bool.and_true, beq_self_eq_true]

/-- A host write that has its bytes in the region a host may write. -/
theorem dramWrite_inside {s : State} {addr : Nat} {bs : List Byte} (wf : Memory.wf s.dram = true) (wr : s.dev.wr = [])
    (lo : 0x40000000 ≤ addr) (hi : addr + bs.length ≤ 0x80000000) (a : Nat) :
    Memory.byte (s.on (fun d => d.dramStore 0 addr bs)).dram a =
      if addr ≤ a ∧ a < addr + bs.length then bs.getD (a - addr) 0 else Memory.byte s.dram a := by
  rw [State.on_dram, Dev.dramStore_inside 0 lo hi]
  split
  next empty =>
    subst empty
    rw [wr, dramApply_nil, if_neg (by simp only [List.length_nil]; omega)]
  next =>
    rw [show (s.dev.put addr bs).wr = [(addr, bs)] from congrArg (· ++ [(addr, bs)]) wr]
    exact Memory.byte_dramApply_one wf (by omega) a

/-- Settles O57: a host write runs below 8 GB, and puts into DRAM the bytes of the region that a host may write. -/
theorem hostWritesLandInDram : Obligations.HostWritesLandInDram := by
  intro s addr bs wf wr present
  refine ⟨fun lo hi => ?_, fun out => ?_, fun above => ?_, fun n e above => ?_⟩
  · exact ⟨_, exec_dramWrite_bar2 present (by omega), State.on_wf _ wf, dramWrite_inside wf wr lo hi⟩
  · refine ⟨_, exec_dramWrite_bar2 present (by omega), ?_⟩
    rw [State.on_dram, Dev.dramStore_outside_wr 0 (by omega), wr, dramApply_nil]
  · exact if_pos (State.noDram_above present above)
  · exact if_pos (State.noDram_above present above)

/-! ## Circular areas -/

/-- A block leaves the words of the area behind it as they were. -/
theorem areaWrite_behind (ws : List W32) :
    ∀ (m : Mem W32) (p q : Nat), Mem.wf 0 m = true → p + ws.length ≤ q → q < p + 1024 →
      Mem.read 0 (areaWrite m p ws) (q % 1024) = Mem.read 0 m (q % 1024) := by
  induction ws with
  | nil => intros; rfl
  | cons w ws ih =>
    intro m p q h behind near
    simp only [List.length_cons] at behind
    unfold areaWrite
    rw [ih _ _ _ (Mem.wf_write _ _ h) (by omega) (by omega), Mem.read_write_of_wf h, if_neg (by omega)]

/-- Settles O58: a block reads back, and what it does not cover stays. -/
theorem mailboxAreasReadBack : Obligations.MailboxAreasReadBack := fun m p ws wf len =>
  ⟨areaRead_areaWrite ws m p wf len, Mem.wf_areaWrite ws m p wf, fun q _ near behind => areaWrite_behind ws m p q wf behind near⟩

end Sys2Proof.Machine
end


/-! # Steps, supplies, resets and standby (01 R22 to R46) -/
section
namespace Sys2Proof.Machine
open Sys2Proof

/-- Settles O1: the step of a queue is the command at its front, by the two cases of the queue. -/
theorem stepRunsTheFrontCommand : Obligations.StepRunsTheFrontCommand := by
  refine ⟨fun s i rest front => ?_, fun s empty => ?_⟩
  · unfold step
    rw [front]
  · unfold step
    rw [empty]

/-! ## Supplies -/

theorem Dev.modPw_modPw (d : Dev) (f g : Power → Power) : (d.modPw f).modPw g = d.modPw (fun p => g (f p)) := rfl

/-- A supply source whose condition is new fires where the device is up (R46). -/
theorem Dev.supplyFire_of_new {d : Dev} {f : Power → Power} {new : Bool} (isNew : new = true) (up : d.up = true)
    (phase : (f d.pw).phase = d.pw.phase) (src : Nat) (sc : Scope) :
    (d.modPw f).supplyFire new src sc = Dev.fire src sc { d with pw := f d.pw } := by
  have still : (d.modPw f).up = true := by
    rw [← up, Dev.up, Dev.up, Dev.modPw, phase]
  rw [Dev.supplyFire, isNew, still]
  rfl

theorem Dev.supplyFire_of_old {d : Dev} (src : Nat) (sc : Scope) : d.supplyFire false src sc = d := rfl

/-- While the device runs, the fall of VDDR does not send it back. -/
theorem doSupplyFalling_vddr_running {d : Dev} (running : d.pw.phase = .running) (ok : d.pw.vddrOk = true) :
    doSupplyFalling .vddr d = Dev.fire 13 .device { d with pw := { d.pw with vddrOk := false } } := by
  have up : d.up = true := by simp only [Dev.up, running, beq_self_eq_true, Bool.or_true]
  have rises : ¬ d.pw.phase = .rising := by
    rw [running]
    decide
  rw [doSupplyFalling, Dev.supplyFire_of_new ok up (by rw [if_neg rises]), if_neg rises]

/-- A rail rises at power-up after those before it in the order of R26. -/
theorem doSupplyRecovered_rail {d : Dev} {r : Rail} (on : d.pw.railsUp = true)
    (before : ∀ q ∈ allRails, railOrder q < railOrder r → q ∈ d.pw.rails) (new : r ∉ d.pw.rails) :
    doSupplyRecovered (.rail r) d = { d with pw := { d.pw with rails := d.pw.rails ++ [r] } } := by
  have inOrder : allRails.all (fun q => decide (railOrder q ≥ railOrder r) || d.pw.rails.contains q) = true := by
    simp only [List.all_eq_true, Bool.or_eq_true, decide_eq_true_eq, List.contains_iff_mem]
    intro q rail
    by_cases later : railOrder q ≥ railOrder r
    · exact .inl later
    · exact .inr (before q rail (by omega))
  have absent : d.pw.rails.contains r = false := by simpa using new
  rw [doSupplyRecovered, if_pos on, Dev.modPw, Power.railUp, inOrder, absent]
  simp only [Bool.or_true, Bool.not_false, Bool.and_self, if_true]

/-- The MRAM writes in progress are completed, the record of a power loss among them (R29). -/
theorem doPowerLossRecord_due {d : Dev} {r : List W32} (due : d.pw.mramDue = true) (record : d.pw.lossRecord = some r) :
    doPowerLossRecord d = (d.ledgerPut r).modPw (fun p => { p with mramDue := false, lossRecord := none }.downDone) := by
  unfold doPowerLossRecord
  rw [due, record]
  rfl

/-- V24B gone: channel B and the gate supplies go off, and the fault fires where no event has told of it (R25, R46). -/
theorem doV24bLoss_eq (d : Dev) :
    doV24bLoss d =
      let d1 := { d with pw := { d.pw with v24bOk := false, vsafeUp := false } }
      let d2 := (d1.stoEdge 0 (d.stoActive 0)).stoEdge 1 (d.stoActive 1)
      let d3 := if d.sf.chB.started then d2.stopChannelB else d2
      if d.pw.v24bOk && d3.up then d3.fire 12 .device else d3 := rfl

/-- What the end of the power-down sequence leaves of the rails and of the gate supplies. -/
theorem Power.downDone_rails (p : Power) : p.downDone.railsUp = p.railsUp ∧ p.downDone.rails = p.rails ∧
    p.downDone.vgdaOk = p.vgdaOk ∧ p.downDone.vgdbOk = p.vgdbOk := by
  unfold Power.downDone
  split
  · exact ⟨rfl, rfl, rfl, rfl⟩
  split
  · exact ⟨rfl, rfl, rfl, rfl⟩
  · dsimp only
    split <;> exact ⟨rfl, rfl, rfl, rfl⟩

/-- No rail is left when each of them has gone down. -/
theorem Power.railsDown_rails (p : Power) : p.railsDown.rails = [] := by
  have gone (q : Rail) : q ∈ allRails := by cases q <;> decide
  have kept (down : List Rail) (p : Power) : (down.foldl Power.railDown p).rails = p.rails.filter (fun q => !down.contains q) := by
    induction down generalizing p with
    | nil => exact (List.filter_eq_self.mpr fun _ _ => rfl).symm
    | cons r down ih =>
      rw [List.foldl_cons, ih, Power.railDown, List.filter_filter]
      refine List.filter_congr (fun q _ => ?_)
      rw [List.contains_cons, Bool.not_or, Bool.and_comm, bne]
  rw [Power.railsDown, kept]
  refine List.filter_eq_nil_iff.mpr (fun q _ => ?_)
  simp [gone q]

theorem Power.railsDown_supplies (p : Power) :
    p.railsDown.railsUp = false ∧ p.railsDown.vgdaOk = false ∧ p.railsDown.vgdbOk = false := ⟨rfl, rfl, rfl⟩

/-- Settles O2, row by row. -/
theorem supplyEventsComplete : Obligations.SupplyEventsComplete := by
  refine ⟨?_, ?_, ?_, ?_, ?_, ?_, ?_, ?_, ?_, ?_, ?_, ?_, ?_, ?_, ?_, ?_, ?_⟩
  · rintro s _ rfl off vmain vddr porst
    exact next_on (f := doPowerUpStart) (if_pos (by simp [off, vmain, vddr, porst]))
  · rintro s _ rfl up new
    refine next_on (f := doSupplyFalling .vmainWarn) ?_
    rw [doSupplyFalling, Dev.supplyFire_of_new (congrArg not new) up rfl]
  · rintro s _ rfl up new
    refine next_on (f := doSupplyFalling .vmainOver) ?_
    rw [doSupplyFalling, Dev.supplyFire_of_new (congrArg not new) up rfl]
  · rintro s _ rfl up ok
    refine next_on (f := doSupplyFalling .v24a) ?_
    rw [doSupplyFalling, Dev.supplyFire_of_new ok up rfl]
  · rintro s _ rfl running ok
    exact next_on (f := doSupplyFalling .vddr) (doSupplyFalling_vddr_running running ok)
  · rintro s _ rfl up ok
    refine ⟨next_on (f := doSupplyFalling (.rail .vcore)) ?_, next_on (f := doSupplyFalling (.rail .vhk)) ?_⟩
    · rw [doSupplyFalling, Dev.modPw_modPw, Dev.supplyFire_of_new ok up rfl, if_neg (by decide)]
      rfl
    · rw [doSupplyFalling, Dev.modPw_modPw, Dev.supplyFire_of_new ok up rfl, if_pos rfl]
      rfl
  · rintro s r _ rfl on before new
    exact next_on (f := doSupplyRecovered (.rail r)) (doSupplyRecovered_rail on before new)
  · rintro s _ rfl
    exact ⟨rfl, rfl, rfl, rfl, rfl, rfl⟩
  · rintro s _ rfl up vmain ok
    refine next_on (f := doVbatCheck false) ?_
    rw [doVbatCheck, if_neg (by simp [vmain]), Dev.supplyFire_of_new (by rw [ok]; rfl) up rfl]
  · rintro s _ rfl vmain
    refine next_on (f := doVbatCheck true) ?_
    rw [doVbatCheck, vmain, Bool.not_true, Bool.and_false]
    rfl
  · rintro s _ rfl
    exact next_on (doV24bLoss_eq s.dev)
  · rintro s _ rfl vmain running
    refine next_on (f := doVmainUvlo) ?_
    conv =>
      lhs
      simp only [doVmainUvlo, vmain, running, Dev.up, beq_self_eq_true, Bool.or_true, Bool.true_or, if_true, Bool.not_true,
        Bool.false_eq_true, if_false]
    rfl
  · rintro s _ rfl down
    exact next_on (f := doBypassClose) (if_pos (beq_iff_eq.mpr down))
  · rintro s r _ rfl due record
    exact next_on (f := doPowerLossRecord) (doPowerLossRecord_due due record)
  · rintro s _ rfl due
    have after : doRailsOff s.dev = _ := if_neg (by simp [due])
    obtain ⟨up, rails, vgda, vgdb⟩ := Power.downDone_rails
      { s.dev.ringOff.stoAll.blank.pw with railsOffDue := false, pcie := .down }.railsDown
    obtain ⟨downUp, downA, downB⟩ := Power.railsDown_supplies
      { s.dev.ringOff.stoAll.blank.pw with railsOffDue := false, pcie := .down }
    refine ⟨{ s.on doRailsOff with dram := [] }, congrArg Host.Outcome.next (if_pos due), rfl, ?_⟩
    rw [State.on_dev, after]
    exact ⟨up.trans downUp, rails.trans (Power.railsDown_rails _), vgda.trans downA, vgdb.trans downB, rfl, rfl⟩
  · rintro s _ rfl vmain
    exact next_on (f := doVkaToVbat) (if_neg (by simp [vmain]))
  · rintro s _ rfl due
    exact next_on (f := doSafetyBShutdown) (if_neg (by simp [due]))

/-! ## Resets and standby -/

/-- A running device with a reset asked for, in the safe state that only a power cycle or PORST_N ends (14 R541). -/
def Dev.resetHeldBack : Dev :=
  { Dev.reset with pw := { Dev.reset.pw with phase := .running, devResetReq := true },
                   ft := { Dev.reset.ft with safeUntilPower := true } }

/-- Without a management pair the pulse of DeviceReset does not reset the device (14 R541). -/
theorem doDeviceResetPulse_heldBack : doDeviceResetPulse .resetHeldBack = .resetHeldBack := rfl

/-- Refutes O3: its row DEVICE_RESET_PULSE leaves out the safe state that only a power cycle or PORST_N ends, in which the
pulse does not reset the device. -/
theorem not_resetAndStandbyRowsComplete : ¬ Obligations.ResetAndStandbyRowsComplete := by
  rintro ⟨-, -, -, -, -, -, -, -, -, -, -, -, -, pulse, -⟩
  have reset := Host.Outcome.next.inj (pulse { State.reset with dev := .resetHeldBack } _ rfl rfl rfl)
  have phase := congrArg (fun t : State => t.dev.pw.phase) reset
  rw [State.on_dev, State.on_dev, doDeviceResetPulse_heldBack] at phase
  exact PowerPhase.noConfusion phase

end Sys2Proof.Machine
end


/-! # Ownership (03 R85 to R90, R106 to R111) -/
section
namespace Sys2Proof.Machine
open Sys2Proof

theorem applyCmd_irqRoute {c : Cmd} (code : c.code.toNat = 0x006) (m : Memory) (d : Dev) :
    applyCmd m c d = applyIrqRoute c d := by
  rw [applyCmd, code]
  rfl

/-! ## Claims and hand-overs as they are taken -/

/-- Nothing is amiss with a claim whose fields are in range, of the owner or while there is none, with no hand-over pending. -/
theorem Dev.claimStatus_ok {d : Dev} {c : Cmd} (len : badLen c 1 = false) (rsvd : rsv (wd c.payload 0) 0xFFFFC000 = false)
    (interval : badInterval (fld (wd c.payload 0) 13 0) = false) (free : d.hp.own.handover = none)
    (mine : d.hp.own.valid = false ∨ d.hp.own.stall = c.stall) : d.claimStatus c = 0 := by
  have own : (d.hp.own.valid && d.hp.own.stall != c.stall) = false := by
    rcases mine with none | mine
    · rw [none, Bool.false_and]
    · rw [mine, bne_self_eq_false, Bool.and_false]
  simp only [Dev.claimStatus, firstBad, len, rsvd, interval, free, own, Option.isSome_none, Bool.or_self, Bool.false_and,
    Bool.false_eq_true, if_false]

theorem Dev.isOwner_iff {d : Dev} {st : Stall} : d.isOwner st = true ↔ d.hp.own.valid = true ∧ d.hp.own.stall = st := by
  rw [Dev.isOwner, Bool.and_eq_true, beq_iff_eq]

/-- A claim that is taken renews the owner's interval, or is collected (R87). -/
theorem Dev.ownTaken_claim {d : Dev} {c : Cmd} (code : c.code.toNat = 0x001) (ok : d.claimStatus c = 0) :
    d.ownTaken c =
      if d.isOwner c.stall then d.modOwn (fun o =>
        { o with intervalMs := BitVec.ofNat 14 (fld (wd c.payload 0) 13 0), since := d.age, warned := false })
      else d.modOwn (fun o =>
        { o with claims := o.claims ++ [⟨c.stall, c.tag, BitVec.ofNat 14 (fld (wd c.payload 0) 13 0)⟩] }) := by
  unfold Dev.ownTaken
  rw [code]
  exact if_neg (not_not_intro ok)

/-- A release that is taken begins a change of owner (R88, R108). -/
theorem Dev.ownTaken_release {d : Dev} {c : Cmd} (free : d.hp.own.handover = none) (code : c.code = 0x002)
    (len : badLen c 0 = false) : d.ownTaken c = d.modOwn (fun o =>
      { o with handover := some ⟨true, 0, 0, c.tag, c.stall, d.age + d.msTicks 100⟩ }) := by
  have ok : d.handOverStatus c = 0 := by
    simp only [Dev.handOverStatus, code, free, len, firstBad, Option.isSome_none, Bool.false_eq_true, if_true, if_false]
  have begun : d.ownTaken c = d.beginHandOver c := by
    unfold Dev.ownTaken
    rw [code]
    exact if_neg (not_not_intro ok)
  rw [begun, Dev.beginHandOver, code]
  rfl

/-- A hand-over that is taken begins a change of owner (R88, R109). -/
theorem Dev.ownTaken_handOver {d : Dev} {c : Cmd} (free : d.hp.own.handover = none) (code : c.code = 0x003)
    (len : badLen c 1 = false) (rsvd : rsv (wd c.payload 0) 0xC000FFF8 = false)
    (interval : badInterval (fld (wd c.payload 0) 29 16) = false)
    (other : (Fin.ofNat 8 (fld (wd c.payload 0) 2 0) == c.stall) = false)
    (present : d.present (Fin.ofNat 8 (fld (wd c.payload 0) 2 0)) = true) : d.ownTaken c = d.modOwn (fun o =>
      { o with handover := some ⟨false, Fin.ofNat 8 (fld (wd c.payload 0) 2 0), BitVec.ofNat 14 (fld (wd c.payload 0) 29 16),
                                 c.tag, c.stall, d.age + d.msTicks 100⟩ }) := by
  have ok : d.handOverStatus c = 0 := by
    rw [Dev.handOverStatus, code, if_neg (by decide)]
    simp only [len, rsvd, interval, other, present, free, firstBad, Option.isSome_none, Bool.not_true, Bool.or_self,
      Bool.false_eq_true, if_false]
  have begun : d.ownTaken c = d.beginHandOver c := by
    unfold Dev.ownTaken
    rw [code]
    exact if_neg (not_not_intro ok)
  rw [begun, Dev.beginHandOver, code]
  rfl

/-! ## The change of owner -/

/-- Past its limit a hand-over ends with TIMEOUT (R88). -/
theorem doHandoverTimeout_late {d : Dev} {h : HandOver} (pending : d.hp.own.handover = some h) (late : h.deadline < d.age) :
    doHandoverTimeout d = d.endHandOver stTimeout := by
  unfold doHandoverTimeout
  rw [pending]
  exact if_pos late

/-- Within its limit a hand-over changes the owner once nothing of the old owner is pending (R88). -/
theorem Dev.changeOwner_done {d : Dev} {h : HandOver} (pending : d.hp.own.handover = some h) (timely : d.age ≤ h.deadline)
    (done : d.oldPending h = false) :
    d.changeOwner = (d.setOwner (if h.release then none else some h.target) h.intervalMs).endHandOver stOk := by
  unfold Dev.changeOwner
  rw [pending]
  exact (if_neg (by omega)).trans (if_neg (by simp [done]))

/-- Settles O5, row by row. -/
theorem ownershipRowsComplete : Obligations.OwnershipRowsComplete := by
  refine ⟨?_, ?_, ?_, ?_, ?_, ?_, ?_, ?_, ?_, ?_, ?_⟩
  · rintro s st tag c _ rfl runs passes
    exact next_runs runs (Dev.checked_pass _ _ passes)
  · rintro s st tag c _ rfl runs passes
    exact next_runs runs (Dev.checked_pass _ _ passes)
  · rintro s st tag c _ rfl runs
    exact next_runs runs rfl
  · rintro m d c code w passes
    rw [applyCmd_irqRoute code, applyIrqRoute]
    exact Dev.checked_pass _ d passes
  · intro d c code len rsvd interval free
    refine ⟨fun owner => ?_, fun noOwner => ?_⟩
    · have mine := (Dev.isOwner_iff.mp owner).2
      rw [Dev.ownTaken_claim code (Dev.claimStatus_ok len rsvd interval free (.inr mine)), if_pos owner]
    · have other : ¬ d.isOwner c.stall = true := by simp [Dev.isOwner, noOwner]
      rw [Dev.ownTaken_claim code (Dev.claimStatus_ok len rsvd interval free (.inl noOwner)), if_neg other]
  · exact fun d c free => ⟨Dev.ownTaken_release free, Dev.ownTaken_handOver free⟩
  · rintro s st tag c _ rfl accepted
    have taken : ¬ c.aux ≠ 0 := not_not_intro accepted
    refine ⟨fun runs renewed => ?_, fun runs collected => ?_, fun runs => ?_, fun runs => ?_⟩
    · exact next_runs runs ((if_neg taken).trans (if_neg (by rw [renewed]; exact Bool.false_ne_true)))
    · exact next_runs runs ((if_neg taken).trans (if_pos collected))
    · exact next_runs runs (if_neg taken)
    · exact next_runs runs (if_neg taken)
  · rintro s h _ rfl pending late
    exact next_on (doHandoverTimeout_late pending late)
  · exact fun d h => Dev.changeOwner_done
  · rintro s _ rfl valid warned half
    exact next_on (f := doHeartbeatWarn) (if_pos (by simp [valid, warned, half]))
  · rintro s _ rfl valid late
    exact next_on (f := doHeartbeatLapse) (if_pos (by simp [Dev.lapsed, valid, late]))

end Sys2Proof.Machine
end


/-! # Accesses of the masters (03 R69 to R84, R101 to R104) -/
section
namespace Sys2Proof.Machine
open Sys2Proof

/-- A host access through BAR2 that ends at 8 GB at most reaches DRAM that exists. -/
theorem State.noDram_below {s : State} {st : Stall} {bar2 : Bool} {addr n : Nat} (fits : addr + n ≤ 2 ^ 33) :
    s.noDram st bar2 addr n = false := by
  simp only [State.noDram, decide_eq_false (Nat.not_lt.mpr fits), Bool.and_false]

/-- A host read through BAR0 has nothing to do with the end of DRAM. -/
theorem exec_hostRead_bar0 (st : Stall) (addr n : Nat) (ecc : Bool) (s : State) :
    exec (.hostRead st false addr n ecc) s = .next (s.on (doHostRead st false addr n ecc s.dram)) := rfl

/-- A read of sound DRAM gives its bytes (10 R371). -/
theorem doHostRead_dram {d : Dev} {addr n : Nat} (present : d.present 0 = true) (sound : d.sownDram addr n = false)
    (fits : addr + n ≤ 2 ^ 33) (m : Memory) :
    doHostRead 0 true addr n false m d =
      d.answer (wordsOf (cdiv n 4) ((List.range n).map (fun i => Memory.byte m (addr + i)))) false := by
  have bytes : (List.range n).map (fun i => if addr + i < 2 ^ 33 then Memory.byte m (addr + i) else 0) =
      (List.range n).map (fun i => Memory.byte m (addr + i)) := by
    refine List.map_congr_left (fun i inside => if_pos ?_)
    have := List.mem_range.mp inside
    omega
  simp only [doHostRead, present, sound, bytes, if_true, Bool.true_or, Bool.true_and, Bool.not_true, Bool.false_and,
    bne_self_eq_false, Bool.or_self, Bool.false_eq_true, if_false]

/-- A read of BAR0 outside the DRAM window reads registers. -/
theorem doHostRead_registers {d : Dev} {st : Stall} {addr : Nat} (present : d.present st = true) (out : inDramWin addr = false)
    (n : Nat) (m : Memory) : doHostRead st false addr n false m d = d.regRead m st addr n := by
  simp only [doHostRead, present, out, Bool.or_self, Bool.false_and, Bool.not_true, Bool.false_eq_true, if_false]

/-- The link comes up where training may begin (01 R28). -/
theorem doPcieLinkChange_up {d : Dev} (trains : d.pw.pcie ≠ .down) (bm ms mx fm : Bool) :
    doPcieLinkChange true bm ms mx fm d = Dev.s0Changed (d.present 0) { d with
      pw := { d.pw with pcie := .up },
      hp := { d.hp with pcie := { d.hp.pcie with linkUp := true, busMaster := bm, memSpace := ms, msixEnable := mx, msixFuncMask := fm } } } := by
  have up : (d.pw.pcie == PcieLink.down) = false := beq_eq_false_iff_ne.mpr trains
  unfold doPcieLinkChange
  simp only [bne, up, Bool.true_and, Bool.not_false, Bool.false_eq_true, if_true, if_false]

/-- A write frame of the SPI host port whose words fit its count (R77 to R80). -/
theorem doSpiFrame_write {d : Dev} {header : W32} {mosi : List W32} (up : d.hp.sphUp = true) (write : bitOf header 31 = false)
    (fits : mosi.length ≤ fld header 30 24 + 1) (tail ready : Nat) (ecc : Bool) (m : Memory) :
    doSpiFrame header 32 mosi tail ready ecc m d =
      let e := d.writeBurst m 1 (4 * fld header 23 0) mosi
      { e with hp := { e.hp with spi :=
          ⟨BitVec.ofNat 8 mosi.length, false, d.breaks (fun x => x.writeBurst m 1 (4 * fld header 23 0) mosi),
           d.spiStatus :: List.replicate (mosi.length + (if tail = 0 then 0 else 1)) 0⟩ } } := by
  have whole : mosi.take (fld header 30 24 + 1) = mosi := List.take_of_length_le fits
  have zeros (n : Nat) : (([] : List W32) ++ List.replicate (n - ([] : List W32).length) 0).take n = List.replicate n 0 := by simp
  unfold doSpiFrame
  simp only [up, write, whole, zeros, Bool.not_true, Bool.false_or, Nat.lt_irrefl, decide_false, Bool.false_eq_true, if_false]

/-- A freeze lapses at the second frame boundary after the read that set it (R84). -/
theorem doWindowFreezeLapse_due {d : Dev} {st : Stall} {a : AxisNo} {f : Freeze} (frozen : d.hp.windows[a].freeze[st] = some f)
    (due : 2 ≤ f.frames) :
    doWindowFreezeLapse st a d = { d with hp := { d.hp with windows := vmod d.hp.windows a (fun w =>
      { w with freeze := vset w.freeze st (some { f with lapsed := true }) }) } } := by
  have late : (f.lapsed || decide (f.frames ≥ 2)) = true := by rw [decide_eq_true due, Bool.or_true]
  unfold doWindowFreezeLapse vmod
  simp only [frozen, Option.map_some, late]

/-- Settles O6, row by row. -/
theorem hostAccessRowsComplete : Obligations.HostAccessRowsComplete := by
  refine ⟨?_, ?_, ?_, ?_, ?_, ?_, ?_, ?_, ?_, ?_, ?_, ?_, ?_, ?_⟩
  · rintro s st off ws _ rfl present aligned
    refine next_on (f := doRegisterWrite st off ws 0xF s.dram) ((if_neg ?_).trans (if_neg ?_))
    · simp [present]
    · simp [aligned]
  · rintro s addr bs _ rfl present fits
    exact exec_dramWrite_bar2 present fits
  · rintro s addr n _ rfl present sound fits
    have below : ¬ s.noDram 0 true addr n = true := by simp [State.noDram_below fits]
    exact (if_neg below).trans (next_on (doHostRead_dram present sound fits s.dram))
  · rintro s st addr n _ rfl present out
    exact (exec_hostRead_bar0 st addr n false s).trans (next_on (doHostRead_registers present out n s.dram))
  · rintro s _ rfl present
    exact ⟨next_on (f := doPoisonedWriteTlp) (if_pos present), next_on (f := doUnsupportedRequest) (if_pos present)⟩
  · rintro s bm ms mx fm _ rfl trains
    exact next_on (doPcieLinkChange_up trains bm ms mx fm)
  · rintro s _ rfl
    rfl
  · rintro s _ rfl
    exact next_on (f := doDebugAccessSelect true) (if_neg (by simp))
  · rintro s header mosi tail ready ecc _ rfl up write fits
    exact next_on (doSpiFrame_write up write fits tail ready ecc s.dram)
  · rintro s st off _ rfl present
    exact ⟨next_on (f := doLowWordRead st off s.dram) (if_pos present), next_on (f := doHighWordRead st off s.dram) (if_pos present)⟩
  · rintro s st _ rfl present
    exact ⟨next_on (f := doNtNsRead st false s.dram) (if_pos present), next_on (f := doNtNsRead st true s.dram) (if_pos present)⟩
  · rintro s st a _ rfl present
    exact next_on (f := doWinSeqRead st a s.dram) (if_pos present)
  · rintro s st a f _ rfl frozen due
    exact next_on (doWindowFreezeLapse_due frozen due)
  · rintro s st v _ rfl present
    have here : ¬ (!s.dev.present st) = true := by simp [present]
    refine ⟨?_, fun other => ?_, fun s0 => ?_⟩
    · exact next_on (f := doInterruptRegisterWrite st .enable v) (if_neg here)
    · exact next_on (f := doInterruptRegisterWrite st .status v) ((if_neg here).trans (if_neg other))
    · exact next_on (f := doInterruptRegisterWrite st .status v) ((if_neg here).trans (if_pos s0))

end Sys2Proof.Machine
end


/-! # The tick (02 R47 to R68) -/
section
namespace Sys2Proof.Machine
open Sys2Proof

/-- The device as an evaluation of one lane clock finds it (14 R527). -/
def Dev.atOneClock (d : Dev) : Dev :=
  { d with ft := { d.ft with tie := some false }, loops := d.loops.map (fun l => { l with fresh := 0 }) }

theorem Dev.oneClock_congr {f g : Dev → Dev} {d : Dev} (same : f d.atOneClock = g d.atOneClock) : d.oneClock f = d.oneClock g :=
  congrArg (fun e : Dev => { e with ft := { e.ft with tie := none } }) same

/-- A boundary ends the present tick where no epoch has ended it, and the next begins. -/
theorem Dev.crossTick_of_not_ended {d : Dev} (running : d.tk.ended = false) (inp : TickInputs) (m : Memory) :
    d.crossTick inp m = ((d.endTick m).modTk (fun t => { t with ended := false })).beginTick m inp := by
  rw [Dev.crossTick, if_neg (by simp [running])]

theorem doTickBoundary_of_not_ended {d : Dev} (ticks : d.ticks = true) (running : d.tk.ended = false) (inp : TickInputs)
    (m : Memory) : doTickBoundary inp m d =
      d.oneClock (fun d => ((d.endTick m).modTk (fun t => { t with ended := false })).beginTick m inp) := by
  rw [doTickBoundary, if_neg (by simp [ticks])]
  have still : d.atOneClock.tk.ended = false := running
  exact Dev.oneClock_congr (Dev.crossTick_of_not_ended still inp m)

theorem doEventEntry_ready {d : Dev} {ln : LaneNo} (ready : d.lanes[ln].phase = .ready) :
    doEventEntry ln d = d.eventEntry ln := by
  unfold doEventEntry
  dsimp only
  rw [ready]

theorem doLaneOverrun_ready {d : Dev} {ln : LaneNo} (serves : d.lanes[ln].role = .inService)
    (ready : d.lanes[ln].phase = .ready) :
    doLaneOverrun ln d = Dev.laneFault ln 30 { d with tk := { d.tk with peaks := vmod d.tk.peaks d.lanes[ln].axis (fun p =>
      { p with overruns := BitVec.ofNat 8 (satU 8 (p.overruns.toNat + 1)) }) } } := by
  unfold doLaneOverrun
  dsimp only
  rw [serves, ready]
  rfl

/-- A TickSet that passes its checks and fits the budget is accepted (R66, R67). -/
theorem doTickSet_fits {d : Dev} {st : Stall} {tag : BitVec 8} {c : Cmd} (runs : d.runs st tag 0x210 c = true)
    (off : d.liveAxes = []) (good : d.tickSetBad c = false)
    (fits : overBudget (limitOf (fld (wd c.payload 0) 14 0)) (limitOf (fld (wd c.payload 0) 14 0)) d.costs = none) :
    doTickSet st tag d = d.acceptTickSet c := by
  have passes : Passes [(!d.liveAxes.isEmpty, stState), (d.tickSetBad c, stParam)] := by
    rw [passes_cons (by decide), passes_cons (by decide)]
    exact ⟨by rw [off]; rfl, good, passes_nil⟩
  rw [doTickSet, Dev.start_runs _ runs, Dev.checked_pass _ d passes]
  dsimp only
  rw [fits]

/-- Settles O7, row by row. -/
theorem tickRowsComplete : Obligations.TickRowsComplete := by
  refine ⟨?_, ?_, ?_, ?_, ?_, ?_, ?_, ?_, ?_, ?_⟩
  · rintro s inp _ rfl ticks running
    exact next_on (doTickBoundary_of_not_ended ticks running inp s.dram)
  · rintro s _ rfl acquire good
    exact next_on (f := doTickSyncLocked) (if_pos (by simp [acquire, good]))
  · rintro s _ rfl holdover late
    exact next_on (f := doTickHoldoverTimeout) (if_pos (by simp [holdover, late]))
  · rintro s _ rfl ticks last running
    exact next_on (f := doTicksetEpoch s.dram) (if_pos (by simp [ticks, last, running]))
  · rintro s ln _ rfl serves ready
    exact next_on (doLaneOverrun_ready serves ready)
  · rintro s ln cycles _ rfl ready serves sound
    refine next_on (f := doLaneCommit ln cycles) ((if_neg ?_).trans (if_neg ?_))
    · rw [ready, serves]
      decide
    · rw [sound]
      exact Bool.false_ne_true
  · rintro s _ rfl
    rfl
  · rintro s ln _ rfl ready
    exact next_on (doEventEntry_ready ready)
  · rintro s st tag c _ rfl l runs _ off good fits
    exact next_on (doTickSet_fits runs off good fits)
  · rintro s st tag c _ rfl w t l runs passes
    exact next_runs runs (Dev.checked_pass _ _ passes)

end Sys2Proof.Machine
end


/-! # Plots, laws and coefficients (04 R123 to R133, 05 R159 to R178) -/
section
namespace Sys2Proof.Machine
open Sys2Proof

/-! ## Plots -/

theorem applyCmd_plots {c : Cmd} (code : c.code.toNat = 0x101 ∨ c.code.toNat = 0x102 ∨ c.code.toNat = 0x103) (m : Memory) (d : Dev) :
    applyCmd m c d = applyPlots c d := by
  rcases code with code | code | code <;> (rw [applyCmd, code]; rfl)

/-- A plot that passes its checks and fits the budget is assigned or modified at its boundary (R126, R127). -/
theorem applyPlot_fits {c : Cmd} {d : Dev} {modify : Bool} (passes : Passes (d.plotChecks modify c))
    (fits : d.failsBudget [((axisOf c).val, d.costOfPlot (recWord c))] = none) :
    applyPlot modify c d =
      ((if modify then d.modify (axisOf c) (recWord c) else d.assign (axisOf c) (recWord c)).readmit).ok c [] := by
  rw [applyPlot, Dev.checked_pass _ d passes, fits]

/-- Settles O12, row by row. -/
theorem plotCommandsComplete : Obligations.PlotCommandsComplete := by
  refine ⟨?_, ?_, ?_, ?_, ?_, ?_, ?_, ?_⟩
  · rintro s st tag c _ rfl runs passes
    exact next_runs runs (Dev.checked_pass _ _ passes)
  · rintro s st tag c _ rfl runs passes
    exact next_runs runs (Dev.checked_pass _ _ passes)
  · rintro s st tag c _ rfl runs passes
    exact next_runs runs (Dev.checked_pass _ _ passes)
  · rintro s st tag c _ rfl runs passes
    exact next_runs runs (Dev.checked_pass _ _ passes)
  · rintro s st tag c _ rfl runs passes
    exact next_runs runs (Dev.checked_pass _ _ passes)
  · intro m d c code passes fits
    rw [applyCmd_plots (.inl code), applyPlots, code]
    exact applyPlot_fits passes fits
  · intro m d c code passes fits
    rw [applyCmd_plots (.inr (.inr code)), applyPlots, code]
    exact applyPlot_fits passes fits
  · intro m d c code passes
    rw [applyCmd_plots (.inr (.inl code)), applyPlots, code]
    show applyRelease c d = _
    rw [applyRelease]
    exact Dev.checked_pass _ d passes

/-! ## Programs -/

theorem applyCmd_lawLoad {c : Cmd} (code : c.code.toNat = 0x220) (m : Memory) (d : Dev) :
    applyCmd m c d = applyLawLoad c d := by
  rw [applyCmd, code]
  rfl

theorem applyCmd_lawCommit {c : Cmd} (code : c.code.toNat = 0x221) (m : Memory) (d : Dev) :
    applyCmd m c d = applyLawCommit c d := by
  rw [applyCmd, code]
  rfl

theorem applyCmd_lawDelete {c : Cmd} (code : c.code.toNat = 0x222) (m : Memory) (d : Dev) :
    applyCmd m c d = applyLawDelete c d := by
  rw [applyCmd, code]
  rfl

theorem applyCmd_coefWrite {c : Cmd} (code : c.code.toNat = 0x230) (m : Memory) (d : Dev) :
    applyCmd m c d = applyCoefWrite c d := by
  rw [applyCmd, code]
  rfl

theorem applyCmd_law {c : Cmd} (code : c.code.toNat = 0x224 ∨ c.code.toNat = 0x225) (m : Memory) (d : Dev) :
    applyCmd m c d = applyLaw c d := by
  rcases code with code | code <;> (rw [applyCmd, code]; rfl)

/-- A program that attaches within the budget and without a swap of the banks (R166, R174). -/
theorem applyLawAttach_fits {c : Cmd} {d : Dev} (passes : Passes (d.attachChecks c))
    (fits : d.failsBudget [((axisOf c).val, d.costOfPlot (fun k =>
      if k = 5 then d.attachWord (axisOf c) (fld (wd c.payload 0) 15 8) else d.plotW (axisOf c) k))] = none)
    (noSwap : bitOf (wd c.payload 0) 16 = false) :
    applyLawAttach c d = (Dev.readmit (Dev.modLoop (axisOf c) (fun l =>
        { l with slots := vset l.slots (if l.slot then 1 else 0) [], userFar := [], bypassed := false })
      { d with plots := vset d.plots (axisOf c) ((d.plots[axisOf c].set 0 (nextGen d.plots[axisOf c][0])).set 5
          (d.attachWord (axisOf c) (fld (wd c.payload 0) 15 8))) })).ok c [] := by
  rw [applyLawAttach, Dev.checked_pass _ d passes]
  dsimp only
  rw [fits, noSwap]
  rfl

/-- A program that passes its verification and finds a place is committed; the staging image is empty afterwards (R171). -/
theorem applyLawCommit_placed {c : Cmd} {d0 : Dev} {b ho f start : Nat}
    (passes : Passes [(noWord c, stParam), (!d0.stagedFor (progOf c) || d0.loaded (progOf c), stState),
      (badLen c 3 || rsv (wd c.payload 0) 0xFFFFFC00 || rsv (wd c.payload 1) 0xFFFFF000 || fld (wd c.payload 0) 9 8 == 3, stParam)])
    (verified : verifyImage ((d0.progs.staging.map (·.words)).getD []) (fld (wd c.payload 1) 11 0) (wd c.payload 2)
      (Fin.ofNat 3 (fld (wd c.payload 0) 9 8)) = .passes b ho f)
    (placed : ProgStore.place { d0.progs with staging := none } (fld (wd c.payload 1) 11 0) = some start) :
    let d := { d0 with progs := { d0.progs with staging := none } }
    let prog : Program := ⟨Fin.ofNat 3 (fld (wd c.payload 0) 9 8), start, fld (wd c.payload 1) 11 0, b, ho, f, wd c.payload 2,
      imageUpTo ((d0.progs.staging.map (·.words)).getD []) 0 (fld (wd c.payload 1) 11 0)⟩
    applyLawCommit c d0 = Dev.ok c [mkw [(satU 16 ho, 16, 16), (satU 16 b, 0, 16)], mkw [(f, 24, 7)]]
      { d with progs := { d.progs with progs := Mem.write none d.progs.progs (progOf c) (some prog) } } := by
  rw [applyLawCommit, Dev.checked_pass _ _ passes]
  dsimp only
  rw [verified, placed]

/-- Settles O13, row by row. -/
theorem lawCommandsComplete : Obligations.LawCommandsComplete := by
  refine ⟨?_, ?_, ?_, ?_, ?_, ?_, ?_, ?_, ?_, ?_, ?_, ?_, ?_, ?_, ?_, ?_⟩
  · rintro s st tag c _ rfl runs
    exact next_runs runs rfl
  · intro m d c code passes
    rw [applyCmd_lawLoad code]
    exact Dev.checked_pass _ d passes
  · rintro s st tag c _ rfl runs
    exact next_runs runs rfl
  · intro m d0 c b ho f start d w n len hook image code passes verified placed prog
    rw [applyCmd_lawCommit code]
    exact applyLawCommit_placed passes verified placed
  · rintro s st tag c _ rfl runs
    exact next_runs runs rfl
  · intro m d c code n passes
    rw [applyCmd_lawDelete code, applyLawDelete]
    exact Dev.checked_pass _ d passes
  · rintro s st tag c _ rfl n runs passes
    exact next_runs runs (Dev.checked_pass _ _ passes)
  · rintro s st tag c _ rfl a runs passes
    exact next_runs runs (Dev.checked_pass _ _ passes)
  · rintro s st tag c _ rfl runs passes
    exact next_runs runs (Dev.checked_pass _ _ passes)
  · rintro s st tag c _ rfl runs
    exact next_runs runs rfl
  · intro m d c code passes
    rw [applyCmd_coefWrite code]
    exact Dev.checked_pass _ d passes
  · rintro s st tag c _ rfl a hold runs passes
    exact next_runs runs (Dev.checked_pass _ _ passes)
  · rintro s st tag c _ rfl w w1 a k n runs passes
    exact next_runs runs (Dev.checked_pass _ _ passes)
  · rintro s a _ rfl copying
    exact next_on (f := doBankCopyDone a) (if_neg (by rw [copying]; decide))
  · intro m d c code
    rw [applyCmd_law (.inr code), applyLaw, code]
    rfl
  · intro m d c code passes a w5 fits noSwap
    rw [applyCmd_law (.inl code), applyLaw, code]
    exact applyLawAttach_fits passes fits noSwap

end Sys2Proof.Machine
end


/-! # Control laws (06 R183 to R224) -/
section
namespace Sys2Proof.Machine
open Sys2Proof

/-! ## The commands at their boundary -/

/-- The codes of the commands of the control laws. -/
def controlCodes : List Nat := [0x240, 0x241, 0x250, 0x251, 0x252, 0x260, 0x261]

theorem applyCmd_control {c : Cmd} {code : Nat} (is : c.code.toNat = code) (mem : code ∈ controlCodes) (m : Memory) (d : Dev) :
    applyCmd m c d = applyControl c d := by
  simp only [controlCodes, List.mem_cons, List.not_mem_nil, or_false] at mem
  rcases mem with rfl | rfl | rfl | rfl | rfl | rfl | rfl <;> (rw [applyCmd, is]; rfl)

/-- A RepStore that passes its checks finds no slot empty (R209). -/
theorem Dev.restoreEmpty_of_passes {d : Dev} {c : Cmd} (passes : Passes (d.storeChecks c)) : d.restoreEmpty c = false := by
  have none : firstBad (d.storeChecks c) = 0 := passes
  simp [Dev.restoreEmpty, none, stParam]

theorem doRepStore_passes {d : Dev} {st : Stall} {tag : BitVec 8} {c : Cmd} (runs : d.runs st tag 0x252 c = true)
    (passes : Passes (d.storeChecks c)) : doRepStore st tag d = d.await st tag .atFrame := by
  rw [doRepStore, Dev.start_runs _ runs, Dev.checked_pass _ d passes, Dev.restoreEmpty_of_passes passes]
  rfl

/-- An erase empties both copies of its slot (R222). -/
theorem applyRepStore_erase {d : Dev} {c : Cmd} (passes : Passes (d.storeChecks c)) (erase : storeOp c = 2) :
    applyRepStore c d = Dev.ok c [0] { d with slots := vset d.slots (slotOf c) (Vector.replicate 2 SlotCopy.empty) } := by
  unfold applyRepStore
  dsimp only
  rw [if_neg (by simp [erase]), if_neg (by simp [Dev.restoreEmpty_of_passes passes]), Dev.checked_pass _ d passes, erase]
  rfl

/-- Settles O14, row by row. -/
theorem controlCommandsComplete : Obligations.ControlCommandsComplete := by
  refine ⟨?_, ?_, ?_, ?_, ?_, ?_, ?_, ?_, ?_, ?_, ?_, ?_, ?_⟩
  · rintro s st tag c _ rfl runs passes
    exact next_runs runs (Dev.checked_pass _ _ passes)
  · rintro s st tag c _ rfl runs passes
    exact next_runs runs (Dev.checked_pass _ _ passes)
  · rintro s st tag c _ rfl runs passes
    exact next_runs runs (Dev.checked_pass _ _ passes)
  · rintro s st tag c _ rfl runs passes
    exact next_runs runs (Dev.checked_pass _ _ passes)
  · rintro s st tag c _ rfl runs passes
    exact next_runs runs (Dev.checked_pass _ _ passes)
  · rintro s st tag c _ rfl runs passes
    exact next_runs runs (Dev.checked_pass _ _ passes)
  · rintro s st tag c _ rfl runs passes
    exact next_on (doRepStore_passes runs passes)
  · intro m d c code passes
    rw [applyCmd_control code (by decide), applyControl, code]
    exact Dev.checked_pass _ d passes
  · intro m d c code passes mode
    rw [applyCmd_control code (by decide), applyControl, code]
    refine (Dev.checked_pass _ d passes).trans ?_
    rw [mode]
    rfl
  · intro m d c code passes freeze
    rw [applyCmd_control code (by decide), applyControl, code]
    refine (Dev.checked_pass _ d passes).trans ?_
    rw [freeze]
    rfl
  · intro m d c code passes erase
    rw [applyCmd_control code (by decide), applyControl, code]
    exact applyRepStore_erase passes erase
  · intro m d c code passes stop
    rw [applyCmd_control code (by decide), applyControl, code]
    refine (Dev.checked_pass _ d passes).trans ?_
    rw [stop]
    rfl
  · intro m d c code passes
    rw [applyCmd_control code (by decide), applyControl, code]
    exact Dev.checked_pass _ d passes

/-! ## The events -/

/-- A change of an axis's control that makes the same of what stands there. -/
theorem Dev.modCtl_congr {d : Dev} {a : AxisNo} {f g : Ctl → Ctl} (same : f d.ctl[a] = g d.ctl[a]) :
    d.modCtl a f = d.modCtl a g := by
  rw [Dev.modCtl, Dev.modCtl, vmod, vmod, same]

/-- An automatic save that is due starts (R209, R210). -/
theorem doRepAutoSave_due {d : Dev} {a : AxisNo} (law : d.lawOn a 5 = true) (bound : bitOf d.ctl[a].rep.conf[5] 22 = true)
    (period : fld d.ctl[a].rep.conf[5] 15 0 ≠ 0)
    (passed : d.passedMs d.ctl[a].rep.lastSave (1000 * fld d.ctl[a].rep.conf[5] 15 0) = true)
    (learns : d.ctl[a].rep.frozen = false) (idle : d.ctl[a].rep.storing = none) :
    doRepAutoSave a d = (d.modCtl a (fun c => { c with rep := { c.rep with lastSave := d.clk } })).startSave a
      (Fin.ofNat 64 (fld d.ctl[a].rep.conf[5] 21 16))
      (((bestCopy d.slots[(Fin.ofNat 64 (fld d.ctl[a].rep.conf[5] 21 16) : Fin 64)]).map (·.tableId)).getD
        (iW (Config.freeOf 23 [a.val, (Fin.ofNat 64 (fld d.ctl[a].rep.conf[5] 21 16) : Fin 64).val]))) none := by
  unfold doRepAutoSave
  refine (if_neg ?_).trans (if_neg ?_)
  · rw [law, bound, passed, beq_eq_false_iff_ne.mpr period]
    decide
  · rw [learns, idle]
    decide

/-- A save of its own ends: the copy with the lower count is written (R209). -/
theorem doRepSaveDone_own {d : Dev} {a : AxisNo} {slot : Nat} (storing : d.ctl[a].rep.storing = some (slot, none))
    (open_ : d.pw.mramShut = false) :
    let k : Fin 64 := Fin.ofNat 64 slot
    let v := d.slots[k]
    let n (i : Fin 2) : Nat := if v[i].valid then v[i].count else 0
    let i : Fin 2 := if n 1 < n 0 then 1 else 0
    doRepSaveDone a d = { d.modCtl a (fun c => { c with rep := { c.rep with storing := none } }) with
      slots := vset d.slots k (vset v i { d.ctl[a].rep.draft with count := max (n 0) (n 1) + 1 }) } := by
  unfold doRepSaveDone
  dsimp only
  rw [storing, open_]
  rfl

/-- An excitation whose duration has passed ends (R214). -/
theorem doExcitationEnd_passed {d : Dev} {a : AxisNo} {x : Excitation} (runs : d.ctl[a].excite = some x)
    (passed : d.passedMs x.startClk x.durMs = true) : doExcitationEnd a d = d.modCtl a (fun c => { c with excite := none }) := by
  refine Dev.modCtl_congr ?_
  rw [runs, Option.filter_some, passed]
  rfl

/-- A measurement that failed answers with its result and fires FS049 (R224). -/
theorem doIdentifyDone_failed {d : Dev} {a : AxisNo} {x : Identify} (runs : d.ctl[a].identify = some x) (ended : x.stage = 4)
    (failed : x.result ≠ 0) (q : BitVec 32) :
    doIdentifyDone a q d =
      ((d.modCtl a (fun c => { c with identify := none, presetV := some (d.loops[a].bankOf false) })).respond x.stall x.tag stOk
        [0, 0, 0, 0, 0, 0, 0, mkw [(x.result.toNat, 24, 8), (satU 16 ((d.clk - x.startClk) / clksPerMs), 0, 16)]]).fire 49
        (.axes [a]) := by
  unfold doIdentifyDone
  rw [runs]
  exact (if_neg (not_not_intro ended)).trans (if_pos failed)

/-- Settles O15, row by row. -/
theorem controlEventsComplete : Obligations.ControlEventsComplete := by
  refine ⟨?_, ?_, ?_, ?_, ?_, ?_, ?_, ?_⟩
  · rintro s a _ rfl r slot law bound period passed learns idle
    exact next_on (doRepAutoSave_due law bound period passed learns idle)
  · rintro s a slot _ rfl k v n i count storing open_
    exact next_on (doRepSaveDone_own storing open_)
  · rintro s a x _ rfl runs passed
    exact next_on (doExcitationEnd_passed runs passed)
  · rintro s a q x _ rfl tail runs ended failed
    exact next_on (doIdentifyDone_failed runs ended failed q)
  · rintro s a q x _ rfl uv shunt r ld lq scale den kp ki runs ended good
    refine next_on (f := doIdentifyDone a q) ?_
    unfold doIdentifyDone
    rw [runs]
    exact (if_neg (not_not_intro ended)).trans (if_neg (not_not_intro good))
  · rintro s a _ rfl due
    exact next_on (f := doVoltageLimitPersist a) (if_pos due)
  · rintro s a _ rfl due
    exact next_on (f := doOverspeed a) (if_pos due)
  · rintro s a k _ rfl due
    exact next_on (f := doPlausCountLimit a k) (if_pos due)

end Sys2Proof.Machine
end


/-! # Feedback sources, probes and emulation outputs (07 R225 to R266) -/
section
namespace Sys2Proof.Machine
open Sys2Proof

/-! ## The commands -/

theorem applyCmd_fbPosSet {c : Cmd} (code : c.code.toNat = 0x302) (m : Memory) (d : Dev) :
    applyCmd m c d = applyFbPosSet c d := by
  rw [applyCmd, code]
  rfl

theorem applyCmd_fbClear {c : Cmd} (code : c.code.toNat = 0x303) (m : Memory) (d : Dev) :
    applyCmd m c d = applyFbClear c d := by
  rw [applyCmd, code]
  rfl

theorem applyCmd_probeConfig {c : Cmd} (code : c.code.toNat = 0x310) (m : Memory) (d : Dev) :
    applyCmd m c d = applyProbeConfig c d := by
  rw [applyCmd, code]
  rfl

/-- Settles O16, row by row. -/
theorem feedbackCommandsComplete : Obligations.FeedbackCommandsComplete := by
  refine ⟨?_, ?_, ?_, ?_, ?_, ?_, ?_, ?_, ?_, ?_⟩
  · rintro s st tag c _ rfl runs passes
    exact next_runs runs (Dev.checked_pass _ _ passes)
  · rintro s st tag c _ rfl w f e runs passes
    exact next_runs runs (Dev.checked_pass _ _ passes)
  · rintro s st tag c _ rfl runs passes
    exact next_runs runs (Dev.checked_pass _ _ passes)
  · rintro s st tag c _ rfl runs passes
    exact next_runs runs (Dev.checked_pass _ _ passes)
  · rintro s st tag c _ rfl w runs passes
    exact next_runs runs (Dev.checked_pass _ _ passes)
  · rintro s st tag c _ rfl w p x ready n runs passes
    exact next_runs runs (Dev.checked_pass _ _ passes)
  · rintro s st tag c _ rfl p runs passes
    exact next_runs runs (Dev.checked_pass _ _ passes)
  · intro m d c code used off v shift
    rw [applyCmd_fbPosSet code]
    exact if_neg (by rw [off, beq_eq_false_iff_ne.mpr used]; decide)
  · exact fun m d c code => applyCmd_fbClear code m d
  · exact fun m d c code => applyCmd_probeConfig code m d

/-! ## The pins -/

theorem Dev.egEdge_accepts {d : Dev} {g : Fin 16} {held : Nat} (f : Dev → Dev) (accepts : d.fb.src[egSrc g].accepts held = true) :
    d.egEdge g held f = f d := if_pos accepts

theorem Dev.egEdge_rejects {d : Dev} {g : Fin 16} {held : Nat} (f : Dev → Dev) (rejects : d.fb.src[egSrc g].accepts held = false) :
    d.egEdge g held f = d := if_neg (by rw [rejects]; exact Bool.false_ne_true)

/-- A change of an excitation output that makes the same of what stands there. -/
theorem Dev.modExc_congr {d : Dev} {e : Fin 4} {f g : ExcOut → ExcOut} (same : f d.fb.exc[e] = g d.fb.exc[e]) :
    d.modExc e f = d.modExc e g := by
  rw [Dev.modExc, Dev.modExc, vmod, vmod, same]

/-- A change of the excitation that waits takes effect at a zero crossing (R261). -/
theorem doExcZeroCrossing_waits {d : Dev} {e : Fin 4} {f : BitVec 15} {a : BitVec 7} (waits : d.fb.exc[e].pending = some (f, a)) :
    doExcZeroCrossing e d = d.modExc e (fun x => { x with freq := f, ampl := a, pending := none }) := by
  refine Dev.modExc_congr ?_
  rw [waits]

/-- A single step of a quadrature pair counts (R232). -/
theorem doQuadratureEdge_step {d : Dev} {g : Fin 16} {a b : Bool} {k n : Nat} (accepts : d.fb.src[egSrc g].accepts k = true)
    (mode : d.fb.src[egSrc g].mode = 1)
    (step : (quadIndex a b + 4 - quadIndex d.fb.src[egSrc g].lineA d.fb.src[egSrc g].lineB) % 4 = 1 ∨
      (quadIndex a b + 4 - quadIndex d.fb.src[egSrc g].lineA d.fb.src[egSrc g].lineB) % 4 = 3) :
    doQuadratureEdge g a b k n d =
      ((d.modSrc (egSrc g) (fun x => { x with lineA := a, lineB := b })).modSrc (egSrc g) (FbSource.edge
        (if ((quadIndex a b + 4 - quadIndex d.fb.src[egSrc g].lineA d.fb.src[egSrc g].lineB) % 4 == 1) != d.fb.src[egSrc g].inv
          then 1 else -1) (d.clk + 2 * n))).probeFollow (egSrc g) (d.clk + 2 * n) := by
  rw [doQuadratureEdge, Dev.egEdge_accepts _ accepts]
  dsimp only
  rw [if_neg, if_neg]
  · omega
  · rw [mode]
    simp only [bne_self_eq_false, Bool.false_or, decide_eq_true_eq]
    omega

/-- A double step that cannot be inferred is an error (R233). -/
theorem doQuadratureEdge_double {d : Dev} {g : Fin 16} {a b : Bool} {k n : Nat} (accepts : d.fb.src[egSrc g].accepts k = true)
    (mode : d.fb.src[egSrc g].mode = 1)
    (step : (quadIndex a b + 4 - quadIndex d.fb.src[egSrc g].lineA d.fb.src[egSrc g].lineB) % 4 = 2)
    (lost : d.fb.src[egSrc g].doubleOk (d.clk + 2 * n) = false) :
    doQuadratureEdge g a b k n d =
      (((d.modSrc (egSrc g) (fun x => { x with lineA := a, lineB := b })).modSrc (egSrc g) FbSource.qfail).fbFire 50
        (egSrc g)).probeFollow (egSrc g) (d.clk + 2 * n) := by
  rw [doQuadratureEdge, Dev.egEdge_accepts _ accepts]
  dsimp only
  rw [step, mode, lost]
  rfl

/-- The first index of a source marks the count that the later ones are held against (R234). -/
theorem doIndexEdge_first {d : Dev} {g : Fin 16} {k n : Nat} (accepts : d.fb.src[egSrc g].accepts k = true)
    (mode : d.fb.src[egSrc g].mode = 1) (ungated : bitOf d.fb.src[egSrc g].conf[1] 24 = false)
    (first : d.fb.src[egSrc g].firstIdx = none) :
    doIndexEdge g k n d =
      (d.markIndex (egSrc g) (d.fb.src[egSrc g].ofCount d.fb.src[egSrc g].count + d.fb.src[egSrc g].offset)).modSrc (egSrc g)
        (fun x => { x with firstIdx := some x.count }) := by
  rw [doIndexEdge, Dev.egEdge_accepts _ accepts]
  dsimp only
  rw [if_neg (by rw [mode, ungated, Bool.false_and]; decide), first]

/-- A Hall code of no sector is an error (R240). -/
theorem doHallTransition_bad {d : Dev} {g : Fin 16} {code : Fin 8} {k n : Nat} (accepts : d.fb.src[egSrc g].accepts k = true)
    (mode : d.fb.src[egSrc g].mode = 2) (bad : 5 < d.fb.src[egSrc g].sectorOf code.val) :
    doHallTransition g code k n d =
      ((d.modSrc (egSrc g) (fun x =>
        { x with lineA := code.val.testBit 0, lineB := code.val.testBit 1, lineC := code.val.testBit 2 })).modSrc (egSrc g)
          (fun x => { x with hallErr := true, qerrCnt := inc8 x.qerrCnt })).fbFire 52 (egSrc g) := by
  rw [doHallTransition, Dev.egEdge_accepts _ accepts]
  dsimp only
  rw [if_neg (by rw [mode]; decide), if_pos bad]

/-- A Hall code one place on counts (R240). -/
theorem doHallTransition_next {d : Dev} {g : Fin 16} {code : Fin 8} {k n : Nat} (accepts : d.fb.src[egSrc g].accepts k = true)
    (mode : d.fb.src[egSrc g].mode = 2) (good : d.fb.src[egSrc g].sectorOf code.val ≤ 5) (known : d.fb.src[egSrc g].hallSector ≤ 5)
    (next : (d.fb.src[egSrc g].hallPlace (d.fb.src[egSrc g].sectorOf code.val) + 6 -
      d.fb.src[egSrc g].hallPlace d.fb.src[egSrc g].hallSector) % 6 = 1) :
    doHallTransition g code k n d =
      ((d.modSrc (egSrc g) (fun x =>
        { x with lineA := code.val.testBit 0, lineB := code.val.testBit 1, lineC := code.val.testBit 2 })).modSrc (egSrc g)
          (FbSource.edge 1 (d.clk + 2 * n))).modSrc (egSrc g) (fun y =>
            { y with hallSector := d.fb.src[egSrc g].sectorOf code.val }) := by
  rw [doHallTransition, Dev.egEdge_accepts _ accepts]
  dsimp only
  rw [if_neg (by rw [mode]; decide), if_neg (by omega), if_neg (by omega), next]
  rfl

/-- A tooth of a wheel without gap or reference tooth counts (R241). -/
theorem doToothEdge_plain {d : Dev} {g : Fin 16} {high : Bool} {k n : Nat} (accepts : d.fb.src[egSrc g].accepts k = true)
    (mode : d.fb.src[egSrc g].mode = 3) (plain : fld d.fb.src[egSrc g].conf[1] 13 12 = 0)
    (ref : d.fb.src[egSrc g].refNext = false) (unsynced : d.fb.src[egSrc g].sync ≠ .synced) :
    let x := d.fb.src[egSrc g]
    let up := (!bitOf x.conf[1] 14 || high) != x.inv
    doToothEdge g high k n d =
      ((d.modSrc (egSrc g) (FbSource.edge (if up then 1 else -1) (d.clk + 2 * n))).modSrc (egSrc g) (fun y =>
        { y with interval := if !x.edges.isEmpty && x.dirNeg == !up then d.clk + 2 * n - x.lastEdge else 0,
                 refNext := false })).probeFollow (egSrc g) (d.clk + 2 * n) := by
  rw [doToothEdge, Dev.egEdge_accepts _ accepts]
  dsimp only
  rw [if_neg (by rw [mode]; decide), if_neg (by rw [plain]; omega)]
  simp only [plain, ref, Nat.zero_ne_one, Nat.reduceEqDiff, or_self, decide_false, Bool.false_and, Bool.or_self,
    Bool.false_eq_true, if_false, Int.natCast_one, Int.mul_one]
  split
  next synced _ => exact absurd synced unsynced
  next => rfl

/-- A reference mark gives the position at it (R243). -/
theorem doRefMarkEdge_read {d : Dev} {g : Fin 16} {w : AnalogData} {k : Nat} {p : Int × Int}
    (accepts : d.fb.src[egSrc g].accepts k = true) (mode : d.fb.src[egSrc g].mode = 4)
    (mark : bitOf d.fb.src[egSrc g].conf[1] 21 = true) (read : (d.fb.src[egSrc g].read (some w)).pair = some p) :
    doRefMarkEdge g w k d = d.markIndex (egSrc g)
      (d.fb.src[egSrc g].ofPhase ((d.fb.src[egSrc g].read (some w)).src.phaseAt [(egSrc g).val, d.clk, 1] p) +
        d.fb.src[egSrc g].offset) := by
  rw [doRefMarkEdge, Dev.egEdge_accepts _ accepts]
  dsimp only
  rw [if_neg (by rw [mode, mark]; decide), read]

/-- Settles O17, row by row. -/
theorem feedbackPinsComplete : Obligations.FeedbackPinsComplete := by
  refine ⟨?_, ?_, ?_, ?_, ?_, ?_, ?_, ?_, ?_, ?_, ?_⟩
  · rintro s e f a _ rfl waits
    exact next_on (f := doExcZeroCrossing e) (doExcZeroCrossing_waits waits)
  · rintro s g a b k n _ rfl _ rfl d1 step accepts mode one
    exact next_on (doQuadratureEdge_step accepts mode one)
  · rintro s g a b k n _ rfl _ rfl d1 accepts mode double lost
    exact next_on (doQuadratureEdge_double accepts mode double lost)
  · rintro s g k n _ rfl _ rfl accepts mode ungated first
    exact next_on (doIndexEdge_first accepts mode ungated first)
  · rintro s g code k n _ rfl _ rfl d1 accepts mode
    refine ⟨fun bad => ?_, fun good known next => ?_⟩
    · exact next_on (doHallTransition_bad accepts mode bad)
    · exact next_on (doHallTransition_next accepts mode good known next)
  · rintro s g high k n _ rfl _ rfl up accepts mode plain ref unsynced
    exact next_on (doToothEdge_plain accepts mode plain ref unsynced)
  · rintro s g w k p _ rfl _ rfl r accepts mode mark read
    exact next_on (doRefMarkEdge_read accepts mode mark read)
  · rintro s i _ rfl _ rfl edge moves late
    exact next_on (f := doStandstill i) (if_pos (by rw [edge, moves, decide_eq_true late]; rfl))
  · rintro s g level k _ rfl accepts
    exact next_on (f := doEncoderAlarm g level k) (Dev.egEdge_accepts _ accepts)
  · rintro s g a b high code w k n _ rfl rejects
    exact ⟨next_on (f := doQuadratureEdge g a b k n) (Dev.egEdge_rejects _ rejects),
      next_on (f := doIndexEdge g k n) (Dev.egEdge_rejects _ rejects),
      next_on (f := doHallTransition g code k n) (Dev.egEdge_rejects _ rejects),
      next_on (f := doToothEdge g high k n) (Dev.egEdge_rejects _ rejects),
      next_on (f := doRefMarkEdge g w k) (Dev.egEdge_rejects _ rejects),
      next_on (f := doEncoderAlarm g high k) (Dev.egEdge_rejects _ rejects)⟩
  · rintro s e _ rfl on
    exact next_on (f := doExcOverload e) (if_neg (by rw [on]; decide))

/-! ## Serial encoders and probes -/

/-- A serial source is one of mode 8 or 9. -/
theorem FbSource.isSerial_of_ssi {x : FbSource} (mode : x.mode = 8) : x.isSerial = true := by
  rw [FbSource.isSerial, mode]
  rfl

/-- An exchange starts where none is open and no answer waits (R250). -/
theorem doSerialExchangeStart_idle {d : Dev} {p : Fin 16} (serial : d.fb.src[espSrc p].isSerial = true)
    (due : (bitOf d.fb.src[espSrc p].conf[2] 19 && (d.sampleAt d.fb.src[espSrc p]).2 % max 1 d.tk.conf.frameTicks.toNat != 0) = false)
    (taken : d.fb.src[espSrc p].reply = none) (idle : d.fb.src[espSrc p].exchange = false) :
    doSerialExchangeStart p d = (d.modSrc (espSrc p) (fun y =>
      { y with exchange := true, reply := none, exchClk := (d.sampleAt d.fb.src[espSrc p]).1 })).emit (.serial p.val) := by
  unfold doSerialExchangeStart
  dsimp only
  rw [if_neg (by rw [serial, due]; decide), taken, idle]
  rfl

/-- An SSI frame is judged and kept for the boundary (R247). -/
theorem doSerialResponse_ssi {d : Dev} {p : Fin 16} (b k e : Bool) (bits : Nat) (mode : d.fb.src[espSrc p].mode = 8)
    (open_ : d.fb.src[espSrc p].exchange = true) :
    doSerialResponse p (.ssi b k e bits) d = d.modSrc (espSrc p) (fun y =>
      { y with exchange := false, reply := some (d.fb.src[espSrc p].ssi b k e bits) }) := by
  unfold doSerialResponse
  dsimp only
  rw [if_neg (by rw [FbSource.isSerial_of_ssi mode, open_]; decide), if_pos mode]
  simp only [Bool.or_false]

theorem Dev.limitCheck_noMoreOn (a : AxisNo) (d : Dev) : d.NoMoreOn (d.limitCheck a) :=
  .ite (.refl d) (.ite ((Dev.modMot_noMoreOn a _ d).trans (Dev.fire_noMoreOn _ _ _)) (Dev.modMot_noMoreOn a _ d))

theorem Dev.homeEdge_noMoreOn (input : Nat) (level : Bool) (clk : Nat) (d : Dev) : d.NoMoreOn (d.homeEdge input level clk) :=
  .foldl (fun e a => .ite ((Dev.modMot_noMoreOn a _ e).trans (Dev.limitCheck_noMoreOn a _)) (.refl e)) _ d

/-- A change of a probe that makes the same of what stands there. -/
theorem Dev.modProbe_congr {d : Dev} {p : Fin 16} {f g : Probe → Probe} (same : f d.fb.probes[p] = g d.fb.probes[p]) :
    d.modProbe p f = d.modProbe p g := by
  rw [Dev.modProbe, Dev.modProbe, vmod, vmod, same]

theorem Dev.probes_modProbe (d : Dev) (p k : Fin 16) (f : Probe → Probe) :
    (d.modProbe p f).fb.probes[k] = if k = p then f d.fb.probes[p] else d.fb.probes[k] := vget_vmod _ _ _ _

/-- The capture units told of an edge of a probe. -/
def Dev.tellCapture (p : Fin 16) (rising : Bool) (stamp : NetTime) (d : Dev) : Dev :=
  { d with cap := { d.cap with units := d.cap.units.map (fun u =>
    if u.state == .waiting || u.state == .pre then { u with events := u.events ++ [.probe p rising stamp] } else u) } }

theorem Dev.tellCapture_fb (p : Fin 16) (rising : Bool) (stamp : NetTime) (d : Dev) : (d.tellCapture p rising stamp).fb = d.fb := rfl

/-- The device once an edge of a probe has gone to the axes and to the capture units (R253). -/
def Dev.probeSeen (p : Fin 16) (rising : Bool) (n : Nat) (d : Dev) : Dev :=
  ((d.modProbe p (fun x => { x with level := rising })).homeEdge (32 + p.val) rising (d.clk + 2 * n)).tellCapture p rising
    (d.ntAt (2 * n))

theorem Dev.probeSeen_src (p : Fin 16) (rising : Bool) (n : Nat) (d : Dev) :
    (d.probeSeen p rising n).fb.probes[p].src = d.fb.probes[p].src := by
  rw [Dev.probeSeen, Dev.tellCapture_fb, (Dev.homeEdge_noMoreOn _ _ _ _).fb, Dev.probes_modProbe, if_pos rfl]

/-- The position of a probe's latch source at an edge (R253). -/
def Dev.latchPos (d : Dev) (src : BitVec 6) : Int :=
  if src.toNat < 32 then d.fb.src[Fin.ofNat 32 src.toNat].ofCount d.fb.src[Fin.ofNat 32 src.toNat].count +
    d.fb.src[Fin.ofNat 32 src.toNat].offset else 0

/-- An edge that its probe keeps is entered, with room for it (R253, R254). -/
theorem doProbeEdge_room {d : Dev} {p : Fin 16} {rising : Bool} {k n : Nat}
    (passes : filtered d.fb.probes[p].filt.toNat k = true)
    (chosen : d.fb.probes[p].edge.getLsbD (if rising then 0 else 1) = true) (room : d.fb.probes[p].entries.length < 4) :
    doProbeEdge p rising k n d = (d.probeSeen p rising n).modProbe p (fun y => { y with entries := y.entries ++
      [⟨d.ntAt (2 * n), d.clk + 2 * n, rising, d.fb.probes[p].src, d.latchPos d.fb.probes[p].src, false, false, false⟩] }) := by
  have entered : doProbeEdge p rising k n d = (d.probeSeen p rising n).modProbe p (fun y => { y with entries := y.entries ++
      [⟨d.ntAt (2 * n), d.clk + 2 * n, rising, y.src, d.latchPos d.fb.probes[p].src, false, false, false⟩] }) := by
    refine (if_neg ?_).trans ((if_neg ?_).trans (if_neg ?_))
    · rw [passes]
      decide
    · rw [chosen]
      decide
    · omega
  refine entered.trans (Dev.modProbe_congr ?_)
  rw [Dev.probeSeen_src]

/-- An edge that its probe keeps is lost where four entries stand unread (R254). -/
theorem doProbeEdge_full {d : Dev} {p : Fin 16} {rising : Bool} {k n : Nat}
    (passes : filtered d.fb.probes[p].filt.toNat k = true)
    (chosen : d.fb.probes[p].edge.getLsbD (if rising then 0 else 1) = true) (full : 4 ≤ d.fb.probes[p].entries.length) :
    doProbeEdge p rising k n d = ((d.probeSeen p rising n).modProbe p (fun x => { x with ovf := true })).fire 59
      (.axes (if d.fb.probes[p].src.toNat < 32 then d.axesOfSrc d.fb.probes[p].src.toNat else [])) := by
  refine (if_neg ?_).trans ((if_neg ?_).trans (if_pos full))
  · rw [passes]
    decide
  · rw [chosen]
    decide

/-- Settles O18, row by row. -/
theorem serialAndProbeEventsComplete : Obligations.SerialAndProbeEventsComplete := by
  refine ⟨?_, ?_, ?_, ?_, ?_⟩
  · rintro s p _ rfl _ rfl serial due taken idle
    exact next_on (doSerialExchangeStart_idle serial due taken idle)
  · rintro s p b k e bits _ rfl _ rfl mode open_
    exact next_on (doSerialResponse_ssi b k e bits mode open_)
  · rintro s p _ rfl serial open_
    exact next_on (f := doSerialWaitExpiry p) (if_pos (by rw [serial, open_]; rfl))
  · rintro s p rising k n _ rfl _ rfl d0 d1 passes chosen
    refine ⟨fun room => ?_, fun full => ?_⟩
    · refine next_on (f := doProbeEdge p rising k n) ?_
      rw [doProbeEdge_room passes chosen room, Dev.probeSeen, Dev.tellCapture, Dev.latchPos]
    · refine next_on (f := doProbeEdge p rising k n) ?_
      rw [doProbeEdge_full passes chosen full, Dev.probeSeen, Dev.tellCapture]
  · intro s p
    rfl

end Sys2Proof.Machine
end


/-! # Bridges, legs and gate dies (08 R267 to R301) -/
section
namespace Sys2Proof.Machine
open Sys2Proof

/-! ## The commands -/

/-- The codes of the commands of the bridges that wait for a boundary. -/
def pwmCodes : List Nat := [0x400, 0x401, 0x402, 0x410, 0x411, 0x412]

theorem applyCmd_pwm {c : Cmd} {code : Nat} (is : c.code.toNat = code) (mem : code ∈ pwmCodes) (m : Memory) (d : Dev) :
    applyCmd m c d = applyPwm c d := by
  simp only [pwmCodes, List.mem_cons, List.not_mem_nil, or_false] at mem
  rcases mem with rfl | rfl | rfl | rfl | rfl | rfl <;> (rw [applyCmd, is]; rfl)

/-- Settles O19, row by row. -/
theorem bridgeCommandsComplete : Obligations.BridgeCommandsComplete := by
  refine ⟨?_, ?_, ?_, ?_, ?_, ?_, ?_, ?_, ?_, ?_, ?_⟩
  · rintro s st tag c _ rfl runs passes
    exact next_runs runs (Dev.checked_pass _ _ passes)
  · rintro s st tag c _ rfl runs passes
    exact next_runs runs (Dev.checked_pass _ _ passes)
  · rintro s st tag c _ rfl runs passes
    exact next_runs runs (Dev.checked_pass _ _ passes)
  · rintro s st tag c _ rfl runs passes
    exact next_runs runs (Dev.checked_pass _ _ passes)
  · rintro s st tag c _ rfl runs passes
    exact next_runs runs (Dev.checked_pass _ _ passes)
  · rintro s st tag c _ rfl a p runs passes
    exact next_runs runs (Dev.checked_pass _ _ passes)
  · rintro s st tag c _ rfl w runs len
    refine ⟨fun on => next_runs runs (if_pos on), fun off free some bridges => next_runs runs ?_⟩
    refine (if_neg (by rw [off]; decide)).trans (Dev.checked_pass _ _ ?_)
    have named : ((bitsOf 16 (fld w 15 0)).map ax).isEmpty = false := by simpa using some
    exact (passes_cons (by decide)).mpr ⟨by rw [len, free, named, bridges]; rfl, passes_nil⟩
  · intro m d c code passes
    rw [applyCmd_pwm code (by decide), applyPwm, code]
    exact Dev.checked_pass _ d passes
  · intro m d c code fit
    rw [applyCmd_pwm code (by decide), applyPwm, code]
    exact Dev.checked_pass _ d ((passes_cons (by decide)).mpr ⟨fit, passes_nil⟩)
  · intro m d c code fit
    rw [applyCmd_pwm code (by decide), applyPwm, code]
    exact Dev.checked_pass _ d ((passes_cons (by decide)).mpr ⟨fit, passes_nil⟩)
  · intro m d c code off
    rw [applyCmd_pwm code (by decide), applyPwm, code]
    exact if_neg (by rw [off]; decide)

/-! ## A leg's events -/

/-- A change of a leg that makes the same of what stands there. -/
theorem Dev.modLeg_congr {d : Dev} {l : LegNo} {f g : Leg → Leg} (same : f d.legs[l] = g d.legs[l]) :
    d.modLeg l f = d.modLeg l g := by
  rw [Dev.modLeg, Dev.modLeg, vmod, vmod, same]

/-- A leg that may turn on is not latched, and its die is not under STO. -/
theorem Dev.mayTurnOn_free {d : Dev} {a : AxisNo} {l : LegNo} (may : d.mayTurnOn a l = true) :
    d.legs[l].tripped = false ∧ d.stoActive (dieOf l) = false := by
  simp only [Dev.mayTurnOn, Bool.and_eq_true, Bool.not_eq_true'] at may
  obtain ⟨⟨⟨⟨⟨-, tripped⟩, -⟩, sto⟩, -⟩, -⟩ := may
  exact ⟨tripped, sto⟩

section
variable {d : Dev} {l : LegNo} {a : AxisNo} {n : Nat} (axis : d.legAxis l = some a)
include axis

/-- The edge to the high side (R268). -/
theorem doCommandedEdge_high (on : d.pwm[a].bridgeOn = true) (may : d.mayTurnOn a l = true)
    (free : d.legs[l].inPulse (d.fine n) = false) (side : d.legs[l].side ≠ .high) (high : d.highAt a l (d.fine n) = true)
    (oc : d.legs[l].ocLow = false) (instant : (d.edgeInstants a l).contains (d.fine n) = true) :
    doCommandedEdge l true n d = d.modLeg l (fun x => { x.edge (d.extDriver a) true (d.fine n) with
      refresh := if x.refresh == .running then .none else x.refresh, pulseEnd := none }) := by
  unfold doCommandedEdge
  rw [axis]
  dsimp only
  rw [if_neg (by rw [on, may, free]; decide), if_neg (by simp), if_neg]
  rw [high, oc, instant, if_pos rfl, beq_eq_false_iff_ne.mpr side]
  decide

/-- The edge to the low side, with no refresh scheduled (R268). -/
theorem doCommandedEdge_low (on : d.pwm[a].bridgeOn = true) (may : d.mayTurnOn a l = true)
    (free : d.legs[l].inPulse (d.fine n) = false) (side : d.legs[l].side ≠ .low) (low : d.highAt a l (d.fine n) = false)
    (none_ : d.legs[l].refresh = .none) (instant : (d.edgeInstants a l).contains (d.fine n) = true) :
    doCommandedEdge l false n d = d.modLeg l (fun x =>
      { x.edge (d.extDriver a) false (d.fine n) with refresh := .none, pulseEnd := none }) := by
  unfold doCommandedEdge
  rw [axis]
  dsimp only
  rw [if_neg (by rw [on, may, free]; decide), if_neg (by rw [none_]; exact Bool.false_ne_true), if_neg]
  · refine Dev.modLeg_congr ?_
    rw [none_]
    rfl
  · rw [low, instant, if_neg Bool.false_ne_true, beq_eq_false_iff_ne.mpr side]
    simp

/-- The start of a scheduled refresh pulse (R278). -/
theorem doCommandedEdge_refresh (on : d.pwm[a].bridgeOn = true) (may : d.mayTurnOn a l = true)
    (due : d.legs[l].refresh = .due) (side : d.legs[l].side = .high)
    (instant : d.fine n = d.pwm[a].start.getD 0 + d.pwm[a].len / 2 - refreshLen d.pwm[a].pwm / 2) :
    doCommandedEdge l false n d = d.modLeg l (Leg.pulse (d.extDriver a) (d.fine n) (refreshFine d.pwm[a].pwm[2])) := by
  unfold doCommandedEdge
  rw [axis]
  dsimp only
  have free : d.legs[l].inPulse (d.fine n) = false := by rw [Leg.inPulse, due]; rfl
  rw [if_neg (by rw [on, may, free]; decide), if_pos]
  rw [due, side, ← instant, beq_self_eq_true Side.high, beq_self_eq_true (d.fine n)]
  rfl

/-- The interlock lets the high side turn on (R274). -/
theorem doInterlockTurnOn_high (hi : d.legs[l].hi = .pending) (lo : d.legs[l].lo = .off) (free : d.stoActive (dieOf l) = false)
    (dead : d.legs[l].edgeAt + fld d.pwm[a].pwm[1] 11 0 ≤ d.fine n) (soon : d.fine n ≤ d.legs[l].edgeAt + 4096) :
    doInterlockTurnOn l true n d = d.modLeg l (fun x =>
      { x with hi := if d.legExt l then .on3 else .on1, dtHi := BitVec.ofNat 8 (satU 8 (fineNs (d.fine n - x.edgeAt))),
               hiHold := d.fine n, hiOn := d.fine n }) := by
  unfold doInterlockTurnOn
  rw [axis]
  dsimp only
  rw [if_neg]
  · rfl
  · rw [Leg.sw, Leg.sw, if_pos rfl, if_neg (by decide), hi, lo, free, decide_eq_false (by omega), decide_eq_false (by omega)]
    decide

/-- The interlock lets the low side turn on, from where a refresh pulse lasts its time (R274, R278). -/
theorem doInterlockTurnOn_low (lo : d.legs[l].lo = .pending) (hi : d.legs[l].hi = .off) (free : d.stoActive (dieOf l) = false)
    (open_ : d.legs[l].pulseEnd = none) (dead : d.legs[l].edgeAt + fld d.pwm[a].pwm[1] 11 0 ≤ d.fine n)
    (soon : d.fine n ≤ d.legs[l].edgeAt + 4096) :
    doInterlockTurnOn l false n d = d.modLeg l (fun x =>
      { x with lo := if d.legExt l then .on3 else .on1, dtLo := BitVec.ofNat 8 (satU 8 (fineNs (d.fine n - x.edgeAt))),
               loHold := d.fine n, loOn := d.fine n,
               pulseEnd := if x.refresh == .running then some (d.fine n + refreshFine d.pwm[a].pwm[2]) else x.pulseEnd }) := by
  unfold doInterlockTurnOn
  rw [axis]
  dsimp only
  rw [if_neg]
  · refine Dev.modLeg_congr ?_
    simp only [Leg.setSw, Leg.deadTime, Leg.holds, Bool.false_eq_true, if_false, Bool.not_false, Bool.true_and, open_,
      Option.isNone_none, Bool.and_true]
    split <;> rfl
  · rw [Leg.sw, Leg.sw, if_neg (by decide), if_pos (by decide), hi, lo, free, decide_eq_false (by omega),
      decide_eq_false (by omega)]
    decide

/-- A bootstrap warning with the high side on: its pulse begins now, or waits for the end of the edge sequence (R278). -/
theorem doBootstrapWarning_high {mv : BitVec 16} (own : d.extDriver a = false) (under : mv.toNat < bstWarnMv d.pwm[a].pwm[2])
    (on : d.pwm[a].bridgeOn = true) (may : d.mayTurnOn a l = true) (hi : d.legs[l].hi.isOn = true) (side : d.legs[l].side = .high) :
    doBootstrapWarning l mv n d =
      if d.legs[l].settled then ((d.modLeg l (fun x => { x with bstMv := mv })).modLeg l (fun x =>
        { x.pulse false (d.fine n) (refreshFine d.pwm[a].pwm[2]) with bstWarn := true })).fire 74 (.axes [a])
      else (d.modLeg l (fun x => { x with bstMv := mv })).modLeg l (fun x => { x with refresh := .wanted }) := by
  have leg : (d.modLeg l (fun x => { x with bstMv := mv })).legs[l] = { d.legs[l] with bstMv := mv } := by
    rw [Dev.legs_modLeg, if_pos rfl]
  have ext : (d.modLeg l (fun x => { x with bstMv := mv })).extDriver a = false := own
  unfold doBootstrapWarning
  rw [axis]
  dsimp only
  rw [if_neg (by rw [own, decide_eq_false (by omega)]; decide), Dev.bstSample, axis]
  dsimp only
  rw [if_neg (by rw [own]; decide), leg, if_neg (by rw [decide_eq_false (by omega), on, may, hi, side]; decide), Dev.warnPulse, ext]
  rfl

/-- A bootstrap UVLO of a leg that may turn on starts a refresh pulse (R278). -/
theorem doBootstrapUvlo_turnsOn (own : d.extDriver a = false) (on : d.pwm[a].bridgeOn = true) (may : d.mayTurnOn a l = true) :
    doBootstrapUvlo l n d = (d.modLeg l (fun x =>
      { x.pulse false (d.fine n) (refreshFine d.pwm[a].pwm[2]) with bstUv := true })).fire 75 (.axes [a]) := by
  obtain ⟨tripped, sto⟩ := Dev.mayTurnOn_free may
  unfold doBootstrapUvlo
  rw [axis]
  dsimp only
  rw [if_neg (by simp only [own, on, may, tripped, sto]; exact Bool.false_ne_true)]
  simp only [may, if_true]

/-- The output check of external mode fails (R289). -/
theorem doExtOutputCheck_fails {high : Bool} (ext : d.legExt l = true) (busy : d.bridgeBusy a = true)
    (latched : d.legs[l].tripped = false) (pends : d.legs[l].sw high ≠ .pending) :
    doExtOutputCheck l high false d = d.gateFail l := by
  unfold doExtOutputCheck
  rw [axis]
  dsimp only
  rw [if_neg]
  rw [ext, busy, latched, beq_eq_false_iff_ne.mpr pends]
  decide

end

/-- A turn-on that did not start in time is abandoned; no refresh pulse waits for it (R274). -/
theorem doInterlockTimeout_plain {d : Dev} {l : LegNo} {high : Bool} {n : Nat} (pends : d.legs[l].sw high = .pending)
    (late : d.legs[l].edgeAt + 4096 ≤ d.fine n) (plain : d.legs[l].refresh ≠ .running) :
    doInterlockTimeout l high n d = (d.modLeg l (fun x =>
      { x.setSw high .off with ilTimeout := true, refresh := x.refresh })).fire 73 (d.legScope l) := by
  unfold doInterlockTimeout
  dsimp only
  rw [if_neg (by rw [pends, decide_eq_false (by omega)]; decide)]
  refine congrArg (fun e : Dev => e.fire 73 (d.legScope l)) (Dev.modLeg_congr ?_)
  rw [beq_eq_false_iff_ne.mpr plain, Bool.and_false, Bool.false_and, if_neg Bool.false_ne_true]

/-- The end of a gate phase, with no refresh pulse that waited for it (R275). -/
theorem doGatePhaseEnd_plain {d : Dev} {l : LegNo} {high : Bool} {n : Nat} (plain : d.legs[l].refresh ≠ .wanted) :
    doGatePhaseEnd l high n d = d.modLeg l (fun x =>
      let y := x.setSw high (x.sw high).next
      if x.sw high == .on2 then y.holds high (d.fine n) else y) := by
  have kept (x : Leg) : (let y := x.setSw high (x.sw high).next
      if x.sw high == .on2 then y.holds high (d.fine n) else y).refresh = x.refresh := by
    cases high <;> (dsimp only; split <;> rfl)
  unfold doGatePhaseEnd
  dsimp only
  split
  next => rw [Dev.legs_modLeg, if_pos rfl, kept, beq_eq_false_iff_ne.mpr plain, Bool.false_and, Bool.false_and, if_neg Bool.false_ne_true]
  next => rfl

/-- Settles O20, row by row. -/
theorem legEventsComplete : Obligations.LegEventsComplete := by
  refine ⟨?_, ?_, ?_, ?_, ?_, ?_, ?_, ?_, ?_, ?_, ?_⟩
  · rintro s l a n _ rfl _ rfl axis on may free side high oc instant
    exact next_on (doCommandedEdge_high axis on may free side high oc instant)
  · rintro s l a n _ rfl _ rfl axis on may free side low none_ instant
    exact next_on (doCommandedEdge_low axis on may free side low none_ instant)
  · rintro s l a n _ rfl _ rfl _ rfl axis on may due side instant
    exact next_on (doCommandedEdge_refresh axis on may due side instant)
  · rintro s l a n _ rfl _ rfl axis hi lo free dead soon
    exact next_on (doInterlockTurnOn_high axis hi lo free dead soon)
  · rintro s l a n _ rfl _ rfl axis lo hi free open_ dead soon
    exact next_on (doInterlockTurnOn_low axis lo hi free open_ dead soon)
  · rintro s l high n _ rfl pends late plain
    exact next_on (doInterlockTimeout_plain pends late plain)
  · rintro s l high n _ rfl _ rfl plain
    exact next_on (doGatePhaseEnd_plain plain)
  · rintro s l high _ rfl own on
    exact next_on (f := doGateCheckFail l high) (if_neg (by rw [own, on]; decide))
  · rintro s l high a _ rfl ext axis busy latched pends
    exact next_on (doExtOutputCheck_fails axis ext busy latched pends)
  · rintro s l a mv n _ rfl _ rfl axis own under on may hi side d1
    exact next_on (doBootstrapWarning_high axis own under on may hi side)
  · rintro s l a n _ rfl axis own on may
    exact next_on (doBootstrapUvlo_turnsOn axis own on may)

/-! ## Torque-off -/

/-- A leg whose low side is on. -/
def Leg.lowOn : Leg := { Dev.reset.legs[(0 : LegNo)] with lo := .on3 }

/-- A device with an STO line of GS-A active while the low side of leg 0 is on. -/
def Dev.lowOnUnderSto : Dev :=
  (Dev.reset.modLeg 0 (fun _ => .lowOn)).modGate 0 (fun g => { g with lineA := true })

/-- The opening of the STO switches ends the low side's time (10 R373). -/
theorem doStoSwitchesOpen_lowOn : (doStoSwitchesOpen 0 .lowOnUnderSto).legs[(0 : LegNo)].lows = [(0, none)] := by
  rfl

/-- Refutes O21: its row STO_SWITCHES_OPEN leaves out that the low side's time in the tick ends, which the model
records (10 R373). -/
theorem not_bridgeEventsComplete : ¬ Obligations.BridgeEventsComplete := by
  rintro ⟨-, -, -, -, -, -, -, sto, -⟩
  have opened := Host.Outcome.next.inj (sto { State.reset with dev := .lowOnUnderSto } 0 _ rfl rfl)
  have lows := congrArg (fun t : State => t.dev.legs[(0 : LegNo)].lows) opened
  rw [State.on_dev, State.on_dev] at lows
  exact absurd (doStoSwitchesOpen_lowOn.symm.trans lows) (by decide)

end Sys2Proof.Machine
end


/-! # Motion commands and the boundary they wait for (09 R350 to R370, 03 R95) -/
section
namespace Sys2Proof.Machine
open Sys2Proof

/-! ## Taking a motion command -/

/-- The codes of the motion commands that wait for a frame boundary. -/
def motionCodes : List Nat :=
  [0x500, 0x501, 0x502, 0x503, 0x504, 0x510, 0x511, 0x520, 0x521, 0x530, 0x531, 0x532, 0x533, 0x534, 0x540, 0x541, 0x542, 0x550,
   0x551]

/-- A motion command without words breaks a range. -/
theorem Dev.motParam_noWord {d : Dev} {c : Cmd} {code : Nat} (is : c.code.toNat = code) (mem : code ∈ motionCodes)
    (empty : c.payload = []) : d.motParam c = true := by
  have none_ (k : Nat) : badLen c (k + 1) = true := by rw [badLen, empty]; exact bne_iff_ne.mpr (Nat.succ_ne_zero k).symm
  simp only [motionCodes, List.mem_cons, List.not_mem_nil, or_false] at mem
  rcases mem with rfl | rfl | rfl | rfl | rfl | rfl | rfl | rfl | rfl | rfl | rfl | rfl | rfl | rfl | rfl | rfl | rfl | rfl | rfl <;>
    rw [Dev.motParam, is] <;>
    simp [none_, empty, Dev.badHome, Dev.badGear, badStep, Nat.add_comm 1, Nat.add_comm 2]

theorem Dev.motChecks_pass {d : Dev} {c : Cmd} {code : Nat} (is : c.code.toNat = code) (mem : code ∈ motionCodes)
    (param : d.motParam c = false) (state : d.motState false c = false) : Passes (d.motChecks c) := by
  have word : noWord c = false := by
    refine Bool.eq_false_iff.mpr (fun empty => ?_)
    rw [Dev.motParam_noWord is mem (List.isEmpty_iff.mp empty)] at param
    exact Bool.noConfusion param
  rw [Dev.motChecks, word, param, state]
  split <;> rfl

/-- A motion command that passes its checks waits for its frame boundary. -/
theorem motion_waits {s : State} {st : Stall} {tag : BitVec 8} {code : Nat} {c : Cmd} (mem : code ∈ motionCodes)
    (param : s.dev.motParam c = false) (state : s.dev.motState false c = false) (runs : s.dev.runs st tag code c = true) :
    (Host.Outcome.next (s.on (doMotion code st tag)) : Host.Outcome State Fault Refusal) =
      .next (s.on (fun _ => s.dev.await st tag .atFrame)) := by
  obtain ⟨-, -, -, is⟩ := Dev.runs_found runs
  exact next_runs runs (Dev.checked_pass _ _ (Dev.motChecks_pass is mem param state))

/-! ## The effect at the boundary -/

/-- What a motion command of a code does at its frame boundary. -/
def motionEffect (code : Nat) (c : Cmd) : Dev → Dev :=
  match code with
  | 0x500 => applySetTarget c
  | 0x501 => applySetOverride c
  | 0x502 => applySetGearRatio c
  | 0x503 => applyJog c
  | 0x504 => applyStop c
  | 0x510 => applyProfileLimits c
  | 0x511 => applyMoveQueue c
  | 0x520 => applyHomeConfig c
  | 0x521 => applyHomeStart c
  | 0x530 => applyGearConfig c
  | 0x531 => applyGearEngage c
  | 0x532 => applyCamLoad c
  | 0x533 => applyCamSelect c
  | 0x534 => applyMasterPublish c
  | 0x540 => applyPathGroup c
  | 0x541 => applyPathAppend c
  | 0x542 => applyPathControl c
  | 0x550 => applyStepConfig c
  | _ => applyStandstillConfig c

theorem applyCmd_motion {c : Cmd} {code : Nat} (is : c.code.toNat = code) (mem : code ∈ motionCodes) (m : Memory) {d : Dev}
    (may : d.motState true c = false) : applyCmd m c d = motionEffect code c d := by
  have motion : applyMotion c d = motionEffect code c d := by
    rw [applyMotion, if_neg (by rw [may]; exact Bool.false_ne_true), is]
    simp only [motionCodes, List.mem_cons, List.not_mem_nil, or_false] at mem
    rcases mem with rfl | rfl | rfl | rfl | rfl | rfl | rfl | rfl | rfl | rfl | rfl | rfl | rfl | rfl | rfl | rfl | rfl | rfl | rfl <;>
      rfl
  rw [← motion]
  simp only [motionCodes, List.mem_cons, List.not_mem_nil, or_false] at mem
  rcases mem with rfl | rfl | rfl | rfl | rfl | rfl | rfl | rfl | rfl | rfl | rfl | rfl | rfl | rfl | rfl | rfl | rfl | rfl | rfl <;>
    (rw [applyCmd, is]; rfl)

/-- The row of a motion command: it waits for its frame boundary, and there it has the effect of its code. -/
theorem motion_row {s : State} {st : Stall} {tag : BitVec 8} {code : Nat} {c : Cmd} (mem : code ∈ motionCodes)
    (param : s.dev.motParam c = false) (state : s.dev.motState false c = false) (runs : s.dev.runs st tag code c = true) :
    (Host.Outcome.next (s.on (doMotion code st tag)) : Host.Outcome State Fault Refusal) =
      .next (s.on (fun _ => s.dev.await st tag .atFrame)) ∧
    ∀ (dram : Memory) (y : Dev), y.motState true c = false → applyCmd dram c y = motionEffect code c y := by
  obtain ⟨-, -, -, is⟩ := Dev.runs_found runs
  exact ⟨motion_waits mem param state runs, fun dram y may => applyCmd_motion is mem dram may⟩

/-- Settles O22, row by row. -/
theorem motionExpressComplete : Obligations.MotionExpressComplete := by
  refine ⟨?_, ?_, ?_, ?_, ?_, ?_⟩
  · rintro s st tag c _ rfl param state runs
    exact motion_row (code := 0x500) (by decide) param state runs
  · rintro s st tag c _ rfl param state runs
    exact motion_row (code := 0x501) (by decide) param state runs
  · rintro s st tag c _ rfl param state runs
    exact motion_row (code := 0x502) (by decide) param state runs
  · rintro s st tag c _ rfl param state runs
    exact motion_row (code := 0x503) (by decide) param state runs
  · rintro s st tag c _ rfl param state runs
    exact motion_row (code := 0x504) (by decide) param state runs
  · rintro s st tag c _ rfl runs passes
    exact next_runs runs (Dev.checked_pass _ _ passes)

theorem doDwellEnd_due {d : Dev} {a : AxisNo} {t : Nat} (dwells : d.mot[a].dwellUntil = some t) (due : t ≤ d.clk + d.tickClks) :
    doDwellEnd a d = d.modMot a (fun m => { m with dwellUntil := none }) := by
  rw [doDwellEnd, dwells]
  exact if_pos due

theorem doHomingHardStop_due {d : Dev} {a : AxisNo} {r : HomeRun} {t : Nat} (run : d.mot[a].home = some r) (hard : r.phase = .hard)
    (since : r.hsSince = some t) (due : t + d.mot[a].homeConf[6].toNat * clksPerMs ≤ d.clk + d.tickClks) :
    doHomingHardStop a d = d.hardStop a := by
  unfold doHomingHardStop
  dsimp only
  rw [run]
  dsimp only
  rw [hard, since]
  exact if_pos due

/-- Settles O23, row by row. -/
theorem motionQueueAndHomingComplete : Obligations.MotionQueueAndHomingComplete := by
  refine ⟨?_, ?_, ?_, ?_, ?_, ?_, ?_, ?_⟩
  · rintro s st tag c _ rfl param state runs
    exact motion_row (code := 0x510) (by decide) param state runs
  · rintro s st tag c _ rfl param state runs
    exact motion_row (code := 0x511) (by decide) param state runs
  · rintro s st tag c _ rfl m id queued ended runs passes
    exact next_runs runs (Dev.checked_pass _ _ passes)
  · rintro s a t _ rfl dwells due
    exact next_on (doDwellEnd_due dwells due)
  · rintro s st tag c _ rfl param state runs
    exact motion_row (code := 0x520) (by decide) param state runs
  · rintro s st tag c _ rfl param state runs
    exact motion_row (code := 0x521) (by decide) param state runs
  · rintro s a r t _ rfl run hard since due
    exact next_on (doHomingHardStop_due run hard since due)
  · rintro s a _ rfl stepper due
    exact next_on (f := doStandstillDelay a) (if_pos ⟨stepper, due⟩)

/-- Settles O24, row by row. -/
theorem followersAndPathsComplete : Obligations.FollowersAndPathsComplete := by
  refine ⟨?_, ?_, ?_, ?_, ?_, ?_, ?_, ?_, ?_, ?_⟩
  · rintro s st tag c _ rfl param state runs
    exact motion_row (code := 0x530) (by decide) param state runs
  · rintro s st tag c _ rfl param state runs
    exact motion_row (code := 0x531) (by decide) param state runs
  · rintro s st tag c _ rfl param state runs
    exact motion_row (code := 0x532) (by decide) param state runs
  · rintro s st tag c _ rfl param state runs
    exact motion_row (code := 0x533) (by decide) param state runs
  · rintro s st tag c _ rfl param state runs
    exact motion_row (code := 0x534) (by decide) param state runs
  · rintro s st tag c _ rfl param state runs
    exact motion_row (code := 0x540) (by decide) param state runs
  · rintro s st tag c _ rfl param state runs
    exact motion_row (code := 0x541) (by decide) param state runs
  · rintro s st tag c _ rfl param state runs
    exact motion_row (code := 0x542) (by decide) param state runs
  · rintro s st tag c _ rfl param state runs
    exact motion_row (code := 0x550) (by decide) param state runs
  · rintro s st tag c _ rfl param state runs
    exact motion_row (code := 0x551) (by decide) param state runs

end Sys2Proof.Machine
end


/-! # Motion and other commands at their boundary (09 R365, 03 R95) -/
section
namespace Sys2Proof.Machine
open Sys2Proof

/-! ## A cycle too short for a master record -/

/-- A device off the ring with axis 0 assigned, whose network cycle lasts one lane clock. -/
def Dev.shortCycle : Dev :=
  { Dev.reset with plots := vset Dev.reset.plots 0 (Vector.replicate 14 0x80000000),
                   tk := { Dev.reset.tk with conf := ⟨1, 1, 1⟩ } }

/-- MasterPublish of the set point of axis 0. -/
def Cmd.publishZero : Cmd := ⟨0, 0x534, 1, [1], false, 0, none, .atFrame, 0, false⟩

/-- The cycle rule of the ring is held against a device off the ring too (R365, 11 R420). -/
theorem applyCmd_publishZero : (applyCmd [] .publishZero .shortCycle).mu.setMask = 0 := by decide

/-- Refutes O25: its row of MasterPublish takes the cycle rule to hold of every device off the ring, and the model holds it
against such a device too, whose network cycle may be too short. -/
theorem not_motionCommandsApply : ¬ Obligations.MotionCommandsApply := by
  intro rows
  obtain ⟨-, -, -, -, -, -, -, publish, -, -⟩ := rows [] .shortCycle .publishZero (by decide)
  have mask := congrArg (fun d : Dev => d.mu.setMask) (publish rfl rfl)
  exact absurd (applyCmd_publishZero.symm.trans mask) (by decide)

/-! ## Commands that wait -/

/-- Settles O26, row by row. -/
theorem waitingCommandsApply : Obligations.WaitingCommandsApply := by
  refine ⟨?_, ?_, ?_⟩
  · intro d c acts
    refine ⟨fun atTick => ?_, fun atFrame frame => ?_⟩
    · rw [Dev.dueNow, Dev.pairActs, acts, atTick]
      rfl
    · rw [Dev.dueNow, Dev.pairActs, acts, atFrame, frame]
      rfl
  · intro m d nothing
    rw [Dev.applyWaiting, nothing, List.foldl_nil]
  · intro m d c only found code
    have due : d.dueNow c = true := (List.mem_filter.mp (only ▸ List.mem_singleton_self c)).2
    rw [Dev.applyWaiting, only, List.foldl_cons, List.foldl_nil, found]
    dsimp only
    rw [if_neg (by rw [due]; decide)]
    refine ⟨fun fresh => ?_, fun expired => if_pos expired⟩
    rw [if_neg (by rw [fresh]; decide), if_neg code]

end Sys2Proof.Machine
end


/-! # Capture units and DMA channels (10 R371 to R406) -/
section
namespace Sys2Proof.Machine
open Sys2Proof

/-- The row of an effect that reads DRAM, written as what it makes of this device. -/
theorem next_onMem {f : Memory → Dev → Dev} {g : Dev → Dev} {s : State} (effect : f s.dram s.dev = g s.dev) :
    (Host.Outcome.next (s.onMem f) : Host.Outcome State Fault Refusal) = .next (s.on g) := next_on effect

/-! ## The capture commands at their boundary -/

theorem applyCmd_captureClaim {c : Cmd} (code : c.code.toNat = 0x800) (m : Memory) (d : Dev) :
    applyCmd m c d = applyCaptureClaim c d := by
  rw [applyCmd, code]
  rfl

theorem applyCmd_captureConfig {c : Cmd} (code : c.code.toNat = 0x801) (m : Memory) (d : Dev) :
    applyCmd m c d = applyCaptureConfig c d := by
  rw [applyCmd, code]
  rfl

theorem applyCmd_captureTrigger {c : Cmd} (code : c.code.toNat = 0x802) (m : Memory) (d : Dev) :
    applyCmd m c d = applyCaptureTrigger c d := by
  rw [applyCmd, code]
  rfl

theorem applyCmd_captureControl {c : Cmd} (code : c.code.toNat = 0x803) (m : Memory) (d : Dev) :
    applyCmd m c d = applyCaptureControl m c d := by
  rw [applyCmd, code]
  rfl

theorem applyCmd_adcConfig {c : Cmd} (code : c.code.toNat = 0x811) (m : Memory) (d : Dev) :
    applyCmd m c d = applyAdcConfig c d := by
  rw [applyCmd, code]
  rfl

/-- ARM at its boundary (R383). -/
theorem applyCaptureControl_arm {c : Cmd} {d : Dev} {m : Memory} (arm : fld (wd c.payload 0) 5 4 = 0)
    (passes : Passes (d.capControlChecks c)) : applyCaptureControl m c d = (d.armUnit (unitOf c)).ok c [] := by
  rw [applyCaptureControl]
  refine (Dev.checked_pass _ d passes).trans ?_
  rw [arm]
  rfl

/-! ## The registers and timers of a unit -/

/-- A change of a capture unit that makes the same of what stands there. -/
theorem Dev.modUnit_congr {d : Dev} {u : Fin 8} {f g : CapUnit → CapUnit} (same : f d.cap.units[u] = g d.cap.units[u]) :
    d.modUnit u f = d.modUnit u g := by
  rw [Dev.modUnit, Dev.modUnit, vmod, vmod, same]

section
variable {d : Dev} {st : Stall} {u : Fin 8} {m : Memory}

theorem doCapCtrlForce_waiting (present : d.present st = true) (claims : d.claims u st = true)
    (waiting : d.cap.units[u].state = .waiting) :
    doCapCtrlForce st u m d = d.trigger m u ⟨d.tick, 2, none, d.ring.addr⟩ := by
  rw [doCapCtrlForce, if_neg (by rw [present]; decide), if_neg (by rw [claims]; decide), if_pos (by rw [waiting]; decide)]

theorem doCapDoneRelease_runs {mask : W32} (present : d.present st = true) (claims : d.claims u st = true)
    (runs : d.cap.units[u].state ≠ .halted) :
    doCapDoneRelease st u mask d = d.modUnit u (fun x => { x with done := x.done &&& ~~~mask }) := by
  rw [doCapDoneRelease, if_neg (by rw [present]; decide), if_neg (by rw [claims]; decide)]
  exact Dev.modUnit_congr (if_neg (by rw [beq_eq_false_iff_ne.mpr runs]; decide))

/-- The timer of a stage passes in state 3: the trigger fires, or the sequencer restarts (R384). -/
theorem doStageTimeout_passes {stage : List W32} (present : d.cap.units[u].trig[d.cap.units[u].stage.toNat]? = some stage)
    (waiting : d.cap.units[u].state = .waiting) (timer : 0 < (wd stage 3).toNat) (records : 0 < d.cap.units[u].written)
    (passed : d.cap.units[u].stageTick + (wd stage 3).toNat ≤ d.cap.units[u].lastTick) :
    doStageTimeout u m d = if bitOf (wd stage 0) 8 then
      (d.trigger m u ⟨d.cap.units[u].lastTick, 0, none, d.ring.addr⟩).modUnit u (fun y => { y with stageTick := d.tick })
      else d.modUnit u (fun x => { x with stage := 0, stageCount := 0, crossArmed := false, stageTick := d.cap.units[u].lastTick }) := by
  unfold doStageTimeout
  dsimp only
  rw [present]
  dsimp only
  rw [if_pos (by rw [waiting, decide_eq_true timer, decide_eq_true records, decide_eq_true passed]; decide)]
  rfl

theorem doAutoTrigger_passes (auto : capMode d.cap.units[u].conf = 2) (waiting : d.cap.units[u].state = .waiting)
    (passed : d.cap.units[u].waitTick + (wd d.cap.units[u].conf 4).toNat ≤ d.tick) :
    doAutoTrigger u m d = d.trigger m u ⟨d.tick, 3, none, d.ring.addr⟩ :=
  if_pos (by rw [auto, waiting, decide_eq_true passed]; decide)

end

/-! ## Skew calibration -/

theorem doSkewCalDone_fails {d : Dev} {g : Fin 2} {v : List Int} {k : Stall × BitVec 8} (runs : d.cap.skewRun[g] = some k) :
    doSkewCalDone g false v d = ({ d.fire 102 .device with cap := { (d.fire 102 .device).cap with
      skewRun := vset (d.fire 102 .device).cap.skewRun g none } } : Dev).skewEnd := by
  rw [doSkewCalDone, runs]
  rfl

theorem doSkewCalDone_passes {d : Dev} {g : Fin 2} {v : List Int} {k : Stall × BitVec 8} (runs : d.cap.skewRun[g] = some k)
    (within : ((List.range 48).all (fun i => decide (-256 ≤ v.getD i 0 ∧ v.getD i 0 ≤ 256))) = true) :
    doSkewCalDone g true v d = ({ d with cap := { d.cap with skewNew := vset d.cap.skewNew g (some v),
                                                             skewRun := vset d.cap.skewRun g none } } : Dev).skewEnd := by
  rw [doSkewCalDone, runs]
  dsimp only
  rw [within]
  rfl

theorem Dev.skewTick_skewCal {d : Dev} {i : Fin 96} {v : List Int}
    (ended : d.cap.skewNew[(Fin.ofNat 2 (i.val / 48) : Fin 2)] = some v) :
    d.skewTick.cap.trims[i].skewCal = BitVec.ofInt 10 (v.getD (i.val % 48) 0) := by
  simp only [Dev.skewTick, Fin.getElem_fin, Vector.getElem_ofFn]
  rw [show d.cap.skewNew[(Fin.ofNat 2 (i.val / 48) : Fin 2).val] = some v from ended]

/-- Settles O27, row by row. -/
theorem captureRowsComplete : Obligations.CaptureRowsComplete := by
  refine ⟨?_, ?_, ?_, ?_, ?_, ?_, ?_, ?_, ?_, ?_, ?_, ?_, ?_, ?_, ?_, ?_, ?_⟩
  · rintro s st tag c _ rfl runs
    exact next_runs runs rfl
  · intro m d c code w u x rel take passes
    rw [applyCmd_captureClaim code, applyCaptureClaim]
    exact Dev.checked_pass _ d passes
  · rintro s st tag c _ rfl runs
    exact next_runs runs rfl
  · intro m d c code u place cl clamped passes
    rw [applyCmd_captureConfig code, applyCaptureConfig]
    exact Dev.checked_pass _ d passes
  · rintro s st tag c _ rfl runs
    exact next_runs runs rfl
  · intro m d c code u x stages passes
    rw [applyCmd_captureTrigger code, applyCaptureTrigger]
    exact Dev.checked_pass _ d passes
  · rintro s st tag c _ rfl runs passes
    exact next_runs runs (Dev.checked_pass _ _ passes)
  · rintro s st tag c _ rfl w runs passes
    exact next_runs runs (Dev.checked_pass _ _ passes)
  · rintro s st tag c _ rfl runs passes
    exact next_runs runs (Dev.checked_pass _ _ passes)
  · rintro s st u _ rfl present claims waiting
    exact next_onMem (doCapCtrlForce_waiting present claims waiting)
  · rintro s st u mask _ rfl present claims runs
    exact next_on (doCapDoneRelease_runs present claims runs)
  · rintro s u stage _ rfl _ rfl present waiting timer records passed
    have passes : doStageTimeout u s.dram s.dev = _ := doStageTimeout_passes present waiting timer records passed
    refine ⟨fun fires => ?_, fun restarts => ?_⟩
    · exact next_onMem (passes.trans (if_pos fires))
    · exact next_onMem (passes.trans (if_neg (by rw [restarts]; decide)))
  · rintro s u _ rfl _ rfl auto waiting passed
    exact next_onMem (doAutoTrigger_passes auto waiting passed)
  · rintro s g v k _ rfl runs
    refine ⟨?_, fun within => next_on (doSkewCalDone_passes runs within)⟩
    rintro _ rfl
    exact next_on (doSkewCalDone_fails runs)
  · exact fun d i v => Dev.skewTick_skewCal
  · rintro m d c _ code rfl arm passes
    rw [applyCmd_captureControl code]
    exact applyCaptureControl_arm arm passes
  · intro m d c code passes
    rw [applyCmd_adcConfig code, applyAdcConfig]
    exact Dev.checked_pass _ d passes

/-! ## DMA channels -/

theorem Dev.dmaCtrl_claimer {d : Dev} {st : Stall} {ch : Fin 8} (f : Dev → Dev) (present : d.present st = true)
    (claimed : d.cap.dma[ch].claimed = true) (mine : d.cap.dma[ch].stall = st) : d.dmaCtrl st ch f = f d := by
  rw [Dev.dmaCtrl, if_neg (by rw [present]; decide), if_pos (by rw [claimed, mine, beq_self_eq_true]; rfl)]

/-- An abort meets a descriptor whose bytes have not all moved (R395). -/
theorem doDmaAbortEffect_part {d : Dev} {ch : Fin 8} {n : Nat} {bs : List Byte} {m : Memory}
    (runs : d.cap.dma[ch].state = .running) (abort : d.cap.dma[ch].abort = true)
    (good : preError d.cap.dma[ch].ofS0 d.cap.dma[ch].words = 0) (part : n < descCount d.cap.dma[ch].words) :
    doDmaAbortEffect ch n bs m d =
      (((d.dmaEnd m ch n bs 7).dmaIrq ch (dmaBad + dmaHalt)).fire 101 .device).dmaStop ch .halted := by
  have moved : min n (descCount d.cap.dma[ch].words) = n := Nat.min_eq_left (Nat.le_of_lt part)
  unfold doDmaAbortEffect
  dsimp only
  rw [if_neg (by rw [runs, abort]; decide), good, moved, if_neg (not_not_intro rfl), if_neg]
  rw [beq_eq_false_iff_ne.mpr (Nat.ne_of_lt part), Bool.and_false]
  exact Bool.false_ne_true

/-- The last descriptor of a chain ends without an error, and asks for no interrupt (R392). -/
theorem doDmaDescriptorEnd_last {d : Dev} {ch : Fin 8} {o : DmaOutcome} {f : Option (List W32)} {n : Nat} {bs : List Byte}
    {m : Memory} (runs : d.cap.dma[ch].state = .running) (result : dmaResult d.cap.dma[ch] o = (n, 0, bs))
    (quiet : bitOf (wd d.cap.dma[ch].words 0) 0 = false) (last : descLast d.cap.dma[ch].words = true) :
    doDmaDescriptorEnd ch o f m d = (d.dmaEnd m ch n bs 0).dmaStop ch .idle := by
  unfold doDmaDescriptorEnd
  dsimp only
  rw [if_neg (by rw [runs]; decide), result]
  dsimp only
  rw [quiet, last]
  rfl

/-- Settles O28, row by row. -/
theorem dmaRowsComplete : Obligations.DmaRowsComplete := by
  refine ⟨?_, ?_, ?_, ?_⟩
  · rintro s st ch _ rfl present free
    exact next_on (f := doDmaClaim st ch) (if_pos (by rw [present, free]; rfl))
  · rintro s st ch _ rfl present claimed mine
    refine ⟨next_on (Dev.dmaCtrl_claimer _ present claimed mine), fun runs => ?_, fun f stands => ?_⟩
    · exact next_on (Dev.dmaCtrl_claimer _ present claimed mine)
    · refine next_onMem ((Dev.dmaCtrl_claimer _ present claimed mine).trans (if_neg ?_))
      rw [beq_eq_false_iff_ne.mpr stands]
      decide
  · rintro s ch n bs _ rfl _ rfl runs abort good part
    exact next_onMem (doDmaAbortEffect_part runs abort good part)
  · rintro s ch o f n bs _ rfl _ rfl runs result quiet last
    exact next_onMem (doDmaDescriptorEnd_last runs result quiet last)

end Sys2Proof.Machine
end


/-! # The ring: its commands, its link and its nodes (11 R409 to R425, R449 to R452) -/
section
namespace Sys2Proof.Machine
open Sys2Proof

/-! ## The commands -/

/-- A payload of a length above 0 has a word 0. -/
theorem noWord_of_badLen {c : Cmd} {n : Nat} (len : badLen c (n + 1) = false) : noWord c = false := by
  rw [badLen, bne_eq_false_iff_eq] at len
  rw [noWord, List.isEmpty_eq_false_iff]
  intro empty
  rw [empty] at len
  exact absurd len (Nat.succ_ne_zero n).symm

theorem applyCmd_remoteStallConfig {c : Cmd} (code : c.code.toNat = 0x602) (m : Memory) (d : Dev) :
    applyCmd m c d = applyRemoteStallConfig c d := by
  rw [applyCmd, code]
  rfl

section
variable {d : Dev} {st : Stall} {tag : BitVec 8} {c : Cmd} (runs : d.runs st tag 0x601 c = true) (len : badLen c 1 = false)
  (free : rsv (wd c.payload 0) 0xFFFFFFFC = false)
include runs len free

theorem doRingControl_on (op : fld (wd c.payload 0) 1 0 = 0) (off : d.ring.fn = .off)
    (rule : d.breaksCycle d.ownBytes = false) : doRingControl st tag d = d.ringListen.ok c [] := by
  refine (Dev.start_runs _ runs).trans ((if_neg (not_not_intro ?_)).trans (if_pos op))
  rw [noWord_of_badLen len, len, free, op, off, rule]
  rfl

theorem doRingControl_leave (op : fld (wd c.payload 0) 1 0 = 1) (active : d.ring.fn = .active) : doRingControl st tag d =
    (d.ok c []).modRing (fun r => { r with leave := if r.leave = 0 then 1 else r.leave }) := by
  refine (Dev.start_runs _ runs).trans ((if_neg (not_not_intro ?_)).trans
    ((if_neg (by rw [op]; decide)).trans ((if_pos op).trans (if_pos (by rw [active]; rfl)))))
  rw [noWord_of_badLen len, len, free, op, active]
  rfl

theorem doRingControl_clear (op : fld (wd c.payload 0) 1 0 = 2) : doRingControl st tag d = d.ringClear.ok c [] := by
  refine (Dev.start_runs _ runs).trans ((if_neg (not_not_intro ?_)).trans
    ((if_neg (by rw [op]; decide)).trans (if_neg (by rw [op]; decide))))
  rw [noWord_of_badLen len, len, free, op]
  rfl

end

/-! ## The link -/

/-- The lock states of both ports are set. -/
def Dev.setLocks (a b : Bool) (d : Dev) : Dev :=
  (d.modPort false (fun p => { p with lock := a, rfault := p.rfault && !a })).modPort true (fun p =>
    { p with lock := b, rfault := p.rfault && !b })

theorem doBlockLock_lost {a b : Bool} {d : Dev} (lost : (a && b) = false) : doBlockLock a b d = d.setLocks a b :=
  if_pos (by rw [lost]; rfl)

/-- With both ports locked, a device in LISTEN goes to JOINING, and one whose by-pass is open becomes ACTIVE (R413). -/
theorem doBlockLock_held (d : Dev) : doBlockLock true true d =
    if d.ring.fn == .listen && d.hp.devReady then (d.setLocks true true).tryJoin
    else if d.ring.fn == .joining && d.ring.opened then
      (d.setLocks true true).modRing (fun r => { r with fn := .active, joinFail := false, leave := 0, seen := [] })
    else d.setLocks true true := rfl

theorem doBlockLock_listen {d : Dev} (listens : d.ring.fn = .listen) (ready : d.hp.devReady = true) :
    doBlockLock true true d = (d.setLocks true true).tryJoin := by
  rw [doBlockLock_held, if_pos (by rw [listens, ready]; rfl)]

theorem doBlockLock_joins {d : Dev} (joining : d.ring.fn = .joining) (opened : d.ring.opened = true) :
    doBlockLock true true d = (d.setLocks true true).modRing (fun r =>
      { r with fn := .active, joinFail := false, leave := 0, seen := [] }) := by
  rw [doBlockLock_held, if_neg (by rw [joining]; exact Bool.false_ne_true), if_pos (by rw [joining, opened]; rfl)]

theorem doListenTimeout_due {d : Dev} (listens : d.ring.fn = .listen) (ready : d.hp.devReady = true)
    (due : max d.ring.listenCycle d.ring.heardCycle + 3 ≤ d.ownCycle) :
    doListenTimeout d = if d.tryJoin.ring.fn == .joining then d.tryJoin.openBypass else d.tryJoin :=
  if_pos (by rw [listens, ready, decide_eq_true due]; rfl)

theorem doNodeMissing_due {d : Dev} {k : BitVec 10} {n : NodeInfo} (known : Mem.read none d.ring.nodes k.toNat = some n)
    (stays : n.leaving = false) (present : n.missing = false) (due : n.heard + 3 ≤ d.ownCycle) :
    doNodeMissing k d = (d.modRing (fun r =>
      { r with nodes := Mem.write none r.nodes k.toNat (some { n with missing := true }) })).fire 111 .device := by
  rw [doNodeMissing, known]
  exact if_neg (by rw [stays, present, decide_eq_false (by omega)]; decide)

/-- The first break of a healthy ring (R423). -/
theorem doPortBreak_first {d : Dev} {b lock rfault : Bool} (active : d.ring.fn = .active) (whole : (d.ring.port b).brk = false)
    (healthy : d.ring.healed = false) : doPortBreak b lock rfault d =
      (((d.modPort b (fun p => { p with brk := true, lock := lock, rfault := rfault, restore := 0, peerRestore := false })).modRing
        (Ring.setLoop b true)).fire 110 .device).heal := by
  refine (if_neg (by rw [active, whole]; decide)).trans (if_neg ?_)
  rw [healthy]
  simp

/-! ## Cycle frames -/

section
variable {d : Dev} {b : Bool} {f : RingFrame} {m : Memory} (active : d.ring.fn = .active) (foreign : f.hdr.nonce ≠ d.ring.nonce)
include active

theorem doCycleFrame_bad : doCycleFrame b .bad f m d = (d.crcError b).forwardBad b :=
  (if_neg (by rw [active]; decide)).trans (if_pos rfl)

theorem doCycleFrame_inverted : doCycleFrame b .inverted f m d = d.forwardBad b :=
  (if_neg (by rw [active]; decide)).trans ((if_neg (by decide)).trans (if_pos rfl))

theorem doCycleFrame_foreign (other : f.etherType ≠ d.ring.conf.etherType) :
    doCycleFrame b .good f m d = doForeignFrame b d :=
  (if_neg (by rw [active]; decide)).trans ((if_neg (by decide)).trans ((if_neg (by decide)).trans
    (if_pos (bne_iff_ne.mpr other))))

include foreign

/-- A frame that was heard already is forwarded only (R416). -/
theorem doCycleFrame_again (own : f.etherType = d.ring.conf.etherType)
    (seen : ((d.forward b f).ring.seen.any (fun x => x.1 == (nodeKey f.hdr, f.hdr.cycleNo, f.hdr.fragIdx))) = true) :
    doCycleFrame b .good f m d = d.forward b f := by
  refine (if_neg (by rw [active]; decide)).trans ((if_neg (by decide)).trans ((if_neg (by decide)).trans
    ((if_neg ?_).trans ((if_neg ?_).trans (if_pos seen)))))
  · rw [own]
    simp
  · rw [beq_eq_false_iff_ne.mpr foreign, Bool.and_false]
    exact Bool.false_ne_true

/-- The contents of a new frame of a named node are taken (R419, R422, R427, R429). -/
theorem doCycleFrame_taken {d0 d1 d2 d3 : Dev} (forwarded : d.forward b f = d0)
    (noted : d0.modRing (fun r =>
      { r with seen := r.seen ++ [((nodeKey f.hdr, f.hdr.cycleNo, f.hdr.fragIdx), d0.ownCycle)] }) = d1)
    (heard : (d1.hearNode f).hearGm b f = d2) (contents : (d2.hearMasters f).hearTriggers m f = d3)
    (own : f.etherType = d.ring.conf.etherType)
    (new : (d0.ring.seen.any (fun x => x.1 == (nodeKey f.hdr, f.hdr.cycleNo, f.hdr.fragIdx))) = false)
    (single : (d1.ring.fn == .active && d1.ring.addrValid && f.hdr.addrValid && f.hdr.origin == d1.ring.addr) = false)
    (still : d2.ring.fn = .active) (agrees : d2.ring.tickMismatch = false) (named : f.hdr.addrValid = true)
    (onTime : d3.cyclesBehind f.hdr ≠ 1) : doCycleFrame b .good f m d = d3.hearFragments f := by
  subst forwarded noted heard contents
  unfold doCycleFrame
  dsimp only
  rw [if_neg (by rw [active]; decide), if_neg (by decide), if_neg (by decide), if_neg (by rw [own]; simp),
    if_neg (by rw [beq_eq_false_iff_ne.mpr foreign]; simp), if_neg (by rw [new]; decide), single]
  simp only [Bool.false_eq_true, if_false]
  rw [if_neg (by rw [still]; decide), agrees, named]
  simp only [Bool.false_and, Bool.not_true, Bool.or_self, Bool.false_eq_true, if_false]
  rw [if_neg (by simp [onTime])]

end

/-- Settles O29, row by row. -/
theorem ringLinkRowsComplete : Obligations.RingLinkRowsComplete := by
  refine ⟨?_, ?_, ?_, ?_, ?_, ?_, ?_, ?_, ?_, ?_, ?_, ?_, ?_⟩
  · rintro s st tag c _ rfl w w1 acyc et tmo own runs passes
    exact next_runs runs (Dev.checked_pass _ _ passes)
  · rintro s st tag c _ rfl runs
    exact next_runs runs rfl
  · intro m d c code w sel i passes
    rw [applyCmd_remoteStallConfig code, applyRemoteStallConfig]
    exact Dev.checked_pass _ d passes
  · rintro s st tag c _ rfl _ rfl runs len free
    exact ⟨fun op off rule => next_on (doRingControl_on runs len free op off rule),
      fun op active => next_on (doRingControl_leave runs len free op active),
      fun op => next_on (doRingControl_clear runs len free op)⟩
  · rintro s a b _ _ rfl rfl
    refine ⟨fun lost => next_on (doBlockLock_lost lost), ?_, ?_⟩
    · rintro rfl rfl listens ready
      exact next_on (doBlockLock_listen listens ready)
    · rintro rfl rfl joining opened
      exact next_on (doBlockLock_joins joining opened)
  · rintro s _ rfl joining
    refine ⟨fun closed => ?_, fun opened passed => ?_⟩
    · exact next_on (f := doInsertWindow) (if_pos (by rw [joining, closed]; rfl))
    · exact next_on (f := doJoinTimeout) (if_pos (by rw [joining, opened, passed]; rfl))
  · rintro s _ rfl listens ready due
    exact next_on (doListenTimeout_due listens ready due)
  · rintro s _ rfl _
    exact ⟨_, rfl, rfl⟩
  · rintro s b f _ rfl active foreign
    refine ⟨next_onMem (doCycleFrame_bad active), next_onMem (doCycleFrame_inverted active),
      fun other => next_onMem (doCycleFrame_foreign active other),
      fun own seen => next_onMem (doCycleFrame_again active foreign own seen), ?_⟩
    intro d0 d1 d2 d3 forwarded noted heard contents own new single still agrees named onTime
    exact next_onMem (doCycleFrame_taken active foreign forwarded noted heard contents own new single still agrees named onTime)
  · intro s b
    rfl
  · rintro s k n _ rfl known stays present due
    exact next_on (doNodeMissing_due known stays present due)
  · rintro s b lock rfault _ rfl active whole healthy
    exact next_on (doPortBreak_first active whole healthy)
  · rintro s b _ rfl broken waits
    exact next_on (f := doPortRestore b) (if_pos (by rw [broken, waits]; rfl))

end Sys2Proof.Machine
end


/-! # Acyclic messages of the ring: remote stalls and proxies (11 R429 to R433, R454) -/
section
namespace Sys2Proof.Machine
open Sys2Proof

/-! ## Remote stalls -/

/-- The remote index that a message's stall names. -/
theorem remoteIndex_eq {m : AcycMsg} {i : Fin 4} (stall : m.stall.toNat = i.val + 2) : Fin.ofNat 4 (m.stall.toNat + 2) = i := by
  refine Fin.ext ?_
  rw [stall, Fin.val_ofNat]
  omega

/-- The only remote index that is chosen by its number. -/
theorem filter_remoteIndex (i : Fin 4) : (List.finRange 4).filter (fun k => i.val + 2 == 0 || i.val + 2 == k.val + 2) = [i] := by
  revert i
  decide

/-- Nothing ends where no connection is that of the sender. -/
theorem Dev.foldl_endRemote_stranger {m : AcycMsg} {d : Dev} (stranger : ∀ k : Fin 4, d.ring.remote[k].of m = false) :
    ∀ is : List (Fin 4), is.foldl (fun d i => if d.ring.remote[i].of m then d.endRemote i else d) d = d
  | [] => rfl
  | i :: is => by
    rw [List.foldl_cons, if_neg (by rw [stranger i]; decide)]
    exact foldl_endRemote_stranger stranger is

/-- A new connection to the stall that is asked for (R430). -/
theorem doRingConnect_new {m : AcycMsg} {i : Fin 4} {d : Dev} (active : d.ring.fn = .active) (sends : d.ring.conf.acycBytes ≠ 0)
    (stranger : ∀ k : Fin 4, d.ring.remote[k].of m = false) (want : fld (wd m.data 0) 2 0 = i.val + 2)
    (admits : d.ring.remote[i].admits m = true) (free : d.ring.remote[i].connected = false) :
    doRingConnect m d = (d.modRemote i (fun r =>
      { r with epoch := d.ring.remote[i].epoch + 1, connected := true, peer := m.src, peerHop := m.srcUnset, lastClk := d.clk,
               trans := [], irqDue := false })).sendMsg (replyTo m kAccept 0 (d.ring.remote[i].epoch + 1) (i.val + 2) []) := by
  unfold doRingConnect
  dsimp only
  rw [if_neg (by rw [active, decide_eq_false sends]; decide), Dev.foldl_endRemote_stranger stranger, want, filter_remoteIndex,
    List.find?_cons_of_pos (by rw [admits, free]; rfl)]

/-- A request of the peer of a connection in its epoch reaches the stall (R431). -/
theorem Dev.remoteReq_peer {m : AcycMsg} {i : Fin 4} {d : Dev} (f : Fin 4 → Dev → Dev) (active : d.ring.fn = .active)
    (stall : m.stall.toNat = i.val + 2) (peer : d.ring.remote[i].of m = true) (epoch : d.ring.remote[i].epoch = m.epoch) :
    d.remoteReq m f = f i (d.heardPeer m) := by
  unfold Dev.remoteReq
  simp only [remoteIndex_eq stall]
  rw [if_neg (by rw [active]; decide), if_neg (by rw [peer]; simp only [Bool.true_eq_false, or_false]; omega), if_neg (by rw [epoch]; simp)]

section
variable {m : AcycMsg} {i : Fin 4} {d : Dev} {tag : Option (BitVec 8)} (f : Fin 4 → Dev → AcycMsg × Dev)
  (active : d.ring.fn = .active) (stall : m.stall.toNat = i.val + 2) (peer : d.ring.remote[i].of m = true)
  (epoch : d.ring.remote[i].epoch = m.epoch)
include active stall peer epoch

/-- A request that comes for the first time is carried out, and its reply is kept (R431). -/
theorem Dev.onceReq_new (new : (d.heardPeer m).ring.remote[i].trans.find? (fun t => t.trans == m.trans) = none) :
    d.onceReq m tag f = ((f i (d.heardPeer m)).2.modRemote i (fun s =>
      { s with trans := (⟨m.trans, tag, [(f i (d.heardPeer m)).1]⟩ :: s.trans).take 32 })).sendMsg (f i (d.heardPeer m)).1 := by
  rw [Dev.onceReq, Dev.remoteReq_peer _ active stall peer epoch, new]

/-- A request that comes again gets its stored replies again (R431). -/
theorem Dev.onceReq_again {t : TransRec} (known : (d.heardPeer m).ring.remote[i].trans.find? (fun t => t.trans == m.trans) = some t) :
    d.onceReq m tag f = t.replies.foldl (fun d x => d.sendMsg x) (d.heardPeer m) := by
  rw [Dev.onceReq, Dev.remoteReq_peer _ active stall peer epoch, known]

end

theorem doRingDisconnect_remote {m : AcycMsg} {i : Fin 4} {d : Dev}
    (mine : (List.finRange 4).find? (fun k => d.ring.remote[k].of m && d.ring.remote[k].epoch == m.epoch &&
      m.stall.toNat == k.val + 2) = some i) : doRingDisconnect m d = d.endRemote i := by
  rw [doRingDisconnect, mine]

theorem doRemoteStallTimeout_due {i : Fin 4} {d : Dev} (connected : d.ring.remote[i].connected = true)
    (due : d.past d.ring.remote[i].lastClk (d.ring.conf.timeoutMs.toNat * clksPerMs) = true) :
    doRemoteStallTimeout (remoteStall i) d = (d.endRemote i).fire 117 .device := by
  have val : (remoteStall i).val = i.val + 2 := by rw [remoteStall, Fin.val_ofNat]; omega
  have index : Fin.ofNat 4 ((remoteStall i).val - 2) = i := by rw [val, Nat.add_sub_cancel]; exact Fin.ofNat_val_eq_self i
  unfold doRemoteStallTimeout
  simp only [index]
  rw [if_neg (by omega), if_pos (by rw [connected, due]; rfl)]

/-- Settles O30, row by row. -/
theorem remoteStallRowsComplete : Obligations.RemoteStallRowsComplete := by
  refine ⟨?_, ?_, ?_, ?_, ?_, ?_⟩
  · intro s src tr
    rfl
  · rintro s m i _ rfl _ active sends stranger want admits free rfl
    exact next_on (doRingConnect_new active sends stranger want admits free)
  · rintro s m i _ rfl mine
    exact next_on (doRingDisconnect_remote mine)
  · rintro s m i _ rfl _ rfl active stall peer epoch
    refine ⟨next_on (Dev.remoteReq_peer _ active stall peer epoch), fun new => ⟨?_, ?_⟩, fun t known => ⟨?_, ?_⟩⟩
    · rintro e _ rfl
      exact next_onMem (Dev.onceReq_new _ active stall peer epoch new)
    · exact next_on (Dev.onceReq_new _ active stall peer epoch new)
    · exact next_onMem (Dev.onceReq_again _ active stall peer epoch known)
    · exact next_on (Dev.onceReq_again _ active stall peer epoch known)
  · rintro s m i _ rfl _ _ rfl active stall peer epoch new rfl _ rfl
    exact next_onMem (Dev.onceReq_new _ active stall peer epoch new)
  · rintro s i _ rfl connected due
    exact next_on (doRemoteStallTimeout_due connected due)

/-! ## Proxies -/

section
variable {m : AcycMsg} {d : Dev} {p : ProxyConn} (proxy : d.proxy? m.src m.srcUnset = some p)
include proxy

theorem doRingAccept_first (open_ : p.stall = none) : doRingAccept m d =
    p.cmds.foldl (fun d c => d.sendProxied m.src m.srcUnset c.trans)
      (d.modProxy m.src m.srcUnset (fun p => { p with stall := some m.stall, epoch := m.epoch })) := by
  rw [doRingAccept, proxy]
  exact if_neg (by rw [open_]; decide)

theorem doRingReject_first (open_ : p.stall = none) : doRingReject m d =
    p.cmds.foldl (fun d c => d.respond c.stall c.tag stState [m.code.setWidth 32])
      (d.modRing (fun r => { r with proxies := r.proxies.filter (fun x => !(x.node == m.src && x.hop == m.srcUnset)) })) := by
  rw [doRingReject, proxy]
  exact if_neg (by rw [open_]; exact Bool.false_ne_true)

theorem Dev.proxyReply_names {c : ProxyCmd} (f : ProxyCmd → Dev → Dev) (stands : p.stall.isSome = true)
    (epoch : p.epoch = m.epoch) (names : p.cmds.find? (fun c => c.trans == m.trans) = some c) : d.proxyReply m f = f c d := by
  rw [Dev.proxyReply, proxy]
  dsimp only
  rw [if_neg (by rw [epoch, Option.isNone_eq_false_iff.mpr stands]; simp), names]

end

section
variable {st : Stall} {tag : BitVec 8} {p : ProxyConn} {c : ProxyCmd} {k : Nat} {d : Dev}
  (proxy : d.ring.proxies.find? (fun p => p.cmds.any (fun c => c.stall == st && c.tag == tag)) = some p)
  (cmd : p.cmds.find? (fun c => c.stall == st && c.tag == tag) = some c) (sent : c.sentCycle = some k)
  (open_ : c.acked = false) (due : k + 4 ≤ d.ownCycle)
include proxy cmd sent open_ due

/-- Without its acknowledgement a command is sent again, three times at most. -/
theorem doProxyAckTimeout_due : doProxyAckTimeout st tag d =
    if c.retries < 3 then
      (d.modProxy p.node p.hop (fun p => { p with cmds := p.cmds.map (fun (x : ProxyCmd) =>
        if x.trans == c.trans then { x with retries := x.retries + 1 } else x) })).sendProxied p.node p.hop c.trans
    else (d.modProxy p.node p.hop (fun p => { p with cmds := p.cmds.filter (fun x => x.trans != c.trans) })).respond st tag
      stTimeout [] := by
  unfold doProxyAckTimeout
  rw [proxy]
  dsimp only
  rw [cmd]
  dsimp only
  rw [sent]
  exact if_neg (by rw [open_]; simp only [Bool.false_or, decide_eq_true_eq]; omega)

end

/-- Settles O31, row by row. -/
theorem proxyRowsComplete : Obligations.ProxyRowsComplete := by
  refine ⟨?_, ?_, ?_, ?_, ?_⟩
  · rintro s st tag c _ rfl w node hop want n known runs passes
    exact next_runs runs (Dev.checked_pass _ _ passes)
  · rintro s m p _ rfl proxy open_
    exact ⟨next_on (doRingAccept_first proxy open_), next_on (doRingReject_first proxy open_)⟩
  · rintro s m p c _ rfl _ rfl proxy stands epoch names
    refine ⟨next_on (Dev.proxyReply_names proxy _ stands epoch names), fun fits => ?_, fun long => ?_⟩
    · exact next_on ((Dev.proxyReply_names proxy _ stands epoch names).trans (if_neg (by omega)))
    · exact next_on ((Dev.proxyReply_names proxy _ stands epoch names).trans (if_pos long))
  · rintro s st tag p c k _ rfl proxy cmd sent open_ due
    refine ⟨fun again => ?_, fun spent => ?_⟩
    · exact next_on ((doProxyAckTimeout_due proxy cmd sent open_ due).trans (if_pos again))
    · exact next_on ((doProxyAckTimeout_due proxy cmd sent open_ due).trans (if_neg (by omega)))
  · rintro s node p _ rfl
    refine ⟨fun quiet => ?_, fun idle => ?_⟩
    · exact next_on (f := doProxyKeepalive node) (by rw [doProxyKeepalive, quiet])
    · exact next_on (f := doProxyIdleDisconnect node) (by rw [doProxyIdleDisconnect, idle])

end Sys2Proof.Machine
end


/-! # Network time (11 R435 to R446, R452, R453) -/
section
namespace Sys2Proof.Machine
open Sys2Proof

section
variable {d : Dev} (active : d.ring.fn = .active) (a : (d.ring.port false).brk = false) (b : (d.ring.port true).brk = false)
include active a b

/-- The grandmaster's Sync leaves both ports of a whole ring (R437). -/
theorem doSyncSend_both (gm : d.nt.isGm = true) (later : d.nt.gmCycle < d.ownCycle) : doSyncSend d =
    (d.emit (.sync false d.nt.conf.domain (d.nt.nt + d.ntStep 256))).emit (.sync true d.nt.conf.domain (d.nt.nt + d.ntStep 256)) := by
  unfold doSyncSend
  rw [if_neg (by rw [gm, active, decide_eq_true later]; decide)]
  simp only [a, Bool.false_eq_true, if_false]
  exact if_neg (Bool.eq_false_iff.mp b)

theorem doPdelayReqSend_both : doPdelayReqSend d =
    (d.emit (.pdelayReq false d.nt.conf.domain)).emit (.pdelayReq true d.nt.conf.domain) := by
  unfold doPdelayReqSend
  rw [if_neg (by rw [active]; decide)]
  simp only [a, Bool.false_eq_true, if_false]
  exact if_neg (Bool.eq_false_iff.mp b)

end

/-- A Sync of the grandmaster's domain passes a device, and acts where it comes from SYNC_PORT (R437). -/
theorem doSyncReceived_passes {d : Dev} {b : Bool} {origin : Int} {n res : Nat} (active : d.ring.fn = .active)
    (slave : d.nt.isGm = false) : doSyncReceived b d.nt.conf.domain origin n res d =
      if b != d.nt.syncPort then d.passSync b (origin + (d.ring.port b).delay) res
      else (d.passSync b (origin + (d.ring.port b).delay) res).syncAct
        (d.nt.nt + d.ntStep n - (origin + (d.ring.port b).delay)) n :=
  if_neg (by rw [active, slave]; simp)

/-- An offset above 20 ns in LOCKED steps the servo and starts the count of good Syncs anew (R439, R444). -/
theorem Dev.syncAct_far {d : Dev} {o : Int} {n : Nat} (held : d.missedStep = none) (locked : d.nt.state = .locked)
    (far : ¬ (-(20 * nsUnit) ≤ o ∧ o ≤ 20 * nsUnit)) : d.syncAct o n =
      ((d.modNt (fun t => { t with syncCycle := d.ownCycle, timeIsSet := true })).servo o n).modNt (fun t =>
        { t with lockRun := 0 }) := by
  unfold Dev.syncAct
  dsimp only
  rw [held, decide_eq_false far, locked]
  rfl

/-- A change of a port that makes the same of what stands there. -/
theorem Dev.modPort_congr {d : Dev} {b : Bool} {f g : RingPort → RingPort} (same : f (d.ring.port b) = g (d.ring.port b)) :
    d.modPort b f = d.modPort b g := by
  cases b
  · exact congrArg (fun p => { d with ring := { d.ring with portA := p } }) same
  · exact congrArg (fun p => { d with ring := { d.ring with portB := p } }) same

section
variable {d : Dev} {b : Bool} (active : d.ring.fn = .active) (whole : (d.ring.port b).brk = false)
include active whole

theorem doPdelayReqReceived_own {q : BitVec 16} :
    doPdelayReqReceived b d.nt.conf.domain q d = d.emit (.pdelayResp b d.nt.conf.domain q) :=
  if_neg (by rw [active, whole, bne_self_eq_false d.nt.conf.domain]; decide)

theorem doPdelayRespReceived_own {delay : Nat} (near : farDelay (d.ring.port b).meas delay = false) :
    doPdelayRespReceived b d.nt.conf.domain delay d = d.modPort b (fun p =>
      { p with meas := (delay :: p.meas).take 8, linkDelay := delayWord ((delay :: p.meas).take 8) }) := by
  unfold doPdelayRespReceived
  dsimp only
  rw [if_neg (by rw [active, whole, near, bne_self_eq_false d.nt.conf.domain]; decide)]
  exact Dev.modPort_congr rfl

end

theorem doPpsEdge_plain {d : Dev} {n : Nat} (plain : (d.nt.isGm && d.nt.conf.ppsSrc) = false) :
    doPpsEdge n d = d.modNt (fun x => { x with ppsStamp := d.nt.nt + d.ntStep (2 * n) }) :=
  if_pos (by rw [plain]; rfl)

/-- Settles O32, row by row. -/
theorem networkTimeRowsComplete : Obligations.NetworkTimeRowsComplete := by
  refine ⟨?_, ?_, ?_, ?_, ?_, ?_, ?_, ?_, ?_, ?_, ?_⟩
  · rintro s st tag c _ rfl w w1 runs passes
    exact next_runs runs (Dev.checked_pass _ _ passes)
  · rintro s st tag c _ rfl ns pps given left runs passes
    exact next_runs runs (Dev.checked_pass _ _ passes)
  · rintro s _ rfl gm active later a b
    exact next_on (doSyncSend_both active a b gm later)
  · rintro s b q origin base n res _ rfl _ d2 active slave rfl rfl rfl
    refine ⟨fun other => ?_, ?_⟩
    · exact next_on ((doSyncReceived_passes active slave).trans (if_pos (bne_iff_ne.mpr other)))
    · rintro o rfl port held locked rfl _ far
      refine next_on ((doSyncReceived_passes active slave).trans ((if_neg ?_).trans (Dev.syncAct_far held locked far)))
      rw [port]
      simp
  · rintro s _ rfl locked late
    exact next_on (f := doNtHoldover) (if_pos (by rw [locked, decide_eq_true late]; rfl))
  · rintro s _ rfl active a b
    exact next_on (doPdelayReqSend_both active a b)
  · rintro s b q delay _ rfl _ rfl active whole
    refine ⟨?_, fun near => ?_⟩
    · exact next_on (doPdelayReqReceived_own active whole)
    · exact next_on (doPdelayRespReceived_own active whole near)
  · rintro s n _ rfl plain
    exact next_on (doPpsEdge_plain plain)
  · rintro s _ rfl out valid second
    exact next_on (f := doPpsOutSecond) (if_pos (by rw [out, valid, bne_iff_ne.mpr second]; rfl))
  · exact fun s => ⟨rfl, rfl⟩
  · rintro s _ _ rfl valid rfl
    exact next_on (f := doKaTimeSet) (if_pos valid)

end Sys2Proof.Machine
end


/-! # The CAN controllers and the gateway (12 R455 to R486) -/
section
namespace Sys2Proof.Machine
open Sys2Proof

/-! ## The commands -/

theorem applyCmd_canConfig {c : Cmd} (code : c.code.toNat = 0x700) (m : Memory) (d : Dev) :
    applyCmd m c d = applyCanConfig c d := by
  rw [applyCmd, code]
  rfl

theorem applyCmd_canGateway {c : Cmd} (code : c.code.toNat = 0x720) (m : Memory) (d : Dev) :
    applyCmd m c d = applyCanGateway c d := by
  rw [applyCmd, code]
  rfl

/-- Settles O33, row by row. -/
theorem canCommandsComplete : Obligations.CanCommandsComplete := by
  refine ⟨?_, ?_, ?_, ?_, ?_, ?_, ?_, ?_, ?_⟩
  · rintro s st tag c _ rfl runs
    exact next_runs runs rfl
  · intro m d c code k passes
    rw [applyCmd_canConfig code, applyCanConfig]
    exact Dev.checked_pass _ d passes
  · rintro s st tag c _ rfl k w id runs passes
    exact next_runs runs (Dev.checked_pass _ _ passes)
  · rintro s st tag c _ rfl k x p w b n life runs passes
    exact next_runs runs (Dev.checked_pass _ _ passes)
  · rintro s st tag c _ rfl k w x got runs passes
    exact next_runs runs (Dev.checked_pass _ _ passes)
  · rintro s st tag c _ rfl k x w op runs passes
    exact next_runs runs (Dev.checked_pass _ _ passes)
  · rintro s st tag c _ rfl k x role windows runs passes
    exact next_runs runs (Dev.checked_pass _ _ passes)
  · rintro s st tag c _ rfl runs
    exact next_runs runs rfl
  · intro m d c code k x p w en req rsp g passes
    rw [applyCmd_canGateway code, applyCanGateway]
    exact Dev.checked_pass _ d passes

/-! ## Frames -/

section
variable {d : Dev} {k : Fin 2}

theorem doCanFrameReceived_active {ok : Bool} {f : CanFrame} {n : Int} (active : d.can.ctl[k].state = .active)
    (sends : d.can.ctl[k].mode ≠ 3) : doCanFrameReceived k ok f n d =
      (if ok then (d.canRec k ok).canSort k f n else d.canRec k ok).canKick k :=
  if_neg (by rw [active, beq_eq_false_iff_ne.mpr sends]; decide)

/-- A frame that was acknowledged leaves its buffer (R459, R464). -/
theorem doCanTxEnd_sent {n : Nat} {f : CanFrame} {z : Int} (onBus : d.can.ctl[k].onBus = some n) (frame : d.busFrame k n = some f)
    (sends : d.can.ctl[k].mode ≠ 3) : doCanTxEnd k .sent z d =
      ((((((((d.modCan k (fun c => { c with onBus := none })).emit (.can k f)).canSent k n).modCan k (fun c =>
        { c with tec := c.tec - (if c.tec = 0 then 0 else 1) })).canConfine k).canStopped k).gwPump).canKick k) := by
  rw [doCanTxEnd, onBus]
  dsimp only
  rw [frame]
  dsimp only
  rw [if_neg (by rw [beq_eq_false_iff_ne.mpr sends]; decide)]

/-- A frame without acknowledge of a controller that is error active counts 8 (R464). -/
theorem doCanTxEnd_ackError {n : Nat} {z : Int} (onBus : d.can.ctl[k].onBus = some n) (active : d.can.ctl[k].state = .active) :
    doCanTxEnd k .ackError z d = (((((((d.modCan k (fun c => { c with onBus := none })).modCan k (fun c =>
      { c with tec := BitVec.ofNat 9 (satU 9 (c.tec.toNat + 8)) })).canFailed k n).canConfine k).canStopped k).gwPump).canKick
        k) := by
  rw [doCanTxEnd, onBus]
  dsimp only
  rw [if_neg (by rw [active]; decide)]

theorem doCanLifetimeExpiry_due {b : Fin 32} {t : CanTx} {e : Nat} (holds : d.can.ctl[k].bufs[b].tx = some t)
    (limited : t.expiry = some e) (due : e < d.clk + max 1 d.tickClks) (pends : d.can.ctl[k].bufs[b].result = .pending) :
    doCanLifetimeExpiry k b d = d.bufExpire k b := by
  unfold doCanLifetimeExpiry
  dsimp only
  rw [holds]
  dsimp only
  rw [limited]
  dsimp only
  rw [if_pos due, if_pos (by rw [pends]; rfl)]

/-! ## Basic cycles and windows -/

/-- A basic cycle of a slave starts, with no role that waits (R468, R471). -/
theorem doCanBasicCycle_slave (slave : d.can.ctl[k].role.role = 2) (stays : d.can.ctl[k].roleNext = none)
    (some : d.can.ctl[k].role.basic ≠ 0) (aligned : d.tick % d.can.ctl[k].role.basic.toNat = 0)
    (new : d.can.ctl[k].basicTick ≠ d.tick) : doCanBasicCycle k d =
      ((d.refAccount k).modCan k (fun c =>
        { c with basicClk := d.clk, basicTick := d.tick, refAcked := false, refSeen := false, lostRef := false, guarding := false,
                 refPending := c.role.role == 1 && c.counts && c.state != .off && c.state != .integrating })).canKick k := by
  have long : d.can.ctl[k].role.basic.toNat ≠ 0 := fun zero => some (BitVec.eq_of_toNat_eq zero)
  unfold doCanBasicCycle
  dsimp only
  rw [if_pos (show (d.can.ctl[k].role.role != 0) = true by rw [slave]; rfl), if_neg, stays]
  rw [Nat.max_eq_right (Nat.one_le_iff_ne_zero.mpr long), aligned]
  simp only [long, ne_eq, not_true_eq_false, false_or, not_and]
  exact fun same => absurd same new

theorem doRefWindowExpiry_late (pends : d.can.ctl[k].refPending = true) (idle : d.can.ctl[k].onBus = none)
    (late : d.can.ctl[k].basicClk + 512 * d.can.ctl[k].role.windowUs.toNat < d.clk + d.tickClks) : doRefWindowExpiry k d =
      ((d.modCan k (fun c => { c with refPending := false })).canEvent k evRefLate).canKick k := by
  refine congrArg (Dev.canKick k) (if_pos ?_)
  rw [pends, idle, decide_eq_true late]
  rfl

section
variable {b : Fin 32} {t : CanTx} (holds : d.can.ctl[k].bufs[b].tx = some t)
include holds

theorem doCanWindowOpen_due (window : t.window = true) (role : d.can.ctl[k].role.role ≠ 0)
    (begins : d.can.ctl[k].basicClk + 512 * t.winStart.toNat < d.clk + max 1 d.tickClks)
    (lasts : d.clk ≤ d.can.ctl[k].basicClk + 512 * (t.winStart.toNat + t.winLen.toNat)) :
    doCanWindowOpen k b d = (d.modBuf k b (fun x => { x with winOpen := true })).canKick k := by
  refine if_pos ?_
  rw [holds, Option.any_some, window, bne_iff_ne.mpr role, decide_eq_true begins, decide_eq_true lasts]
  rfl

theorem doCanWindowClose_due
    (ends : d.can.ctl[k].basicClk + 512 * (t.winStart.toNat + t.winLen.toNat) < d.clk + max 1 d.tickClks) :
    doCanWindowClose k b d = d.modBuf k b (fun x => { x with winOpen := false }) := by
  refine if_pos ?_
  rw [holds, Option.all_some, decide_eq_true ends]

end

/-! ## The gateway -/

theorem doGwCommand_command {ws : List W32} (on : d.can.gw.ctrl.isSome = true) (op : gwOp ws = 0) :
    doGwCommand ws d = d.gwFrame ws fun data d => (d.deliver 6 (wd data 0) (data.drop 1)).gwPump := by
  rw [doGwCommand, if_neg (by rw [Option.isNone_eq_false_iff.mpr on]; decide), if_neg (by omega), if_neg (by omega)]

theorem doGwRead_read {ws : List W32} {e : Bool} {m : Memory} (op : gwOp ws = 1) :
    doGwRead ws e m d = d.gwFrame ws fun data d =>
      let r := d.readChecked m 6 (4 * fld (wd data 0) 23 0) (min 15 (fld (wd data 0) 27 24 + 1)) e
      ((r.2.answer r.1 false).gwQueue 1 r.1 false false).gwPump :=
  if_neg (not_not_intro op)

theorem doGwIrqClear_single {ws : List W32} (op : gwOp ws = 2) (first : gwFirst ws = true) (last : gwLast ws = true) :
    doGwIrqClear ws d = d.gwFrame ws fun data d => ((d.irqClear 6 (wd data 0)).pageWrite 6 0 (wd data 1)).gwPump := by
  rw [doGwIrqClear, if_neg (not_not_intro op), if_neg (by rw [first, last]; simp)]

end

/-- Settles O34, row by row. -/
theorem canEventsComplete : Obligations.CanEventsComplete := by
  refine ⟨?_, ?_, ?_, ?_, ?_, ?_, ?_, ?_, ?_, ?_, ?_⟩
  · rintro s k _ rfl integrates
    exact next_on (f := doCanIntegrated k) (if_pos (by rw [integrates]; rfl))
  · rintro s k f n _ rfl active sends
    exact ⟨next_on (doCanFrameReceived_active active sends), next_on (doCanFrameReceived_active active sends)⟩
  · rintro s k n f z _ rfl _ rfl onBus frame sends
    exact next_on (doCanTxEnd_sent onBus frame sends)
  · rintro s k n z _ rfl _ rfl onBus active
    exact next_on (doCanTxEnd_ackError onBus active)
  · rintro s k b t e _ rfl holds limited due pends
    exact next_on (doCanLifetimeExpiry_due holds limited due pends)
  · rintro s k _ rfl recovers
    exact next_on (f := doCanRecoveryDone k) (if_pos (by rw [recovers]; rfl))
  · rintro s k _ rfl _ rfl slave stays some aligned new
    exact next_on (doCanBasicCycle_slave slave stays some aligned new)
  · rintro s k _ rfl master near
    exact next_on (f := doCanGuardStart k) (if_pos (by rw [master, decide_eq_true near]; rfl))
  · rintro s k _ rfl pends idle late
    exact next_on (doRefWindowExpiry_late pends idle late)
  · rintro s k b t _ rfl _ rfl holds window
    exact ⟨fun role begins lasts => next_on (doCanWindowOpen_due holds window role begins lasts),
      fun ends => next_on (doCanWindowClose_due holds ends)⟩
  · rintro s ws e _ rfl on
    exact ⟨fun op => next_on (doGwCommand_command on op), fun op => next_onMem (doGwRead_read op),
      fun op first last => next_on (doGwIrqClear_single op first last)⟩

end Sys2Proof.Machine
end


/-! # Field inputs and outputs, SPI master ports and the mapped memory (13 R487 to R520) -/
section
namespace Sys2Proof.Machine
open Sys2Proof

/-! ## Field inputs and outputs -/

theorem applyCmd_outSet {c : Cmd} (code : c.code.toNat = 0x902) (m : Memory) (d : Dev) : applyCmd m c d = applyOutSet c d := by
  rw [applyCmd, code]
  rfl

/-- The capture units told of an edge of a field input. -/
def Dev.tellInput (n : Fin 32) (level : Bool) (t : NetTime) (d : Dev) : Dev :=
  { d with cap := { d.cap with units := d.cap.units.map (fun u =>
    if u.state == .waiting || u.state == .pre then { u with events := u.events ++ [.input n level t] } else u) } }

/-- A rising edge of a field input that held for its debounce time (R488 to R490). -/
theorem doInEdge_rise {d : Dev} {n : Fin 32} {k : Nat} {t : NetTime} {d1 : Dev}
    (stamp : ntOf (d.nt.nt + d.ntStep (2 * k) - d.ntStep (512 * (d.fio.ins[n].debUs.toNat + 1))) = t)
    (seen : d.modFio (fun f =>
      { f with ins := vmod f.ins n (fun x => { x with level := true, riseStamp := t, fallStamp := x.fallStamp }),
               inRise := f.inRise ||| nW (2 ^ n.val), inFall := f.inFall }) = d1)
    (low : d.fio.ins[n].level = false) (held : d.fio.ins[n].debClk + 512 * d.fio.ins[n].debUs.toNat ≤ d.clk + 2 * k) :
    doInEdge n true k d =
      (if d.fio.ins[n].irqRise then (d1.tellInput n true t).setIrqAll irqField else d1.tellInput n true t).homeEdge n.val true
        (d.clk + 2 * k - 512 * (d.fio.ins[n].debUs.toNat + 1)) := by
  subst stamp seen
  unfold doInEdge
  dsimp only
  rw [if_neg (by rw [low, decide_eq_false (by omega)]; decide)]
  simp only [Bool.true_and, Bool.not_true, Bool.false_and, Bool.or_false, if_true]
  rfl

theorem doBankOvertemp_first {d : Dev} (cool : d.fio.bankHot = false) (clear : d.fio.bankOt = false) : doBankOvertemp d =
    ((d.modFio (fun f => { f with bankHot := true, bankOt := true })).setIrqAll irqField).fire 131 .device := by
  unfold doBankOvertemp
  dsimp only
  rw [if_neg (by rw [cool]; decide), if_neg (by rw [clear]; decide)]

/-- Settles O35, row by row. -/
theorem fieldIoRowsComplete : Obligations.FieldIoRowsComplete := by
  refine ⟨?_, ?_, ?_, ?_, ?_, ?_, ?_, ?_, ?_, ?_, ?_, ?_⟩
  · rintro s st tag c _ rfl w runs passes
    exact next_runs runs (Dev.checked_pass _ _ passes)
  · rintro s st tag c _ rfl w0 w runs passes
    exact next_runs runs (Dev.checked_pass _ _ passes)
  · rintro s st tag c _ rfl runs passes
    exact next_runs runs (Dev.checked_pass _ _ passes)
  · rintro s st tag c _ rfl runs passes
    exact next_runs runs (Dev.checked_pass _ _ passes)
  · rintro s st tag c _ rfl x runs passes
    exact next_runs runs (Dev.checked_pass _ _ passes)
  · rintro s st tag c _ rfl ch runs passes
    exact next_runs runs (Dev.checked_pass _ _ passes)
  · rintro s n k _ rfl _ rfl t stamp d1 _ seen rfl low held
    exact next_on (doInEdge_rise stamp seen low held)
  · rintro s n level _ rfl _ rfl held
    exact next_on (f := doReadbackEdge n level) (if_neg (by omega))
  · rintro s n _ rfl _ rfl differs supplied settled
    refine next_on (f := doOutputMismatch n) (if_neg ?_)
    rw [beq_eq_false_iff_ne.mpr differs, supplied, decide_eq_false (by omega)]
    decide
  · rintro s _ rfl cool clear
    exact next_on (doBankOvertemp_first cool clear)
  · intro s
    rfl
  · intro m d c code free
    rw [applyCmd_outSet code]
    exact if_neg (by rw [free]; decide)

/-! ## The SPI master ports -/

theorem applyCmd_spmSelect {c : Cmd} (code : c.code.toNat = 0x910) (m : Memory) (d : Dev) :
    applyCmd m c d = applySpmSelect c d := by
  rw [applyCmd, code]
  rfl

theorem applyCmd_spmControl {c : Cmd} (code : c.code.toNat = 0x912) (m : Memory) (d : Dev) :
    applyCmd m c d = applySpmControl c d := by
  rw [applyCmd, code]
  rfl

theorem applyCmd_spmMap {c : Cmd} (code : c.code.toNat = 0x920) (m : Memory) (d : Dev) : applyCmd m c d = applySpmMap c d := by
  rw [applyCmd, code]
  rfl

section
variable {d : Dev} {p : Fin 2}

theorem doSpmTransferDone_running {rx : List W32} {t : SpmXfer} (runs : d.fio.spm[p].running = some t) :
    doSpmTransferDone p rx d =
      (((d.modSpm p (fun x => { x with queue := x.queue.erase t, held := if t.hold then some t.cs else none,
                                       sck := some (x.cpol t.cs), heldSince := d.clk })).emit
        (.spm p.val t.cs.val (d.fio.spm[p].settings t.cs)
          (d.fio.spm[p].lines { t with words := t.words.map (d.fio.spm[p].mask t.cs) }))).respond t.stall t.tag stOk
          (if t.noRx then [] else (List.range t.words.length).map (fun i => d.fio.spm[p].mask t.cs (wd rx i)))).mapNext := by
  rw [doSpmTransferDone, runs]

theorem Dev.spmRelease_held {k : Fin 4} (held : d.fio.spm[p].held = some k) : d.spmRelease p =
    ((d.modSpm p (fun x => { x with held := none })).emit (.spm p.val k.val (d.fio.spm[p].settings k) [.rise])).mapNext := by
  rw [Dev.spmRelease, held]

/-- A held select rises once HOLD_TO has passed without a transfer for it (R503). -/
theorem doSpmHoldLapse_due {k : Fin 4} {cfg : W32 × W32} (held : d.fio.spm[p].held = some k)
    (set : d.fio.spm[p].selects[k] = some cfg) (idle : d.fio.spm[p].running = none)
    (due : d.fio.spm[p].heldSince + fld cfg.2 31 28 * 51200 ≤ d.clk + d.tickClks) : doSpmHoldLapse p d =
      ((((d.modSpm p (fun x => { x with held := none })).emit (.spm p.val k.val (d.fio.spm[p].settings k) [.rise])).mapNext).modSpm p
        (fun x => { x with holdLapse := true })).fire 132 .device := by
  rw [← Dev.spmRelease_held held]
  unfold doSpmHoldLapse
  dsimp only
  rw [held]
  dsimp only
  rw [set, idle, if_neg]
  rw [decide_eq_false (by dsimp only; omega)]
  decide

end

/-! ## The mapped memory -/

section
variable {d : Dev} {status : Byte} {rb : List Byte} {o : MapOp} (op : d.fio.map.op = some o) (free : d.fio.spm[0].held = none)
  (ready : ((status.toNat &&& fld d.fio.map.conf[1] 7 0) != 0) = false)
include op free ready

theorem doSpmStatusPoll_error (err : ((status.toNat &&& fld d.fio.map.conf[1] 15 8) != 0) = true) :
    doSpmStatusPoll status rb d = d.emitStatusRead.mapEnd o 3 o.addr := by
  unfold doSpmStatusPoll
  dsimp only
  rw [op]
  dsimp only
  rw [if_neg (by rw [free]; decide), ready, err]
  rfl

variable (good : ((status.toNat &&& fld d.fio.map.conf[1] 15 8) != 0) = false)
include good

theorem doSpmStatusPoll_erase (erase : o.erase = true) : doSpmStatusPoll status rb d =
    if o.sectors ≤ 1 then d.emitStatusRead.mapEnd o 0 0
    else d.emitStatusRead.mapBegin { o with addr := o.addr + o.piece, sectors := o.sectors - 1 } := by
  unfold doSpmStatusPoll
  dsimp only
  rw [op]
  dsimp only
  rw [if_neg (by rw [free]; decide), ready, good]
  exact if_pos erase

theorem doSpmStatusPoll_write (write : o.erase = false)
    (verified : bitOf d.fio.map.conf[0] 5 = true → rb.take o.piece = o.rest.take o.piece) : doSpmStatusPoll status rb d =
      let d1 := if bitOf d.fio.map.conf[0] 5 then d.emitStatusRead.emitRead o.addr o.piece else d.emitStatusRead
      if o.rest.length ≤ o.piece then d1.mapEnd o 0 0
      else d1.mapBegin { o with addr := o.addr + o.piece, rest := o.rest.drop o.piece } := by
  unfold doSpmStatusPoll
  dsimp only
  rw [op]
  dsimp only
  rw [if_neg (by rw [free]; decide), ready, good]
  simp only [Bool.false_and, Bool.false_eq_true, if_false, write]
  exact if_neg (by simpa using verified)

end

theorem doSpmMemRead_ready {d : Dev} {st : Stall} {tag : BitVec 8} {data : List W32} {c : Cmd} (runs : d.runs st tag 0x921 c = true)
    (on : d.fio.map.en = true) (ready : d.fio.map.op = none) (free : d.fio.spm[0].held = none)
    (good : (badLen c 2 || rsv (wd c.payload 1) 0xFFFFFC00 || fld (wd c.payload 1) 9 0 < 1 || fld (wd c.payload 1) 9 0 > 1022 ||
      d.fio.map.outside (wd c.payload 0).toNat 4 (fld (wd c.payload 1) 9 0)) = false) :
    doSpmMemRead st tag data d = (d.emitRead (wd c.payload 0).toNat (4 * fld (wd c.payload 1) 9 0)).ok c
      ((List.range (fld (wd c.payload 1) 9 0)).map (wd data)) := by
  refine (Dev.start_runs _ runs).trans ((if_neg ?_).trans (Dev.checked_pass _ _ ?_))
  · rw [on, ready, free]
    decide
  · exact (passes_cons (by decide)).mpr ⟨by rw [on]; rfl, (passes_cons (by decide)).mpr ⟨good, passes_nil⟩⟩

theorem doMappedRead_miss {d : Dev} {addr : Nat} {line : List Byte} (on : d.fio.map.en = true) (ready : d.fio.map.op = none)
    (free : d.fio.spm[0].held = none) (within : addr < d.fio.map.size) (miss : Mem.read none d.fio.map.cache (addr / 64) = none)
    (room : d.fio.map.cache.length < 1024) : doMappedRead addr line d =
      (d.emitRead (addr / 64 * 64) 64).modMap (fun m =>
        { m with cache := Mem.write none m.cache (addr / 64) (some (line.take 64)) }) := by
  unfold doMappedRead
  dsimp only
  rw [if_neg (by rw [on, ready, free, miss, decide_eq_false (by omega)]; decide), if_pos room]

/-- Settles O36, row by row. -/
theorem peripheralPortRowsComplete : Obligations.PeripheralPortRowsComplete := by
  refine ⟨?_, ?_, ?_, ?_, ?_, ?_, ?_, ?_, ?_, ?_, ?_, ?_, ?_, ?_⟩
  · rintro s st tag c _ rfl runs
    exact next_runs runs rfl
  · intro m d c code w p sel x passes
    rw [applyCmd_spmSelect code, applySpmSelect]
    exact Dev.checked_pass _ d passes
  · rintro s st tag c _ rfl w p sel n x runs passes
    exact next_runs runs (Dev.checked_pass _ _ passes)
  · rintro s st tag c _ rfl runs
    exact next_runs runs rfl
  · intro m d c code w p op passes
    rw [applyCmd_spmControl code, applySpmControl]
    exact Dev.checked_pass _ d passes
  · rintro s st tag c _ rfl runs
    exact next_runs runs rfl
  · intro m d c code w w1 w2 size within passes
    rw [applyCmd_spmMap code, applySpmMap]
    exact Dev.checked_pass _ d passes
  · rintro s st tag data c _ rfl runs on ready free good
    exact next_on (doSpmMemRead_ready runs on ready free good)
  · rintro s st tag c _ rfl m a w n runs passes
    exact next_runs runs (Dev.checked_pass _ _ passes)
  · rintro s st tag c _ rfl m a w n runs passes
    exact next_runs runs (Dev.checked_pass _ _ passes)
  · rintro s p rx t _ rfl _ rfl runs
    exact next_on (doSpmTransferDone_running runs)
  · rintro s p k cfg _ rfl _ rfl held set idle due
    exact next_on (doSpmHoldLapse_due held set idle due)
  · rintro s status rb o _ rfl _ rfl _ _ rfl rfl op free ready
    refine ⟨fun err => next_on (doSpmStatusPoll_error op free ready err), fun good => ⟨fun erase one => ?_, fun erase more => ?_,
      fun write verified => ⟨fun last => ?_, fun more => ?_⟩⟩⟩
    · exact next_on ((doSpmStatusPoll_erase op free ready good erase).trans (if_pos one))
    · exact next_on ((doSpmStatusPoll_erase op free ready good erase).trans (if_neg (by omega)))
    · exact next_on ((doSpmStatusPoll_write op free ready good write verified).trans (if_pos last))
    · exact next_on ((doSpmStatusPoll_write op free ready good write verified).trans (if_neg (by omega)))
  · rintro s addr line _ rfl _ rfl on ready free within miss room
    exact next_on (doMappedRead_miss on ready free within miss room)

end Sys2Proof.Machine
end


/-! # Faults, memories and the management pairs (14 R521 to R532, R541, R542, R554 to R557) -/
section
namespace Sys2Proof.Machine
open Sys2Proof

/-! ## Episodes, recoveries and restarts -/

/-- One sown error that stays undetected for 100 ms fires FS154, and its command answers DETECTED 0 (R542). -/
theorem doSowTimeout_one {d : Dev} {x : Sown} (one : d.sv.sown = [x]) (late : d.passedMs x.since 100 = true) :
    doSowTimeout d = Dev.respond x.stall x.tag stOk [0, 0]
      ({ d with sv := { d.sv with sown := [] } }.asSown true (Dev.fire 154 .device)) := by
  unfold doSowTimeout
  have due : d.sv.sown.filter (fun x => d.passedMs x.since 100) = [x] := by
    rw [one]
    exact List.filter_cons_of_pos late
  have rest : d.sv.sown.filter (fun y => y != x) = [] := by
    rw [one, List.filter_cons_of_neg (by rw [bne_self_eq_false]; exact Bool.false_ne_true), List.filter_nil]
  rw [due, List.foldl_cons, List.foldl_nil, rest]

/-- An episode closes once no axis is in fault and it has been quiet (R527). -/
theorem doEpisodeClose_quiet {d : Dev} (runs : d.ft.episode = true) (not_safe : d.ft.safeState = false)
    (whole : ∀ a : AxisNo, d.axf[a].fault = false) (quiet : d.ft.lastSev2 + d.ft.quietMs.toNat * clksPerMs < d.clk) :
    doEpisodeClose d = { d with ft := { d.ft with episode := false } } := by
  have none_faulty : allAxes.any (fun a => d.axf[a].fault) = false := List.any_eq_false.mpr fun a _ => by
    rw [whole a]
    exact Bool.false_ne_true
  exact if_pos (by rw [runs, not_safe, none_faulty, decide_eq_true quiet]; rfl)

section
variable {d : Dev} {a : AxisNo} (faulty : d.axf[a].fault = true) (free : d.axf[a].latched = false)
  (not_safe : d.ft.safeState = false) (may : d.mayRecover a = true)
include faulty free not_safe may

theorem doAxisRecovery_recovers (unlimited : d.ft.latchN = 0) : doAxisRecovery a d = d.recoverAxis a := by
  unfold doAxisRecovery
  dsimp only
  rw [if_neg (by rw [faulty, free, not_safe, may]; decide), if_neg (by rw [unlimited]; exact Bool.false_ne_true)]

/-- The recovery that reaches LATCH_N latches the axis instead (R530). -/
theorem doAxisRecovery_latches (limited : d.ft.latchN ≠ 0) (often : d.ft.latchN.toNat ≤ d.recovWin a + 1) :
    doAxisRecovery a d = ((d.modAxf a (fun f => { f with latched := true })).ledger 3 0 0 (2 ^ a.val)
      (nW (satU 8 (d.recovWin a))) 0).fire 153 (.axes [a]) := by
  unfold doAxisRecovery
  dsimp only
  rw [if_neg (by rw [faulty, free, not_safe, may]; decide),
    if_pos (by rw [bne_iff_ne.mpr limited, decide_eq_true often]; rfl)]

end

theorem doRailFaultRestart_due {d : Dev} {t : Nat} (scheduled : d.ft.railRestartAt = some t) (up : d.up = true)
    (due : t ≤ d.clk + d.tickClks) (may : d.ft.safeUntilPower = false) : doRailFaultRestart d = d.resetNow .rail := by
  unfold doRailFaultRestart
  rw [scheduled]
  exact if_pos (by rw [up, may, decide_eq_true due]; rfl)

/-- A die that comes to be above 120 °C and not above 135 °C fires FS007 alone (R522). -/
theorem doDieOvertemp_warm {d : Dev} {die : Fin 4} {t : Int} (warm : 120 < t) (not_hot : t ≤ 135)
    (cool : d.sv.dies[die].tempC.toInt ≤ 120) : doDieOvertemp die t d =
      (d.modSv (fun s =>
        { s with dies := vset s.dies die { d.sv.dies[die] with tempC := BitVec.ofInt 8 (satS 8 t), hot := decide (135 < t) } })).fire
          7 .device := by
  unfold doDieOvertemp
  dsimp only
  rw [if_neg (by rw [decide_eq_false (p := t > 135) (by omega)]; exact Bool.false_ne_true),
    if_pos (by rw [decide_eq_true (p := t > 120) warm, decide_eq_true cool]; rfl)]

theorem doThermalRestart_cooled {d : Dev} {a b c e : Int} (up : d.up = true) (waits : d.ft.thermalRestart = true)
    (ha : a < 115) (hb : b < 115) (hc : c < 115) (he : e < 115) (may : d.ft.safeUntilPower = false) :
    doThermalRestart [a, b, c, e] d = Dev.resetNow .thermal (d.modSv (fun s => { s with
      dies := Vector.ofFn (fun i : Fin 4 =>
        { s.dies[i] with tempC := BitVec.ofInt 8 (satS 8 ([a, b, c, e].getD i.val 0)), hot := false }) })) :=
  if_pos (by
    rw [up, waits, may]
    simp only [List.all_cons, List.all_nil, ha, hb, hc, he, decide_true]
    rfl)

theorem applyCmd_faultConfig {c : Cmd} (code : c.code.toNat = 0xB00) (m : Memory) (d : Dev) :
    applyCmd m c d = applyFaultConfig c d := by
  have faults : applyCmd m c d = applyFaults c d := by
    rw [applyCmd, code]
    rfl
  rw [faults, applyFaults, code]
  rfl

/-- FaultConfig without bit 31 sets or clears the severity of one source (R554). -/
theorem applyFaultConfig_severity {c : Cmd} (source : bitOf (wd c.payload 0) 31 = false) (d : Dev) :
    applyFaultConfig c d = Dev.ok c [] { d with ft := { d.ft with
      sevSet := Mem.write none d.ft.sevSet (fld (wd c.payload 0) 8 0)
        (if bitOf (wd c.payload 0) 15 then none else some (fld (wd c.payload 0) 14 12)) } } := by
  unfold applyFaultConfig
  dsimp only
  rw [if_neg (Bool.eq_false_iff.mp source)]

/-- Settles O37, row by row. -/
theorem faultRowsComplete : Obligations.FaultRowsComplete := by
  refine ⟨?_, ?_, ?_, ?_, ?_, ?_, ?_, ?_, ?_, ?_, ?_⟩
  · rintro s st tag c _ rfl runs passes
    exact next_runs runs (Dev.checked_pass _ _ passes)
  · rintro s st tag c _ rfl runs passes
    exact next_runs runs (Dev.checked_pass _ _ passes)
  · rintro s st tag c _ rfl runs passes
    exact next_runs runs (Dev.checked_pass _ _ passes)
  · rintro s st tag c _ rfl w t k runs passes
    exact next_runs runs (Dev.checked_pass _ _ passes)
  · rintro s x _ rfl one late _ rfl
    exact next_on (doSowTimeout_one one late)
  · rintro s _ rfl runs not_safe whole quiet
    exact next_on (doEpisodeClose_quiet runs not_safe whole quiet)
  · rintro s a _ rfl faulty free not_safe may
    refine ⟨fun unlimited => ?_, fun limited often => ?_⟩
    · exact next_on (doAxisRecovery_recovers faulty free not_safe may unlimited)
    · exact next_on (doAxisRecovery_latches faulty free not_safe may limited often)
  · rintro s t _ rfl scheduled up due may
    exact next_on (doRailFaultRestart_due scheduled up due may)
  · rintro s die t _ rfl _ rfl warm not_hot cool
    exact next_on (doDieOvertemp_warm warm not_hot cool)
  · rintro s a b c e _ rfl up waits ha hb hc he may
    exact next_on (doThermalRestart_cooled up waits ha hb hc he may)
  · rintro m d c _ code source rfl
    rw [applyCmd_faultConfig code, applyFaultConfig_severity source]

/-! ## Memories and management pairs -/

theorem Dev.pairActs_of {d : Dev} (unchanged : d.sv.mpChange = .none) : d.pairActs = true := by
  rw [Dev.pairActs, unchanged]
  rfl

theorem doStandbyPairFailure_ready {d : Dev} (ready : d.sv.standby = .ready) : doStandbyPairFailure d =
    d.withSown 4 0 1 (fun d => d.fireStandby.modSv (fun s =>
      { s with standby := .starting, mpWasActive := false, standbyNew := false })) :=
  if_neg (by rw [ready]; decide)

/-- The pair under test is ready where no roll-back waits for it (R541, R546). -/
theorem doMpTestDone_ready {d : Dev} (tested : d.sv.standby = .starting) (unchanged : d.sv.mpChange = .none)
    (no_rollback : d.sv.fwPhase ≠ 5) :
    doMpTestDone true d = d.modSv (fun s => { s with standby := .ready, mpWasActive := false }) := by
  unfold doMpTestDone
  rw [if_neg (by rw [tested, Dev.pairActs_of unchanged]; decide), beq_eq_false_iff_ne.mpr no_rollback]
  rfl

/-- Settles O38, row by row. -/
theorem memoryAndProcessorFaultsComplete : Obligations.MemoryAndProcessorFaultsComplete := by
  refine ⟨?_, ?_, ?_, ?_, ?_⟩
  · exact fun s a w => ⟨rfl, rfl, rfl⟩
  · exact fun s n many => next_on (f := doDramCorrectableRate n) (if_pos many)
  · exact fun s => ⟨rfl, rfl⟩
  · exact fun s ready => next_on (doStandbyPairFailure_ready ready)
  · rintro s _ rfl tested unchanged no_rollback
    exact next_on (doMpTestDone_ready tested unchanged no_rollback)

end Sys2Proof.Machine
end


/-! # Rotation, margins, firmware and the ledger (14 R533 to R540, R543 to R552, R558 to R566) -/
section
namespace Sys2Proof.Machine
open Sys2Proof

/-! ## The rotation (R533 to R540, R547) -/

/-- A test of anything but a lane ends without a change of roles (R547). -/
theorem doBistDone_other {d : Dev} {got want : W32} {us : Nat} {b : Bist} {rest : List Bist} (queue : d.sv.bist = b :: rest)
    (other : b.target ≠ 0) : doBistDone got want us d =
      ((d.bistEnd b).modSv (fun s => { s with bist := rest })).respond b.stall b.tag stOk
        [got, want, mkw [(b2n (got == want), 31, 1), (us / 1000, 0, 16)]] := by
  unfold doBistDone
  rw [queue]
  dsimp only
  rw [beq_eq_false_iff_ne.mpr other]
  rfl

theorem doRotationStep_rotates {d : Dev} (step : (d.tick + 1) % d.rotTicks = 0) (retire : d.sv.rot.retire = [])
    (hold : d.sv.rot.hold = false) (errs : d.sv.rot.errs = []) (takeover : d.sv.rot.takeoverTick = none) :
    doRotationStep d = d.rotate := by
  unfold doRotationStep
  dsimp only
  rw [if_neg (not_not_intro step), if_neg (by rw [retire]; decide), if_neg (by rw [hold, errs, takeover]; exact Bool.false_ne_true)]

/-- The lane under test, moved to the end of the test order, and what its image check found (R534). -/
def Dev.lnTested (l : LaneNo) (test : LaneTest) (d : Dev) : Dev :=
  (d.modRot (fun r => { r with testOrder := r.testOrder.filter (· != l) ++ [l] })).modLane l (fun x =>
    { x with pmOk := match test with
        | .pass => true
        | .imageBad => false
        | .failed => x.pmOk })

/-- A lane left as it is leaves the device as it is. -/
theorem Dev.modLane_self {d : Dev} {l : LaneNo} {f : Lane → Lane} (same : f d.lanes[l] = d.lanes[l]) : d.modLane l f = d := by
  unfold Dev.modLane vmod
  rw [same]
  exact congrArg (fun v => { d with lanes := v }) (Vector.set_getElem_self l.isLt)

/-- Two changes of a lane are one. -/
theorem Dev.modLane_modLane (d : Dev) (l : LaneNo) (f g : Lane → Lane) :
    (d.modLane l f).modLane l g = d.modLane l (fun x => g (f x)) := by
  have twice : vmod (vmod d.lanes l f) l g = vmod d.lanes l (fun x => g (f x)) := by
    unfold vmod vset
    rw [Vector.set_set]
    exact congrArg (fun x => d.lanes.set l.val x l.isLt) (congrArg g (Vector.getElem_set_self l.isLt))
  exact congrArg (fun v => { d with lanes := v }) twice

section
variable {d : Dev} {l : LaneNo} (mine : d.sv.rot.fallow = some l) (untested : d.sv.rot.passed = false)
include mine untested

theorem doLaneTestDone_fails {test : LaneTest} (fails : test ≠ .pass) : doLaneTestDone l test d =
    (((d.lnTested l test).laneOut l).fire 141 .device).laneRecord l 31 0 := by
  unfold doLaneTestDone
  dsimp only
  rw [if_neg (by rw [mine, untested]; simp), if_pos (by rw [bne_iff_ne.mpr fails]; rfl)]
  rfl

theorem doLaneTestDone_passes (fit : d.sv.rot.worn.contains l = false) : doLaneTestDone l .pass d =
    if d.sv.rot.inPlace then
      ((d.lnTested l .pass).modLane l (fun x => { x with role := .spare })).modRot (fun r =>
        { r with fallow := none, inPlace := false })
    else (d.lnTested l .pass).modRot (fun r => { r with passed := true }) := by
  unfold doLaneTestDone
  dsimp only
  rw [if_neg (by rw [mine, untested]; simp), if_neg (by rw [fit]; decide)]
  rfl

end

theorem doLaneError_inService {d : Dev} {l : LaneNo} (serves : d.lanes[l].role = .inService) :
    doLaneError l d = d.withSown 0 l.val 140 (fun d => d.laneFault l 140) := by
  unfold doLaneError
  rw [serves]

section
variable {d : Dev} {k : Fin 4} {n : Nat} {ok : Bool}

theorem doConverterStandinStep_back (back : d.sv.spares[k].step = .back n) :
    doConverterStandinStep k ok d = d.endStandIn k := by
  unfold doConverterStandinStep
  dsimp only
  rw [back]

theorem doConverterStandinStep_overlap (overlap : d.sv.spares[k].step = .overlap n) :
    doConverterStandinStep k ok d = d.standIn k n (.deliver n) := by
  unfold doConverterStandinStep
  dsimp only
  rw [overlap]

theorem doConverterStandinStep_deliver (deliver : d.sv.spares[k].step = .deliver n) :
    doConverterStandinStep k false d = d.convError n := by
  unfold doConverterStandinStep
  dsimp only
  rw [deliver]
  rfl

end

/-- Settles O39, row by row. -/
theorem rotationRowsComplete : Obligations.RotationRowsComplete := by
  refine ⟨?_, ?_, ?_, ?_, ?_, ?_, ?_, ?_, ?_⟩
  · rintro s st tag c _ rfl w op l out pend runs passes
    exact next_runs runs (Dev.checked_pass _ _ passes)
  · rintro s st tag c _ rfl w t k lane runs passes
    exact next_runs runs (Dev.checked_pass _ _ passes)
  · rintro s _ rfl hold late
    exact next_on (f := doRotationHoldExpiry) (if_pos (by rw [hold, late]; rfl))
  · rintro s got want us b rest _ rfl queue other
    exact next_on (doBistDone_other queue other)
  · rintro s _ rfl step retire hold errs takeover
    exact next_on (doRotationStep_rotates step retire hold errs takeover)
  · rintro s l _ rfl _ rfl mine untested
    refine ⟨?_, ?_, fun fit moves => ?_, fun fit stays => ?_⟩
    · have failed := doLaneTestDone_fails mine untested (test := .failed) (by decide)
      exact next_on (by rw [failed, Dev.lnTested, Dev.modLane_self rfl])
    · exact next_on (doLaneTestDone_fails mine untested (by decide))
    · exact next_on ((doLaneTestDone_passes mine untested fit).trans (if_neg (Bool.eq_false_iff.mp moves)))
    · refine next_on ((doLaneTestDone_passes mine untested fit).trans ((if_pos stays).trans ?_))
      rw [Dev.lnTested, Dev.modLane_modLane]
  · rintro s l _ rfl serves
    exact next_on (doLaneError_inService serves)
  · rintro s k n _ rfl
    refine ⟨fun back ok => ?_, fun overlap ok => ?_, fun deliver => ?_⟩
    · exact next_on (doConverterStandinStep_back back)
    · exact next_on (doConverterStandinStep_overlap overlap)
    · exact next_on (doConverterStandinStep_deliver deliver)
  · exact fun s n k _ dev other => dev ▸ next_on (f := doConverterError n k) (if_neg other)

/-! ## Margins and firmware (R543 to R551) -/

/-- A baseline measurement of the device's own: no plan becomes due, and neither FS151 nor FS152 fires (R549, R550). -/
theorem doMarginMeasureDone_baseline {d : Dev} {a : AxisNo} {r : List LegMeasure} {x : Measuring}
    (assigned : d.assigned a = true) (whole : r.length = (d.axisLegs a).length)
    (run : d.sv.measuring.find? (fun m => m.axis == a) = some x) (baseline : x.baseline = true) (apply : x.apply = false)
    (own : x.cmd = none) (not_due : (d.axf[a].measureDue && !d.bridgeBusy a && !d.busLow a) = false)
    (unclamped : (d.planOf a r).2 = false) : doMarginMeasureDone a r d =
      (((d.axisLegs a).zip r).foldl (fun d y => d.legMeasured a true y.1 y.2) d).modSv (fun s =>
        { s with measuring := s.measuring.eraseIdx (s.measuring.findIdx (fun m => m.axis == a)),
                 plans := vset s.plans a (some (d.planOf a r).1) }) := by
  unfold doMarginMeasureDone
  dsimp only
  rw [run, not_due, unclamped, if_neg (by rw [assigned, whole, bne_self_eq_false (d.axisLegs a).length]; exact Bool.false_ne_true)]
  simp only [Option.map_some, Option.getD_some, Option.bind_some, Option.isNone_some, baseline, apply, own, Bool.not_true,
    Bool.false_and, Bool.or_false, Bool.false_eq_true, if_false]

section
variable {d : Dev} (updating : d.updating = true) (unchanged : d.sv.mpChange = .none)
include updating unchanged

theorem doStandbyImageStarted_inUpdate (standby : d.sv.standby = .inUpdate) : doStandbyImageStarted d =
    d.modSv (fun s => { s with standby := .inUpdate, standbyNew := true }) := by
  unfold doStandbyImageStarted
  rw [unchanged]
  exact if_pos (by rw [updating, standby]; rfl)

/-- A sequence without a command that has found no boundary in 1 s goes back to the phase before it (R545). -/
theorem doLiveSwitchTimeout_own (own : d.sv.fwCmd = none) (tested : d.sv.standby ≠ .starting)
    (late : d.passedMs d.sv.fwSince 1000 = true) : doLiveSwitchTimeout d = d.modSv (fun s =>
      { s with fwPhase := s.fwBefore, fwCmd := none, standbyNew := false,
               standby := if s.standby == .inUpdate then .ready else s.standby }) := by
  unfold doLiveSwitchTimeout
  rw [if_neg (by rw [updating, late, own, beq_eq_false_iff_ne.mpr tested, Dev.pairActs_of unchanged]; decide), own]

/-- The switch of a live update that no command waits for, recorded as one forward (R545). -/
theorem doLiveSwitch_forward (phase : d.sv.fwPhase = 3) (own : d.sv.fwCmd = none) (new : d.sv.standbyNew = true)
    (frame : d.isFrame = true) (idle : d.bestEffortRuns = false) (early : d.clk ≤ d.sv.fwSince + 1000 * clksPerMs) :
    doLiveSwitch d = (d.modSv (fun s =>
      { s with running := s.other, active := !s.active, standbyNew := false, stdArea := s.stdArea != s.lawsChanged,
               switchClk := some d.clk, fwCmd := none })).ledger 7 0 0 0
        (((d.sv.images[d.sv.running]).version).setWidth 32 ||| 0x02000000)
        (((d.sv.images[d.sv.other]).version).setWidth 32) := by
  have not_late : decide (d.clk > d.sv.fwSince + 1000 * clksPerMs) = false := decide_eq_false (by omega)
  unfold doLiveSwitch
  dsimp only
  rw [if_neg (by rw [updating, new, frame, idle, Dev.pairActs_of unchanged, not_late]; decide), own, phase]
  rfl

end

theorem doTrialStart_live {d : Dev} {t : Nat} (switched : d.sv.switchClk = some t) (phase : d.sv.fwPhase = 3)
    (late : d.passedMs t 400 = true) : doTrialStart d = d.modSv (fun s =>
      { s with switchClk := none, standby := .ready, fwPhase := 4, trialEnd := d.clk + 1000 * clksPerMs * s.trialS }) := by
  unfold doTrialStart Dev.modSv
  rw [switched]
  dsimp only
  rw [if_neg (by rw [phase, late]; decide), phase]
  rfl

/-- Settles O40, row by row. -/
theorem marginAndFirmwareRowsComplete : Obligations.MarginAndFirmwareRowsComplete := by
  refine ⟨?_, ?_, ?_, ?_, ?_, ?_, ?_, ?_, ?_, ?_, ?_⟩
  · rintro s st tag c _ rfl runs passes
    exact next_runs runs (Dev.checked_pass _ _ passes)
  · rintro s st tag c _ rfl runs passes
    exact next_runs runs (Dev.checked_pass _ _ passes)
  · rintro s st tag c _ rfl p w n ofs runs passes
    exact next_runs runs (Dev.checked_pass _ _ passes)
  · rintro s st tag c _ rfl runs passes
    exact next_runs runs (Dev.checked_pass _ _ passes)
  · rintro s st tag c _ rfl w w1 runs passes
    exact next_runs runs (Dev.checked_pass _ _ passes)
  · rintro s a r x _ rfl _ rfl assigned whole run baseline apply own not_due unclamped
    exact next_on (doMarginMeasureDone_baseline assigned whole run baseline apply own not_due unclamped)
  · rintro s st tag sig laws c _ rfl runs len clear
    exact next_runs runs (Dev.checked_pass _ _ ((passes_cons (by decide)).mpr ⟨by rw [len, clear]; rfl, passes_nil⟩))
  · rintro s st tag c _ rfl runs passes
    refine ⟨fun op => ?_, fun op => ?_⟩
    · refine next_runs runs ((Dev.checked_pass _ _ passes).trans ?_)
      dsimp only
      rw [op]
      rfl
    · refine next_runs runs ((Dev.checked_pass _ _ passes).trans ?_)
      dsimp only
      rw [op]
      rfl
  · rintro s _ rfl updating
    refine ⟨fun standby unchanged => ?_, fun own tested unchanged late => ?_, fun phase own new frame idle unchanged early => ?_⟩
    · exact next_on (doStandbyImageStarted_inUpdate updating unchanged standby)
    · exact next_on (doLiveSwitchTimeout_own updating unchanged own tested late)
    · exact next_on (doLiveSwitch_forward updating unchanged phase own new frame idle early)
  · rintro s t _ rfl switched phase late
    exact next_on (doTrialStart_live switched phase late)
  · rintro s _ rfl phase due
    exact next_on (f := doTrialExpiry) (if_pos (by rw [phase, decide_eq_true due]; rfl))

end Sys2Proof.Machine
end


/-! # The safety commands (15 R592, R602 to R606, R609 to R612) -/
section
namespace Sys2Proof.Machine
open Sys2Proof

/-! ## SafetyAck -/

/-- No cause of a lock-out that may be acknowledged persists. -/
theorem lockout_gone {d : Dev} (gone : ∀ u < 22, d.sf.lockout.getLsbD u = true → d.causePersists u = false) :
    (List.range 22).any (fun u => d.sf.lockout.getLsbD u && d.causePersists u) = false :=
  List.any_eq_false.mpr fun u mem both => by
    obtain ⟨locked, persists⟩ := Bool.and_eq_true_iff.mp both
    rw [gone u (List.mem_range.mp mem) locked] at persists
    exact Bool.false_ne_true persists

/-- An armed acknowledge of a lock-out whose causes are gone clears it (R592). -/
theorem doSafetyAck_clears {d : Dev} {st : Stall} {tag : BitVec 8} {c : Cmd} (runs : d.runs st tag 0xA00 c = true)
    (len : badLen c 0 = false) (locked : d.sf.lockout ≠ 0) (armed : d.sf.armed = true)
    (gone : ∀ u < 22, d.sf.lockout.getLsbD u = true → d.causePersists u = false) (units : d.sf.lockout ≠ unitBit unitParam) :
    doSafetyAck st tag d = (((d.touch.modSafe Safety.cleared).stoEdge 0 (d.touch.stoActive 0)).stoEdge 1
      (d.touch.stoActive 1)).ok c [] := by
  unfold doSafetyAck
  rw [Dev.start_runs _ runs]
  refine Dev.checked_pass _ _ ((passes_cons (by decide)).mpr ⟨?_, (passes_cons (by decide)).mpr
    ⟨beq_eq_false_iff_ne.mpr locked, (passes_cons (by decide)).mpr ⟨len, passes_nil⟩⟩⟩)
  rw [armed, lockout_gone gone, beq_eq_false_iff_ne.mpr units]
  simp

/-! ## SafetyCommission -/

/-- Is the payload of a SafetyCommission malformed (R610)? -/
def commissionBad (c : Cmd) : Bool :=
  badLen c 3 || rsv (wd c.payload 0) 0xFFFFFFEC || (!bitOf (wd c.payload 0) 4 && wd c.payload 2 != 0) ||
    ((fld (wd c.payload 0) 1 0 == 1 || fld (wd c.payload 0) 1 0 == 3) && wd c.payload 1 != 0)

/-- Does a SafetyCommission open with a wrong code? -/
def Dev.commissionWrong (d : Dev) (c : Cmd) : Bool :=
  (fld (wd c.payload 0) 1 0 == 0 && !commissionBad c) && wd c.payload 1 != d.sf.code

/-- The device after a SafetyCommission's code was looked at: a wrong one counts (R605). -/
def Dev.commissionTry (d : Dev) (c : Cmd) : Dev :=
  if d.commissionWrong c && !d.sf.codeBlocked && !d.sf.commissioning then d.wrongCode else d

/-- The checks of a SafetyCommission, in the order of the model. -/
def Dev.commissionChecks (d : Dev) (c : Cmd) : List (Bool × Nat) :=
  let op := fld (wd c.payload 0) 1 0
  [(noWord c, stParam), (op == 2 && d.sf.commissioning && !commissionBad c && d.confirmTaken, stResource),
   ((op == 0 && !commissionBad c) && (d.commissionWrong c || d.sf.codeBlocked), stSafetyLock),
   ((op == 0) == d.sf.commissioning || (op == 2 && d.sf.confirm.isSome), stState), (commissionBad c, stParam)]

/-- What a SafetyCommission that passes its checks does. -/
def Dev.commissionOp (c : Cmd) (op : Nat) (d : Dev) : Dev :=
  match op with
  | 0 => d.openCommission.ok c [0, 0, 0]
  | 3 => d.abortCommission.ok c [0, 0, 0]
  | _ => d.verifyOrConfirm c op

theorem doSafetyCommission_runs {d : Dev} {st : Stall} {tag : BitVec 8} {c : Cmd} (runs : d.runs st tag 0xA10 c = true) :
    doSafetyCommission st tag d =
      Dev.checked c 4 (d.commissionChecks c) (Dev.commissionOp c (fld (wd c.payload 0) 1 0)) (d.commissionTry c).touch :=
  Dev.start_runs _ runs

section
variable {d : Dev} {st : Stall} {tag : BitVec 8} {c : Cmd} (runs : d.runs st tag 0xA10 c = true) (good : commissionBad c = false)
  (len : badLen c 3 = false)
include runs good len

/-- OPEN with the access code opens commissioning (R603). -/
theorem doSafetyCommission_opens (op : fld (wd c.payload 0) 1 0 = 0) (code : wd c.payload 1 = d.sf.code)
    (free : d.sf.codeBlocked = false) (shut : d.sf.commissioning = false) :
    doSafetyCommission st tag d = d.touch.openCommission.ok c [0, 0, 0] := by
  have right : d.commissionWrong c = false := by rw [Dev.commissionWrong, code, bne_self_eq_false d.sf.code, Bool.and_false]
  have passes : Passes (d.commissionChecks c) := by
    rw [Dev.commissionChecks, op, right, free, shut, good, noWord_of_badLen len]
    rfl
  rw [doSafetyCommission_runs runs, Dev.checked_pass _ _ passes, Dev.commissionTry, right, op]
  rfl

/-- OPEN with a wrong code counts it and answers SAFETY_LOCK (R605). -/
theorem doSafetyCommission_wrong (op : fld (wd c.payload 0) 1 0 = 0) (code : wd c.payload 1 ≠ d.sf.code)
    (free : d.sf.codeBlocked = false) (shut : d.sf.commissioning = false) :
    doSafetyCommission st tag d = d.wrongCode.touch.respondN c.stall c.tag stSafetyLock 4 := by
  have wrong : d.commissionWrong c = true := by rw [Dev.commissionWrong, op, good, bne_iff_ne.mpr code]; rfl
  have first : firstBad (d.commissionChecks c) = stSafetyLock := by
    rw [Dev.commissionChecks, op, wrong, good, noWord_of_badLen len]
    rfl
  rw [doSafetyCommission_runs runs, Dev.checked_answers _ _ first (by decide) (by decide), Dev.commissionTry, wrong, free, shut]
  rfl

/-- ABORT ends an open commissioning (R610). -/
theorem doSafetyCommission_aborts (op : fld (wd c.payload 0) 1 0 = 3) (is_open : d.sf.commissioning = true) :
    doSafetyCommission st tag d = d.touch.abortCommission.ok c [0, 0, 0] := by
  have right : d.commissionWrong c = false := by rw [Dev.commissionWrong, op]; rfl
  have passes : Passes (d.commissionChecks c) := by
    rw [Dev.commissionChecks, op, good, is_open, noWord_of_badLen len]
    rfl
  rw [doSafetyCommission_runs runs, Dev.checked_pass _ _ passes, Dev.commissionTry, right, op]
  rfl

end

theorem doCommissionConfirmTimeout_late {d : Dev} {w : ConfirmWait} (waits : d.sf.confirm = some w)
    (late : d.past w.since (60000 * clksPerMs) = true) : doCommissionConfirmTimeout d =
      (d.modSafe (fun s => { s with confirm := none })).respondN w.stall w.tag stTimeout 4 := by
  unfold doCommissionConfirmTimeout
  rw [waits]
  exact if_pos late

/-- Settles O41, row by row. -/
theorem safetyCommandsComplete : Obligations.SafetyCommandsComplete := by
  refine ⟨?_, ?_, ?_, ?_, ?_, ?_, ?_⟩
  · rintro s st tag c _ _ _ rfl rfl rfl runs len locked armed gone units
    exact next_on (doSafetyAck_clears runs len locked armed gone units)
  · rintro s st tag c _ _ rfl rfl w ofs n runs passes
    exact next_runs runs (Dev.checked_pass _ _ passes)
  · rintro s st tag c _ _ rfl rfl w ofs n staging runs passes
    exact next_runs runs (Dev.checked_pass _ _ passes)
  · rintro s st tag c _ _ rfl rfl _ rfl runs len clear old word
    have good (given : ((fld (wd c.payload 0) 1 0 == 1 || fld (wd c.payload 0) 1 0 == 3) && wd c.payload 1 != 0) = false) :
        commissionBad c = false := by
      rw [commissionBad, len, clear, old, word, given]
      rfl
    refine ⟨fun op code free shut => ?_, fun op code free shut => ?_, fun op none_given is_open => ?_⟩
    · exact next_on (doSafetyCommission_opens runs (good (by rw [op]; rfl)) len op code free shut)
    · exact next_on (doSafetyCommission_wrong runs (good (by rw [op]; rfl)) len op code free shut)
    · exact next_on (doSafetyCommission_aborts runs (good (by rw [none_given]; exact Bool.and_false _)) len op is_open)
  · rintro s _ rfl is_open
    refine ⟨fun idle => ?_, fun w waits late => ?_⟩
    · exact next_on (f := doCommissionIdleTimeout) (if_pos (by rw [is_open, decide_eq_true idle]; rfl))
    · exact next_on (doCommissionConfirmTimeout_late waits late)
  · rintro s _ rfl blocked late
    exact next_on (f := doCodeBlockExpiry) (if_pos (by rw [blocked, late]; rfl))
  · rintro s _ rfl valid differs
    exact next_on (f := doParamCrcCheck) (if_pos (by rw [valid, bne_iff_ne.mpr differs]; rfl))

end Sys2Proof.Machine
end


/-! # Safety channels, inputs and test pulses (15 R567 to R580) -/
section
namespace Sys2Proof.Machine
open Sys2Proof

theorem doChannelBStart_running {d : Dev} (v24b : d.pw.v24bOk = true) (stopped : d.sf.chB.started = false)
    (running : d.pw.phase = .running) :
    doChannelBStart d = ((d.vsafeOn.startChannel false).startChannel true).startSet := by
  unfold doChannelBStart
  dsimp only
  rw [if_neg (by rw [v24b]; decide), if_neg (by rw [stopped, running]; decide)]

/-- The off pulse of a source that every input it feeds has seen leaves no miss behind (R574). -/
theorem doTestPulseEnd_seen {d : Dev} {n : Fin 4} {seen : BitVec 16} {fed : List Nat} (off : d.sf.tpOff.getLsbD n.val = true)
    (feeds : (List.range 16).filter (fun i => tpOf d.sf.chB.params i == n.val) = fed)
    (all_seen : ∀ i ∈ fed, seen.getLsbD i = true) : doTestPulseEnd n seen d = d.modSafe (fun s =>
      { s with tpOff := s.tpOff &&& ~~~(BitVec.ofNat 4 (2 ^ n.val)), tpEnd := vset s.tpEnd n d.clk,
               pairs := Vector.ofFn (fun p : Fin 8 => { s.pairs[p] with
                 missNow := s.pairs[p].missNow &&& ~~~(BitVec.ofNat 2 (maskOf
                   ((fed.filter (fun i => i / 2 == p.val)).map (· % 2)))) }) }) := by
  have none_missed : fed.filter (fun i => !seen.getLsbD i) = [] := List.filter_eq_nil_iff.mpr fun i mem => by
    rw [all_seen i mem]
    exact Bool.false_ne_true
  unfold doTestPulseEnd
  dsimp only
  rw [if_neg (by rw [off]; decide), feeds, none_missed, List.foldl_nil]

/-- A pair that has disagreed for longer than DISC_MS is reported once (R575). -/
theorem doInputDiscrepancy_over {d : Dev} {p : Fin 8} {t : Nat} (since : d.sf.pairs[p].discSince = some t)
    (new : d.sf.pairs[p].reported = false) (exceeded : t + 4 * ifDisc d.sf.chA.params p.val < d.sf.chA.cycles) :
    doInputDiscrepancy p d =
      ((d.modSafe (fun s => { s with pairs := vmod s.pairs p (fun x => { x with reported := true, discFault := true }) })).fire
        166 .device).elementFault p.val (!d.sf.pairs[p].discFault) := by
  unfold doInputDiscrepancy
  dsimp only
  rw [since]
  exact if_neg (by rw [new, decide_eq_false (Nat.not_le.mpr exceeded)]; exact Bool.false_ne_true)

section
variable {d : Dev} {ms : Nat}

theorem doSresetAccept_pulse (long : 250 ≤ ms) (short : ms ≤ 3000) (a : d.sf.chA.started = true) (b : d.sf.chB.started = true) :
    doSresetAccept ms d =
      match d.sf.confirm with
      | some w => (d.modSafe (fun s => { s with resetA := true, resetB := true, armed := true, armedClk := d.clk })).confirmed w
      | none => d.modSafe (fun s => { s with resetA := true, resetB := true, armed := true, armedClk := d.clk }) := by
  unfold doSresetAccept
  rw [if_neg (Nat.not_lt.mpr short), if_neg (by rw [a, b, decide_eq_false (Nat.not_lt.mpr long)]; decide)] <;> rfl

theorem doSresetAccept_short (short : ms < 250) : doSresetAccept ms d = d := by
  unfold doSresetAccept
  rw [if_neg (by omega), if_pos (by rw [decide_eq_true short]; rfl)]

theorem doSresetAccept_stuck (long : 3000 < ms) : doSresetAccept ms d = d.modSafe (fun s => { s with sresetStuck := false }) :=
  if_pos long

end

/-- Channel A's hands that were 500 ms apart lapse in both channels (R579). -/
theorem doTwoHandLapse_late {d : Dev} {p : Fin 8} {t : Nat} (hand : d.sf.chA.funcs[p].firstHand = some t)
    (late : t + 2000 < d.sf.chA.cycles) (new : d.sf.chA.funcs[p].lapsed = false) (kind : ifType d.sf.chA.params p.val = 3) :
    doTwoHandLapse p d = (d.modSafe (fun s =>
      { s with chA := { s.chA with funcs := vmod s.chA.funcs p (fun f => { f with lapsed := true }) },
               chB := { s.chB with funcs := vmod s.chB.funcs p (fun f => { f with lapsed := true }) } })).fire 177 .device := by
  unfold doTwoHandLapse
  dsimp only
  exact if_pos (by
    simp only [hand, new, kind, decide_eq_true late]
    rfl)

/-- Settles O42, row by row. -/
theorem safetyInputsComplete : Obligations.SafetyInputsComplete := by
  refine ⟨?_, ?_, ?_, ?_, ?_, ?_, ?_, ?_, ?_, ?_⟩
  · rintro s _ rfl v24b stopped running
    exact next_on (doChannelBStart_running v24b stopped running)
  · rintro s b inp _ rfl started _ _ _ rfl _ rfl rfl rfl _ rfl
    exact next_on (f := doSafetyCheckCycle b inp) (if_neg (by rw [started]; decide))
  · rintro s b n level _ rfl started free
    exact next_on (f := doSafetyInputAccept b n level) (if_neg (by rw [started, free]; decide))
  · rintro s n _ rfl started
    exact next_on (f := doTestPulseStart n) (if_pos started)
  · rintro s n seen fed _ rfl off feeds all_seen
    exact next_on (doTestPulseEnd_seen off feeds all_seen)
  · rintro s p t _ rfl since new exceeded
    exact next_on (doInputDiscrepancy_over since new exceeded)
  · rintro s ms _ rfl
    refine ⟨fun long short a b _ armed => ?_, fun short => ?_, fun long => ?_⟩
    · subst armed
      exact next_on (doSresetAccept_pulse long short a b)
    · exact next_on (doSresetAccept_short short)
    · exact next_on (doSresetAccept_stuck long)
  · rintro s _ rfl new
    exact next_on (f := doSresetStuck) (if_neg (Bool.eq_false_iff.mp new))
  · rintro s _ rfl armed late
    exact next_on (f := doSresetArmExpiry) (if_pos (by rw [armed, late]; rfl))
  · rintro s p t _ rfl hand late new kind
    exact next_on (doTwoHandLapse_late hand late new kind)

end Sys2Proof.Machine
end


/-! # Safe outputs, speed monitors and safety telegrams (15 R581 to R601) -/
section
namespace Sys2Proof.Machine
open Sys2Proof

/-! ## Outputs and monitors -/

theorem doSs1Expiry_due {d : Dev} {b : Bool} {z : Fin 2} {t : Nat} (runs : (d.chan b).zones[z].ss1 = some t)
    (due : t ≤ (d.chan b).cycles) : doSs1Expiry b z d = d.zoneSto b z := by
  unfold doSs1Expiry
  rw [runs]
  exact if_pos due

/-- A monitor's checks start without a trip where both channels measure a speed within its limit (R588). -/
theorem doSlsActDelayEnd_within {d : Dev} {k : Fin 8} (active : d.sf.sls[k].active = true)
    (due : d.sf.sls[k].activeSince + 4 * fld (slsWord d.sf.chA.params k.val 3) 31 16 ≤ d.sf.chA.cycles)
    (a : overLimit d.sf.chA.params k.val d.sf.chA.sls[k].speed = false)
    (b : overLimit d.sf.chB.params k.val d.sf.chB.sls[k].speed = false) :
    doSlsActDelayEnd k d = d.modSafe (fun s => { s with sls := vmod s.sls k (fun x => { x with checking := true }) }) := by
  unfold doSlsActDelayEnd
  dsimp only
  rw [if_pos (by rw [active, decide_eq_true due]; rfl), if_neg (by rw [a, b]; decide)]

/-- Speeds that differ for longer than DISC_MS, both measured, are reported once (R588). -/
theorem doSlsDiscrepancy_differ {d : Dev} {k : Fin 8} (new : d.sf.sls[k].reported = false)
    (exceeded : discOver d.sf.chA.params k.val d.sf.chA.cycles d.sf.sls[k].discSince = true)
    (measured : discOver d.sf.chA.params k.val d.sf.chA.cycles d.sf.sls[k].bothSince = false) :
    doSlsDiscrepancy k d =
      ((d.modSafe (fun s => { s with sls := vmod s.sls k (fun x => { x with reported := true, discFault := true }) })).fire
        178 .device).elementFault (12 + k.val) (!d.sf.sls[k].discFault) := by
  unfold doSlsDiscrepancy
  dsimp only
  rw [measured, exceeded, new, if_pos (by rfl)]
  exact if_neg Bool.false_ne_true

/-- A die whose STO_FB is missing 1 ms after STO loses its VSAFE feed (R589, R591). -/
theorem doStoFbTimeout_missing {d : Dev} {g : Fin 2} (active : d.stoActive g = true) (missing : d.gates[g].fb = false)
    (late : d.past d.gates[g].stoClk clksPerMs = true) : doStoFbTimeout g d =
      ((((d.fire 172 .device).functionFault unitDevice).modSafe (fun s => { s with vsafeOpen := true })).stoEdge 0
        (((d.fire 172 .device).functionFault unitDevice).stoActive 0)).stoEdge 1
          (((d.fire 172 .device).functionFault unitDevice).stoActive 1) :=
  if_pos (by rw [active, missing, late]; rfl)

/-! ## Telegrams -/

section
variable {d : Dev} {i : Fin 64} {bs : List Byte} (used : bitOf (connWord d.safeSet i.val 0) 0 = true)
  (consumes : bitOf (connWord d.safeSet i.val 0) 1 = false) (carried : d.connCarried i = true)
  (on : d.sf.conns[i].state ≠ .off) (a : d.sf.chA.run = true) (b : d.sf.chB.run = true)
include used consumes carried on a b

/-- A consuming connection that is on judges what arrives. -/
theorem telegram_judged : (!bitOf (connWord d.safeSet i.val 0) 0 || bitOf (connWord d.safeSet i.val 0) 1 || !d.connCarried i ||
    d.sf.conns[i].state == .off || !d.sf.chA.run || !d.sf.chB.run) = false := by
  rw [used, consumes, carried, beq_eq_false_iff_ne.mpr on, a, b]
  rfl

theorem doSafetyTelegram_short (short : bs.length < 12 + fld (connWord d.safeSet i.val 0) 9 4) :
    doSafetyTelegram i bs d = d.rejectTelegram i := by
  unfold doSafetyTelegram
  dsimp only
  rw [if_neg (Bool.eq_false_iff.mp (telegram_judged used consumes carried on a b)),
    if_pos (by rw [decide_eq_false (Nat.not_le.mpr short)]; rfl)]

section
variable (whole : 12 + fld (connWord d.safeSet i.val 0) 9 4 ≤ bs.length)
  (slot : (bs.getD 0 0).toNat = (if fld (connWord d.safeSet i.val 0) 3 2 = 0 then fld (connWord d.safeSet i.val 0) 15 10 else i.val))
  (len : (bs.getD 1 0).toNat = fld (connWord d.safeSet i.val 0) 9 4)
  (texp : beNat ((bs.drop 4).take 2) = fld (connWord d.safeSet i.val 2) 15 0)
  (check : beNat ((bs.drop (8 + fld (connWord d.safeSet i.val 0) 9 4)).take 4) =
    (telegramCheck (connWord d.safeSet i.val 1) (bs.take (8 + fld (connWord d.safeSet i.val 0) 9 4))).toNat)
include whole slot len texp check

/-- The first good telegram sets the reference of SEQ (R598). -/
theorem doSafetyTelegram_first (first : d.sf.conns[i].refSet = false) : doSafetyTelegram i bs d = d.modSafe (fun s =>
    { s with conns := vmod s.conns i (fun c =>
      { c with refSet := true, lastSeq := BitVec.ofNat 16 (beNat ((bs.drop 2).take 2)) }) }) := by
  unfold doSafetyTelegram
  dsimp only
  rw [if_neg (Bool.eq_false_iff.mp (telegram_judged used consumes carried on a b)),
    if_neg (by rw [decide_eq_true whole, slot, len, texp, check]; simp), if_pos (by rw [first]; rfl)]

/-- A good telegram with a SEQ at most 1,000 on makes the connection valid (R598). -/
theorem doSafetyTelegram_next (ref : d.sf.conns[i].refSet = true)
    (new : 1 ≤ (BitVec.ofNat 16 (beNat ((bs.drop 2).take 2)) - d.sf.conns[i].lastSeq).toNat)
    (near : (BitVec.ofNat 16 (beNat ((bs.drop 2).take 2)) - d.sf.conns[i].lastSeq).toNat ≤ 1000) :
    doSafetyTelegram i bs d = d.modSafe (fun s => { s with conns := vmod s.conns i (fun c =>
      { c with state := .valid, lastSeq := BitVec.ofNat 16 (beNat ((bs.drop 2).take 2)), age := 0,
               data := (bs.drop 8).take (fld (connWord d.safeSet i.val 0) 9 4) }) }) := by
  unfold doSafetyTelegram
  dsimp only
  rw [if_neg (Bool.eq_false_iff.mp (telegram_judged used consumes carried on a b)),
    if_neg (by rw [decide_eq_true whole, slot, len, texp, check]; simp), if_neg (by rw [ref]; decide),
    if_neg (Nat.one_le_iff_ne_zero.mp new), if_pos near]

end
end

section
variable {d : Dev} {i : Fin 64} (used : bitOf (connWord d.safeSet i.val 0) 0 = true)
  (produces : bitOf (connWord d.safeSet i.val 0) 1 = true) (a : d.sf.chA.run = true) (b : d.sf.chB.run = true)
include used produces a b

/-- A producing connection of running channels sends. -/
theorem telegram_due : (!bitOf (connWord d.safeSet i.val 0) 0 || !bitOf (connWord d.safeSet i.val 0) 1 || !d.sf.chA.run ||
    !d.sf.chB.run) = false := by
  rw [used, produces, a, b]
  rfl

theorem doSafetyTelegramSend_differ :
    doSafetyTelegramSend i false d = (d.fire 170 .device).functionFault unitDevice := by
  unfold doSafetyTelegramSend
  dsimp only
  rw [if_neg (Bool.eq_false_iff.mp (telegram_due used produces a b))]
  rfl

/-- A telegram on CAN goes into the buffer that is reserved for its connection (12 R472). -/
theorem doSafetyTelegramSend_can {k : Fin 2} {buf : Fin 32} (carried : d.connCarried i = true)
    (transport : fld (connWord d.safeSet i.val 0) 3 2 = k.val + 1)
    (reserved : (List.finRange 32).find? (fun b => d.can.ctl[k].bufs[b].safety == some i) = some buf) :
    doSafetyTelegramSend i true d =
      ((d.nextSeq i).bufSend k buf ((d.nextSeq i).telegramTx i k)).canKick k := by
  have controller : (Fin.ofNat 2 (fld (connWord d.safeSet i.val 0) 3 2 - 1) : Fin 2) = k := by
    rw [transport, Nat.add_sub_cancel]
    exact Fin.ofNat_val_eq_self k
  unfold doSafetyTelegramSend
  dsimp only
  rw [if_neg (Bool.eq_false_iff.mp (telegram_due used produces a b)), if_neg (by decide),
    if_neg (by rw [transport, carried]; simp)]
  simp only [controller, reserved]

end

/-- Settles O43, row by row. -/
theorem safetyOutputsComplete : Obligations.SafetyOutputsComplete := by
  refine ⟨?_, ?_, ?_, ?_, ?_, ?_, ?_, ?_, ?_, ?_, ?_, ?_, ?_⟩
  · rintro s b z t _ rfl runs due
    exact next_on (doSs1Expiry_due runs due)
  · rintro s i _ rfl on idle
    exact next_on (f := doOssdTestPulse i) (if_pos (by rw [on, idle]; rfl))
  · rintro s i off _ rfl pulsing _ rfl
    exact next_on (f := doOssdPulseEnd i off) (if_neg (by rw [pulsing]; decide))
  · rintro s i off _ rfl due late _ rfl
    exact next_on (f := doOssdOffCheck i off) (if_neg (by rw [due, late]; decide))
  · rintro s k _ rfl active due a b
    exact next_on (doSlsActDelayEnd_within active due a b)
  · rintro s k _ rfl _ rfl new exceeded measured
    exact next_on (doSlsDiscrepancy_differ new exceeded measured)
  · rintro s u _ rfl _ _ rfl rfl degraded new due
    exact next_on (f := doDegradedEnd u) (if_neg (by
      rw [degraded, new, decide_eq_false (Nat.not_lt.mpr due)]
      exact Bool.false_ne_true))
  · rintro s g _ rfl _ rfl active missing late
    exact next_on (doStoFbTimeout_missing active missing late)
  · rintro s i bs _ rfl used consumes carried on a b short
    exact next_on (doSafetyTelegram_short used consumes carried on a b short)
  · rintro s i bs _ _ _ rfl _ rfl rfl rfl used consumes carried on a b whole slot len texp check
    refine ⟨fun first => ?_, fun ref new near => ?_⟩
    · exact next_on (doSafetyTelegram_first used consumes carried on a b whole slot len texp check first)
    · exact next_on (doSafetyTelegram_next used consumes carried on a b whole slot len texp check ref new near)
  · rintro s i _ rfl used produces a b
    refine ⟨?_, fun k buf carried transport _ reserved => ?_⟩
    · exact next_on (doSafetyTelegramSend_differ used produces a b)
    · exact next_on (doSafetyTelegramSend_can used produces a b carried transport reserved)
  · rintro s i _ rfl valid consumes old
    exact next_on (f := doConnTimeout i) (if_pos (by rw [valid, consumes, decide_eq_true old]; rfl))
  · rintro s b _ rfl started
    exact next_on (f := doSafetyChannelFault b) (if_pos started)

end Sys2Proof.Machine
end


/-! # The state after reset -/
section
namespace Sys2Proof.Machine
open Sys2Proof

/-- After reset every axis has the bridge of the reset (08 R294). -/
theorem Dev.reset_pwm (a : AxisNo) : Dev.reset.pwm[a] = AxisPwm.reset := Vector.getElem_replicate a.isLt

/-- After reset every plot record is 0 (04 R123). -/
theorem Dev.reset_plots (a : AxisNo) : Dev.reset.plots[a] = Vector.replicate 14 0 := Vector.getElem_replicate a.isLt

/-- After reset both CAN controllers are off (12 R479). -/
theorem Dev.reset_can (k : Fin 2) : Dev.reset.can.ctl[k].state = .off :=
  congrArg CanCtl.state (Vector.getElem_replicate k.isLt)

/-- Settles O60, field by field. -/
theorem resetMeetsTheInvariant : Obligations.ResetMeetsTheInvariant :=
  ⟨rfl, rfl, rfl, rfl, rfl, rfl, fun a => ⟨congrArg AxisPwm.bridgeOn (Dev.reset_pwm a), Dev.reset_plots a⟩, Dev.reset_can⟩

end Sys2Proof.Machine
end
